-- ==== Sys2Proof/Word.lean ====
section
/-! DEFINITION. The word types of the model: bytes, half words, words and the wider values the manual's
registers and counters hold, and the numbering of the logical cores. -/

namespace Sys2Proof

/-- A byte of memory or of a message. -/
abbrev Byte := BitVec 8

/-- A 16-bit value: a status code (R8) or a half word of a record. -/
abbrev Half := BitVec 16

/-- A 32-bit register, scalar or lane. -/
abbrev Word := BitVec 32

/-- A logical core number, C000 to C143 (R39). -/
abbrev CoreId := Fin 144

end Sys2Proof
end

