-- ==== Sys2Proof/Syntax.lean ====
section
/-! DEFINITION. The commands of the XD-7260 block: one constructor of `Instr` for each row of the opcode table,
with the row's operands. The operand types follow the encoding tables of the manual. -/

namespace Sys2Proof

/-- The guard of a bundle (R224): predicate GP and GINV. -/
structure Guard where
  gp : BitVec 3
  inv : Bool
deriving DecidableEq, Repr

/-- Where an instruction issues: the core whose frame program holds it, the frame-store index of its bundle (R221)
and the bundle's guard, if GMASK names the instruction's slot (R224). -/
structure Site where
  core : CoreId
  bundle : BitVec 13
  guard : Option Guard
deriving DecidableEq, Repr

/-- The engines whose instructions have a contract completion of their own (R257, R258). -/
inductive EngUnit
  | teLoad | teArray | tePrint | ve0 | ve1 | xe | ue | me
deriving DecidableEq, Repr

/-- One cycle in which several masters present a write to one scratchpad line (R53): the line's address, the codes of the other
masters (R49), the number of another DMA channel that writes it in the same direction, and the bytes of the line that the access of
that cycle carries, from one place in the line and so many. -/
structure Collision where
  line : BitVec 23
  masters : List (BitVec 4)
  channel : Option (BitVec 2)
  first : BitVec 6
  count : BitVec 7
deriving DecidableEq, Repr

/-- What the command of a completion tells of an instruction or descriptor: the same-cycle writes it met (R53), the lines it read
whose CRC missed (R367), and whether an HBM read could not be corrected (R375). -/
structure Fate where
  collisions : List Collision
  misses : List (BitVec 23)
  hbmBad : Bool
deriving DecidableEq, Repr, Inhabited

/-- The blocks that hold CMT registers and a COMMIT register (R60). -/
inductive Block
  | core (c : CoreId) | shutter | link | cpm
deriving DecidableEq, Repr

/-- The count operand of WAITX: a scalar register or an immediate (R228, form WX). -/
inductive WaitCount
  | reg (rs : BitVec 5) | imm (n : Half)
deriving DecidableEq, Repr

/-- SQ form R3 (R228). -/
structure SqR3 where
  rd : BitVec 5
  rs : BitVec 5
  rt : BitVec 5
deriving DecidableEq, Repr

/-- SQ form I13 (R228). -/
structure SqI13 where
  rd : BitVec 5
  rs : BitVec 5
  imm : BitVec 13
deriving DecidableEq, Repr

/-- SQ form OC (R228), its register apart: a word of a line of an operand cache. -/
structure SqOc where
  ve : Bool
  line : BitVec 11
  word : BitVec 4
deriving DecidableEq, Repr

/-- TLOAD's fields (R259). -/
structure TLoadOp where
  lay : BitVec 4
  wfmt : BitVec 4
  qm1 : BitVec 4
  slot : BitVec 6
  echk : Bool
  er : BitVec 5
  ar : BitVec 5
  abase : BitVec 15
deriving DecidableEq, Repr

/-- The fields TMUL and TMULR share (R260). -/
structure TMulOp where
  cfg : BitVec 2
  wfmt : BitVec 4
  afmt : BitVec 4
  nm1 : BitVec 11
  chl : BitVec 2
  acc : Bool
  chain : Bool
  t0 : BitVec 4
  ar : BitVec 5
  xbase : BitVec 15
deriving DecidableEq, Repr

/-- TPRINT's fields (R262). -/
structure TPrintOp where
  tile : BitVec 4
  pd : BitVec 6
  rsen : Bool
  rs : BitVec 3
  ar : BitVec 5
  dbase : BitVec 15
deriving DecidableEq, Repr

/-- VE form VA (R263): `ve` false is VE0, true VE1. -/
structure VaOp where
  ve : Bool
  msk : BitVec 3
  mz : Bool
  sty : BitVec 2
  vd : BitVec 9
  va : BitVec 9
  vb : BitVec 9
deriving DecidableEq, Repr

/-- VCMP (R265): form VA with the condition and the mask in VD. -/
structure VcmpOp where
  ve : Bool
  msk : BitVec 3
  mz : Bool
  sty : BitVec 2
  cond : BitVec 3
  md : BitVec 3
  va : BitVec 9
  vb : BitVec 9
deriving DecidableEq, Repr

/-- VMLOG (R265). -/
structure VmlogOp where
  ve : Bool
  fn : BitVec 2
  md : BitVec 3
  ma : BitVec 3
  mb : BitVec 3
deriving DecidableEq, Repr

/-- VE form VR (R263). -/
structure VrOp where
  ve : Bool
  msk : BitVec 3
  mz : Bool
  sty : BitVec 2
  rop : BitVec 3
  nm1 : BitVec 6
  vd : BitVec 9
  va : BitVec 9
deriving DecidableEq, Repr

/-- VE forms VW and VN (R263): a narrow format, a vector and a line. -/
structure VcvOp where
  ve : Bool
  msk : BitVec 3
  mz : Bool
  fmt : BitVec 4
  vec : BitVec 9
  line : BitVec 11
deriving DecidableEq, Repr

/-- VE form VX (R263, R269). -/
structure VaccOp where
  ve : Bool
  msk : BitVec 3
  mz : Bool
  vd : BitVec 9
  tile : BitVec 4
  row : BitVec 7
  h : Bool
  rr : BitVec 5
deriving DecidableEq, Repr

/-- VE form VB (R263, R270). -/
structure VbOp where
  ve : Bool
  bank : BitVec 3
  ar : BitVec 5
  lnm1 : BitVec 8
  vl : BitVec 11
  ofs : BitVec 7
deriving DecidableEq, Repr

/-- VE form VV (R263, R270). -/
structure VvOp where
  ve : Bool
  msk : BitVec 3
  mz : Bool
  esz : BitVec 2
  bank : BitVec 3
  ar : BitVec 5
  vl : BitVec 11
  ofs : BitVec 9
deriving DecidableEq, Repr

/-- XRUN's fields (R271). -/
structure XrunOp where
  desc : BitVec 5
  rsrc : BitVec 5
  rdst : BitVec 5
  ridx : BitVec 5
deriving DecidableEq, Repr

/-- The fields of MDODGE, MBURN and MREFRESH (R273). -/
structure MEditOp where
  d : BitVec 5
  kr : Bool
  rk : BitVec 5
  kimm : Half
deriving DecidableEq, Repr

/-- MSCORE's fields (R273). -/
structure MScoreOp where
  d : BitVec 5
  src : Bool
  gf : Bool
  acc : Bool
  bank : BitVec 3
  ra : BitVec 5
  ofs : BitVec 9
deriving DecidableEq, Repr

/-- MSLOAD's and MSSTORE's fields (R273). -/
structure MSheetOp where
  d : BitVec 5
  bank : BitVec 3
  ra : BitVec 5
  ofs : BitVec 13
deriving DecidableEq, Repr

/-- PPRED's fields (R273). -/
structure PPredOp where
  j : BitVec 4
  rs : BitVec 3
  bank : BitVec 3
  rp : BitVec 5
  rq : BitVec 5
  nmx : BitVec 5
deriving DecidableEq, Repr

/-! ## Operands of the link, host, security and management rows -/

/-- The time-stamped body of a TICK flit (R317). -/
structure TickBlock where
  fn : BitVec 48
  flags : Half
  stamp : Word
  period : Word
  repoch : Word
  next : Word
deriving DecidableEq, Repr

/-- What training of a port found (R299): the widest width code its lanes reach, lane reversal, and inverted lanes. -/
structure Training where
  width : BitVec 2
  reversed : Bool
  inverted : BitVec 4
deriving DecidableEq, Repr

/-- What a KEY flit carries (R306, R309). -/
inductive KeyNotice
  /-- the handshake: the peer's ephemeral public key, its member identifier, the digest of its attestation certificate, the signature over
  these, and the device identity key that its certificate holds -/
  | handshake (eph : List Byte) (member : Word) (cert sig dik : List Byte)
  /-- the group at which the sender's next key generation takes over -/
  | rekey (group : BitVec 64)
deriving DecidableEq, Repr

/-- A start record (R326). -/
structure StartRecord where
  coll : Half
  core : Half
  fn : BitVec 48
  layer : Word
  srcOvr : BitVec 64
  dstOvr : BitVec 64
deriving DecidableEq, Repr

/-- The header of a mailbox command (R345): the path it came by (the SOURCE code of R427), its fields, the first 24
bytes of ARG, whether a reserved byte is not zero, whether the flash log region fails a write of the command's audit entry (R428), and
whether a read of the HBM that KV_READ or PUBLISH makes is uncorrectable (R375). -/
structure MboxHdr where
  src : Byte
  notify : Bool
  seq : Word
  session : Word
  plen : Word
  unit : Word
  gen : Word
  malformed : Bool
  arg : List Byte
  logFails : Bool
  hbmBad : Bool
deriving DecidableEq, Repr

/-- Where LOAD finds the image (R346); behind BAR2, whether its read is uncorrectable (R375). -/
inductive ImageSource
  | bar2 (offset : BitVec 36) (length : Nat) (hbmBad : Bool)
  | host (bytes : List Byte)
  | nvme (qp : Nat) (bytes : List Byte)
deriving DecidableEq, Repr

/-- The row form of an ingest stream (R350). -/
inductive RowForm
  | raw | tok16 (pad : Half) | tok32 (pad : Word) | feat
deriving DecidableEq, Repr

/-- INGEST_OPEN's arguments (R350, R351, R422). -/
structure IngestArgs where
  stream : Word
  fromNvme : Bool
  nbLog2 : Nat
  form : RowForm
  rowBytes : Nat
  batch : Nat
  slots : Nat
  base : Nat
  doorbell : BitVec 4
  queue : BitVec 4
  tenant : Option (BitVec 4)
deriving DecidableEq, Repr

/-- An NVMe I/O queue pair as NVME_ATTACH describes it (R353, R354). -/
structure NvmeArgs where
  qp : Half
  entries : Nat
  prp : Bool
  lba : Nat
  metadata : Bool
  mdts : Nat
  direct : Bool
  base : Nat
  bytes : Nat
deriving DecidableEq, Repr

/-- A KV region as SERVE_OPEN sets it up (R360). -/
structure KvArgs where
  region : Byte
  base : BitVec 39
  esize : Half
  cap : Word
  vmask : BitVec 64
deriving DecidableEq, Repr

/-- SERVE_OPEN's arguments: the host rings, the serving doorbell and queue, and per user stream its region and tenant. -/
structure ServeArgs where
  request : BitVec 64
  response : BitVec 64
  depth : Nat
  doorbell : BitVec 4
  queue : BitVec 4
  regions : List KvArgs
  tenants : List (Option (BitVec 4))
deriving DecidableEq, Repr

/-- Where a checkpoint body, a manifest or a published copy goes or comes from (R356, R358). -/
inductive Target
  | nvme (qp : Half) (lba : BitVec 64)
  | host (addr : BitVec 64)
deriving DecidableEq, Repr

/-- The image's read is uncorrectable. -/
def ImageSource.unreadable : ImageSource → Bool
  | .bar2 _ _ bad => bad
  | _ => false

/-- The manifest and the body chunks that RESTORE reads from its location, as the storage answers, and whether a read of the HBM that
its checks make is uncorrectable (R375, R386). -/
structure RestoreArgs where
  manifest : List Byte
  chunks : List (List Byte)
  cursor : BitVec 64
  hbmBad : Bool
deriving DecidableEq, Repr

/-- An entry of MEMBER_KEYS (R426). -/
structure MemberKey where
  member : Word
  remove : Bool
  digest : List Byte
deriving DecidableEq, Repr

/-- A segment of the in-service test (R398): its tail unit code and its number within the unit. -/
structure Segment where
  unit : BitVec 4
  index : Nat
deriving DecidableEq, Repr

/-- What a slice found (R400, R402): a failing signature, the lines that miss in step 1 and those that fail the March
test. -/
structure SliceResult where
  logicFail : Bool
  misses : List (BitVec 23)
  march : List (BitVec 23)
deriving DecidableEq, Repr

/-- The result of a test of the catalogue on a unit (R394, R404). -/
structure TestResult where
  passed : Bool
  coverage : BitVec 14
  micros : Word
deriving DecidableEq, Repr

/-- What the shutdown test found (R394, R396): coverage and duration in ms of its logic, memory and analogue tests, the physical cores,
link lanes, PCIe lanes and PLLs that failed, and how many sensors and references were out of limit. -/
structure ShutdownFound where
  tests : List (BitVec 14 × Word)
  cores : List Nat
  lanes : BitVec 64
  pcie : BitVec 16
  plls : BitVec 6
  sensors : Nat
deriving DecidableEq, Repr

/-- The end of a test (R396, R404): the result of one of the catalogue and, in shutdown stage 2, what the shutdown test found. -/
structure TestEnd where
  result : TestResult
  found : ShutdownFound
deriving DecidableEq, Repr

/-- A unit to be tested, by a write of HTU_TREQ or, over PLDM, under a session and with the generation it expects (R404). -/
structure TestAsk where
  via : Option (Word × Word)
  unit : Half
deriving DecidableEq, Repr

/-- The straps (R447). -/
structure Straps where
  boot : BitVec 2
  pclass : BitVec 2
  tickRole : Bool
  mgmtAddr : BitVec 4
  dbgen : Bool
deriving DecidableEq, Repr

/-- What start-up tests and boot found (R394–R397, R414): which firmware slots verify and their components' digests, the
UTC time, the units that failed, the canary sweeps (each the margins of all canaries) and the AK's key identifier. -/
structure StartFindings where
  slotOk : List Bool
  digests : List (List Byte)
  akKeyId : Word
  failed : List Nat
  sweeps : List (List Int)
deriving DecidableEq, Repr

/-- A firmware bundle of a PLDM update (R415): its components, whether a fused key's signature verifies over it, and its
security version. -/
structure FirmwareBundle where
  image : List Byte
  signed : Bool
  version : Nat
deriving DecidableEq, Repr

/-- A flit as it is received (R301, R302): its 256 bytes, and its number among all flits that the port has received since its
training. -/
structure RxFlit where
  bytes : List Byte
  place : Nat
deriving DecidableEq, Repr

/-- An FEC codeword (R302): its number among all that the port has received since its training, and how many symbols were corrected
where it could be. -/
structure Codeword where
  number : Nat
  corrected : Option (Fin 9)
deriving DecidableEq, Repr

/-- A register of the host's: an address in the BAR0 of PF0 or of PF1 (R340). -/
structure RegAddr where
  pf1 : Bool
  addr : BitVec 28
deriving DecidableEq, Repr

/-- A part of a transfer of the host DMA engine that meets a scratchpad (R59): the core, the address, and the bytes it brings, or how
many it fetches. -/
structure HostMove where
  core : CoreId
  addr : BitVec 22
  bytes : List Byte ⊕ Nat
deriving DecidableEq, Repr

/-- The end of a transfer of the host DMA engine (R347): whether the cores are told, and its parts that meet a scratchpad. -/
structure HostDone where
  notify : Bool
  moves : List HostMove
deriving DecidableEq, Repr

/-- One bucket that leaks (R376): a memory of a core, or a chip-level bucket. -/
inductive Bucket
  | core (c : CoreId) (m : Nat) | chip (m : Nat)
deriving DecidableEq, Repr

/-- The commands of the block: one constructor for each row of the opcode table, in its order. -/
inductive Instr
  -- shutter, guard band and tick (R11–R36, R60, R155, R200, R320, R323, R442)
  | shutterTick
  | guardBand (late : Option CoreId)
  | commitApply (b : Block)
  | powerClassChange
  | globalStepAdvance (c : CoreId)
  | predictorEnabledSet (c : CoreId) (j : BitVec 4)
  | derateAtTick
  | jobStart
  | linkPlanCheck
  | rosterEpochSwitch
  | tickFlit (port : BitVec 4) (block : TickBlock) (arriveNs : Int) (intervalNs : Nat)
  | upstreamTickFlit (port : BitVec 4) (block : TickBlock)
  | tickInEdge (offsetNs : Int) (intervalNs : Nat)
  | lockTimeout
  | tickSyncLost
  | echoMeasurement (port : BitVec 4)
  | echo (port : BitVec 4) (reply : Bool) (id : Half) (residenceNs : Half) (roundTripNs : Word)
  | shtCommitGo (immediate : Bool)
  | shtCommitCancel
  | shtKeyWrite (session : Word)
  | shtFnLoRead
  | coreCommitGo (c : CoreId) (immediate : Bool)
  | coreCommitCancel (c : CoreId)
  | lnkCommitGo (immediate : Bool)
  | lnkCommitCancel
  | lnkKeyWrite (session : Word)
  | cpmCommitGo (immediate : Bool)
  | cpmCommitCancel
  | cpmKeyWrite (session : Word)
  | hifDbkeyWrite (session : Word)
  | hifDoorbellWrite (bits : Half)
  | htuTkeyWrite (session : Word)
  | satcntClr (c : CoreId)
  | registerWrite (addr : RegAddr) (value : Word)
  -- sequencer (R228)
  | end_ (at_ : Site)
  | loopi (at_ : Site) (lc : BitVec 2) (lenm1 : BitVec 9) (count : BitVec 12)
  | loopr (at_ : Site) (lc : BitVec 2) (lenm1 : BitVec 9) (rs rm : BitVec 5)
  | waitx (at_ : Site) (ec : BitVec 4) (n : WaitCount)
  | waitxRelease (c : CoreId)
  | commit (at_ : Site)
  | sqStop (at_ : Site) (code : Half)
  | signal (at_ : Site) (q : BitVec 4) (rs : BitVec 5)
  | scarry (at_ : Site) (n : BitVec 3) (rs : BitVec 5)
  | dovr (at_ : Site) (ch : BitVec 2) (sel : Bool) (rs : BitVec 5)
  | sld (at_ : Site) (rd : BitVec 5) (o : SqOc) (miss : Bool)
  | sst (at_ : Site) (rs : BitVec 5) (o : SqOc)
  | movlc (at_ : Site) (rd : BitVec 5) (lc : BitVec 2)
  | movfn (at_ : Site) (rd : BitVec 5) (hi : Bool)
  | add (at_ : Site) (o : SqR3)
  | sub (at_ : Site) (o : SqR3)
  | mul (at_ : Site) (o : SqR3)
  | and (at_ : Site) (o : SqR3)
  | or (at_ : Site) (o : SqR3)
  | xor (at_ : Site) (o : SqR3)
  | shl (at_ : Site) (o : SqR3)
  | shr (at_ : Site) (o : SqR3)
  | sra (at_ : Site) (o : SqR3)
  | min (at_ : Site) (o : SqR3)
  | max (at_ : Site) (o : SqR3)
  | minu (at_ : Site) (o : SqR3)
  | maxu (at_ : Site) (o : SqR3)
  | addi (at_ : Site) (o : SqI13)
  | andi (at_ : Site) (o : SqI13)
  | ori (at_ : Site) (o : SqI13)
  | xori (at_ : Site) (o : SqI13)
  | shli (at_ : Site) (o : SqI13)
  | shri (at_ : Site) (o : SqI13)
  | srai (at_ : Site) (o : SqI13)
  | lil (at_ : Site) (rd : BitVec 5) (imm : Half)
  | lih (at_ : Site) (rd : BitVec 5) (imm : Half)
  | pcmp (at_ : Site) (pd cond : BitVec 3) (rs rt : BitVec 5)
  | pcmpi (at_ : Site) (pd cond : BitVec 3) (rs : BitVec 5) (imm : BitVec 12)
  | plog (at_ : Site) (pd pa pb : BitVec 3) (fn : BitVec 2)
  -- DMA slot and completions (R244, R249, R251, R257)
  | dmaStart (at_ : Site) (ch : BitVec 2) (d : BitVec 12) (descMiss : Bool)
  | dmaStartOvr (at_ : Site) (ch : BitVec 2) (d : BitVec 12) (descMiss : Bool)
  | dmaComplete (c : CoreId) (ch : BitVec 2) (fate : Fate)
  | crcIfetchTrap (c : CoreId) (bundle : BitVec 13)
  | instructionComplete (c : CoreId) (u : EngUnit) (fate : Fate)
  -- tensor engine (R258–R262)
  | tload (at_ : Site) (o : TLoadOp)
  | tmul (at_ : Site) (o : TMulOp) (qm1 : BitVec 4)
  | tmulr (at_ : Site) (o : TMulOp) (kmode : Bool) (rs : BitVec 3)
  | tprint (at_ : Site) (o : TPrintOp)
  -- vector engines (R263–R270)
  | vadd (at_ : Site) (o : VaOp)
  | vsub (at_ : Site) (o : VaOp)
  | vmul (at_ : Site) (o : VaOp)
  | vfma (at_ : Site) (o : VaOp)
  | vmin (at_ : Site) (o : VaOp)
  | vmax (at_ : Site) (o : VaOp)
  | vabs (at_ : Site) (o : VaOp)
  | vneg (at_ : Site) (o : VaOp)
  | vmov (at_ : Site) (o : VaOp)
  | vrcp (at_ : Site) (o : VaOp)
  | vrsq (at_ : Site) (o : VaOp)
  | vexp2 (at_ : Site) (o : VaOp)
  | vlog2 (at_ : Site) (o : VaOp)
  | vdiv (at_ : Site) (o : VaOp)
  | vsqrt (at_ : Site) (o : VaOp)
  | vshl (at_ : Site) (o : VaOp)
  | vshr (at_ : Site) (o : VaOp)
  | vsra (at_ : Site) (o : VaOp)
  | vand (at_ : Site) (o : VaOp)
  | vor (at_ : Site) (o : VaOp)
  | vxor (at_ : Site) (o : VaOp)
  | vnot (at_ : Site) (o : VaOp)
  | vpopc (at_ : Site) (o : VaOp)
  | vcmp (at_ : Site) (o : VcmpOp)
  | vmlog (at_ : Site) (o : VmlogOp)
  | vmlane (at_ : Site) (ve : Bool) (lo hi : BitVec 6) (md : BitVec 3)
  | vmsr (at_ : Site) (ve : Bool) (rs : BitVec 5) (h : Bool) (md : BitVec 3)
  | vspl (at_ : Site) (ve : Bool) (msk : BitVec 3) (mz : Bool) (rs : BitVec 5) (vd : BitVec 9)
  | vscl (at_ : Site) (ve ssrc cap : Bool) (sidx qexp : Byte)
  | vcvtw (at_ : Site) (o : VcvOp)
  | vcvtn (at_ : Site) (o : VcvOp)
  | vcvti (at_ : Site) (o : VaOp)
  | vcvtf (at_ : Site) (o : VaOp)
  | vacc (at_ : Site) (o : VaccOp)
  | vred (at_ : Site) (o : VrOp)
  | vrax (at_ : Site) (o : VrOp)
  | vld (at_ : Site) (o : VbOp)
  | vst (at_ : Site) (o : VbOp)
  | vldv (at_ : Site) (o : VvOp)
  | vstv (at_ : Site) (o : VvOp)
  -- transform engine (R271)
  | xeCopy (at_ : Site) (o : XrunOp)
  | xeTranspose (at_ : Site) (o : XrunOp)
  | xeGather (at_ : Site) (o : XrunOp)
  | xeScatter (at_ : Site) (o : XrunOp)
  | xeScatterAdd (at_ : Site) (o : XrunOp)
  -- update engine (R272)
  | uupd (at_ : Site) (d : BitVec 4) (pass : BitVec 3)
  | urow (at_ : Site) (d : BitVec 4) (rj : BitVec 5) (nrows : BitVec 12)
  | ugfac (at_ : Site) (f : BitVec 4) (bank : BitVec 3) (ra : BitVec 5) (ofs : BitVec 12)
  | ufilt (at_ : Site) (d : BitVec 4) (bank : BitVec 3) (ra rb rn nmx : BitVec 5)
  | uflist (at_ : Site) (d : BitVec 4) (bank : BitVec 3) (ra : BitVec 5)
  | uadv (at_ : Site)
  -- mask engine (R273)
  | mdodge (at_ : Site) (o : MEditOp)
  | mburn (at_ : Site) (o : MEditOp)
  | mrefresh (at_ : Site) (o : MEditOp)
  | mscore (at_ : Site) (o : MScoreOp)
  | msload (at_ : Site) (o : MSheetOp)
  | msstore (at_ : Site) (o : MSheetOp)
  | mremap (at_ : Site) (d : BitVec 5) (slot : BitVec 6)
  | ppred (at_ : Site) (o : PPredOp)
  | pctl (at_ : Site) (j : BitVec 4) (en : Bool)
  -- link layer (R299–R309)
  | dataFlit (port : BitVec 4) (f : RxFlit)
  | ack (port : BitVec 4) (aseq : Half)
  | nak (port : BitVec 4) (eseq : Half)
  | ackTimer (port : BitVec 4)
  | tagFlit (port : BitVec 4) (f : RxFlit)
  | keyFlit (port : BitVec 4) (k : KeyNotice)
  | linkTraining (port : BitVec 4) (t : Training)
  | handshakeTimeout (port : BitVec 4)
  | keyGeneration (port : BitVec 4)
  -- messages and collectives (R310–R335)
  | send (port : BitVec 4) (msg : List Byte)
  | startRecord (r : StartRecord) (hbmBad : Bool)
  | cdata (port : BitVec 4) (msg : List Byte)
  | collectiveComplete
  | greq (port : BitVec 4) (msg : List Byte) (hbmBad : Bool)
  | gdata (port : BitVec 4) (msg : List Byte)
  -- roster agents (R318–R321, R359)
  | announce (src : Word) (rec : List Byte)
  | staged (src : Word)
  | refused (src : Word) (code : Half)
  | cancel (src : Word)
  | rosterStart (src : Word) (fn : BitVec 48)
  | freeze (src : Word) (step : BitVec 40) (t : Target)
  | fix (src : Word) (step : BitVec 40)
  | stagedDeadline
  -- mailbox commands and services (R345–R362)
  | load (h : MboxHdr) (img : ImageSource)
  | loadFinished
  | start (h : MboxHdr) (fn : BitVec 48)
  | stop (h : MboxHdr)
  | restore (h : MboxHdr) (r : RestoreArgs)
  | checkpoint (h : MboxHdr) (t : Target)
  | checkpointInterval (t : Target)
  | checkpointChunk (hbmBad : Bool)
  | checkpointSeal
  | setInterval (h : MboxHdr) (seconds : Word)
  | ingestOpen (h : MboxHdr) (a : IngestArgs)
  | ingestClose (h : MboxHdr) (stream : Word)
  | ingestRecord (stream source : Word) (arrival : BitVec 64) (bytes : List Byte) (tag : List Byte)
  | batchReady (stream : Word)
  | ingestStall (stream : Word)
  | nvmeAttach (h : MboxHdr) (a : NvmeArgs)
  | nvmeDetach (h : MboxHdr) (qp : Half)
  | nvmeCompletion (qp cid : Half) (status : BitVec 15)
  | nvmeTimeout (qp cid : Half)
  | hostDmaComplete (d : HostDone)
  | notifyRing (h : MboxHdr) (q : BitVec 4) (base : BitVec 64) (entries : Nat)
  | serveOpen (h : MboxHdr) (a : ServeArgs)
  | serveClose (h : MboxHdr)
  | serveRequest (stream : Nat) (tokens : List Word)
  | kvRead (h : MboxHdr) (region : Byte) (first count : Word)
  | publish (h : MboxHdr) (t : Target)
  | rosterChange (h : MboxHdr) (rec : List Byte)
  | healthRead (h : MboxHdr)
  -- security commands (R418–R429, R432)
  | sessionChallenge (h : MboxHdr)
  | sessionOpen (h : MboxHdr) (role : Byte) (keyId : Word) (sig : List Byte)
  | sessionClose (h : MboxHdr)
  | sessionIdleTimeout (handle : Word)
  | roleLockExpiry (role : Byte)
  | jobKey (h : MboxHdr) (blob : List Byte)
  | jobKeyClear (h : MboxHdr)
  | credSet (h : MboxHdr) (role : Byte) (key : List Byte)
  | memberKeys (h : MboxHdr) (entries : List MemberKey)
  | signerSet (h : MboxHdr) (index : BitVec 4) (key : List Byte)
  | lifecycle (h : MboxHdr) (target : BitVec 3)
  | auditRead (h : MboxHdr) (first : BitVec 64) (count : Nat) (nonce : List Byte)
  | unitFence (h : MboxHdr)
  | unitUnfence (h : MboxHdr)
  | bar2Access (offset : BitVec 36) (write : Option (List Byte)) (len : Nat) (hbmBad : Bool)
  | contactSheetRingWrite (c : CoreId)
  -- integrity (R368–R379)
  | patrolRead (c : CoreId) (mem : Nat) (upset : Bool)
  | refetchComplete (c : CoreId) (line : BitVec 23) (hbmBad : Bool)
  | missEntryExpiry (c : CoreId) (line : BitVec 23)
  | bucketLeak (b : Bucket)
  -- self-test and ageing (R394–R408)
  | inServiceSlice (c : CoreId) (seg : Segment) (r : SliceResult)
  | sliceEnd (c : CoreId)
  | coverageExpired
  | canaryMeasurement (sweeps : List (List Int))
  | testRequestInService (ask : TestAsk) (test : BitVec 2)
  | testRequestFull (ask : TestAsk) (test : BitVec 2)
  | fullTestStart
  | testDone (e : TestEnd)
  -- start-up, resets, power (R437–R453)
  | coldStart (straps : Straps)
  | startupReady (f : StartFindings)
  | moduleReset (straps : Straps)
  | rstNRelease (straps : Straps)
  | perstN
  | flrPf0
  | flrPf1
  | inputLow
  | inputRecovered
  | inputPowerFail
  | inputOvervoltage
  | dieOverTemperature (sensor : BitVec 6) (celsius : Nat)
  | dieTempStep
  | coolantInletHigh (celsius : Nat)
  | thermalForceLift
  | thermalTrip
  | refclkLost
  | refclkTimeout
  | refclkReturn
  | modulePowerOff (session : Word)
  | shutdownStageLimit
  | modulePowerOn
  | moduleResetRequest (session : Word) (straps : Straps)
  | firmwareUpdate (session : Word) (b : FirmwareBundle)
  | setDateTime (utc : BitVec 64)
  | pldmSensorRead (sensor : Half)
  | pldmFruRead
  | entdaa (addr : BitVec 7)
  -- SPDM (R417)
  | getVersion
  | getCapabilities
  | negotiateAlgorithms (base hash : Word)
  | getDigests
  | getCertificate (slot : Byte) (offset length : Half)
  | challenge (slot : Byte) (nonce : List Byte)
  | getMeasurements (index : Byte) (signed : Bool) (nonce : List Byte)
  -- Loupe (R457, R458)
  | help
  | id
  | status
  | sensors
  | health (unit : Byte)
  | log (n : Nat)
  | authChal
  | authOpen (keyId : Word) (sig : List Byte)
  | peek (addr : BitVec 28) (n : Nat)
  | poke (addr : BitVec 28) (value : Word)
  | baud (rate : Nat)
  | logout
  | loupeIdleTimeout
  -- pins and corrected events (R302, R374, R376, R379, R407, R448)
  | perstNDeassertion
  | onDieErrorCheckAndScrub (stack : BitVec 3)
  | fecCodeword (port : BitVec 4) (word : Codeword)
  | pcieReplay
  | remapRecordWrite (c : CoreId)
  | ageingRecordWrite
deriving DecidableEq, Repr

end Sys2Proof
end

