-- ==== Sys2Proof/Machine/Bits.lean ====
section
/-! DEFINITION. Bit fields, little-endian byte strings and the other small conversions that the manual's tables of
fields use ("Notation and units"). -/

namespace Sys2Proof.Machine

/-- Field [hi:lo] of a number. -/
def fieldOf (x hi lo : Nat) : Nat := (x >>> lo) % 2 ^ (hi + 1 - lo)

/-- Field [hi:lo] of a word. -/
def fld (w : Word) (hi lo : Nat) : Nat := fieldOf w.toNat hi lo

/-- Bit `i` of a word. -/
def bitAt (w : Word) (i : Nat) : Bool := w.getLsbD i

/-- The word with field [hi:lo] replaced by the low bits of `v`. -/
def setFld (w : Word) (hi lo v : Nat) : Word :=
  let mask := (2 ^ (hi + 1 - lo) - 1) <<< lo
  (w &&& ~~~ BitVec.ofNat 32 mask) ||| BitVec.ofNat 32 ((v % 2 ^ (hi + 1 - lo)) <<< lo)

/-- The mask with bits [hi:lo] set. -/
def maskOf (hi lo : Nat) : Nat := (2 ^ (hi + 1 - lo) - 1) <<< lo

/-- The number a little-endian byte string holds. -/
def leNat : List Byte → Nat
  | [] => 0
  | b :: t => b.toNat + 256 * leNat t

/-- The `n` little-endian bytes of a number. -/
def leBytes : Nat → Nat → List Byte
  | 0, _ => []
  | n + 1, x => BitVec.ofNat 8 x :: leBytes n (x / 256)

/-- The number a big-endian byte string holds. -/
def beNat (l : List Byte) : Nat := leNat l.reverse

/-- The `n` big-endian bytes of a number. -/
def beBytes (n x : Nat) : List Byte := (leBytes n x).reverse

/-- `n` bytes of a byte string from offset `o`; bytes past its end read 0. -/
def bytesAt (l : List Byte) (o n : Nat) : List Byte :=
  (List.range n).map fun i => l.getD (o + i) 0#8

/-- The little-endian field of `n` bytes at offset `o` of a byte string. -/
def natAt (l : List Byte) (o n : Nat) : Nat := leNat (bytesAt l o n)

/-- A sign-extended reading of the low `n` bits. -/
def signedOf (n x : Nat) : Int :=
  let y := x % 2 ^ n
  if 2 ^ n ≤ 2 * y then (y : Int) - 2 ^ n else y

/-- The two's-complement code of an integer in `n` bits. -/
def twosOf (n : Nat) (x : Int) : Nat := (x % (2 ^ n : Int)).toNat

/-- `v` rounded up to a multiple of `d`, in units of `d`. -/
def ceilDiv (v d : Nat) : Nat := (v + d - 1) / d

/-- A counter that saturates at 0xFFFF_FFFF. -/
def satAdd32 (w : Word) (n : Nat) : Word :=
  if w.toNat + n ≥ 2 ^ 32 then 0xFFFFFFFF#32 else BitVec.ofNat 32 (w.toNat + n)

/-- Set bits of a number below bit `n`. -/
def popNat : Nat → Nat → Nat
  | 0, _ => 0
  | n + 1, x => x % 2 + popNat n (x / 2)

/-- The Boolean as a bit. -/
def bit (b : Bool) : Nat := if b then 1 else 0

/-- The list with the element at place `i` replaced. -/
def setAt {α : Type} : List α → Nat → α → List α
  | [], _, _ => []
  | _ :: t, 0, v => v :: t
  | a :: t, n + 1, v => a :: setAt t n v

/-- One step of CRC-16, polynomial 0x1021, most significant bit first. -/
def crc16Bit (c : Nat) : Nat :=
  if c % 65536 ≥ 32768 then ((c * 2) ^^^ 0x1021) % 65536 else (c * 2) % 65536

/-- CRC-16 over a byte string from value `c` (R124, R365). -/
def crc16From : Nat → List Byte → Nat
  | c, [] => c
  | c, b :: t =>
    crc16From (crc16Bit (crc16Bit (crc16Bit (crc16Bit (crc16Bit (crc16Bit (crc16Bit (crc16Bit
      (c ^^^ (b.toNat * 256)))))))))) t

/-- CRC-16, polynomial 0x1021, initial value 0xFFFF (R124). -/
def crc16 (l : List Byte) : Nat := crc16From 0xFFFF l

end Sys2Proof.Machine
end

