-- ==== Sys2Proof/Machine/Aes.lean ====
section
/-! DEFINITION. AES as FIPS 197 defines it, with 128-bit and 256-bit keys, and the UE's counter generator (R213,
R214). A block and a key are byte strings. -/

namespace Sys2Proof.Machine

/-- Multiplication by x in GF(2^8). -/
def xtime (b : Byte) : Byte := if b.getLsbD 7 then (b <<< 1) ^^^ 0x1B#8 else b <<< 1

/-- Product in GF(2^8), `n` bits of the second factor. -/
def gmulN : Nat → Byte → Byte → Byte
  | 0, _, _ => 0#8
  | n + 1, a, b => (if b.getLsbD 0 then a else 0#8) ^^^ gmulN n (xtime a) (b >>> 1)

/-- Product in GF(2^8). -/
def gmul (a b : Byte) : Byte := gmulN 8 a b

/-- a^(2^n) in GF(2^8). -/
def gsq : Nat → Byte → Byte
  | 0, a => a
  | n + 1, a => gsq n (gmul a a)

/-- The inverse in GF(2^8), a^254; 0 for 0. -/
def ginv (a : Byte) : Byte :=
  [1, 2, 3, 4, 5, 6, 7].foldl (fun r n => gmul r (gsq n a)) 1#8

/-- The S-box. -/
def sboxByte (a : Byte) : Byte :=
  let b := ginv a
  b ^^^ b.rotateLeft 1 ^^^ b.rotateLeft 2 ^^^ b.rotateLeft 3 ^^^ b.rotateLeft 4 ^^^ 0x63#8

/-- The S-box and its inverse as tables. -/
def sbox : Array Byte := ((List.range 256).map fun i => sboxByte (BitVec.ofNat 8 i)).toArray
def sboxInv : Array Byte :=
  ((List.range 256).map fun i => BitVec.ofNat 8 ((sbox.toList.findIdx? (· = BitVec.ofNat 8 i)).getD 0)).toArray

/-- A byte through the S-box and back. -/
def sub (b : Byte) : Byte := sbox.getD b.toNat 0#8
def subInv (b : Byte) : Byte := sboxInv.getD b.toNat 0#8

/-- Bytes exclusive-ored place by place. -/
def xorBytes (a b : List Byte) : List Byte := List.zipWith (· ^^^ ·) a b

/-- Key expansion: words from `done` (latest first) up to the `total`-th, `nk` words a key (FIPS 197 §5.2). -/
def keyWords (nk : Nat) : Nat → Nat → Byte → List (List Byte) → List (List Byte)
  | 0, _, _, done => done
  | n + 1, i, rcon, done =>
    let prev := done.headD []
    let back := done.getD (nk - 1) []
    let (t, rcon') := if i % nk = 0 then
        (xorBytes ((prev.drop 1 ++ prev.take 1).map sub) [rcon, 0#8, 0#8, 0#8], xtime rcon)
      else if 6 < nk && i % nk = 4 then (prev.map sub, rcon)
      else (prev, rcon)
    keyWords nk n (i + 1) rcon' (xorBytes back t :: done)

/-- The round keys of a key of 16 or 32 bytes. -/
def roundKeys (key : List Byte) : List (List Byte) :=
  let nk := key.length / 4
  let first := (List.range nk).map fun i => (key.drop (4 * i)).take 4
  let words := (keyWords nk (4 * (nk + 7) - nk) nk 1#8 first.reverse).reverse
  (List.range (nk + 7)).map fun r => ((words.drop (4 * r)).take 4).flatten

/-- ShiftRows and its inverse on a block in column order. -/
def shiftRows (b : List Byte) : List Byte := (List.range 16).map fun i => b.getD ((i + 4 * (i % 4)) % 16) 0#8
def shiftRowsInv (b : List Byte) : List Byte := (List.range 16).map fun i => b.getD ((i + 12 * (i % 4)) % 16) 0#8

/-- One column through a circulant matrix of MixColumns. -/
def mixCol (m : List Byte) (c : List Byte) : List Byte :=
  (List.range 4).map fun i => (List.range 4).foldl (fun a j => a ^^^ gmul (m.getD ((j + 4 - i) % 4) 0#8) (c.getD j 0#8)) 0#8

/-- MixColumns with the given first row. -/
def mixCols (m b : List Byte) : List Byte := (List.range 4).flatMap fun c => mixCol m ((b.drop (4 * c)).take 4)

/-- AES encryption of one block. -/
def aesEncrypt (key blk : List Byte) : List Byte :=
  let ks := roundKeys key
  let n := ks.length
  let s := xorBytes blk (ks.headD [])
  let s := ((ks.drop 1).take (n - 2)).foldl
    (fun s k => xorBytes (mixCols [2#8, 3#8, 1#8, 1#8] (shiftRows (s.map sub))) k) s
  xorBytes (shiftRows (s.map sub)) (ks.getD (n - 1) [])

/-- AES decryption of one block. -/
def aesDecrypt (key blk : List Byte) : List Byte :=
  let ks := (roundKeys key).reverse
  let n := ks.length
  let s := (shiftRowsInv (xorBytes blk (ks.headD []))).map subInv
  let s := ((ks.drop 1).take (n - 2)).foldl
    (fun s k => (shiftRowsInv (mixCols [14#8, 11#8, 13#8, 9#8] (xorBytes s k))).map subInv) s
  xorBytes s (ks.getD (n - 1) [])

/-- The counter generator (R213): four words from a key and four counter words. -/
def rng (key : List Byte) (c0 c1 c2 c3 : Nat) : List Nat :=
  let out := aesEncrypt key (leBytes 4 c0 ++ leBytes 4 c1 ++ leBytes 4 c2 ++ leBytes 4 c3)
  (List.range 4).map fun i => natAt out (4 * i) 4

/-- The random bits of element `e` of tensor `t` at a global step, in a domain (R214). -/
def randomBits (key : List Byte) (e tensor step domain : Nat) : Nat :=
  let ws := rng key (e / 8) tensor (step % 2 ^ 32) (domain * 256 + step / 2 ^ 32 % 256)
  ws.getD (e / 2 % 4) 0 / 65536 ^ (e % 2) % 65536

end Sys2Proof.Machine
end

