-- ==== Sys2Proof/Machine/Float.lean ====
section
/-! DEFINITION. The number formats, their exact values and the rounding, saturation and flushing rules of
"Number Formats, Scaling and the Print Stage" (R67–R77, R84, R85), and the correctly rounded operations of the vector
and update engines (R168, R266). Values are exact: a finite value is a sign, an integer and a power of two. -/

namespace Sys2Proof.Machine

/-- The exact value of a floating-point code: `fin s m e` is (−1)^s · m · 2^e. -/
inductive FVal
  | nan (neg : Bool)
  | inf (neg : Bool)
  | fin (neg : Bool) (m : Nat) (e : Int)
deriving DecidableEq, Repr

/-- How a format spends its top codes (R68). -/
inductive FTop
  | ieee | e4m3 | finiteOnly
deriving DecidableEq, Repr

/-- A floating-point format: exponent bits, fraction bits, bias, and the use of its top codes (R68). -/
structure FFmt where
  eb : Nat
  mb : Nat
  bias : Int
  top : FTop
deriving DecidableEq, Repr

def fmtFp32 : FFmt := ⟨8, 23, 127, .ieee⟩
def fmtPa26 : FFmt := ⟨8, 17, 127, .ieee⟩
def fmtBf16 : FFmt := ⟨8, 7, 127, .ieee⟩
def fmtFp16 : FFmt := ⟨5, 10, 15, .ieee⟩
def fmtE4m3 : FFmt := ⟨4, 3, 7, .e4m3⟩
def fmtE5m2 : FFmt := ⟨5, 2, 15, .ieee⟩
def fmtE3m2 : FFmt := ⟨3, 2, 3, .finiteOnly⟩
def fmtE2m3 : FFmt := ⟨2, 3, 1, .finiteOnly⟩
def fmtE2m1 : FFmt := ⟨2, 1, 1, .finiteOnly⟩

/-- The element format of a format code 0x0 to 0x9 (R67). -/
def fmtOfCode (c : Nat) : FFmt :=
  match c with
  | 0 => fmtFp32
  | 1 => fmtBf16
  | 2 => fmtFp16
  | 3 => fmtE4m3
  | 4 => fmtE5m2
  | 5 => fmtE4m3
  | 6 => fmtE5m2
  | 7 => fmtE3m2
  | 8 => fmtE2m3
  | _ => fmtE2m1

/-- A format code of an MX format (R67). -/
def isMx (c : Nat) : Bool := decide (5 ≤ c) && decide (c ≤ 9)

/-- Element width in bits of a format code (R67). -/
def elemBits (c : Nat) : Nat :=
  match c with
  | 0 => 32 | 1 => 16 | 2 => 16 | 3 => 8 | 4 => 8 | 5 => 8 | 6 => 8 | 7 => 6 | 8 => 6 | 9 => 4 | 10 => 8 | _ => 32

/-- Width of a code of the format in bits. -/
def FFmt.width (f : FFmt) : Nat := 1 + f.eb + f.mb

/-- Exponent of the smallest normal value. -/
def FFmt.emin (f : FFmt) : Int := 1 - f.bias

/-- Significand and exponent of the largest finite value (R68). -/
def FFmt.maxFin (f : FFmt) : Nat × Int :=
  match f.top with
  | .ieee => (2 ^ (f.mb + 1) - 1, (2 ^ f.eb - 2 : Int) - f.bias - f.mb)
  | .e4m3 => (2 ^ (f.mb + 1) - 2, (2 ^ f.eb - 1 : Int) - f.bias - f.mb)
  | .finiteOnly => (2 ^ (f.mb + 1) - 1, (2 ^ f.eb - 1 : Int) - f.bias - f.mb)

/-- The value of a code (R68). -/
def FFmt.decode (f : FFmt) (x : Nat) : FVal :=
  let s := decide ((x >>> (f.eb + f.mb)) % 2 = 1)
  let ex := (x >>> f.mb) % 2 ^ f.eb
  let m := x % 2 ^ f.mb
  let isTop := decide (ex = 2 ^ f.eb - 1)
  if f.top = .ieee && isTop then
    if m = 0 then .inf s else .nan s
  else if f.top = .e4m3 && isTop && decide (m = 2 ^ f.mb - 1) then .nan s
  else if ex = 0 then .fin s m (f.emin - f.mb)
  else .fin s (m + 2 ^ f.mb) ((ex : Int) - f.bias - f.mb)

/-- The sign bit of a code, as a number. -/
def FFmt.signCode (f : FFmt) (s : Bool) : Nat := if s then 2 ^ (f.eb + f.mb) else 0

/-- The canonical NaN (R70). -/
def FFmt.nanCode (f : FFmt) (s : Bool) : Nat :=
  f.signCode s +
    (match f.top with
      | .ieee => if f.mb = 2 then 2 ^ (f.eb + f.mb) - 1 else (2 ^ f.eb - 1) * 2 ^ f.mb + 2 ^ (f.mb - 1)
      | _ => 2 ^ (f.eb + f.mb) - 1)

/-- The infinity code of a format that has one. -/
def FFmt.infCode (f : FFmt) (s : Bool) : Nat := f.signCode s + (2 ^ f.eb - 1) * 2 ^ f.mb

/-- The code of sig · 2^exp, where sig has at most mb + 1 bits or is 2^(mb + 1), at the quantum `roundTo` gives. -/
def FFmt.encode (f : FFmt) (s : Bool) (sig : Nat) (exp : Int) : Nat :=
  if sig < 2 ^ f.mb then f.signCode s + sig
  else
    let (g, e) := if sig = 2 ^ (f.mb + 1) then (2 ^ f.mb, exp + 1) else (sig, exp)
    f.signCode s + (e + f.mb + f.bias).toNat * 2 ^ f.mb + (g - 2 ^ f.mb)

/-- The code of the largest finite value with a sign. -/
def FFmt.maxCode (f : FFmt) (s : Bool) : Nat := f.encode s f.maxFin.1 f.maxFin.2

/-- Division by 2^sh, to nearest even (`rne`) or toward zero. -/
def roundShift (rne : Bool) (m sh : Nat) : Nat :=
  let q := m >>> sh
  let r := m % 2 ^ sh
  let h := 2 ^ sh
  if rne && (decide (h < 2 * r) || (decide (h = 2 * r) && decide (q % 2 = 1))) then q + 1 else q

/-- m · 2^e rounded to `mb` fraction bits with gradual underflow below 2^emin: significand and exponent. -/
def roundTo (rne : Bool) (mb : Nat) (emin : Int) (m : Nat) (e : Int) : Nat × Int :=
  if m = 0 then (0, emin - mb)
  else
    let top : Int := (Nat.log2 m : Int) + e
    let q := (if top < emin then emin else top) - mb
    if q ≤ e then (m <<< (e - q).toNat, q) else (roundShift rne m (q - e).toNat, q)

/-- Comparison of a · 2^i with b · 2^j. -/
def cmpDyadic (a : Nat) (i : Int) (b : Nat) (j : Int) : Ordering :=
  let k := if i < j then i else j
  compare (a <<< (i - k).toNat) (b <<< (j - k).toNat)

/-- The exact magnitude a · 2^i is below b · 2^j. -/
def ltDyadic (a : Nat) (i : Int) (b : Nat) (j : Int) : Bool := cmpDyadic a i b j == .lt

/-- The numeric events of one instruction: the flags of NUMSTAT it sets and the format code of each saturation
(R86). -/
structure NumEv where
  inv : Bool := false
  ovf : Bool := false
  flu : Bool := false
  acc : Bool := false
  clamp : Bool := false
  sat : List Nat := []
deriving DecidableEq, Repr

/-- Two instructions' events, or two lanes', together. -/
def NumEv.join (a b : NumEv) : NumEv :=
  ⟨a.inv || b.inv, a.ovf || b.ovf, a.flu || b.flu, a.acc || b.acc, a.clamp || b.clamp, a.sat ++ b.sat⟩

/-- The events of a list. -/
def NumEv.joins (l : List NumEv) : NumEv := l.foldl NumEv.join {}

/-- No event. -/
def NumEv.none : NumEv := {}

/-- The magnitude m · 2^e is non-zero and below the smallest normal value of the format. -/
def FFmt.isTiny (f : FFmt) (m : Nat) (e : Int) : Bool := decide (0 < m) && ltDyadic m e 1 f.emin

/-- An operand of an arithmetic operation: FTZ turns a subnormal value of FP32, BF16, FP16 or PA26 into a signed
zero (R84). `f` is the operand's format; E4M3 and narrower are never flushed (R85). -/
def flushIn (ftz : Bool) (f : FFmt) (v : FVal) : FVal × NumEv :=
  match v with
  | .fin s m e =>
    if ftz && decide (8 < f.width) && f.isTiny m e then (.fin s 0 0, { flu := true }) else (v, {})
  | _ => (v, {})

/-- An exact result rounded to FP32 or PA26 arithmetic: overflow gives infinity, FTZ flushes a result that is tiny
before rounding (R71, R84). -/
def arith (f : FFmt) (rne ftz : Bool) (v : FVal) : Nat × NumEv :=
  match v with
  | .nan s => (f.nanCode s, {})
  | .inf s => (f.infCode s, {})
  | .fin s m e =>
    if m = 0 then (f.signCode s, {})
    else if ftz && f.isTiny m e then (f.signCode s, { flu := true })
    else
      let (g, q) := roundTo rne f.mb f.emin m e
      if ltDyadic f.maxFin.1 f.maxFin.2 g q then (f.infCode s, { ovf := true })
      else (f.encode s g q, {})

/-- An exact FP32 result. -/
def toF32 (ftz : Bool) (v : FVal) : Word × NumEv :=
  let (c, ev) := arith fmtFp32 true ftz v
  (BitVec.ofNat 32 c, ev)

/-- The value of an FP32 word. -/
def f32 (w : Word) : FVal := fmtFp32.decode w.toNat

/-- Negation. -/
def FVal.neg : FVal → FVal
  | .nan s => .nan (!s)
  | .inf s => .inf (!s)
  | .fin s m e => .fin (!s) m e

/-- Magnitude. -/
def FVal.abs : FVal → FVal
  | .nan _ => .nan false
  | .inf _ => .inf false
  | .fin _ m e => .fin false m e

/-- Whether a value is a NaN. -/
def FVal.isNan : FVal → Bool
  | .nan _ => true
  | _ => false

/-- Whether a value is neither infinite nor a NaN. -/
def FVal.isFin : FVal → Bool
  | .fin .. => true
  | _ => false

/-- The integer m · 2^(e − k) with its sign, for e ≥ k. -/
def scaledInt (s : Bool) (m : Nat) (e k : Int) : Int :=
  let a : Int := ((m <<< (e - k).toNat : Nat) : Int)
  if s then -a else a

/-- Exact sum; the Boolean says a NaN was created (R71). -/
def FVal.add (a b : FVal) : FVal × Bool :=
  match a, b with
  | .nan s, _ => (.nan s, false)
  | _, .nan s => (.nan s, false)
  | .inf s, .inf t => if s = t then (.inf s, false) else (.nan false, true)
  | .inf s, _ => (.inf s, false)
  | _, .inf s => (.inf s, false)
  | .fin s m e, .fin t n f =>
    let k := if e < f then e else f
    let x := scaledInt s m e k + scaledInt t n f k
    if x = 0 then (.fin (if m = 0 && n = 0 then s && t else false) 0 0, false)
    else (.fin (decide (x < 0)) x.natAbs k, false)

/-- Exact product; the Boolean says a NaN was created (R71). -/
def FVal.mul (a b : FVal) : FVal × Bool :=
  match a, b with
  | .nan s, _ => (.nan s, false)
  | _, .nan s => (.nan s, false)
  | .inf s, .inf t => (.inf (s != t), false)
  | .inf s, .fin t n _ => if n = 0 then (.nan false, true) else (.inf (s != t), false)
  | .fin s m _, .inf t => if m = 0 then (.nan false, true) else (.inf (s != t), false)
  | .fin s m e, .fin t n f => (.fin (s != t) (m * n) (e + f), false)

/-- Quotient to far more bits than any format holds, the last one sticky; the second component says a NaN was created,
the third an infinity by division by zero (R169). -/
def FVal.div (a b : FVal) : FVal × Bool × Bool :=
  match a, b with
  | .nan s, _ => (.nan s, false, false)
  | _, .nan s => (.nan s, false, false)
  | .inf _, .inf _ => (.nan false, true, false)
  | .inf s, .fin t _ _ => (.inf (s != t), false, false)
  | .fin s _ _, .inf t => (.fin (s != t) 0 0, false, false)
  | .fin s m e, .fin t n f =>
    if n = 0 then
      if m = 0 then (.nan false, true, false) else (.inf (s != t), false, true)
    else
      let x := m <<< 64
      (.fin (s != t) (2 * (x / n) + bit (decide (x % n ≠ 0))) (e - f - 65), false, false)

/-- The integer square root, bit by bit from bit `k` down. -/
def isqrtGo (n : Nat) : Nat → Nat → Nat
  | 0, r => r
  | k + 1, r =>
    let t := r + 2 ^ k
    isqrtGo n k (if t * t ≤ n then t else r)

/-- The integer square root. -/
def isqrt (n : Nat) : Nat := isqrtGo n (Nat.log2 n / 2 + 1) 0

/-- Square root with a sticky last bit; the Boolean says a NaN was created (R169). -/
def FVal.sqrt (a : FVal) : FVal × Bool :=
  match a with
  | .nan s => (.nan s, false)
  | .inf false => (.inf false, false)
  | .inf true => (.nan false, true)
  | .fin s m e =>
    if m = 0 then (.fin s 0 0, false)
    else if s then (.nan false, true)
    else
      let k : Int := if e % 2 = 0 then e - 80 else e - 81
      let x := m <<< (e - k).toNat
      let r := isqrt x
      (.fin false (2 * r + bit (decide (r * r ≠ x))) (k / 2 - 1), false)

/-- Reciprocal square root with a sticky last bit; NaN created, infinity by zero (R169, R266). -/
def FVal.rsqrt (a : FVal) : FVal × Bool × Bool :=
  match a with
  | .nan s => (.nan s, false, false)
  | .inf false => (.fin false 0 0, false, false)
  | .inf true => (.nan false, true, false)
  | .fin s m e =>
    if m = 0 then (.inf s, false, true)
    else if s then (.nan false, true, false)
    else
      let k : Int := if e % 2 = 0 then -e else -e - 1
      let num := 2 ^ (if e % 2 = 0 then 160 else 161)
      let r := isqrt (num / m)
      (.fin false (2 * r + bit (decide (r * r * m ≠ num))) (k / 2 - 81), false, false)

/-- Fixed-point places of the transcendental evaluations. -/
def fxp : Nat := 320

/-- Σ x^k / k! for k from `k0` on, with `t` the term before it, all scaled by 2^fxp. -/
def expSeries (x : Nat) : Nat → Nat → Nat → Nat
  | 0, _, _ => 0
  | n + 1, k, t => t + expSeries x n (k + 1) (t * x / 2 ^ fxp / k)

/-- Σ z^(2k+1) / (2k+1), scaled by 2^fxp, with `p` the power z^(2k+1) and `q` z². -/
def atanhSeries (q : Nat) : Nat → Nat → Nat → Nat
  | 0, _, _ => 0
  | n + 1, k, p => p / (2 * k + 1) + atanhSeries q n (k + 1) (p * q / 2 ^ fxp)

/-- The natural logarithm of a/b ≥ 1, scaled by 2^fxp, by 2·atanh((a − b)/(a + b)). -/
def lnRatio (a b : Nat) : Nat :=
  let z := (a - b) * 2 ^ fxp / (a + b)
  2 * atanhSeries (z * z / 2 ^ fxp) 120 0 z

/-- The natural logarithm of 2, scaled by 2^fxp. -/
def ln2Fx : Nat := lnRatio 2 1

/-- 2^a, exact where `a` is an integer, else to `fxp` places with a sticky last bit (R266). -/
def FVal.exp2 (a : FVal) : FVal :=
  match a with
  | .nan s => .nan s
  | .inf true => .fin false 0 0
  | .inf false => .inf false
  | .fin s m e =>
    if m = 0 then .fin false 1 0
    else if ltDyadic 1024 0 m e then
      -- beyond any format's range: far above or far below it
      if s then .fin false 1 (-2000) else .fin false 1 2000
    else
      let x : Int := if e < 0 then
          (if s then -((m : Int) * 2 ^ fxp) / 2 ^ (-e).toNat else ((m : Int) * 2 ^ fxp) / 2 ^ (-e).toNat)
        else (if s then -1 else 1) * (m : Int) * 2 ^ e.toNat * 2 ^ fxp
      let n : Int := x / 2 ^ fxp
      let f : Nat := (x % 2 ^ fxp).toNat
      if f = 0 then .fin false 1 n
      else .fin false (2 * expSeries (f * ln2Fx / 2 ^ fxp) 120 1 (2 ^ fxp) + 1) (n - fxp - 1)

/-- log2 a, exact for a power of two, else with a sticky last bit; NaN created, infinity by zero (R169, R266). -/
def FVal.log2 (a : FVal) : FVal × Bool × Bool :=
  match a with
  | .nan s => (.nan s, false, false)
  | .inf false => (.inf false, false, false)
  | .inf true => (.nan false, true, false)
  | .fin s m e =>
    if m = 0 then (.inf true, false, true)
    else if s then (.nan false, true, false)
    else
      let k := Nat.log2 m
      let n : Int := (k : Int) + e
      if m = 2 ^ k then (.fin (decide (n < 0)) n.natAbs 0, false, false)
      else
        let l : Int := n * 2 ^ fxp + ((lnRatio m (2 ^ k) * 2 ^ fxp / ln2Fx : Nat) : Int)
        (.fin (decide (l < 0)) (2 * l.natAbs + 1) (-(fxp : Int) - 1), false, false)

/-- Numerical order of two non-NaN values, signed zeros equal: a < b. -/
def FVal.lt (a b : FVal) : Bool :=
  match a, b with
  | .nan _, _ => false
  | _, .nan _ => false
  | .inf s, .inf t => s && !t
  | .inf s, .fin .. => s
  | .fin .., .inf t => !t
  | .fin s m e, .fin t n f =>
    let k := if e < f then e else f
    decide (scaledInt s m e k < scaledInt t n f k)

/-- Equality of two non-NaN values, signed zeros equal. -/
def FVal.eqv (a b : FVal) : Bool :=
  match a, b with
  | .nan _, _ => false
  | _, .nan _ => false
  | _, _ => !(FVal.lt a b) && !(FVal.lt b a)

/-- A conversion to a storage format of R67 (R74): the code and the events. `c` is the format code, 0x0 to 0x9. -/
def narrow (c : Nat) (ftz : Bool) (v : FVal) : Nat × NumEv :=
  let f := fmtOfCode c
  let keepsInf : Bool := c == 0 || c == 1 || c == 2 || c == 4 || c == 6
  match v with
  | .nan s => (f.nanCode s, {})
  | .inf s => if keepsInf then (f.infCode s, {}) else (f.maxCode s, { sat := [c] })
  | .fin s m e =>
    if c = 0 then arith fmtFp32 true ftz v
    else if m = 0 then (f.signCode s, {})
    else if ftz && (c == 1 || c == 2) && f.isTiny m e then (f.signCode s, { flu := true })
    else if ltDyadic f.maxFin.1 f.maxFin.2 m e then (f.maxCode s, { sat := [c] })
    else
      let (g, q) := roundTo true f.mb f.emin m e
      (f.encode s g q, {})

/-- The integer nearest to a value (`rne`) or its truncation, as a magnitude. -/
def roundMag (rne : Bool) (m : Nat) (e : Int) : Nat :=
  if 0 ≤ e then m <<< e.toNat else roundShift rne m (-e).toNat

/-- Conversion to an `n`-bit integer, saturating; format code `c` names the saturation count (R74, R170). -/
def toInt (n c : Nat) (rne : Bool) (v : FVal) : Nat × NumEv :=
  let hi : Int := 2 ^ (n - 1) - 1
  let lo : Int := -(2 ^ (n - 1) : Int)
  match v with
  | .nan _ => (0, {})
  | .inf s => (twosOf n (if s then lo else hi), { sat := [c] })
  | .fin s m e =>
    let a : Int := (roundMag rne m e : Nat)
    let x := if s then -a else a
    if hi < x then (twosOf n hi, { sat := [c] })
    else if x < lo then (twosOf n lo, { sat := [c] })
    else (twosOf n x, {})

/-- A conversion to any storage format of R67 except INT32. -/
def toFmt (c : Nat) (ftz : Bool) (v : FVal) : Nat × NumEv :=
  if c = 10 then toInt 8 10 true v else narrow c ftz v

/-- An integer as an exact value. -/
def intVal (x : Int) : FVal := .fin (decide (x < 0)) x.natAbs 0

/-- The exact value of a stored code of a non-MX format of R67. -/
def codeVal (c x : Nat) : FVal :=
  if c = 10 then intVal (signedOf 8 x)
  else if c = 11 then intVal (signedOf 32 x)
  else (fmtOfCode c).decode x

/-- A value multiplied by 2^k. -/
def FVal.scale (v : FVal) (k : Int) : FVal :=
  match v with
  | .fin s m e => .fin s m (e + k)
  | w => w

/-- The value of an MX element under its block scale code (R68, R73). -/
def mxVal (c x scale : Nat) : FVal :=
  if scale = 255 then .nan false else ((fmtOfCode c).decode x).scale ((scale : Int) - 127)

/-- Largest exponent of an MX element format (R77). -/
def mxEmax (c : Nat) : Int :=
  match c with
  | 5 => 8
  | 6 => 15
  | 7 => 4
  | _ => 2

/-- floor(log2 x) of a non-zero finite magnitude. -/
def expOf (m : Nat) (e : Int) : Int := (Nat.log2 m : Int) + e

/-- The greater of two finite magnitudes. -/
def maxMag (a b : Nat × Int) : Nat × Int := if ltDyadic a.1 a.2 b.1 b.2 then b else a

/-- The scale code of a block of values (R77): 0xFF where one is NaN. -/
def mxScale (c : Nat) (vs : List FVal) : Nat :=
  if vs.any FVal.isNan then 255
  else
    let m := vs.foldl (fun a v => match v with
      | .fin _ m e => maxMag a (m, e)
      | _ => a) (0, 0)
    if m.1 = 0 then 127 else (expOf m.1 m.2 - mxEmax c + 127).toNat

/-- The element codes of a block under a scale code (R77). -/
def mxElems (c scale : Nat) (ftz : Bool) (vs : List FVal) : List Nat × NumEv :=
  if scale = 255 then (vs.map fun _ => 0, {})
  else
    let r := vs.map fun v => narrow c ftz (v.scale (127 - (scale : Int)))
    (r.map (·.1), NumEv.joins (r.map (·.2)))

/-- The element codes packed as R69 sets out: `w` bits each, element 0 lowest. -/
def packElems (w : Nat) (codes : List Nat) : List Byte :=
  leBytes (codes.length * w / 8) (codes.foldr (fun c acc => c % 2 ^ w + acc * 2 ^ w) 0)

/-- Element `i` of width `w` bits of a packed byte string. -/
def elemAt (l : List Byte) (w i : Nat) : Nat :=
  (natAt l (w * i / 8) 4 >>> (w * i % 8)) % 2 ^ w

/-- A two-operand FP32 operation given exactly: operands flushed, result rounded (R71, R84). -/
def f32Op (op : FVal → FVal → FVal × Bool) (ftz : Bool) (a b : Word) : Word × NumEv :=
  let (x, e1) := flushIn ftz fmtFp32 (f32 a)
  let (y, e2) := flushIn ftz fmtFp32 (f32 b)
  let (r, i) := op x y
  let (w, e3) := toF32 ftz r
  (w, ((e1.join e2).join { inv := i }).join e3)

def f32Add (ftz : Bool) (a b : Word) : Word × NumEv := f32Op FVal.add ftz a b
def f32Sub (ftz : Bool) (a b : Word) : Word × NumEv :=
  f32Op (fun x y => match y with
    | .nan s => FVal.add x (.nan s)
    | z => FVal.add x z.neg) ftz a b
def f32Mul (ftz : Bool) (a b : Word) : Word × NumEv := f32Op FVal.mul ftz a b

/-- a × b + c with one rounding; 0 × ∞ gives a positive NaN, whatever the addend (R70, log entry 13). -/
def f32Fma (ftz : Bool) (a b c : Word) : Word × NumEv :=
  let (x, e1) := flushIn ftz fmtFp32 (f32 a)
  let (y, e2) := flushIn ftz fmtFp32 (f32 b)
  let (z, e3) := flushIn ftz fmtFp32 (f32 c)
  let (p, i1) := FVal.mul x y
  let (r, i2) := FVal.add p z
  let (w, e4) := toF32 ftz r
  (w, (((e1.join e2).join e3).join { inv := i1 || i2 }).join e4)

/-- Correctly rounded division (R168, R169). -/
def f32Div (ftz : Bool) (a b : Word) : Word × NumEv :=
  let (x, e1) := flushIn ftz fmtFp32 (f32 a)
  let (y, e2) := flushIn ftz fmtFp32 (f32 b)
  let (r, i, o) := FVal.div x y
  let (w, e3) := toF32 ftz r
  (w, ((e1.join e2).join { inv := i, ovf := o }).join e3)

/-- A one-operand operation given by its rounded-up exact value, NaN created and infinity created. -/
def f32Un (op : FVal → FVal × Bool × Bool) (ftz : Bool) (a : Word) : Word × NumEv :=
  let (x, e1) := flushIn ftz fmtFp32 (f32 a)
  let (r, i, o) := op x
  let (w, e3) := toF32 ftz r
  (w, (e1.join { inv := i, ovf := o }).join e3)

def f32Sqrt (ftz : Bool) (a : Word) : Word × NumEv := f32Un (fun x => ((FVal.sqrt x).1, (FVal.sqrt x).2, false)) ftz a
def f32Rcp (ftz : Bool) (a : Word) : Word × NumEv := f32Un (fun x => FVal.div (.fin false 1 0) x) ftz a
def f32Rsq (ftz : Bool) (a : Word) : Word × NumEv := f32Un FVal.rsqrt ftz a
def f32Exp2 (ftz : Bool) (a : Word) : Word × NumEv := f32Un (fun x => (FVal.exp2 x, false, false)) ftz a
def f32Log2 (ftz : Bool) (a : Word) : Word × NumEv := f32Un FVal.log2 ftz a

/-- Maximum (`isMax`) or minimum under R169: a NaN operand gives NaN, +0 above −0. -/
def fvMinMax (isMax : Bool) (a b : FVal) : FVal :=
  match a, b with
  | .nan s, _ => .nan s
  | _, .nan s => .nan s
  | .fin s 0 _, .fin t 0 _ => .fin (if isMax then s && t else s || t) 0 0
  | _, _ => if FVal.lt a b then (if isMax then b else a) else (if isMax then a else b)

def f32MinMax (isMax ftz : Bool) (a b : Word) : Word × NumEv :=
  f32Op (fun x y => (fvMinMax isMax x y, false)) ftz a b

/-- max(|a|, |b|) with a NaN dominating (R172). -/
def f32Amax (ftz : Bool) (a b : Word) : Word × NumEv :=
  f32Op (fun x y => match x, y with
    | .nan s, _ => (.nan s, false)
    | _, .nan s => (.nan s, false)
    | _, _ => (fvMinMax true x.abs y.abs, false)) ftz a b

/-- An integer converted to FP32, to nearest even (R74). -/
def i32ToF32 (w : Word) : Word × NumEv := toF32 false (intVal w.toInt)

/-- The magnitude of a finite value as an FP32 word, for the frame amax; NaN and infinity give none (R80). -/
def amaxOf (w : Word) : Option Word :=
  match f32 w with
  | .fin _ _ _ => some (w &&& 0x7FFFFFFF#32)
  | _ => none

/-- The greater of two non-negative finite FP32 words. -/
def amaxJoin (a b : Word) : Word := if a.toNat < b.toNat then b else a

/-- Whether an FP32 word is a finite value above +0. -/
def isPosFinite (w : Word) : Bool :=
  match f32 w with
  | .fin s m _ => !s && decide (0 < m)
  | _ => false

/-- An exact product or sum truncated to PA26, overflow giving infinity (R115). -/
def toPa26 (ftz : Bool) (v : FVal) : FVal × NumEv :=
  let (c, ev) := arith fmtPa26 false ftz v
  (fmtPa26.decode c, ev)

/-- The operand flush of PA26 values (R84). -/
def flushPa26 (ftz : Bool) (v : FVal) : FVal × NumEv := flushIn ftz fmtPa26 v

/-- A value truncated toward zero to 17 fraction bits, its exponent free (R115, the transposed MX chunks). -/
def trunc17 (v : FVal) : FVal :=
  match v with
  | .fin s m e =>
    if m = 0 then .fin s 0 0
    else
      let k := Nat.log2 m
      if k ≤ 17 then v else .fin s (m >>> (k - 17)) (e + ((k - 17 : Nat) : Int))
  | w => w

end Sys2Proof.Machine
end

