-- ==== Sys2Proof/Machine/Flags.lean ====
section
/-! DEFINITION. The conditions and logical functions that decide predicates and lane masks: PCMP, PCMPI and PLOG
(R231), VCMP and VMLOG (R265). -/

namespace Sys2Proof.Machine

/-- The condition of PCMP and PCMPI (R231); codes 6 and 7 are reserved and never hold. -/
def scalarCond (cond : BitVec 3) (a b : Word) : Bool :=
  match cond.toNat with
  | 0 => decide (a = b)
  | 1 => decide (a ≠ b)
  | 2 => BitVec.slt a b
  | 3 => !BitVec.slt a b
  | 4 => BitVec.ult a b
  | 5 => !BitVec.ult a b
  | _ => false

/-- The function of PLOG and VMLOG (R231, R265) on one bit. -/
def logicFn (fn : BitVec 2) (a b : Bool) : Bool :=
  match fn.toNat with
  | 0 => a && b
  | 1 => a || b
  | 2 => a != b
  | _ => a && !b

/-- A comparison of VCMP (R265) from the three orderings of its operands. -/
def orderCond (cond : BitVec 3) (lt eq gt : Bool) : Bool :=
  match cond.toNat with
  | 0 => eq
  | 1 => !eq
  | 2 => lt
  | 3 => lt || eq
  | 4 => gt
  | 5 => gt || eq
  | _ => false

/-- VCMP in the floating-point class on one lane: NaN operands give 0 but for NE; under FTZ subnormal operands are
flushed first (R265, R84). -/
def floatCond (ftz : Bool) (cond : BitVec 3) (a b : FVal) (fa fb : FFmt) : Bool × NumEv :=
  let (x, e1) := flushIn ftz fa a
  let (y, e2) := flushIn ftz fb b
  (orderCond cond (FVal.lt x y) (FVal.eqv x y) (FVal.lt y x), e1.join e2)

/-- VCMP in the integer class on one lane: signed (R265). -/
def intCond (cond : BitVec 3) (a b : Word) : Bool :=
  orderCond cond (BitVec.slt a b) (decide (a = b)) (BitVec.slt b a)

end Sys2Proof.Machine
end

