-- ==== Sys2Proof/Config.lean ====
section
/-! DEFINITION. What the manual leaves open, as constants without a body: nothing in Lean can evaluate them, so a
statement that holds of the model holds whatever they are. The first argument of each is the model's own counter of
free values (`State.freeCtr`), which every command that takes one advances. -/

namespace Sys2Proof

/-- Which of the values a byte may hold before contract completion a read of it sees (R278, R246, R464). -/
opaque Config.landed : Nat → Nat → Nat

/-- A byte whose value the manual leaves undefined (R111, R196). -/
opaque Config.freeByte : Nat → Nat → Byte

/-- What the outside does to an instruction or descriptor by its completion, for those that complete without a command of their
own. -/
opaque Config.fate : Nat → Fate

/-- The wait cycles of an instruction or descriptor whose accesses meet others at a shared port: fixed by the image, counted by the
loader, and not to be had from the manual, which gives no cycle of an access (R51, R246, R464). Its arguments are the load, the core,
the bundle, the cycle of the frame in which it issues, and its unit. -/
opaque Config.waits : Nat → Nat → Nat → Nat → Nat → Nat

/-- The cycle after its issue in which access number `i` of an instruction falls (R58, R464): the counter of free values and `i`. -/
opaque Config.accessCycle : Nat → Nat → Nat

/-- The element number that UROW gives element `i` of staged block `j`, for rows of `dim` elements from block `j0`: R214
numbers the elements of a pass and names none for a row operation. -/
opaque Config.rowElement : Nat → Nat → Nat → Nat → Nat

/-- A place inside a plate or the HBM that the compiler chooses and no section of the image names: the number of the load, what
is asked for, and which one (R203, R215, R383). -/
opaque Config.imageMap : Nat → String → Nat → Nat

/-- A byte string that the part's secrets, its TRNG or its certificates determine: the counter of free values, what is
asked for, and the bytes it is asked about (R411–R413, R416). -/
opaque Config.secret : Nat → String → List Byte → List Byte

/-- A number the manual leaves to the part or to the outside: the counter of free values and what is asked for. -/
opaque Config.freeNat : Nat → String → Nat

end Sys2Proof
end

