-- ==== Sys2Proof/Machine/Sparse.lean ====
section
/-! DEFINITION. Sparse maps from a number to a value: a list of (key, value) pairs whose keys strictly rise and which
lists no value equal to the one an unlisted key reads as, so that equal maps are equal lists. The on-chip memories, the
HBM and the register windows are held in this form. -/

namespace Sys2Proof.Machine

/-- The value at key `k`: the listed one, else what an unlisted key reads as. -/
def Sparse.get {α : Type} (dflt : Nat → α) : List (Nat × α) → Nat → α
  | [], k => dflt k
  | (a, v) :: t, k => if a = k then v else Sparse.get dflt t k

/-- The map without key `k`. -/
def Sparse.erase {α : Type} : List (Nat × α) → Nat → List (Nat × α)
  | [], _ => []
  | (a, v) :: t, k => if a = k then t else (a, v) :: Sparse.erase t k

/-- The map with `v` at `k`, keys still rising. -/
def Sparse.insert {α : Type} : List (Nat × α) → Nat → α → List (Nat × α)
  | [], k, v => [(k, v)]
  | (a, w) :: t, k, v =>
    if k < a then (k, v) :: (a, w) :: t
    else if k = a then (k, v) :: t
    else (a, w) :: Sparse.insert t k v

/-- The map with `v` at `k`, in canonical form. -/
def Sparse.set {α : Type} [DecidableEq α] (dflt : Nat → α) (m : List (Nat × α)) (k : Nat) (v : α) :
    List (Nat × α) :=
  if v = dflt k then Sparse.erase m k else Sparse.insert m k v

/-- The keys of the map strictly rise from above `lo`, and no listed value is the default of its key. -/
def Sparse.wfFrom {α : Type} [DecidableEq α] (dflt : Nat → α) : Option Nat → List (Nat × α) → Bool
  | _, [] => true
  | lo, (a, v) :: t =>
    (match lo with
      | none => true
      | some b => decide (b < a)) && decide (v ≠ dflt a) && Sparse.wfFrom dflt (some a) t

/-- The canonical form of a sparse map. -/
def Sparse.wf {α : Type} [DecidableEq α] (dflt : Nat → α) (m : List (Nat × α)) : Bool :=
  Sparse.wfFrom dflt none m

/-- What an unlisted byte of memory reads as: 0 (log entry 3). -/
def zeroByte (_ : Nat) : Byte := 0#8

/-- The canonical form of a memory. -/
def Memory.wf (m : List (Nat × Byte)) : Bool := Sparse.wf zeroByte m

/-- One byte of a memory. -/
def Memory.byte (m : List (Nat × Byte)) (a : Nat) : Byte := Sparse.get zeroByte m a

/-- The memory with one byte written. -/
def Memory.setByte (m : List (Nat × Byte)) (a : Nat) (b : Byte) : List (Nat × Byte) :=
  Sparse.set zeroByte m a b

/-- The memory with consecutive bytes written from address `a`. -/
def Memory.write : List (Nat × Byte) → Nat → List Byte → List (Nat × Byte)
  | m, _, [] => m
  | m, a, b :: t => Memory.write (Memory.setByte m a b) (a + 1) t

/-- `n` consecutive bytes of a memory from address `a`. -/
def Memory.read (m : List (Nat × Byte)) (a n : Nat) : List Byte :=
  (List.range n).map fun i => Memory.byte m (a + i)

end Sys2Proof.Machine
end

