-- ==== Sys2Proof/Machine/CoreState.lean ====
section
/-! DEFINITION. The state of one logical core: its registers by their offset in the core's window
(`Machine/RegMap.lean` has the map, and a register at its reset value is an unlisted offset), its five on-chip memories,
its sequencer, the frame it runs, its engines and its integrity logic. -/

namespace Sys2Proof.Machine

/-! ## Sequencer -/

/-- Where a late result of the sequencer goes: a scalar register, a predicate or a channel's override value. -/
inductive SeqDst
  | sreg (r : BitVec 5) | pred (p : BitVec 3) | ovr (ch : BitVec 2) (remote : Bool)
deriving DecidableEq, Repr

/-- A scalar or predicate result on its way: visible to a bundle that issues at cycle `due` or later (R229). -/
structure SeqWrite where
  dst : SeqDst
  val : Word
  due : Nat
deriving DecidableEq, Repr

/-- An instruction at its issue: its core, its bundle, and whether the bundle's guard or a shadow iteration suppresses it (R224,
R225, R235). -/
structure At where
  core : CoreId
  bundle : BitVec 13
  supp : Bool
deriving DecidableEq, Repr

/-- One level of counted loop (R233–R236): the body's bundles, the iteration, how many iterations run and are active,
and whether an enclosing iteration is in shadow. -/
structure LoopFrame where
  lc : BitVec 2
  first : Nat
  last : Nat
  iter : Nat
  all : Nat
  active : Nat
  shadow : Bool
deriving DecidableEq, Repr

/-- A WAITX that holds issue (R239): its counter, its count, the cycle it issued and the cycle its budget counts the next bundle
as issuing at (R21). -/
structure Waiting where
  ec : BitVec 4
  n : Word
  since : Nat
  budgetEnd : Nat
deriving DecidableEq, Repr

/-- A word of an operand cache that an SLD or SST takes in a free cycle (R232): an SLD's for register `dst`, which shows it at cycle
`due`, or an SST's with its value. -/
structure CacheWord where
  cycle : Nat
  dst : Option (BitVec 5)
  addr : Nat
  val : Word
  due : Nat
  bundle : BitVec 13
  miss : Bool
deriving DecidableEq, Repr

/-- The sequencer's state within a frame (R227); `busyUntil` is the latest contract completion of its own instructions in the frame
(R12, R228), `prev` the bundle behind which the next is in line, `slot` the last slot that has issued of the bundle SQ_PC names (7 if
none of this frame's has), `issued` the cycle in which that bundle issued, `nextAt` the first cycle in which the next may, `words` the
operand-cache words that SLD and SST have yet to take. -/
structure Seq where
  sregs : List Word
  preds : Byte
  lc : List Word
  ovr : List Word
  spre : List Word
  coming : List SeqWrite
  loops : List LoopFrame
  prev : Nat
  slot : Nat
  issued : Nat
  nextAt : Nat
  words : List CacheWord
  waiting : Option Waiting
  busyUntil : Nat
  stopped : Bool
  ended : Bool
deriving DecidableEq, Repr

def Seq.reset : Seq :=
  { sregs := List.replicate 32 0#32, preds := 1#8, lc := List.replicate 4 0#32, ovr := List.replicate 8 0#32, spre := List.replicate 32 0#32,
    coming := [], loops := [], prev := 0, slot := 7, issued := 0, nextAt := 0, words := [], waiting := none, busyUntil := 0, stopped := false, ended := false }

/-! ## Frame -/

/-- The first NaN a product created in the frame (R119): the product's place in issue order, tile, bundle, ordinal. -/
structure FirstInv where
  order : Nat
  tile : Nat
  bundle : BitVec 13
  chunk : Nat
deriving DecidableEq, Repr

/-- A KV commit record that a frame has sent to the KV endpoint (R361), with its descriptor's issue cycle. -/
structure KvCommit where
  issue : Nat
  region : Nat
  length : Word
deriving DecidableEq, Repr

/-- The frame a core runs, or ran last, until its guard-band work is done: what the contact sheet records (R124) and
what the guard band applies (R12). -/
structure Frame where
  live : Bool
  fn : BitVec 48
  entry : Nat
  kind : Nat
  replayable : Bool
  bypassRun : Bool
  ownTick : Nat
  guardAt : Nat
  started : Nat
  retiredAt : Option Nat
  overrun : Bool
  aborted : Bool
  abandoned : Bool
  replayDue : Bool
  replay : Bool
  shifted : Bool
  dropped : Option (BitVec 48)
  haltNext : Bool
  faultCode : Half
  faultBundle : BitVec 13
  codes : List Half
  numFlags : Nat
  firstInv : Option FirstInv
  tileInv : Half
  tileOvf : Half
  tileSat : Half
  products : Nat
  sats : Nat
  collides : Nat
  gatherOor : Nat
  crcEvents : Nat
  predEvents : Nat
  stalls : Nat
  waitLate : Nat
  chunkCtr : List Nat
  amax : List (Nat × Word)
  pushes : List Nat
  signals : List (BitVec 4 × Word)
  kvCommits : List KvCommit
  meOps : Nat
  meEdits : Nat
  pctl : List (BitVec 4 × Bool)
  audits : List Nat
  misses : List Nat
  violated : Bool
deriving DecidableEq, Repr

def Frame.none : Frame :=
  { live := false, fn := 0#48, entry := 0, kind := 0, replayable := false, bypassRun := false, ownTick := 0, guardAt := 0,
    started := 0, retiredAt := .none, overrun := false, aborted := false, abandoned := false, replayDue := false,
    replay := false, shifted := false, dropped := .none, haltNext := false, faultCode := 0#16, faultBundle := 0#13,
    codes := List.replicate 11 0#16, numFlags := 0, firstInv := .none, tileInv := 0#16, tileOvf := 0#16,
    tileSat := 0#16, products := 0, sats := 0, collides := 0, gatherOor := 0, crcEvents := 0, predEvents := 0,
    stalls := 0, waitLate := 0, chunkCtr := List.replicate 16 0, amax := [], pushes := [], signals := [],
    kvCommits := [], meOps := 0, meEdits := 0, pctl := [], audits := List.replicate 16 0,
    misses := List.replicate 16 0, violated := false }

/-- A schedule entry (R293), with the predictor entries that its program names (R156). -/
structure SchedEntry where
  entry : Nat
  bypass : Nat
  kind : Nat
  bankMap : Nat
  replayable : Bool
  tails : List (Nat × Nat)
  preds : List Nat
deriving DecidableEq, Repr

/-- A region of the image's region table (R294). -/
structure Region where
  base : Nat
  limit : Nat
  first : Nat
  last : Nat
  kind : Nat
  backing : Nat
deriving DecidableEq, Repr

/-! ## Engines -/

/-- A weight buffer's tag: what its TLOAD asked for (R259, R261). -/
structure TileTag where
  lay : Nat
  wfmt : Nat
  q : Nat
deriving DecidableEq, Repr

/-- One of the TE's two weight buffers (R100): the tag, the tile body, the index sheet of a grain tile, and the cycle
from which its contents are defined. -/
structure WeightBuf where
  tag : Option TileTag
  body : List Byte
  sheet : List Byte
  ready : Nat
deriving DecidableEq, Repr

/-- An array state (R90): configuration, width class, integer path, capacity. -/
structure ArrayState where
  cfg : Nat
  wclass : Nat
  int : Bool
  q : Nat
deriving DecidableEq, Repr

/-- The immediately preceding product of the frame (R91, R121). -/
structure LastProduct where
  arr : ArrayState
  t0 : Nat
  tiles : Nat
  id : Nat
  due : Nat
deriving DecidableEq, Repr

/-- The tensor engine: its weight buffers, whether the standby buffer waits to be swapped in, the array state, the
preceding product and the owner of each accumulator tile (an instruction's number and its bundle, R120). -/
structure Te where
  active : WeightBuf
  standby : WeightBuf
  loaded : Bool
  last : Option LastProduct
  owners : List (Option (Nat × BitVec 13))
deriving DecidableEq, Repr

def WeightBuf.none : WeightBuf := { tag := .none, body := [], sheet := [], ready := 0 }

def Te.reset : Te :=
  { active := WeightBuf.none, standby := WeightBuf.none, loaded := false, last := .none,
    owners := List.replicate 16 .none }

/-- A VE's conversion control (R267). -/
structure ConvCtl where
  ssrc : Bool
  cap : Bool
  sidx : Byte
  qexp : Byte
deriving DecidableEq, Repr

def ConvCtl.reset : ConvCtl := ⟨false, false, 0#8, 0#8⟩

/-- A row set register (R151): the selected and the audited rows and the predictor entry. -/
structure RowSet where
  selected : BitVec 128
  audited : BitVec 128
  pent : Nat
deriving DecidableEq, Repr

def RowSet.reset : RowSet := ⟨0#128, 0#128, 0⟩

/-- The score stage (R135, R136): its tag, its source and its 16,384 FP32 entries. -/
structure ScoreStage where
  valid : Bool
  desc : Nat
  tensor : Word
  brow : Nat
  bcol : Nat
  fromBuf : Bool
  score : List Word
deriving DecidableEq, Repr

def ScoreStage.reset : ScoreStage := ⟨false, 0, 0#32, 0, 0, false, []⟩

/-- A factor set (R202). -/
structure FactorSet where
  rule : Nat
  flags : Nat
  mfmt : Nat
  sfmt : Nat
  lr : Word
  lam : Word
  keep : Word
  b1 : Word
  b2 : Word
  ob1 : Word
  ob2 : Word
  eps : Word
  ic1 : Word
  ic2 : Word
  clip : Word
  trmin : Word
  trmax : Word
  rscale : Word
  step : BitVec 40
deriving DecidableEq, Repr

/-! ## Instructions and descriptors in flight -/

/-- One effect of an engine instruction, applied at its contract completion (R257, R278). -/
inductive Eff
  /-- bytes written to the core's own on-chip memory -/
  | mem (a : Nat) (bs : List Byte)
  /-- an access to line `a` that a fence denies, or that leaves the memories (R42, R58, R196) -/
  | fence (a master : Nat) (wr : Bool)
  /-- a register of the core's window -/
  | reg (off : Nat) (w : Word)
  /-- registers that hold the first fault since cleared: written if bit 31 of the first is 0 -/
  | first (off : Nat) (w : Word) (more : List (Nat × Word))
  /-- a saturating counter of the core's window -/
  | count (off n : Nat)
  /-- additions into element `e` of an accumulator tile, the first overwriting it if `ow` (R116), each with its chunk
  ordinal; `quiet` for an audited row (R153), `order` the product's place in issue order (R119) -/
  | acc (tile e : Nat) (ow quiet : Bool) (order : Option Nat) (terms : List (Nat × FVal))
  /-- integer additions into an element (R117), `quiet` for an audited row (R153) -/
  | accInt (tile e : Nat) (ow quiet : Bool) (terms : List Int)
  /-- a frame amax contribution (R80) -/
  | amax (e : Nat) (w : Word)
  /-- a push mark (R81) -/
  | push (e : Nat)
  /-- the weight buffer that TLOAD filled -/
  | standby (b : WeightBuf)
  /-- a row set register -/
  | rowSet (i : Nat) (r : RowSet)
  /-- the score stage -/
  | stage (v : ScoreStage)
  /-- a VE's conversion control -/
  | conv (ve : Bool) (v : ConvCtl)
  /-- a factor set becomes valid, or is left invalid -/
  | factor (i : Nat) (f : Option FactorSet)
  /-- the touched-row filter -/
  | filter (l : List (BitVec 4 × Word))
  /-- audits and misses of a predictor entry -/
  | audit (j audits misses : Nat)
  /-- an edit that changed a tile -/
  | edited
  /-- out-of-range gather positions of the frame -/
  | gatherOor (n : Nat)
  /-- tile flags INV, OVF, ACC_SAT set (R118) -/
  | tileFlags (inv ovf sat : Half)
  /-- the first product NaN (R119) -/
  | firstInv (v : FirstInv)
deriving DecidableEq, Repr

/-- A status code an instruction raises before or at its completion, and whether it aborts the frame (R27, R275). -/
structure Raise where
  code : Half
  abort : Bool
deriving DecidableEq, Repr

/-- The header checks of a TLOAD of a grain tile, due 14 cycles after its issue (R101): the tile's address, the
instruction's slot, capacity, format and expected epoch, and the header it read. -/
structure HdrCheck where
  due : Nat
  addr : Nat
  slot : Nat
  q : Nat
  fmt : Nat
  expect : Option Nat
  bytes : List Byte
deriving DecidableEq, Repr

/-- What an instruction in flight raises before its contract completion, at a cycle (R58, R132): violations or fault registers, and
codes. -/
structure Early where
  cycle : Nat
  effs : List Eff
  raises : List Raise
deriving DecidableEq, Repr

/-- A shared port that an instruction or descriptor uses while it is in flight (R49, R162): a scratchpad bank 0 to 7, or the operand
cache of VE0 (8) or VE1 (9), and the user's rank there, the lower being served first: 16 times its master code and its place among
the users of that code. -/
structure PortUse where
  place : Nat
  rank : Nat
deriving DecidableEq, Repr

/-- An engine instruction in flight: issued at `issue`, its contract completion at `due`, its issue interval over at `free` and its
tokens held until `tokenEnd`, all three before the wait cycles: `held` of an accumulator read behind VE0's (R111), and, if it is
`contended` on a port it uses, those that the image decides (R51). -/
structure PendingOp where
  id : Nat
  unit : EngUnit
  bundle : BitVec 13
  supp : Bool
  issue : Nat
  due : Nat
  free : Nat
  tokens : Nat
  tokenEnd : Nat
  master : Nat
  claims : List Nat
  reads : List (Nat × Nat)
  edits : List Nat
  effs : List Eff
  ev : NumEv
  raises : List Raise
  header : Option HdrCheck
  ports : List PortUse
  accBanks : List Nat
  held : Nat
  contended : Bool
  waits : Nat
  early : List Early
  fate : Fate
deriving DecidableEq, Repr

/-- The source or destination of a run of a descriptor's bytes (R245). -/
inductive Place
  | here (a : Nat)
  | peer (c : CoreId) (a : Nat)
  | hbm (a : Nat)
  | edge (ep a : Nat)
deriving DecidableEq, Repr

/-- Up to 64 bytes of a row of a descriptor: where they come from, where they go, and their value at issue (R246). -/
structure DmaRow where
  src : Place
  dst : Place
  bytes : List Byte
deriving DecidableEq, Repr

/-- A DMA descriptor in flight (R246): its contract completion at `due` before its wait cycles, `waits` at its own core if it is
contended there, `peerWaits` at the peer of a core-to-core transfer. -/
structure DmaOp where
  desc : Nat
  bundle : BitVec 13
  supp : Bool
  issue : Nat
  due : Nat
  rows : List DmaRow
  code : Half
  peer : Option CoreId
  ports : List PortUse
  contended : Bool
  waits : Nat
  peerWaits : Nat
  fate : Fate
deriving DecidableEq, Repr

/-- A DMA channel: its descriptors in flight, oldest first, and the cycle its issue interval ends (R246). -/
structure DmaCh where
  inflight : List DmaOp
  freeAt : Nat
deriving DecidableEq, Repr

def DmaCh.reset : DmaCh := ⟨[], 0⟩

/-! ## Integrity -/

/-- State of a remap entry's spare line (R378). -/
inductive SpareState
  | valid | empty | refetch
deriving DecidableEq, Repr

/-- A remap entry in use (R378, R379): its number, the faulty line, the spare's state, and whether it is retired. -/
structure Remap where
  entry : Nat
  line : Nat
  state : SpareState
  retired : Bool
deriving DecidableEq, Repr

/-- A fill (R379): the entry whose spare it fills, the line, what the old line holds, and whether it waits for its refetch. -/
structure Fill where
  entry : Nat
  line : Nat
  old : List Byte
  refetching : Bool
deriving DecidableEq, Repr

/-- A core's integrity logic: lines whose stored CRC does not match, the recent-miss table (line, second of the miss),
remap entries, the open and the queued fill, refetches under way (line, backing address or the loader's copy), lines that
are handled as dirty after a failed refetch, remap-full units and the lines judged lasting there (R381), the patrols' next lines, the
buckets' leak counters, and the codes the HTU has yet to take (an address in the memory concerned, status code). -/
structure Integ where
  bad : List Nat
  recent : List (Nat × Nat)
  remaps : List Remap
  fillOpen : Option Fill
  fillQueued : Option Fill
  refetches : List Nat
  writtenSince : List Nat
  nowDirty : List Nat
  full : List Nat
  fullLines : List Nat
  patrol : List Nat
  leak : List Nat
  reports : List (Nat × Half)
deriving DecidableEq, Repr

def Integ.reset : Integ :=
  { bad := [], recent := [], remaps := [], fillOpen := none, fillQueued := none, refetches := [], writtenSince := [],
    nowDirty := [], full := [], fullLines := [], patrol := List.replicate 13 0, leak := List.replicate 6 0, reports := [] }

/-! ## A core -/

/-- A frame that is to start (R15, R19, R24): its schedule entry, frame number, own tick and the start of its guard band, and whether
it is a re-exposure. -/
structure FrameStart where
  slot : Nat
  fn : BitVec 48
  tick : Nat
  guard : Nat
  replay : Bool
deriving DecidableEq, Repr

/-- One logical core. `regs` holds the value in force of every register of its window, `shadow` the shadows of its
CMT registers, `mem` the five on-chip memories by core-local address (R42), `lateStarts` the frames that wait for a late one's end
under CONTINUE, the first due first (R24), `workEnd` the cycle in which the guard-band work of the last frame ends, `behind` by how many
ticks its schedule runs behind the ring (R19), `filtMax` the declared maximum of each update descriptor's UFLIST (R272), `unitFree` the
cycle from which each of the eight engine units and the two dividers takes a next instruction (R171, R257), `entering` the transfers
that the image's programs start into its banks as DMA-in: schedule entry, bank, and whether another core starts it (R246), `numAt` the
cycle of the latest class-0x03 code of each engine and of NUMSTAT (R86). -/
structure Core where
  regs : List (Nat × Word)
  shadow : List (Nat × Word)
  mem : List (Nat × Byte)
  seq : Seq
  frame : Frame
  lateStarts : List FrameStart
  workEnd : Nat
  behind : Nat
  te : Te
  ve0ctl : ConvCtl
  ve1ctl : ConvCtl
  rowSets : List RowSet
  stage : ScoreStage
  factors : List (Option FactorSet)
  filter : List (BitVec 4 × Word)
  filtMax : List Nat
  dma : List DmaCh
  inflight : List PendingOp
  nextId : Nat
  sched : List SchedEntry
  regions : List Region
  unitFree : List Nat
  entering : List (Nat × Nat × Bool)
  numAt : List (Option Nat)
  integ : Integ
deriving DecidableEq, Repr

def Core.reset : Core :=
  { regs := [], shadow := [], mem := [], seq := Seq.reset, frame := Frame.none, lateStarts := [], workEnd := 0, behind := 0,
    te := Te.reset, ve0ctl := ConvCtl.reset, ve1ctl := ConvCtl.reset,
    rowSets := List.replicate 8 RowSet.reset, stage := ScoreStage.reset, factors := List.replicate 16 none,
    filter := [], filtMax := List.replicate 16 0, dma := List.replicate 4 DmaCh.reset, inflight := [], nextId := 0, sched := [], regions := [],
    unitFree := List.replicate 10 0, entering := [], numAt := List.replicate 12 none, integ := Integ.reset }


end Sys2Proof.Machine
end

