-- ==== Sys2Proof/Machine/RegMap.lean ====
section
/-! DEFINITION. The register map: every register of the manual's register tables, by its offset in a core's window
(R64) or in BAR0, with the access code and place of each field (R5) and its reset value. Where the manual gives a
register's reset value as a fuse the entry holds the fuse value of log entry 4, and where it gives a strap or a record
the entry holds 0 and start-up supplies it. -/

namespace Sys2Proof.Machine

/-- The access codes of R5; `rsv` is a reserved field, which R7 requires to be written as 0. -/
inductive Acc
  | rw | ro | wo | w1c | w1s | rws | cmt | rsv
deriving DecidableEq, Repr

/-- A run of like registers: the offset of the first, how many, the distance between them, the reset value and the
fields (high bit, low bit, access). -/
structure RegBlk where
  base : Nat
  count : Nat
  stride : Nat
  reset : Word
  fields : List (Nat × Nat × Acc)
deriving DecidableEq, Repr

/-- The registers of a core's window, part 1. -/
def coreRegs1 : List RegBlk := [
  -- CORE_ID
  ⟨0x0, 1, 4, 0x0#32, [(7, 0, .ro), (11, 8, .ro), (15, 12, .ro), (16, 16, .ro), (31, 17, .rsv)]⟩,
  -- BMAP_SETn
  ⟨0x1000, 16, 4, 0xFFFFFFFF#32, [(31, 0, .cmt)]⟩,
  -- FENCEn_BASE
  ⟨0x1100, 8, 16, 0x0#32, [(5, 0, .rsv), (22, 6, .cmt), (31, 23, .rsv)]⟩,
  -- FENCEn_LIMIT
  ⟨0x1104, 8, 16, 0x0#32, [(5, 0, .rsv), (22, 6, .cmt), (31, 23, .rsv)]⟩,
  -- FENCEn_CTL
  ⟨0x1108, 8, 16, 0x0#32, [(0, 0, .cmt), (9, 1, .cmt), (18, 10, .cmt), (31, 19, .rsv)]⟩,
  -- CORE_COMMIT
  ⟨0x1200, 1, 4, 0x0#32, [(0, 0, .wo), (1, 1, .wo), (2, 2, .wo), (31, 3, .rsv)]⟩,
  -- CORE_CMT_STATUS
  ⟨0x1204, 1, 4, 0x0#32, [(0, 0, .ro), (1, 1, .w1c), (2, 2, .w1c), (7, 3, .rsv), (15, 8, .ro), (31, 16, .ro)]⟩,
  -- CORE_COLLIDE
  ⟨0x1210, 1, 4, 0xFF000000#32, [(23, 0, .ro), (27, 24, .ro), (31, 28, .ro)]⟩,
  -- CORE_COLLIDE_ADDR
  ⟨0x1214, 1, 4, 0x0#32, [(22, 0, .ro), (31, 23, .rsv)]⟩,
  -- CORE_FAULT
  ⟨0x1220, 1, 4, 0x0#32, [(15, 0, .ro), (19, 16, .ro), (20, 20, .ro), (30, 21, .rsv), (31, 31, .w1c)]⟩,
  -- CORE_FAULT_ADDR
  ⟨0x1224, 1, 4, 0x0#32, [(22, 0, .ro), (31, 23, .rsv)]⟩,
  -- CORE_STALL
  ⟨0x1230, 1, 4, 0x0#32, [(31, 0, .ro)]⟩,
  -- SQ_STATUS
  ⟨0x2000, 1, 4, 0x0#32, [(0, 0, .ro), (1, 1, .ro), (5, 2, .ro), (15, 6, .rsv), (31, 16, .ro)]⟩,
  -- SQ_PC
  ⟨0x2004, 1, 4, 0x0#32, [(12, 0, .ro), (31, 13, .rsv)]⟩,
  -- SQ_STOPINFO
  ⟨0x2008, 1, 4, 0x0#32, [(15, 0, .ro), (28, 16, .ro), (30, 29, .rsv), (31, 31, .w1c)]⟩,
  -- SQ_CLAMP
  ⟨0x200C, 1, 4, 0x0#32, [(31, 0, .ro)]⟩,
  -- SQ_DBASE
  ⟨0x2010, 1, 4, 0x0#32, [(12, 0, .ro), (28, 13, .ro), (31, 29, .rsv)]⟩,
  -- SQ_CMT_STATUS
  ⟨0x2020, 1, 4, 0x0#32, [(0, 0, .ro), (1, 1, .rsv), (2, 2, .w1c), (3, 3, .w1c), (31, 4, .rsv)]⟩,
  -- SQ_CARRYn
  ⟨0x2040, 8, 4, 0x0#32, [(31, 0, .cmt)]⟩,
  -- SQ_EVBINDn
  ⟨0x2080, 16, 4, 0x0#32, [(7, 0, .cmt), (31, 8, .rsv)]⟩,
  -- SQ_EVCNTn
  ⟨0x20C0, 16, 4, 0x0#32, [(31, 0, .ro)]⟩,
  -- SQ_SREGn
  ⟨0x2100, 32, 4, 0x0#32, [(31, 0, .ro)]⟩,
  -- SQ_PREG
  ⟨0x2180, 1, 4, 0x1#32, [(7, 0, .ro), (31, 8, .rsv)]⟩,
  -- DMAn_STATUS
  ⟨0x2200, 4, 32, 0x0#32, [(0, 0, .ro), (4, 1, .ro), (5, 5, .ro), (15, 6, .rsv), (31, 16, .ro)]⟩,
  -- DMAn_LAST
  ⟨0x2204, 4, 32, 0x0#32, [(11, 0, .ro), (31, 12, .rsv)]⟩,
  -- DMAn_OVR_L
  ⟨0x2208, 4, 32, 0x0#32, [(31, 0, .ro)]⟩,
  -- DMAn_OVR_R
  ⟨0x220C, 4, 32, 0x0#32, [(31, 0, .ro)]⟩,
  -- DMAn_DONE
  ⟨0x2210, 4, 32, 0x0#32, [(31, 0, .ro)]⟩,
  -- TE_STATUS
  ⟨0x3000, 1, 4, 0x0#32, [(0, 0, .ro), (2, 1, .ro), (4, 3, .ro), (8, 5, .ro), (15, 9, .rsv), (31, 16, .ro)]⟩,
  -- TE_ACC_OWN
  ⟨0x3004, 1, 4, 0x0#32, [(15, 0, .ro), (31, 16, .rsv)]⟩]

/-- The registers of a core's window, part 2. -/
def coreRegs2 : List RegBlk := [
  -- TE_TILE_FLAGS
  ⟨0x3008, 1, 4, 0x0#32, [(15, 0, .ro), (31, 16, .ro)]⟩,
  -- TE_TILE_FLAGS2
  ⟨0x300C, 1, 4, 0x0#32, [(15, 0, .ro), (31, 16, .ro)]⟩,
  -- TE_CLAIM_FAULT
  ⟨0x3010, 1, 4, 0x0#32, [(3, 0, .ro), (16, 4, .ro), (29, 17, .ro), (30, 30, .rsv), (31, 31, .w1c)]⟩,
  -- TE_HDR_FAULT
  ⟨0x3014, 1, 4, 0x0#32, [(15, 0, .ro), (21, 16, .ro), (24, 22, .ro), (30, 25, .rsv), (31, 31, .w1c)]⟩,
  -- TE_HDR_ADDR
  ⟨0x3018, 1, 4, 0x0#32, [(22, 0, .ro), (31, 23, .rsv)]⟩,
  -- TE_EPOCH_EXP
  ⟨0x301C, 1, 4, 0x0#32, [(31, 0, .ro)]⟩,
  -- TE_EPOCH_FOUND
  ⟨0x3020, 1, 4, 0x0#32, [(31, 0, .ro)]⟩,
  -- TE_CQ_PEAK
  ⟨0x3024, 1, 4, 0x0#32, [(3, 0, .ro), (31, 4, .rsv)]⟩,
  -- TE_PRODUCTS
  ⟨0x3028, 1, 4, 0x0#32, [(31, 0, .ro)]⟩,
  -- NUMCTL
  ⟨0x4000, 1, 4, 0x0#32, [(0, 0, .cmt), (7, 1, .rsv), (14, 8, .cmt), (15, 15, .cmt), (31, 16, .rsv)]⟩,
  -- NUMSTAT
  ⟨0x4010, 1, 4, 0x0#32, [(0, 0, .w1c), (1, 1, .w1c), (2, 2, .w1c), (3, 3, .w1c), (4, 4, .w1c), (5, 5, .w1c), (15, 6, .rsv), (31, 16, .ro)]⟩,
  -- NUMSTAT_FRAME
  ⟨0x4014, 1, 4, 0x0#32, [(5, 0, .ro), (31, 6, .rsv)]⟩,
  -- NUM_FIRST_INV
  ⟨0x4018, 1, 4, 0x0#32, [(3, 0, .ro), (16, 4, .ro), (30, 17, .ro), (31, 31, .ro)]⟩,
  -- NUM_CLR
  ⟨0x401C, 1, 4, 0x0#32, [(0, 0, .wo), (31, 1, .rsv)]⟩,
  -- SATCNT_f
  ⟨0x4044, 11, 4, 0x0#32, [(31, 0, .ro)]⟩,
  -- NUM_SLATCHw
  ⟨0x4100, 64, 4, 0x0#32, [(31, 0, .ro)]⟩,
  -- NUM_RAMAXe
  ⟨0x4400, 256, 4, 0x0#32, [(31, 0, .ro)]⟩,
  -- PDESCn w0
  ⟨0x4800, 64, 32, 0x0#32, [(3, 0, .cmt), (4, 4, .cmt), (5, 5, .cmt), (6, 6, .cmt), (7, 7, .cmt), (8, 8, .cmt), (15, 9, .rsv), (23, 16, .cmt), (31, 24, .cmt)]⟩,
  -- PDESCn w1 OSCALE
  ⟨0x4804, 64, 32, 0x3F800000#32, [(31, 0, .cmt)]⟩,
  -- PDESCn w2 CLIP_LO
  ⟨0x4808, 64, 32, 0xFF800000#32, [(31, 0, .cmt)]⟩,
  -- PDESCn w3 CLIP_HI
  ⟨0x480C, 64, 32, 0x7F800000#32, [(31, 0, .cmt)]⟩,
  -- PDESCn w4 BIAS_ADDR
  ⟨0x4810, 64, 32, 0x0#32, [(22, 0, .cmt), (31, 23, .rsv)]⟩,
  -- PDESCn w5
  ⟨0x4814, 64, 32, 0x0#32, [(31, 0, .rsv)]⟩,
  -- PDESCn w6
  ⟨0x4818, 64, 32, 0x0#32, [(31, 0, .rsv)]⟩,
  -- PDESCn w7
  ⟨0x481C, 64, 32, 0x0#32, [(31, 0, .rsv)]⟩,
  -- VEn_STATUS
  ⟨0x5000, 2, 4, 0x0#32, [(0, 0, .ro), (15, 1, .rsv), (31, 16, .ro)]⟩,
  -- VEn_MASK0 LO
  ⟨0x5100, 2, 64, 0xFFFFFFFF#32, [(31, 0, .ro)]⟩,
  -- VEn_MASK0 HI
  ⟨0x5104, 2, 64, 0xFFFFFFFF#32, [(31, 0, .ro)]⟩,
  -- VE0_MASKm
  ⟨0x5108, 14, 4, 0x0#32, [(31, 0, .ro)]⟩,
  -- VE1_MASKm
  ⟨0x5148, 14, 4, 0x0#32, [(31, 0, .ro)]⟩]

/-- The registers of a core's window, part 3. -/
def coreRegs3 : List RegBlk := [
  -- XE_STATUS
  ⟨0x5200, 1, 4, 0x0#32, [(0, 0, .ro), (5, 1, .ro), (15, 6, .rsv), (31, 16, .ro)]⟩,
  -- XE_GOOR, XE_SOOR, XE_RCHIT
  ⟨0x5204, 3, 4, 0x0#32, [(31, 0, .ro)]⟩,
  -- XE_TRAP
  ⟨0x5210, 1, 4, 0x0#32, [(4, 0, .ro), (20, 5, .ro), (30, 21, .rsv), (31, 31, .w1c)]⟩,
  -- XE_TRAP_IDX
  ⟨0x5214, 1, 4, 0x0#32, [(31, 0, .ro)]⟩,
  -- XDESCn w0
  ⟨0x5400, 24, 128, 0x0#32, [(22, 0, .cmt), (25, 23, .cmt), (29, 26, .cmt), (31, 30, .rsv)]⟩,
  -- XDESCn w1
  ⟨0x5404, 24, 128, 0x0#32, [(22, 0, .cmt), (23, 23, .cmt), (24, 24, .cmt), (27, 25, .cmt), (31, 28, .rsv)]⟩,
  -- XDESCn w2
  ⟨0x5408, 24, 128, 0x0#32, [(3, 0, .cmt), (7, 4, .cmt), (11, 8, .cmt), (15, 12, .cmt), (16, 16, .cmt), (23, 17, .cmt), (27, 24, .cmt), (31, 28, .rsv)]⟩,
  -- XDESCn w3 FILL
  ⟨0x540C, 24, 128, 0x0#32, [(31, 0, .cmt)]⟩,
  -- XDESCn w4 IDX
  ⟨0x5410, 24, 128, 0x0#32, [(22, 0, .cmt), (31, 23, .rsv)]⟩,
  -- XDESCn w5 P
  ⟨0x5414, 24, 128, 0x0#32, [(14, 0, .cmt), (31, 15, .rsv)]⟩,
  -- XDESCn w6
  ⟨0x5418, 24, 128, 0x0#32, [(31, 0, .cmt)]⟩,
  -- XDESCn w7
  ⟨0x541C, 24, 128, 0x0#32, [(31, 0, .cmt)]⟩,
  -- XDESCn w8
  ⟨0x5420, 24, 128, 0x0#32, [(15, 0, .cmt), (31, 16, .rsv)]⟩,
  -- XDESCn w9
  ⟨0x5424, 24, 128, 0x0#32, [(31, 0, .cmt)]⟩,
  -- XDESCn w10
  ⟨0x5428, 24, 128, 0x0#32, [(31, 0, .cmt)]⟩,
  -- XDESCn w11
  ⟨0x542C, 24, 128, 0x0#32, [(15, 0, .cmt), (31, 16, .rsv)]⟩,
  -- XDESCn w12
  ⟨0x5430, 24, 128, 0x0#32, [(31, 0, .cmt)]⟩,
  -- XDESCn w13
  ⟨0x5434, 24, 128, 0x0#32, [(31, 0, .cmt)]⟩,
  -- XDESCn w14
  ⟨0x5438, 24, 128, 0x0#32, [(31, 0, .cmt)]⟩,
  -- XDESCn w15
  ⟨0x543C, 24, 128, 0x0#32, [(31, 0, .cmt)]⟩,
  -- XDESCn w16
  ⟨0x5440, 24, 128, 0x0#32, [(31, 0, .cmt)]⟩,
  -- XDESCn w17
  ⟨0x5444, 24, 128, 0x0#32, [(31, 0, .cmt)]⟩,
  -- XDESCn w18
  ⟨0x5448, 24, 128, 0x0#32, [(31, 0, .cmt)]⟩,
  -- XDESCn w19
  ⟨0x544C, 24, 128, 0x0#32, [(31, 0, .cmt)]⟩,
  -- XDESCn w20
  ⟨0x5450, 24, 128, 0x0#32, [(31, 0, .cmt)]⟩,
  -- XDESCn w21
  ⟨0x5454, 24, 128, 0x0#32, [(31, 0, .cmt)]⟩,
  -- XDESCn w22
  ⟨0x5458, 24, 128, 0x0#32, [(31, 0, .cmt)]⟩,
  -- XDESCn w23
  ⟨0x545C, 24, 128, 0x0#32, [(31, 0, .cmt)]⟩,
  -- XDESCn w24
  ⟨0x5460, 24, 128, 0x0#32, [(31, 0, .cmt)]⟩,
  -- XDESCn w25
  ⟨0x5464, 24, 128, 0x0#32, [(31, 0, .cmt)]⟩]

/-- The registers of a core's window, part 4. -/
def coreRegs4 : List RegBlk := [
  -- XDESCn w26
  ⟨0x5468, 24, 128, 0x0#32, [(31, 0, .cmt)]⟩,
  -- XDESCn w27
  ⟨0x546C, 24, 128, 0x0#32, [(31, 0, .cmt)]⟩,
  -- XDESCn w28
  ⟨0x5470, 24, 128, 0x0#32, [(31, 0, .cmt)]⟩,
  -- XDESCn w29
  ⟨0x5474, 24, 128, 0x0#32, [(15, 0, .cmt), (31, 16, .rsv)]⟩,
  -- XDESCn w30
  ⟨0x5478, 24, 128, 0x0#32, [(31, 0, .rsv)]⟩,
  -- XDESCn w31
  ⟨0x547C, 24, 128, 0x0#32, [(31, 0, .rsv)]⟩,
  -- UE_STATUS
  ⟨0x6000, 1, 4, 0x0#32, [(0, 0, .ro), (4, 1, .ro), (15, 5, .rsv), (31, 16, .ro)]⟩,
  -- UE_GSTEP_LO
  ⟨0x6004, 1, 4, 0x0#32, [(31, 0, .ro)]⟩,
  -- UE_GSTEP_HI
  ⟨0x6008, 1, 4, 0x0#32, [(7, 0, .ro), (8, 8, .ro), (31, 9, .rsv)]⟩,
  -- UE_SEEDn
  ⟨0x6010, 4, 4, 0x0#32, [(31, 0, .ro)]⟩,
  -- UE_PLATE_STATUS
  ⟨0x6020, 1, 4, 0x8#32, [(1, 0, .ro), (2, 2, .ro), (3, 3, .ro), (4, 4, .ro), (5, 5, .ro), (6, 6, .w1c), (31, 7, .rsv)]⟩,
  -- UE_FREEZE_LO
  ⟨0x6024, 1, 4, 0x0#32, [(31, 0, .rw)]⟩,
  -- UE_FREEZE_HI
  ⟨0x6028, 1, 4, 0x0#32, [(7, 0, .rw), (30, 8, .rsv), (31, 31, .rw)]⟩,
  -- UE_FIX_LO
  ⟨0x602C, 1, 4, 0x0#32, [(31, 0, .rw)]⟩,
  -- UE_FIX_HI
  ⟨0x6030, 1, 4, 0x0#32, [(7, 0, .rw), (30, 8, .rsv), (31, 31, .rw)]⟩,
  -- UE_STABLE_LO
  ⟨0x6034, 1, 4, 0x0#32, [(31, 0, .ro)]⟩,
  -- UE_STABLE_HI
  ⟨0x6038, 1, 4, 0x0#32, [(7, 0, .ro), (31, 8, .rsv)]⟩,
  -- UE_PBASEp_LO
  ⟨0x6040, 2, 8, 0x0#32, [(11, 0, .rsv), (31, 12, .ro)]⟩,
  -- UE_PBASEp_HI
  ⟨0x6044, 2, 8, 0x0#32, [(6, 0, .ro), (31, 7, .rsv)]⟩,
  -- UE_FS_VALID
  ⟨0x6050, 1, 4, 0x0#32, [(15, 0, .ro), (31, 16, .rsv)]⟩,
  -- UE_FILT
  ⟨0x6054, 1, 4, 0x0#32, [(15, 0, .ro), (31, 16, .rsv)]⟩,
  -- UE_ROWSKIP
  ⟨0x6058, 1, 4, 0x0#32, [(31, 0, .ro)]⟩,
  -- UE_FAULT
  ⟨0x605C, 1, 4, 0x0#32, [(15, 0, .ro), (19, 16, .ro), (23, 20, .ro), (30, 24, .rsv), (31, 31, .w1c)]⟩,
  -- UE_FILT_OOR
  ⟨0x6060, 1, 4, 0x0#32, [(31, 0, .ro)]⟩,
  -- UE_PSIZE
  ⟨0x6064, 1, 4, 0x0#32, [(31, 0, .ro)]⟩,
  -- UDESCd w0
  ⟨0x6400, 16, 64, 0x0#32, [(22, 0, .cmt), (23, 23, .cmt), (27, 24, .cmt), (31, 28, .rsv)]⟩,
  -- UDESCd w1
  ⟨0x6404, 16, 64, 0x0#32, [(22, 0, .cmt), (31, 23, .rsv)]⟩,
  -- UDESCd w2
  ⟨0x6408, 16, 64, 0x0#32, [(22, 0, .cmt), (31, 23, .rsv)]⟩,
  -- UDESCd w3
  ⟨0x640C, 16, 64, 0x0#32, [(22, 0, .cmt), (31, 23, .rsv)]⟩,
  -- UDESCd w4
  ⟨0x6410, 16, 64, 0x0#32, [(22, 0, .cmt), (26, 23, .cmt), (30, 27, .cmt), (31, 31, .cmt)]⟩]

/-- The registers of a core's window, part 5. -/
def coreRegs5 : List RegBlk := [
  -- UDESCd w5
  ⟨0x6414, 16, 64, 0x0#32, [(31, 0, .cmt)]⟩,
  -- UDESCd w6
  ⟨0x6418, 16, 64, 0x0#32, [(22, 0, .cmt), (31, 23, .rsv)]⟩,
  -- UDESCd w7
  ⟨0x641C, 16, 64, 0x0#32, [(22, 0, .cmt), (31, 23, .rsv)]⟩,
  -- UDESCd w8
  ⟨0x6420, 16, 64, 0x0#32, [(22, 0, .cmt), (31, 23, .rsv)]⟩,
  -- UDESCd w9
  ⟨0x6424, 16, 64, 0x0#32, [(31, 0, .cmt)]⟩,
  -- UDESCd w10
  ⟨0x6428, 16, 64, 0x0#32, [(31, 0, .cmt)]⟩,
  -- UDESCd w11
  ⟨0x642C, 16, 64, 0x0#32, [(7, 0, .cmt), (8, 8, .cmt), (9, 9, .cmt), (31, 10, .rsv)]⟩,
  -- UDESCd w12
  ⟨0x6430, 16, 64, 0x0#32, [(15, 0, .cmt), (31, 16, .cmt)]⟩,
  -- UDESCd w13
  ⟨0x6434, 16, 64, 0x0#32, [(31, 0, .cmt)]⟩,
  -- UDESCd w14
  ⟨0x6438, 16, 64, 0x0#32, [(31, 0, .rsv)]⟩,
  -- UDESCd w15
  ⟨0x643C, 16, 64, 0x0#32, [(31, 0, .rsv)]⟩,
  -- ME_STATUS
  ⟨0x7000, 1, 4, 0x0#32, [(0, 0, .ro), (4, 1, .ro), (5, 5, .ro), (15, 6, .rsv), (31, 16, .ro)]⟩,
  -- ME_RESULT0
  ⟨0x7004, 1, 4, 0x0#32, [(15, 0, .ro), (31, 16, .ro)]⟩,
  -- ME_RESULT1
  ⟨0x7008, 1, 4, 0x0#32, [(15, 0, .ro), (31, 16, .ro)]⟩,
  -- ME_RESULT2
  ⟨0x700C, 1, 4, 0x0#32, [(31, 0, .ro)]⟩,
  -- ME_FRAME
  ⟨0x7010, 1, 4, 0x0#32, [(15, 0, .ro), (31, 16, .ro)]⟩,
  -- ME_FAULT
  ⟨0x7014, 1, 4, 0x0#32, [(15, 0, .ro), (20, 16, .ro), (26, 21, .ro), (30, 27, .rsv), (31, 31, .w1c)]⟩,
  -- ME_SLOT_TAGk
  ⟨0x7100, 51, 4, 0x0#32, [(31, 0, .ro)]⟩,
  -- MDESCd w0 BODY
  ⟨0x7400, 32, 64, 0x0#32, [(22, 0, .cmt), (31, 23, .rsv)]⟩,
  -- MDESCd w1
  ⟨0x7404, 32, 64, 0x30#32, [(3, 0, .cmt), (7, 4, .cmt), (13, 8, .cmt), (16, 14, .cmt), (17, 17, .cmt), (18, 18, .cmt), (19, 19, .cmt), (20, 20, .cmt), (21, 21, .cmt), (31, 22, .rsv)]⟩,
  -- MDESCd w2 INITV
  ⟨0x7408, 32, 64, 0x0#32, [(31, 0, .cmt)]⟩,
  -- MDESCd w3 DECAY
  ⟨0x740C, 32, 64, 0x0#32, [(31, 0, .cmt)]⟩,
  -- MDESCd w4 SBUF
  ⟨0x7410, 32, 64, 0x0#32, [(22, 0, .cmt), (23, 23, .cmt), (31, 24, .rsv)]⟩,
  -- MDESCd w5 REPORT
  ⟨0x7414, 32, 64, 0x0#32, [(22, 0, .cmt), (31, 23, .rsv)]⟩,
  -- MDESCd w6 plane 0
  ⟨0x7418, 32, 64, 0x0#32, [(22, 0, .cmt), (23, 23, .cmt), (24, 24, .cmt), (31, 25, .rsv)]⟩,
  -- MDESCd w7 plane 1
  ⟨0x741C, 32, 64, 0x0#32, [(22, 0, .cmt), (23, 23, .cmt), (24, 24, .cmt), (31, 25, .rsv)]⟩,
  -- MDESCd w8 plane 2
  ⟨0x7420, 32, 64, 0x0#32, [(22, 0, .cmt), (23, 23, .cmt), (24, 24, .cmt), (31, 25, .rsv)]⟩,
  -- MDESCd w9 plane 3
  ⟨0x7424, 32, 64, 0x0#32, [(22, 0, .cmt), (23, 23, .cmt), (24, 24, .cmt), (31, 25, .rsv)]⟩,
  -- MDESCd w10
  ⟨0x7428, 32, 64, 0x0#32, [(31, 0, .rsv)]⟩,
  -- MDESCd w11
  ⟨0x742C, 32, 64, 0x0#32, [(31, 0, .rsv)]⟩]

/-- The registers of a core's window, part 6. -/
def coreRegs6 : List RegBlk := [
  -- MDESCd w12
  ⟨0x7430, 32, 64, 0x0#32, [(31, 0, .rsv)]⟩,
  -- MDESCd w13
  ⟨0x7434, 32, 64, 0x0#32, [(31, 0, .rsv)]⟩,
  -- MDESCd w14
  ⟨0x7438, 32, 64, 0x0#32, [(31, 0, .rsv)]⟩,
  -- MDESCd w15
  ⟨0x743C, 32, 64, 0x0#32, [(31, 0, .rsv)]⟩,
  -- PENTj w0 CTL
  ⟨0x7C00, 16, 32, 0x680#32, [(0, 0, .cmt), (7, 1, .cmt), (11, 8, .cmt), (31, 12, .rsv)]⟩,
  -- PENTj w1 THRESH
  ⟨0x7C04, 16, 32, 0x0#32, [(31, 0, .cmt)]⟩,
  -- PENTj w2 MISS_THR
  ⟨0x7C08, 16, 32, 0x0#32, [(31, 0, .cmt)]⟩,
  -- PENTj w3 LIM_DEN
  ⟨0x7C0C, 16, 32, 0x100#32, [(15, 0, .cmt), (31, 16, .rsv)]⟩,
  -- PENTj w4 STATE
  ⟨0x7C10, 16, 32, 0x0#32, [(0, 0, .ro), (1, 1, .ro), (31, 2, .rsv)]⟩,
  -- PENTj w5
  ⟨0x7C14, 16, 32, 0x0#32, [(15, 0, .ro), (31, 16, .ro)]⟩,
  -- PENTj w6 TOTAL_MISSES
  ⟨0x7C18, 16, 32, 0x0#32, [(31, 0, .ro)]⟩,
  -- PENTj w7
  ⟨0x7C1C, 16, 32, 0x0#32, [(31, 0, .rsv)]⟩,
  -- INT_STATUS
  ⟨0x8000, 1, 4, 0x0#32, [(0, 0, .ro), (1, 1, .ro), (2, 2, .w1c), (3, 3, .w1c), (4, 4, .w1c), (15, 5, .rsv), (31, 16, .ro)]⟩,
  -- INT_LAST
  ⟨0x8004, 1, 4, 0x0#32, [(5, 0, .rsv), (22, 6, .ro), (25, 23, .ro), (26, 26, .ro), (27, 27, .ro), (28, 28, .ro), (30, 29, .rsv), (31, 31, .w1c)]⟩,
  -- INT_MISS, INT_REFETCH, INT_PATROL
  ⟨0x8008, 3, 4, 0x0#32, [(31, 0, .ro)]⟩,
  -- INT_WINDOW
  ⟨0x8014, 1, 4, 0x258#32, [(16, 0, .rw), (31, 17, .rsv)]⟩,
  -- INT_CTL
  ⟨0x8018, 1, 4, 0x1#32, [(0, 0, .rw), (31, 1, .rsv)]⟩,
  -- BKTm_CFG
  ⟨0x8040, 6, 8, 0x1010#32, [(4, 0, .rw), (7, 5, .rsv), (15, 8, .rw), (31, 16, .rsv)]⟩,
  -- BKTm_LEVEL
  ⟨0x8044, 6, 8, 0x0#32, [(7, 0, .ro), (8, 8, .w1c), (31, 9, .rsv)]⟩,
  -- REMAPe
  ⟨0x8100, 38, 4, 0x0#32, [(0, 0, .ro), (2, 1, .ro), (5, 3, .rsv), (22, 6, .ro), (31, 23, .rsv)]⟩,
  -- contact sheet record
  ⟨0x9000, 32, 4, 0x0#32, [(31, 0, .ro)]⟩]

/-- The registers of a core's window. -/
def coreRegs : List RegBlk := coreRegs1 ++ coreRegs2 ++ coreRegs3 ++ coreRegs4 ++ coreRegs5 ++ coreRegs6

/-- The registers of the BAR0 global area, part 1. -/
def globRegs1 : List RegBlk := [
  -- CHIP_LOT
  ⟨0x0, 1, 4, 0x1#32, [(31, 0, .ro)]⟩,
  -- CHIP_DIE
  ⟨0x4, 1, 4, 0xB1000001#32, [(31, 0, .ro)]⟩,
  -- CHIP_TCLASS
  ⟨0x8, 1, 4, 0x3#32, [(0, 0, .ro), (1, 1, .ro), (31, 2, .rsv)]⟩,
  -- CHIP_SPARE_LO
  ⟨0xC, 1, 4, 0xCCCCCCCC#32, [(31, 0, .ro)]⟩,
  -- CHIP_SPARE_HI
  ⟨0x10, 1, 4, 0xCCCC#32, [(15, 0, .ro), (31, 16, .rsv)]⟩,
  -- CHIP_LCS
  ⟨0x14, 1, 4, 0x1B#32, [(2, 0, .ro), (5, 3, .ro), (7, 6, .ro), (31, 8, .rsv)]⟩,
  -- SEC_STATUS
  ⟨0x10000, 1, 4, 0x0#32, [(0, 0, .ro), (16, 1, .ro), (21, 17, .ro), (22, 22, .ro), (23, 23, .w1c), (31, 24, .rsv)]⟩,
  -- SEC_JOBKEYID, SEC_AKID
  ⟨0x10004, 2, 4, 0x0#32, [(31, 0, .ro)]⟩,
  -- SEC_AUDIT_LO, SEC_AUDIT_HI
  ⟨0x10010, 2, 4, 0x0#32, [(31, 0, .ro)]⟩,
  -- SEC_MRn
  ⟨0x10100, 96, 4, 0x0#32, [(31, 0, .ro)]⟩,
  -- HTU_STATUS
  ⟨0x20000, 1, 4, 0x0#32, [(0, 0, .ro), (1, 1, .ro), (2, 2, .w1c), (3, 3, .ro), (15, 4, .rsv), (31, 16, .ro)]⟩,
  -- HTU_TREQ
  ⟨0x20004, 1, 4, 0x0#32, [(1, 0, .wo), (2, 2, .wo), (15, 3, .rsv), (31, 16, .wo)]⟩,
  -- HTU_TGEN
  ⟨0x20008, 1, 4, 0x0#32, [(31, 0, .rw)]⟩,
  -- HTU_TKEY
  ⟨0x2000C, 1, 4, 0x0#32, [(0, 0, .ro)]⟩,
  -- HTU_TRES
  ⟨0x20010, 1, 4, 0x0#32, [(15, 0, .ro), (29, 16, .ro), (30, 30, .rsv), (31, 31, .w1c)]⟩,
  -- HTU_TDUR
  ⟨0x20014, 1, 4, 0x0#32, [(31, 0, .ro)]⟩,
  -- HTU_CTL
  ⟨0x20018, 1, 4, 0x1#32, [(0, 0, .rw), (1, 1, .rw), (31, 2, .rsv)]⟩,
  -- HTU_COV_INTERVAL
  ⟨0x2001C, 1, 4, 0x18#32, [(7, 0, .rw), (31, 8, .rsv)]⟩,
  -- HTU_COV
  ⟨0x20020, 1, 4, 0x0#32, [(13, 0, .ro), (31, 14, .ro)]⟩,
  -- HTU_VOFS
  ⟨0x20024, 1, 4, 0x0#32, [(5, 0, .ro), (8, 6, .ro), (15, 9, .rsv), (31, 16, .ro)]⟩,
  -- HTU_CANSEL
  ⟨0x20028, 1, 4, 0x0#32, [(10, 0, .rw), (31, 11, .rsv)]⟩,
  -- HTU_CANVAL
  ⟨0x2002C, 1, 4, 0x0#32, [(15, 0, .ro), (31, 16, .rsv)]⟩,
  -- BKTCm_CFG
  ⟨0x20400, 26, 8, 0x1010#32, [(4, 0, .rw), (7, 5, .rsv), (15, 8, .rw), (31, 16, .rsv)]⟩,
  -- BKTCm_LEVEL
  ⟨0x20404, 26, 8, 0x0#32, [(7, 0, .ro), (8, 8, .w1c), (31, 9, .rsv)]⟩,
  -- CPM_PCLASS
  ⟨0x30000, 1, 4, 0x0#32, [(1, 0, .cmt), (31, 2, .rsv)]⟩,
  -- CPM_COMMIT
  ⟨0x30004, 1, 4, 0x0#32, [(0, 0, .wo), (1, 1, .wo), (2, 2, .wo), (31, 3, .rsv)]⟩,
  -- CPM_CMT_STATUS
  ⟨0x30008, 1, 4, 0x0#32, [(0, 0, .ro), (1, 1, .w1c), (2, 2, .w1c), (7, 3, .rsv), (15, 8, .ro), (31, 16, .ro)]⟩,
  -- CPM_STATUS
  ⟨0x3000C, 1, 4, 0x0#32, [(1, 0, .ro), (3, 2, .ro), (4, 4, .ro), (5, 5, .ro), (6, 6, .w1c), (15, 7, .rsv), (25, 16, .ro), (31, 26, .rsv)]⟩,
  -- CPM_INPUT
  ⟨0x30010, 1, 4, 0x0#32, [(15, 0, .ro), (31, 16, .ro)]⟩,
  -- CPM_STRAPS
  ⟨0x30014, 1, 4, 0x0#32, [(1, 0, .ro), (3, 2, .ro), (4, 4, .ro), (8, 5, .ro), (9, 9, .ro), (31, 10, .rsv)]⟩,
  -- CPM_LASTOFF
  ⟨0x30018, 1, 4, 0x0#32, [(3, 0, .ro), (31, 4, .rsv)]⟩]

/-- The registers of the BAR0 global area, part 2. -/
def globRegs2 : List RegBlk := [
  -- CPM_KEY
  ⟨0x3001C, 1, 4, 0x0#32, [(0, 0, .ro)]⟩,
  -- SHT_PERIOD
  ⟨0x40000, 1, 4, 0xF4240#32, [(31, 0, .cmt)]⟩,
  -- SHT_CTL
  ⟨0x40004, 1, 4, 0x0#32, [(0, 0, .cmt), (2, 1, .cmt), (3, 3, .cmt), (4, 4, .cmt), (31, 5, .rsv)]⟩,
  -- SHT_COMMIT
  ⟨0x40008, 1, 4, 0x0#32, [(0, 0, .wo), (1, 1, .wo), (2, 2, .wo), (31, 3, .rsv)]⟩,
  -- SHT_FN_LO
  ⟨0x40010, 1, 4, 0x0#32, [(31, 0, .ro)]⟩,
  -- SHT_FN_HI
  ⟨0x40014, 1, 4, 0x0#32, [(15, 0, .ro), (31, 16, .rsv)]⟩,
  -- SHT_START_LO
  ⟨0x40018, 1, 4, 0x0#32, [(31, 0, .cmt)]⟩,
  -- SHT_START_HI
  ⟨0x4001C, 1, 4, 0x0#32, [(15, 0, .cmt), (31, 16, .rsv)]⟩,
  -- SHT_STATUS
  ⟨0x40020, 1, 4, 0x0#32, [(0, 0, .ro), (1, 1, .w1c), (2, 2, .w1c), (3, 3, .ro), (4, 4, .w1c), (5, 5, .ro), (15, 6, .rsv), (31, 16, .ro)]⟩,
  -- SHT_OVR_CNT
  ⟨0x40024, 1, 4, 0x0#32, [(31, 0, .ro)]⟩,
  -- SHT_POLICY
  ⟨0x40028, 1, 4, 0x14#32, [(1, 0, .cmt), (3, 2, .cmt), (5, 4, .cmt), (7, 6, .cmt), (8, 8, .cmt), (31, 9, .rsv)]⟩,
  -- SHT_PHASE
  ⟨0x4002C, 1, 4, 0x0#32, [(15, 0, .ro), (31, 16, .ro)]⟩,
  -- SHT_SYNC_PORT
  ⟨0x40030, 1, 4, 0x0#32, [(3, 0, .cmt), (15, 4, .rsv), (31, 16, .cmt)]⟩,
  -- SHT_SLOT
  ⟨0x40034, 1, 4, 0x0#32, [(5, 0, .ro), (6, 6, .ro), (31, 7, .rsv)]⟩,
  -- SHT_CYC
  ⟨0x40038, 1, 4, 0x1B774#32, [(31, 0, .ro)]⟩,
  -- SHT_LATE
  ⟨0x4003C, 1, 4, 0x0#32, [(31, 0, .ro)]⟩,
  -- SHT_CMT_STATUS
  ⟨0x40040, 1, 4, 0x0#32, [(0, 0, .ro), (1, 1, .w1c), (2, 2, .w1c), (7, 3, .rsv), (15, 8, .ro), (31, 16, .ro)]⟩,
  -- SHT_KEY
  ⟨0x40044, 1, 4, 0x0#32, [(0, 0, .ro)]⟩,
  -- CS_CTL
  ⟨0x40100, 1, 4, 0x0#32, [(0, 0, .cmt), (31, 1, .rsv)]⟩,
  -- CS_BASE_LO
  ⟨0x40104, 1, 4, 0x0#32, [(11, 0, .rsv), (31, 12, .cmt)]⟩,
  -- CS_BASE_HI
  ⟨0x40108, 1, 4, 0x0#32, [(6, 0, .cmt), (31, 7, .rsv)]⟩,
  -- CS_DEPTH
  ⟨0x4010C, 1, 4, 0x10#32, [(16, 0, .cmt), (31, 17, .rsv)]⟩,
  -- CS_STATUS
  ⟨0x40110, 1, 4, 0x0#32, [(31, 0, .ro)]⟩,
  -- LD_STATUS
  ⟨0x50000, 1, 4, 0x0#32, [(0, 0, .ro), (1, 1, .ro), (15, 2, .rsv), (31, 16, .ro)]⟩,
  -- LD_WHERE
  ⟨0x50004, 1, 4, 0x0#32, [(7, 0, .ro), (13, 8, .ro), (15, 14, .rsv), (28, 16, .ro), (31, 29, .rsv)]⟩,
  -- LD_DETAIL
  ⟨0x50008, 1, 4, 0x0#32, [(31, 0, .ro)]⟩,
  -- LD_IMAGE_IDn
  ⟨0x50010, 4, 4, 0x0#32, [(31, 0, .ro)]⟩,
  -- LD_TOKPEAK
  ⟨0x50020, 1, 4, 0x0#32, [(15, 0, .ro), (23, 16, .ro), (31, 24, .rsv)]⟩,
  -- LD_OVERDRAW
  ⟨0x50024, 1, 4, 0x0#32, [(29, 0, .ro), (30, 30, .rsv), (31, 31, .w1c)]⟩,
  -- LD_OVERDRAW_FN
  ⟨0x50028, 1, 4, 0x0#32, [(31, 0, .ro)]⟩]

/-- The registers of the BAR0 global area, part 3. -/
def globRegs3 : List RegBlk := [
  -- LNK_COMMIT
  ⟨0x60000, 1, 4, 0x0#32, [(0, 0, .wo), (1, 1, .wo), (2, 2, .wo), (31, 3, .rsv)]⟩,
  -- LNK_CMT_STATUS
  ⟨0x60004, 1, 4, 0x0#32, [(0, 0, .ro), (1, 1, .w1c), (2, 2, .w1c), (7, 3, .rsv), (15, 8, .ro), (31, 16, .ro)]⟩,
  -- LNK_KEY
  ⟨0x60008, 1, 4, 0x0#32, [(0, 0, .ro)]⟩,
  -- ROS_SELF
  ⟨0x60800, 1, 4, 0x0#32, [(31, 0, .ro)]⟩,
  -- ROS_EPOCH
  ⟨0x60804, 1, 4, 0x0#32, [(31, 0, .ro)]⟩,
  -- ROS_NEXT
  ⟨0x60808, 1, 4, 0x0#32, [(31, 0, .ro)]⟩,
  -- ROS_BOUND_LO
  ⟨0x6080C, 1, 4, 0x0#32, [(31, 0, .ro)]⟩,
  -- ROS_BOUND_HI
  ⟨0x60810, 1, 4, 0x0#32, [(15, 0, .ro), (16, 16, .ro), (31, 17, .rsv)]⟩,
  -- ROS_COUNT
  ⟨0x60814, 1, 4, 0x0#32, [(13, 0, .ro), (31, 14, .rsv)]⟩,
  -- ROS_SKEW
  ⟨0x60818, 1, 4, 0x0#32, [(31, 0, .ro)]⟩,
  -- COL_STATUS
  ⟨0x60C00, 1, 4, 0x0#32, [(0, 0, .ro), (9, 1, .ro), (10, 10, .w1c), (11, 11, .w1c), (15, 12, .rsv), (31, 16, .ro)]⟩,
  -- COL_FAULT
  ⟨0x60C04, 1, 4, 0x0#32, [(7, 0, .ro), (23, 8, .ro), (30, 24, .rsv), (31, 31, .w1c)]⟩,
  -- COL_DONE, COL_DROPPED
  ⟨0x60C08, 2, 4, 0x0#32, [(31, 0, .ro)]⟩,
  -- LNK_PCTLp
  ⟨0x61000, 16, 64, 0x0#32, [(0, 0, .cmt), (2, 1, .cmt), (31, 3, .rsv)]⟩,
  -- LNK_PSTATUSp
  ⟨0x61004, 16, 64, 0x0#32, [(2, 0, .ro), (4, 3, .ro), (5, 5, .ro), (9, 6, .ro), (15, 10, .rsv), (31, 16, .ro)]⟩,
  -- LNK_PPEERp
  ⟨0x61008, 16, 64, 0x0#32, [(31, 0, .ro)]⟩,
  -- LNK_PDELAYp
  ⟨0x6100C, 16, 64, 0x0#32, [(15, 0, .ro), (31, 16, .rsv)]⟩,
  -- LNK_FEC_CORR
  ⟨0x61010, 16, 64, 0x0#32, [(31, 0, .ro)]⟩,
  -- LNK_FEC_UNCORR
  ⟨0x61014, 16, 64, 0x0#32, [(31, 0, .ro)]⟩,
  -- LNK_CRC_FAIL
  ⟨0x61018, 16, 64, 0x0#32, [(31, 0, .ro)]⟩,
  -- LNK_RETRIES
  ⟨0x6101C, 16, 64, 0x0#32, [(31, 0, .ro)]⟩,
  -- LNK_AUTH_FAIL
  ⟨0x61020, 16, 64, 0x0#32, [(31, 0, .ro)]⟩,
  -- LNK_WIN_DROP
  ⟨0x61024, 16, 64, 0x0#32, [(31, 0, .ro)]⟩,
  -- LNK_TX_FLITS
  ⟨0x61028, 16, 64, 0x0#32, [(31, 0, .ro)]⟩,
  -- LNK_KEYGEN
  ⟨0x6102C, 16, 64, 0x0#32, [(31, 0, .ro)]⟩,
  -- HIF_LINK
  ⟨0x70000, 1, 4, 0x0#32, [(2, 0, .ro), (4, 3, .ro), (5, 5, .ro), (31, 6, .rsv)]⟩,
  -- HIF_DOORBELL
  ⟨0x70004, 1, 4, 0x0#32, [(15, 0, .wo), (31, 16, .rsv)]⟩,
  -- HIF_DBKEY
  ⟨0x70008, 1, 4, 0x0#32, [(0, 0, .ro)]⟩,
  -- HIF_SEGn
  ⟨0x70100, 16, 4, 0x80000000#32, [(6, 0, .rw), (29, 7, .rsv), (30, 30, .rw), (31, 31, .rw)]⟩,
  -- HIF_RETAIN_LO, HIF_RETAIN_HI, HIF_NQ_DROP, HIF_KV_CLIP, HIF_KV_BADCOMMIT
  ⟨0x70200, 5, 4, 0x0#32, [(31, 0, .ro)]⟩]

/-- The registers of the BAR0 global area, part 4. -/
def globRegs4 : List RegBlk := [
  -- HIF_NVME_ERR
  ⟨0x70214, 1, 4, 0x0#32, [(15, 0, .ro), (31, 16, .ro)]⟩,
  -- MBOXn_DOORBELL
  ⟨0x81000, 16, 8192, 0x0#32, [(31, 0, .wo)]⟩,
  -- MBOXn_STATUS
  ⟨0x81004, 16, 8192, 0x0#32, [(0, 0, .ro), (1, 1, .w1c), (2, 2, .w1c), (15, 3, .rsv), (31, 16, .ro)]⟩,
  -- MBOXn_DSEQ
  ⟨0x81008, 16, 8192, 0x0#32, [(31, 0, .ro)]⟩,
  -- KV region w0
  ⟨0xA0000, 256, 32, 0x0#32, [(5, 0, .rsv), (31, 6, .ro)]⟩,
  -- KV region w1
  ⟨0xA0004, 256, 32, 0x0#32, [(15, 0, .ro), (31, 16, .rsv)]⟩,
  -- KV region w2
  ⟨0xA0008, 256, 32, 0x0#32, [(31, 0, .ro)]⟩,
  -- KV region w3
  ⟨0xA000C, 256, 32, 0x0#32, [(31, 0, .ro)]⟩,
  -- KV region w4
  ⟨0xA0010, 256, 32, 0x0#32, [(31, 0, .ro)]⟩,
  -- KV region w5
  ⟨0xA0014, 256, 32, 0x0#32, [(31, 0, .ro)]⟩,
  -- KV region w6
  ⟨0xA0018, 256, 32, 0x0#32, [(6, 0, .ro), (31, 7, .rsv)]⟩,
  -- KV region w7
  ⟨0xA001C, 256, 32, 0x0#32, [(31, 0, .rsv)]⟩]

/-- The registers of the BAR0 global area. -/
def globRegs : List RegBlk := globRegs1 ++ globRegs2 ++ globRegs3 ++ globRegs4

/-- The offset belongs to the run of registers. -/
def RegBlk.holds (b : RegBlk) (off : Nat) : Bool :=
  decide (b.base ≤ off) && decide ((off - b.base) % b.stride = 0) && decide ((off - b.base) / b.stride < b.count)

/-- The run a register's offset belongs to. -/
def findReg (l : List RegBlk) (off : Nat) : Option RegBlk := l.find? (·.holds off)

/-- The bits of a register whose access code is `a`. -/
def RegBlk.mask (b : RegBlk) (a : Acc) : Word :=
  BitVec.ofNat 32 (b.fields.foldl (fun m f => if f.2.2 = a then m ||| maskOf f.1 f.2.1 else m) 0)

/-- Reset value of a register of a core's window; 0 at a reserved offset (R64). -/
def coreReset (off : Nat) : Word :=
  match findReg coreRegs off with
  | some b => b.reset
  | none => 0#32

/-- Reset value of a register of the global area; 0 at a reserved offset. -/
def globReset (off : Nat) : Word :=
  match findReg globRegs off with
  | some b =>
    if b.base = 0x70100 then b.reset ||| BitVec.ofNat 32 ((off - 0x70100) / 4)
    else b.reset
  | none => 0#32

end Sys2Proof.Machine
end

