-- ==== Sys2Proof/Machine/Ops.lean ====
section
/-! DEFINITION. The named operations over one core: its registers, its memories with what may land early, fences,
scalar registers with their contract latencies, status codes, aborts, accumulator claims, and the issue and completion
of engine instructions. -/

namespace Sys2Proof.Machine

/-- What an operation on a core sees of the rest of the chip: the cycle of the operation, the free-value counter, the core's number
and the number of the image's load, whether timing class TC1 is in force (R276), whether a shift window is open (R19), the shutter's
time base in seconds (R377), the image's WAITX budgets (R281), and the bytes that descriptors in flight will write into this core. -/
structure Ctx where
  clock : Nat
  ctr : Nat
  own : Nat
  map : Nat
  tc1 : Bool
  shift : Bool
  second : Nat
  budgets : List Nat
  landing : List (Nat × List Byte)

/-! ## Registers -/

/-- The value in force of a register of the core's window. -/
def Core.reg (c : Core) (off : Nat) : Word := Sparse.get coreReset c.regs off

/-- The core with a register written. -/
def Core.setReg (c : Core) (off : Nat) (w : Word) : Core := { c with regs := Sparse.set coreReset c.regs off w }

/-- The shadow of a CMT register (R6). -/
def Core.shadowReg (c : Core) (off : Nat) : Word := Sparse.get coreReset c.shadow off

/-- The core with a shadow written. -/
def Core.setShadow (c : Core) (off : Nat) (w : Word) : Core :=
  { c with shadow := Sparse.set coreReset c.shadow off w }

/-- Field [hi:lo] of a register. -/
def Core.rf (c : Core) (off hi lo : Nat) : Nat := fld (c.reg off) hi lo

/-- The core with field [hi:lo] of a register written. -/
def Core.setRf (c : Core) (off hi lo v : Nat) : Core := c.setReg off (setFld (c.reg off) hi lo v)

/-- The core with `n` added to a counter register that saturates. -/
def Core.bump (c : Core) (off n : Nat) : Core := c.setReg off (satAdd32 (c.reg off) n)

/-! ## Memories -/

/-- The line an address lies in. -/
def lineOf (a : Nat) : Nat := a / 64 * 64

/-- The scratchpad bank of an address (R43). -/
def bankOf (a : Nat) : Nat := a / 0x80000

/-- Core-local address of element `e` = 128 r + n of accumulator tile `t` (R109). -/
def tileAddr (t e : Nat) : Nat := 0x400000 + t * 0x10000 + 4 * e

/-- Base of VE0's (`false`) or VE1's operand cache (R160). -/
def cacheBase (ve : Bool) : Nat := if ve then 0x580000 else 0x560000

/-- Base of sheet slot `k` of the index bank (R99). -/
def sheetBase (k : Nat) : Nat := 0x540000 + k * 0xA00

/-- The run of bytes covers the address. -/
def runHas (r : Nat × List Byte) (a : Nat) : Bool := decide (r.1 ≤ a) && decide (a < r.1 + r.2.length)

/-- The run of bytes touches the 64-byte line of an address. -/
def runMeets (r : Nat × List Byte) (a : Nat) : Bool := decide (r.1 / 64 ≤ a / 64) && decide (a / 64 * 64 < r.1 + r.2.length)

/-- The bytes that an effect writes. -/
def Eff.run (e : Eff) : Option (Nat × List Byte) :=
  match e with
  | .mem b bs => some (b, bs)
  | _ => none

/-- The effect adds into the accumulator element at an address. -/
def Eff.addsAt (e : Eff) (a : Nat) : Bool :=
  match e with
  | .acc t i _ _ _ _ => decide (tileAddr t i ≤ a) && decide (a < tileAddr t i + 4)
  | .accInt t i _ _ _ => decide (tileAddr t i ≤ a) && decide (a < tileAddr t i + 4)
  | _ => false

/-- The effect writes or adds somewhere in the `n` bytes from an address. -/
def Eff.touches (e : Eff) (a n : Nat) : Bool :=
  match e with
  | .mem b bs => decide (b < a + n) && decide (a < b + bs.length)
  | .acc t i _ _ _ _ => decide (tileAddr t i < a + n) && decide (a < tileAddr t i + 4)
  | .accInt t i _ _ _ => decide (tileAddr t i < a + n) && decide (a < tileAddr t i + 4)
  | _ => false

/-- One byte of on-chip memory as a read at this cycle sees it, with effects in flight `effs` and bytes that descriptors will write
`land`: of the writes under way to its line, some have been performed and the others not (R52, R278, R464), the same for every byte of
the line; an accumulator element under addition is undefined (R111). -/
def byteUnder (ctr : Nat) (mem : List (Nat × Byte)) (effs : List Eff) (land : List (Nat × List Byte)) (a : Nat) : Byte :=
  if effs.any (·.addsAt a) then Config.freeByte ctr a
  else
    let done := Config.landed ctr (a / 64)
    (((effs.filterMap (·.run) ++ land).filter (runMeets · a)).foldl (fun (r : Byte × Nat) w =>
      (if done.testBit r.2 && runHas w a then w.2.getD (a - w.1) 0#8 else r.1, r.2 + 1)) (Memory.byte mem a, 0)).1

/-- What is in flight over the `n` bytes from an address. -/
def Core.inFlightOver (k : Ctx) (c : Core) (a n : Nat) : List Eff × List (Nat × List Byte) :=
  ((c.inflight.flatMap (·.effs)).filter (·.touches a n),
    k.landing.filter fun r => decide (r.1 < a + n) && decide (a < r.1 + r.2.length))

/-- `n` bytes of on-chip memory from `a` as a read at this cycle sees them. -/
def Core.read (k : Ctx) (c : Core) (a n : Nat) : List Byte :=
  match c.inFlightOver k a n with
  | ([], []) => Memory.read c.mem a n
  | (effs, land) => (List.range n).map fun i => byteUnder k.ctr c.mem effs land (a + i)

/-- The core with bytes of its on-chip memory written. -/
def Core.write (c : Core) (a : Nat) (bs : List Byte) : Core := { c with mem := Memory.write c.mem a bs }

/-! ## Fences (R57, R58) -/

/-- Fence `i` is enabled and its range holds the line of `a`. -/
def Core.fenceOn (c : Core) (i a : Nat) : Bool :=
  bitAt (c.reg (0x1108 + 16 * i)) 0 &&
    decide (c.rf (0x1100 + 16 * i) 22 6 ≤ a / 64) && decide (a / 64 ≤ c.rf (0x1104 + 16 * i) 22 6)

/-- An access by a master is denied: by an enabled fence, or because the address is in no memory (R42). -/
def Core.denies (c : Core) (master : Nat) (wr : Bool) (a : Nat) : Bool :=
  decide (0x5A0000 ≤ a) ||
    (List.range 8).any fun i => c.fenceOn i a && !bitAt (c.reg (0x1108 + 16 * i)) ((if wr then 1 else 10) + master)

/-- The runs of bytes, line by line, of `n` bytes from `a`. -/
def lineRuns (a n : Nat) : List (Nat × Nat) :=
  (List.range ((a + n + 63) / 64 - a / 64)).map fun i =>
    let l := (a / 64 + i) * 64
    let s := if l < a then a else l
    (s, (if l + 64 < a + n then l + 64 else a + n) - s)

/-- `n` bytes from `a` read by a master: zeros where denied, and the violations (R58). -/
def Core.readE (k : Ctx) (c : Core) (master a n : Nat) : List Byte × List Eff :=
  let bad := (lineRuns a n).filter fun r => c.denies master false r.1
  if bad.isEmpty then (c.read k a n, [])
  else
    ((c.read k a n).mapIdx fun i b => if c.denies master false (a + i) then 0#8 else b,
      bad.map fun r => .fence (lineOf r.1) master false)

/-- Bytes written from `a` by a master, line by line; a denied line is discarded (R58). -/
def Core.writeE (c : Core) (master a : Nat) (bs : List Byte) : List Eff :=
  (lineRuns a bs.length).map fun r =>
    if c.denies master true r.1 then .fence (lineOf r.1) master true
    else .mem r.1 ((bs.drop (r.1 - a)).take r.2)

/-! ## Scalar registers and predicates (R229) -/

/-- The list with a coming result placed by its due cycle, later ones of one cycle after earlier ones. -/
def SeqWrite.place (w : SeqWrite) : List SeqWrite → List SeqWrite
  | [] => [w]
  | x :: t => if w.due < x.due then w :: x :: t else x :: SeqWrite.place w t

/-- The sequencer with one result in place; s0 and p0 are never written. -/
def Seq.put (q : Seq) (d : SeqDst) (v : Word) : Seq :=
  match d with
  | .sreg r => if r = 0#5 then q else { q with sregs := setAt q.sregs r.toNat v }
  | .pred p =>
    if p = 0#3 then q
    else { q with preds := if v = 0#32 then q.preds &&& ~~~ (1#8 <<< p.toNat) else q.preds ||| (1#8 <<< p.toNat) }
  | .ovr ch r => { q with ovr := setAt q.ovr (2 * ch.toNat + bit r) v }

/-- The sequencer with every result due by the cycle in place. -/
def Seq.settle (q : Seq) (clock : Nat) : Seq :=
  let due := q.coming.filter fun w => decide (w.due ≤ clock)
  due.foldl (fun q w => q.put w.dst w.val) { q with coming := q.coming.filter fun w => decide (clock < w.due) }

/-- A scalar register as a bundle issuing at this cycle reads it; s0 reads 0. -/
def Core.sreg (k : Ctx) (c : Core) (r : BitVec 5) : Word :=
  if r = 0#5 then 0#32 else (c.seq.settle k.clock).sregs.getD r.toNat 0#32

/-- A predicate as a bundle issuing at this cycle reads it; p0 reads 1. -/
def Core.pred (k : Ctx) (c : Core) (p : BitVec 3) : Bool :=
  if p = 0#3 then true else (c.seq.settle k.clock).preds.getLsbD p.toNat

/-- A channel's local or remote override value as a START at this cycle reads it (R247). -/
def Core.override (k : Ctx) (c : Core) (ch : BitVec 2) (remote : Bool) : Word :=
  (c.seq.settle k.clock).ovr.getD (2 * ch.toNat + bit remote) 0#32

/-- The core with a result of the sequencer visible `lat` cycles after this one. -/
def Core.result (k : Ctx) (c : Core) (d : SeqDst) (v : Word) (lat : Nat) : Core :=
  let q := c.seq.settle k.clock
  { c with seq := { q with coming := SeqWrite.place ⟨d, v, k.clock + lat⟩ q.coming } }

/-! ## Status codes and aborts -/

/-- Offset of the status register whose LAST_CODE an engine writes, by its place in ENG_CODE (R124): SQ, TE, VE0, VE1,
XE, UE, ME, DMA0 to DMA3. -/
def lastCodeOff (u : Nat) : Nat :=
  match u with
  | 0 => 0x2000 | 1 => 0x3000 | 2 => 0x5000 | 3 => 0x5004 | 4 => 0x5200 | 5 => 0x6000 | 6 => 0x7000
  | n => 0x2200 + 32 * (n - 7)

/-- The place in ENG_CODE of an engine unit. -/
def unitPlace (u : EngUnit) : Nat :=
  match u with
  | .teLoad => 1 | .teArray => 1 | .tePrint => 1 | .ve0 => 2 | .ve1 => 3 | .xe => 4 | .ue => 5 | .me => 6

/-- The number of an engine unit among the eight. -/
def unitIdx (u : EngUnit) : Nat :=
  match u with
  | .teLoad => 0 | .teArray => 1 | .tePrint => 2 | .ve0 => 3 | .ve1 => 4 | .xe => 5 | .ue => 6 | .me => 7

/-- The frame is aborted by a fault (R27): the first fault is the one recorded, and nothing more issues. -/
def Core.abort (c : Core) (code : Half) (bundle : BitVec 13) : Core :=
  { c with
    seq := { c.seq with stopped := true }
    frame := if c.frame.aborted then c.frame
             else { c.frame with aborted := true, faultCode := code, faultBundle := bundle } }

/-- A status code of an engine: its LAST_CODE and ENG_CODE (R124). -/
def Core.raise (c : Core) (u : Nat) (code : Half) : Core :=
  Core.setRf { c with frame := { c.frame with codes := setAt c.frame.codes u code } } (lastCodeOff u) 31 16 code.toNat

/-- A class-0x03 code leaves a LAST_CODE alone that holds a lower one of the same cycle (R86): `i` is the engine's place in ENG_CODE,
or 11 for NUMSTAT. -/
def Core.numKeeps (now : Nat) (c : Core) (i off : Nat) (code : Half) : Bool :=
  decide (c.numAt.getD i none = some now) && decide (c.rf off 31 16 < code.toNat)

/-- A class-0x03 code of an engine, at its LAST_CODE and ENG_CODE and at NUMSTAT.LAST_CODE; of those of one cycle the lowest remains
(R86, R124). -/
def Core.raiseNum (now : Nat) (c : Core) (u : Nat) (code : Half) : Core :=
  let c := if c.numKeeps now u (lastCodeOff u) code then c else c.raise u code
  let c := if c.numKeeps now 11 0x4010 code then c else c.setRf 0x4010 31 16 code.toNat
  { c with numAt := setAt (setAt c.numAt u (some now)) 11 (some now) }

/-- A code of an instruction at its cycle. -/
def Core.raiseAt (now : Nat) (c : Core) (u : Nat) (code : Half) : Core :=
  if code.toNat / 256 = 3 then c.raiseNum now u code else c.raise u code

/-- A class-0x04 code of the core's integrity logic (R392). -/
def Core.raiseInt (c : Core) (code : Half) : Core := c.setRf 0x8000 31 16 code.toNat

/-- CORE_FAULT and CORE_FAULT_ADDR record the first violation of a frame (R58). -/
def Core.noteViolation (c : Core) (a master : Nat) (wr : Bool) : Core :=
  if c.frame.violated then c
  else
    let c := { c with frame := { c.frame with violated := true } }
    if bitAt (c.reg 0x1220) 31 then c
    else (c.setReg 0x1220 (BitVec.ofNat 32 (0x80000203 + master * 0x10000 + bit wr * 0x100000))).setReg 0x1224
      (BitVec.ofNat 32 (a % 0x800000))

/-- A fence violation (R58): recorded if it is the frame's first, the frame aborted. -/
def Core.violation (c : Core) (u : Nat) (bundle : BitVec 13) (a master : Nat) (wr : Bool) : Core :=
  Core.abort ((c.raise u 0x0203#16).noteViolation a master wr) 0x0203#16 bundle

/-! ## Accumulator tiles (R120–R122, R463) -/

/-- The tiles a product of `n` columns writes from `t0` (R109). -/
def tileRange (t0 n : Nat) : List Nat := (List.range n).map (t0 + ·)

/-- The first tile of a claim that an instruction other than `chained` owns, with the owner's bundle. -/
def Core.claimed (c : Core) (tiles : List Nat) (chained : Option Nat) : Option (Nat × BitVec 13) :=
  tiles.findSome? fun t =>
    match c.te.owners.getD t none with
    | none => none
    | some (id, b) => if chained = some id then none else some (t, b)

/-- TE_ACC_OWN follows the owner tags. -/
def Core.showOwners (c : Core) : Core :=
  c.setRf 0x3004 15 0
    ((List.range 16).foldl (fun a t => if (c.te.owners.getD t none).isSome then a + 2 ^ t else a) 0)

/-- The core with tiles claimed by instruction `id`. -/
def Core.claim (c : Core) (tiles : List Nat) (id : Nat) (bundle : BitVec 13) : Core :=
  Core.showOwners { c with te := { c.te with
    owners := tiles.foldl (fun o t => setAt o t (some (id, bundle))) c.te.owners } }

/-- The core with the claims of instruction `id` cleared. -/
def Core.release (c : Core) (id : Nat) : Core :=
  Core.showOwners { c with te := { c.te with
    owners := c.te.owners.map fun o => match o with
      | some (i, b) => if i = id then none else some (i, b)
      | none => none } }

/-- ACC_DOUBLE_CLAIM (R122): recorded in TE_CLAIM_FAULT and the frame aborted; the claimant does not issue. -/
def Core.doubleClaim (c : Core) (u tile : Nat) (bundle owner : BitVec 13) : Core :=
  let c := c.raise u 0x0202#16
  let c := if bitAt (c.reg 0x3010) 31 then c
    else c.setReg 0x3010 (BitVec.ofNat 32 (0x80000000 + owner.toNat * 0x20000 + bundle.toNat * 16 + tile))
  c.abort 0x0202#16 bundle

/-- The type tag of tiles set (R463): TE_TILE_FLAGS2.TYPE. -/
def Core.setType (c : Core) (tiles : List Nat) (int : Bool) : Core :=
  c.setRf 0x300C 31 16
    (tiles.foldl (fun w t => if int then w ||| 2 ^ t else w &&& (0xFFFF - 2 ^ t)) (c.rf 0x300C 31 16))

/-- The sticky flags of tiles cleared by an ACC = 0 claim (R118). -/
def Core.clearTileFlags (c : Core) (tiles : List Nat) : Core :=
  let keep := tiles.foldl (fun m t => m &&& (0xFFFF - 2 ^ t)) 0xFFFF
  let c := c.setReg 0x3008 (c.reg 0x3008 &&& BitVec.ofNat 32 (keep * 0x10001))
  c.setRf 0x300C 15 0 (c.rf 0x300C 15 0 &&& keep)

/-- The sticky flags of tiles set (R118), in the registers and in the frame's record (R124). -/
def Core.setTileFlags (c : Core) (inv ovf sat : Half) : Core :=
  let c := c.setReg 0x3008 (c.reg 0x3008 ||| BitVec.ofNat 32 (inv.toNat + ovf.toNat * 0x10000))
  let c := c.setRf 0x300C 15 0 (c.rf 0x300C 15 0 ||| sat.toNat)
  { c with frame := { c.frame with
      tileInv := c.frame.tileInv ||| inv, tileOvf := c.frame.tileOvf ||| ovf, tileSat := c.frame.tileSat ||| sat } }

/-! ## Issue and completion (R223, R257) -/

/-- Offset of the status register whose BUSY bit an engine unit sets. -/
def unitStatusOff (u : EngUnit) : Nat := lastCodeOff (unitPlace u)

/-- BUSY follows the instructions in flight: for the TE, a product or TLOAD (R128). -/
def Core.showBusy (c : Core) (u : EngUnit) : Core :=
  c.setRf (unitStatusOff u) 0 0
    (bit (c.inflight.any fun o => decide (unitStatusOff o.unit = unitStatusOff u) && decide (o.unit ≠ .tePrint)))

/-- An instruction with nothing to do beyond its timing, to be filled in. -/
def PendingOp.blank : PendingOp :=
  { id := 0, unit := .teLoad, bundle := 0#13, supp := false, issue := 0, due := 0, free := 0, tokens := 0,
    tokenEnd := 0, master := 0, claims := [], reads := [], edits := [], effs := [], ev := {}, raises := [],
    header := none, ports := [], accBanks := [], held := 0, contended := false, waits := 0, early := []
    fate := ⟨[], [], false⟩ }

/-- The wait cycles that an instruction takes (R51). -/
def PendingOp.stalls (o : PendingOp) : Nat := o.held + if o.contended then o.waits else 0

/-- Its contract completion with its waits (R257). -/
def PendingOp.dueNow (o : PendingOp) : Nat := o.due + o.stalls

/-- The cycle from which its unit takes a next instruction: arbitration stalls lengthen its issue interval (R257, R271). -/
def PendingOp.freeNow (o : PendingOp) : Nat := o.free + o.stalls

/-- The wait cycles of a descriptor at its own core, and with those at the peer of a core-to-core transfer (R246). -/
def DmaOp.stalls (o : DmaOp) : Nat := if o.contended then o.waits else 0

/-- Its contract completion with its waits (R246). -/
def DmaOp.dueNow (o : DmaOp) : Nat := o.due + o.stalls + o.peerWaits

/-- Violations of an instruction apart from its other effects (R58). -/
def Eff.isFence (e : Eff) : Bool :=
  match e with
  | .fence _ _ _ => true
  | _ => false

/-- A violation is raised in the cycle of the offending access, which lies between issue and completion (R58, log entry 9). -/
def earlyFences (k : Ctx) (lat : Nat) (effs : List Eff) : List Early :=
  (effs.filter Eff.isFence).mapIdx fun i e => ⟨k.clock + Config.accessCycle k.ctr i % (lat + 1), [e], []⟩

/-- The number under which the image fixes the waits of what issues now in a frame (R51): those of use `u` of a bundle. -/
def Core.waitsOf (k : Ctx) (c : Core) (bundle : BitVec 13) (u : Nat) : Nat :=
  Config.waits k.map k.own bundle.toNat (k.clock - c.frame.started) u

/-- An effect whose data the manual leaves open: bytes and additions with free values in place of what it moves. -/
def Eff.freed (ctr : Nat) (e : Eff) : Eff :=
  let w (a : Nat) : Nat := leNat ((List.range 4).map fun i => Config.freeByte ctr (a + i))
  match e with
  | .mem a bs => .mem a (bs.mapIdx fun i _ => Config.freeByte ctr (a + i))
  | .acc t i ow quiet order terms => .acc t i ow quiet order (terms.map fun x => (x.1, fmtFp32.decode (w (tileAddr t i))))
  | .accInt t i ow quiet terms => .accInt t i ow quiet (terms.map fun _ => signedOf 32 (w (tileAddr t i)))
  | _ => e

/-- A descriptor in flight while another master writes bytes: of each that it reads it holds the value before or the value after, so what
it moves is free where the two meet (R464, log entry 9). -/
def PendingOp.disturbed (ctr : Nat) (runs : List (Nat × List Byte)) (o : PendingOp) : PendingOp :=
  if o.unit = .xe && (runs.any fun w => o.reads.any fun r => decide (w.1 < r.1 + r.2) && decide (r.1 < w.1 + w.2.length)) then
    { o with effs := o.effs.map (Eff.freed ctr) }
  else o

/-- The core with bytes on their way into its memory (R464). -/
def Core.disturb (c : Core) (ctr : Nat) (runs : List (Nat × List Byte)) : Core :=
  { c with inflight := c.inflight.map (PendingOp.disturbed ctr runs) }

/-- An instruction that issues at this cycle: its engine is held for `interval` cycles and its results come after
`lat` cycles and the stalls (R257); a suppressed one has no effects, codes or claims (R225). -/
def Core.issue (k : Ctx) (c : Core) (at_ : At) (u : EngUnit) (lat interval tokens : Nat) (op : PendingOp) : Core :=
  let op := { op with
    id := c.nextId, unit := u, bundle := at_.bundle, supp := at_.supp, issue := k.clock
    due := k.clock + lat, free := k.clock + interval, tokens := tokens, tokenEnd := k.clock + interval
    waits := c.waitsOf k at_.bundle (unitIdx u), fate := Config.fate k.ctr
    early := op.early ++ earlyFences k lat op.effs, effs := op.effs.filter fun e => !e.isFence }
  let op := if at_.supp then { op with claims := [], reads := [], edits := [], effs := [], ev := {}, raises := [],
                                       header := none, early := [] } else op
  Core.showBusy { c with
    inflight := c.inflight.map (PendingOp.disturbed k.ctr (op.effs.filterMap (·.run))) ++ [op], nextId := c.nextId + 1,
    unitFree := setAt c.unitFree (unitIdx u) (k.clock + interval) } u

/-- The owner of a scratchpad bank in the bank-map set of a schedule entry (R49). -/
def Core.ownerIn (c : Core) (entry b : Nat) : Nat :=
  let set := match c.sched[entry]? with
    | some e => e.bankMap
    | none => 0
  fieldOf (c.reg (0x1000 + 4 * set)).toNat (4 * b + 3) (4 * b)

/-- The owner of a bank in the frame (R49). -/
def Core.bankOwner (c : Core) (b : Nat) : Nat := c.ownerIn c.frame.entry b

/-- The survivor of several masters' writes to one line in one cycle (R53). -/
def Core.survivor (c : Core) (line : Nat) (ms : List Nat) : Nat :=
  let own := c.bankOwner (bankOf line)
  if ms.contains own then own
  else ms.foldl (fun a m => if m < a then m else a) (ms.headD 0)

/-- A discarded write (R54): counted and recorded. -/
def Core.collide (c : Core) (line loser winner : Nat) : Core :=
  let n := c.rf 0x1210 23 0
  let c := c.setReg 0x1210 (BitVec.ofNat 32 ((if n = 0xFFFFFF then n else n + 1) + loser * 0x1000000 + winner * 0x10000000))
  let c := c.setReg 0x1214 (BitVec.ofNat 32 line)
  { c with frame := { c.frame with collides := c.frame.collides + 1 } }

/-- A write that was discarded (R53): the bytes of a line from one address up to another, and the code of the master whose write was
performed. -/
structure LostWrite where
  lo : Nat
  hi : Nat
  winner : Nat

/-- The line of a discarded write. -/
def LostWrite.line (l : LostWrite) : Nat := lineOf l.lo

/-- What discarded writes leave of a write of bytes. -/
def LostWrite.cut (l : LostWrite) (w : Nat × List Byte) : List (Nat × List Byte) :=
  ([(w.1, w.2.take (l.lo - w.1)), (if w.1 < l.hi then l.hi else w.1, w.2.drop (l.hi - w.1))]).filter fun x => !x.2.isEmpty

/-- What they leave of an effect. -/
def LostWrite.leave (l : LostWrite) (e : Eff) : List Eff :=
  match e with
  | .mem a bs => (l.cut (a, bs)).map fun w => .mem w.1 w.2
  | _ => [e]

/-- The codes of the masters that write the scratchpad (R49). -/
def writesPad (m : Nat) : Bool := decide (m < 8) && decide (m ≠ 3)

/-- The same-cycle writes of a fate in which the write of a master, by DMA of channel `ch`, is discarded (R49, R53); `runs` are the
bytes it writes, and a cycle's access that carries none of them is none of its own. -/
def Core.lost (c : Core) (master : Nat) (ch : Option Nat) (runs : List (Nat × List Byte)) (f : Fate) : List LostWrite :=
  f.collisions.filterMap fun x =>
    let line := lineOf x.line.toNat
    let lo := line + x.first.toNat
    let hi := if lo + x.count.toNat < line + 64 then lo + x.count.toNat else line + 64
    let w := c.survivor line (master :: (x.masters.map (·.toNat)).filter writesPad)
    let behind := match ch, x.channel with
      | some m, some n => decide (n.toNat < m)
      | _, _ => false
    if 0x400000 ≤ line || !(runs.any fun r => decide (r.1 < hi) && decide (lo < r.1 + r.2.length)) then none
    else if w ≠ master || behind then some ⟨lo, hi, w⟩ else none

/-- The frame amax of an entry raised to a value (R80). -/
def Frame.amaxWith (f : Frame) (e : Nat) (w : Word) : Frame :=
  { f with amax := Sparse.set (fun _ => 0#32) f.amax e (amaxJoin (Sparse.get (fun _ => 0#32) f.amax e) w) }

/-- The frame with an entry marked for a push (R81). -/
def Frame.mark (f : Frame) (e : Nat) : Frame := if f.pushes.contains e then f else { f with pushes := f.pushes ++ [e] }

/-- Lines of the scratchpad and the other memories written in full by a master stop missing (R366, R378). -/
def Core.fullWrite (c : Core) (line : Nat) : Core :=
  let g := c.integ
  { c with integ := { g with
      bad := g.bad.filter (· ≠ line)
      writtenSince := if g.refetches.contains line then line :: g.writtenSince else g.writtenSince
      nowDirty := g.nowDirty
      remaps := g.remaps.map fun r => if r.line = line && !r.retired then { r with state := .valid } else r } }

/-- The core with bytes written by a master, lines written in full becoming good. -/
def Core.store (c : Core) (a : Nat) (bs : List Byte) : Core :=
  let full := (lineRuns a bs.length).filter fun r => decide (r.2 = 64)
  full.foldl (fun c r => c.fullWrite r.1) (c.write a bs)

/-- What accumulator additions have made of an element so far: its value, the events, and the ordinal of the first
chunk that made it a NaN. -/
structure AccRun where
  val : Word
  ev : NumEv
  nanAt : Option Nat

/-- One FP32 addition, to nearest even; `first` stores the term rounded (R116, R118). -/
def accStep (ftz first : Bool) (r : AccRun) (t : Nat × FVal) : AccRun :=
  let (x, e1) := if first then (t.2, {})
    else
      let (y, e0) := flushIn ftz fmtFp32 (f32 r.val)
      let (x, i) := FVal.add y t.2
      (x, e0.join { inv := i })
  let (v, e2) := toF32 ftz x
  let born := (f32 v).isNan && (first || t.2.isNan || !(f32 r.val).isNan)
  ⟨v, (r.ev.join e1).join e2, if r.nanAt.isNone && born then some t.1 else r.nanAt⟩

/-- FP32 additions into an accumulator element in chunk order (R113, R116). -/
def accTerms (ftz ow : Bool) (w : Word) (terms : List (Nat × FVal)) : AccRun :=
  match ow, terms with
  | true, [] => ⟨0#32, {}, none⟩
  | true, t :: ts => ts.foldl (accStep ftz false) (accStep ftz true ⟨0#32, {}, none⟩ t)
  | false, ts => ts.foldl (accStep ftz false) ⟨w, {}, none⟩

/-- The earlier of two first NaNs: by product, then tile, then chunk (R119). -/
def FirstInv.before (v w : FirstInv) : Bool :=
  decide (v.order < w.order) || (v.order = w.order && (decide (v.tile < w.tile) ||
    (v.tile = w.tile && decide (v.chunk < w.chunk))))

/-- The frame with a product NaN noted (R119). -/
def Frame.noteNan (f : Frame) (v : FirstInv) : Frame :=
  { f with firstInv := match f.firstInv with
      | .none => .some v
      | .some w => if v.before w then .some v else .some w }

/-- Integer additions into an accumulator element, saturating at each (R117). -/
def accInts (ow : Bool) (w : Word) (terms : List Int) : Word × Bool :=
  terms.foldl (fun (r : Word × Bool) t =>
    let x := r.1.toInt + t
    if 2147483647 < x then (0x7FFFFFFF#32, true)
    else if x < -2147483648 then (0x80000000#32, true)
    else (BitVec.ofInt 32 x, r.2)) (if ow then 0#32 else w, false)

/-- The word at an address of on-chip memory. -/
def Core.wordAt (c : Core) (a : Nat) : Word := BitVec.ofNat 32 (leNat (Memory.read c.mem a 4))

/-- FTZ in force (R84). -/
def Core.ftz (c : Core) : Bool := bitAt (c.reg 0x4000) 0

/-- One effect of a completing instruction of the engine at place `u`; the events of accumulator additions come back.
FTZ acts on the additions of products, not on scatter-add additions, whose instruction raises no NUM_FLUSHED (R84,
R275). -/
def Core.apply (u : Nat) (bundle : BitVec 13) (c : Core) (e : Eff) : Core × NumEv :=
  match e with
  | .mem a bs => (c.store a bs, {})
  | .fence a m wr => (c.violation u bundle a m wr, {})
  | .reg off w => (c.setReg off w, {})
  | .first off w more =>
    (if bitAt (c.reg off) 31 then c else more.foldl (fun c r => c.setReg r.1 r.2) (c.setReg off w), {})
  | .count off n => (c.bump off n, {})
  | .acc t i ow quiet order terms =>
    let r := accTerms (c.ftz && order.isSome) ow (c.wordAt (tileAddr t i)) terms
    let c := c.write (tileAddr t i) (leBytes 4 r.val.toNat)
    if quiet then (c, {})
    else
      let c := c.setTileFlags (if r.nanAt.isSome then BitVec.ofNat 16 (2 ^ t) else 0#16)
        (if r.ev.ovf then BitVec.ofNat 16 (2 ^ t) else 0#16) 0#16
      match order, r.nanAt with
      | some o, some n => ({ c with frame := c.frame.noteNan ⟨o, t, bundle, n⟩ }, r.ev)
      | _, _ => (c, r.ev)
  | .accInt t i ow quiet terms =>
    let (w, sat) := accInts ow (c.wordAt (tileAddr t i)) terms
    let c := c.write (tileAddr t i) (leBytes 4 w.toNat)
    if quiet then (c, {})
    else (c.setTileFlags 0#16 0#16 (if sat then BitVec.ofNat 16 (2 ^ t) else 0#16), { acc := sat })
  | .amax i w => ({ c with frame := c.frame.amaxWith i w }, {})
  | .push i => ({ c with frame := c.frame.mark i }, {})
  | .standby b => ({ c with te := { c.te with standby := b } }, {})
  | .rowSet i r => ({ c with rowSets := setAt c.rowSets i r }, {})
  | .stage v => (({ c with stage := v }).setRf 0x7000 5 5 (bit v.valid), {})
  | .conv ve v => (if ve then { c with ve1ctl := v } else { c with ve0ctl := v }, {})
  | .factor i f =>
    (({ c with factors := setAt c.factors i f }).setRf 0x6050 i i (bit f.isSome), {})
  | .filter l => (({ c with filter := l }).setRf 0x6054 15 0 l.length, {})
  | .audit j a m =>
    ({ c with frame := { c.frame with
        audits := setAt c.frame.audits j (c.frame.audits.getD j 0 + a),
        misses := setAt c.frame.misses j (c.frame.misses.getD j 0 + m) } }, {})
  | .edited => ({ c with frame := { c.frame with meEdits := c.frame.meEdits + 1 } }, {})
  | .gatherOor n => ({ c with frame := { c.frame with gatherOor := c.frame.gatherOor + n } }, {})
  | .tileFlags i o s => (c.setTileFlags i o s, {})
  | .firstInv v => ({ c with frame := c.frame.noteNan v }, {})

/-- Every effect in order. -/
def Core.applyAll (u : Nat) (bundle : BitVec 13) (c : Core) (effs : List Eff) : Core × NumEv :=
  effs.foldl (fun (r : Core × NumEv) e =>
    let (c, ev) := Core.apply u bundle r.1 e
    (c, r.2.join ev)) (c, {})

/-- A count of saturations into one format (R74, R87). -/
def Core.satCount (c : Core) (f : Nat) : Core :=
  { (c.bump (0x4040 + 4 * f) 1) with frame := { c.frame with sats := c.frame.sats + 1 } }

/-- One NUMSTAT flag with its code (R86); `u` is the engine at whose LAST_CODE it shows. -/
def Core.numFlag (now u : Nat) (c : Core) (set : Bool) (b : Nat) (code : Half) : Core :=
  if set then
    let c := c.setReg 0x4010 (c.reg 0x4010 ||| BitVec.ofNat 32 (2 ^ b))
    Core.raiseNum now { c with frame := { c.frame with numFlags := c.frame.numFlags ||| 2 ^ b } } u code
  else c

/-- The numeric events of one instruction, raised in descending order of code (R86). -/
def Core.numEvents (now u : Nat) (c : Core) (ev : NumEv) : Core :=
  let c := ev.sat.foldl Core.satCount c
  let c := c.numFlag now u ev.acc 4 0x0307#16
  let c := c.numFlag now u ev.flu 3 0x0304#16
  let c := c.numFlag now u (!ev.sat.isEmpty) 2 0x0303#16
  let c := c.numFlag now u ev.ovf 1 0x0302#16
  c.numFlag now u ev.inv 0 0x0301#16

/-- The codes of an instruction, those that abort the frame aborting it (R275). -/
def Core.raises (now u : Nat) (bundle : BitVec 13) (c : Core) (l : List Raise) : Core :=
  l.foldl (fun c r => if r.abort then (c.raiseAt now u r.code).abort r.code bundle else c.raiseAt now u r.code) c

/-- The lines an instruction or descriptor read. -/
def linesRead (reads : List (Nat × Nat)) : List Nat := reads.flatMap fun r => (lineRuns r.1 r.2).map fun x => lineOf x.1

/-- Whether the frame runs nothing more and has nothing in flight (R12, R27). -/
def Core.quietEnd (c : Core) : Bool :=
  (c.seq.ended || c.seq.stopped) && c.inflight.isEmpty && c.dma.all (·.inflight.isEmpty)

/-- An instruction of the sequencer's own that reaches its contract completion at a cycle. -/
def Core.sqBusy (c : Core) (t : Nat) : Core :=
  { c with seq := { c.seq with busyUntil := if c.seq.busyUntil < t then t else c.seq.busyUntil } }

/-- A WAITX that still holds issue when its frame ends waits no longer; the cycles past its budget are lateness (R23, R26,
R27). -/
def Core.waitAbandoned (now : Nat) (c : Core) : Core :=
  match c.seq.waiting with
  | none => c
  | some w => { (c.setRf 0x2000 1 1 0) with
      seq := { c.seq with waiting := none }, frame := { c.frame with waitLate := c.frame.waitLate + (now - w.budgetEnd) } }

/-- Retirement (R12), when the last instruction, the sequencer's among them, has reached its contract completion: SQ_SREG and SQ_PREG show the scalars and predicates of the frame. -/
def Core.checkRetire (k : Ctx) (c : Core) : Core :=
  if c.frame.live && c.frame.retiredAt.isNone && c.quietEnd then
    let c := c.waitAbandoned k.clock
    let q := { c.seq with coming := [] }
    let q := c.seq.coming.foldl (fun q w => q.put w.dst w.val) q
    let c := { c with seq := q, frame := { c.frame with
      retiredAt := some (if c.seq.busyUntil < k.clock then k.clock else c.seq.busyUntil) } }
    let c := (List.range 32).foldl (fun c i => c.setReg (0x2100 + 4 * i) (if i = 0 then 0#32 else q.sregs.getD i 0#32)) c
    (c.setRf 0x2180 7 0 (q.preds ||| 1#8).toNat).setRf 0x2000 0 0 0
  else c

/-! ## The sequencer's position (R221–R224, R233–R237) -/

/-- Core-local address of bundle position `b` of the frame store. -/
def bundleAddr (b : Nat) : Nat := 0x500000 + 32 * b

/-- The bundle holds no instruction (R222): every slot is a no-op, whatever its guard. -/
def Core.emptyBundle (c : Core) (b : Nat) : Bool :=
  let w := leNat (Memory.read c.mem (bundleAddr b) 32)
  decide (fieldOf w 244 48 = 0) && decide (fieldOf w 46 0 = 0)

/-- The sequencer behind bundle `x`, the loop bodies that end there closed or repeated: the bundle behind which the next is in line
(R233). -/
def Seq.after (q : Seq) (x : Nat) : List LoopFrame → Seq
  | [] => { q with prev := x, loops := [] }
  | f :: t =>
    if x = f.last then
      if f.iter + 1 < f.all then
        { q with
          prev := f.first - 1, loops := { f with iter := f.iter + 1 } :: t
          lc := setAt q.lc f.lc.toNat (BitVec.ofNat 32 (f.iter + 1)) }
      else Seq.after q x t
    else { q with prev := x, loops := f :: t }

/-- The sequencer on its way to bundle `b`, one bundle a cycle, over bundles that hold no instruction (R237): the sequencer there and
the cycle, or none if `b` is not the next bundle to issue. `q.prev` is behind the bundle in line. -/
def Core.goTo (c : Core) (b : Nat) : Nat → Seq → Nat → Option (Seq × Nat)
  | 0, _, _ => none
  | n + 1, q, t =>
    if q.prev + 1 = b then some (q, t)
    else if decide (q.prev < 8191) && c.emptyBundle (q.prev + 1) then c.goTo b n (q.after (q.prev + 1) q.loops) (t + 1)
    else none

/-- The sequencer in line for bundle `b`, and the first cycle in which it can issue. -/
def Core.inLine (c : Core) (b : Nat) : Option (Seq × Nat) := c.goTo b 0x100000 (c.seq.after c.seq.prev c.seq.loops) c.seq.nextAt

/-- The instruction of slot `slot` of bundle `b` issues with the bundle's slots before it, which have issued. -/
def Core.sameIssue (c : Core) (b : BitVec 13) (slot : Nat) : Bool := decide (c.rf 0x2004 12 0 = b.toNat) && decide (c.seq.slot < slot)

/-- An instruction of a slot of bundle `b` issues: the sequencer is at that bundle, SQ_PC names it (R252), and the next is in line
for the following cycle. -/
def Core.arrive (k : Ctx) (c : Core) (b : BitVec 13) (slot : Nat) : Core :=
  if c.sameIssue b slot then { c with seq := { c.seq with slot := slot } }
  else
    let q := match c.inLine b.toNat with
      | some r => r.1
      | none => c.seq
    let c := c.setRf 0x2004 12 0 b.toNat
    { c with seq := { q with prev := b.toNat, slot := slot, issued := k.clock, nextAt := k.clock + 1 } }

/-- The other slots of a bundle issue in its cycle (R223): a frame that one slot ended or stopped runs on for the slots that
issue with it. -/
def Core.reopen (c : Core) (b : BitVec 13) (slot : Nat) : Core :=
  if c.sameIssue b slot && c.frame.retiredAt.isSome then ({ c with frame := { c.frame with retiredAt := none } }).setRf 0x2000 0 0 1
  else c

/-- The next bundle of the frame may issue: none does in a frame that has ended, stopped or retired, nor while a WAITX holds issue
(R27, R228, R239, R370). -/
def Core.running (c : Core) : Bool :=
  c.frame.live && c.frame.retiredAt.isNone && !c.seq.stopped && !c.seq.ended && c.seq.waiting.isNone

/-- The instruction of a slot of a bundle may issue: with its bundle's slots before it, or with the next bundle. -/
def Core.mayIssue (c : Core) (b : BitVec 13) (slot : Nat) : Bool := if c.sameIssue b slot then c.frame.live else c.running

/-- The iteration of a loop level is in shadow (R235). -/
def LoopFrame.inShadow (f : LoopFrame) : Bool := f.shadow || decide (f.active ≤ f.iter)

/-- Bundle `b` issues in a shadow iteration: of the innermost body that holds it (R235). -/
def Seq.shadowAt (q : Seq) (b : Nat) : Bool :=
  match q.loops.find? fun f => decide (f.first ≤ b) && decide (b ≤ f.last) with
  | none => false
  | some f => f.inShadow

/-- A guard suppresses the slots it names when p[GP] XOR GINV is 0 (R224). -/
def Core.guardedOff (k : Ctx) (c : Core) (g : Option Guard) : Bool :=
  match g with
  | none => false
  | some g => !(xor (c.pred k g.gp) g.inv)

/-- An instruction at its issue on a core whose sequencer is at its bundle. -/
def Core.siteOf (k : Ctx) (c : Core) (a : Site) : At :=
  ⟨a.core, a.bundle, c.seq.shadowAt a.bundle.toNat || c.guardedOff k a.guard⟩

end Sys2Proof.Machine
end

