-- ==== Sys2Proof/Machine/Integrity.lean ====
section
/-! DEFINITION. The integrity logic of a core: CRC misses, refetches, the recent-miss table, leaky buckets, remapping
and fills (R365–R381), what an in-frame miss does to the frame (R370, R373), and the contract completion of an engine
instruction. -/

namespace Sys2Proof.Machine

/-- Memory code of a core-local address (R392). -/
def memCode (a : Nat) : Nat :=
  if a < 0x400000 then 0 else if a < 0x500000 then 1 else if a < 0x540000 then 2
  else if a < 0x560000 then 3 else if a < 0x580000 then 4 else 5

/-- First address of a memory by its code. -/
def memBase (m : Nat) : Nat :=
  match m with
  | 0 => 0 | 1 => 0x400000 | 2 => 0x500000 | 3 => 0x540000 | 4 => 0x560000 | _ => 0x580000

/-- The remap entries of the unit a line belongs to (R378): first entry and how many; the index bank and the operand caches have
none, and count as units 38 to 40. -/
def remapUnit (line : Nat) : Nat × Nat :=
  if line < 0x400000 then (4 * bankOf line, 4)
  else if line < 0x500000 then (32, 4)
  else if line < 0x540000 then (36, 2)
  else (35 + memCode line, 0)

/-- A line is clean: in the frame store or in a CLEAN region, and not given up after a failed refetch (R369). -/
def Core.isClean (c : Core) (line : Nat) : Bool :=
  !c.integ.nowDirty.contains line &&
    ((decide (0x500000 ≤ line) && decide (line < 0x540000)) ||
      c.regions.any fun r => r.kind = 1 && decide (r.base ≤ line) && decide (line ≤ r.limit))

/-- The HBM address that backs a clean line outside the frame store (R283). -/
def Core.backing (c : Core) (line : Nat) : Option Nat :=
  (c.regions.find? fun r => r.kind = 1 && decide (r.base ≤ line) && decide (line ≤ r.limit)).map fun r =>
    r.backing * 256 + (line - r.base)

/-- The CRC of a line's 64 bytes (R365). -/
def lineCrc (bytes : List Byte) : Half := BitVec.ofNat 16 (crc16 bytes)

/-- The CRC that the side array holds for a line (R365, R366): `integ.bad` lists the lines whose stored CRC is the computed one
exclusive-ored with 0xFFFF. -/
def Core.storedCrc (c : Core) (line : Nat) : Half :=
  lineCrc (Memory.read c.mem line 64) ^^^ (if c.integ.bad.contains line then 0xFFFF#16 else 0#16)

/-- The remap entry that redirects a line. -/
def Core.remapOf (c : Core) (line : Nat) : Option Remap := c.integ.remaps.find? fun r => r.line = line && !r.retired

/-- REMAPe shows the remap entries (R392). -/
def Core.showRemaps (c : Core) : Core :=
  c.integ.remaps.foldl (fun c r =>
    c.setReg (0x8100 + 4 * r.entry) (BitVec.ofNat 32 (r.line / 64 * 64 + bit (!r.retired) +
      (match r.state with
        | .valid => 0
        | .empty => 2
        | .refetch => 4)))) c

/-- INT_STATUS shows the open and the queued fill. -/
def Core.showFills (c : Core) : Core :=
  (c.setRf 0x8000 0 0 (bit c.integ.fillOpen.isSome)).setRf 0x8000 1 1 (bit c.integ.fillQueued.isSome)

/-- A stop bath at the next tick (R28). -/
def Core.askStop (c : Core) : Core := { c with frame := { c.frame with haltNext := true } }

/-- A code for the HTU, with an address in the memory it concerns. -/
def Core.report (c : Core) (a : Nat) (code : Half) : Core :=
  { c with integ := { c.integ with reports := c.integ.reports ++ [(a, code)] } }

/-- A corrected event enters a bucket (R376); LEVEL, THRESH and OVF before give LEVEL and OVF after and whether it
overflows. -/
def bucketEvent (level thresh : Nat) (ovf : Bool) : Nat × Bool × Bool :=
  let l := if 255 ≤ level then 255 else level + 1
  let t := if thresh = 0 then 1 else thresh
  let past := decide (t < l) && !ovf
  (l, ovf || past, past)

/-- A corrected event of one of the core's memories (R376). -/
def Core.corrected (c : Core) (m : Nat) : Core :=
  let off := 0x8044 + 8 * m
  let (l, ovf, past) := bucketEvent (c.rf off 7 0) (c.rf (0x8040 + 8 * m) 15 8) (bitAt (c.reg off) 8)
  let c := (c.setRf off 7 0 l).setRf off 8 8 (bit ovf)
  if past then ((c.raiseInt 0x040B#16).setRf 0x8000 4 4 1).report (memBase m) 0x040B#16 else c

/-- UNCONTAINED (R380). -/
def Core.uncontained (c : Core) : Core := ((c.raiseInt 0x0406#16).setRf 0x8000 2 2 1).askStop

/-- Some schedule entry has the line in a live region (R381). -/
def Core.inLiveRegion (c : Core) (line : Nat) : Bool :=
  (decide (0x500000 ≤ line) && decide (line < 0x540000)) ||
    c.regions.any fun r => decide (r.base ≤ line) && decide (line ≤ r.limit)

/-- A unit becomes remap-full with a line (R380, R381). -/
def Integ.fill (g : Integ) (unit line : Nat) : Integ :=
  { g with full := if g.full.contains unit then g.full else unit :: g.full, fullLines := line :: g.fullLines }

/-- A lasting line is remapped, its fill opened or queued (R379, R380), or its unit becomes remap-full (R381). The spare holds no data
(R378): what it reads as is free. -/
def Core.remapLine (ctr : Nat) (c : Core) (line : Nat) : Core :=
  let (first, n) := remapUnit line
  let used := c.integ.remaps.map (·.entry)
  match (List.range n).find? fun i => !used.contains (first + i) with
  | none =>
    let c := ((c.raiseInt 0x0405#16).setRf 0x8000 3 3 1).report line 0x0405#16
    let c := { c with integ := c.integ.fill first line }
    if c.inLiveRegion line then c.askStop else c
  | some i =>
    let e := first + i
    let g := c.integ
    let g := { g with remaps := (g.remaps.map fun r => if r.line = line then { r with retired := true } else r) ++
      [⟨e, line, .empty, false⟩] }
    let f : Fill := ⟨e, line, Memory.read c.mem line 64, false⟩
    let c := (({ c with integ := g }).report line 0x040C#16).write line ((List.range 64).map fun i => Config.freeByte ctr (line + i))
    let c := match g.fillOpen, g.fillQueued with
      | none, _ => { c with integ := { g with fillOpen := some f, reports := c.integ.reports } }
      | some _, none =>
        ({ c with integ := { g with fillQueued := some f, reports := c.integ.reports } }).raiseInt 0x0404#16
      | some _, some _ => c.uncontained
    c.showRemaps.showFills

/-- A refetch of a clean line is issued (R369). -/
def Core.refetch (c : Core) (line : Nat) : Core :=
  let c := ((c.raiseInt 0x0401#16).bump 0x800C 1).corrected (memCode line)
  { c with integ := { c.integ with
      refetches := if c.integ.refetches.contains line then c.integ.refetches else c.integ.refetches ++ [line]
      writtenSince := c.integ.writtenSince.filter (· ≠ line) } }

/-- A known-empty miss: the line's refetch is under way or its spare holds no data (R369, R378). -/
def Core.knownEmpty (c : Core) (line : Nat) : Bool :=
  c.integ.refetches.contains line ||
    match c.remapOf line with
    | some r => decide (r.state ≠ .valid)
    | none => false

/-- INT_LAST records the first miss since cleared. -/
def Core.lastMiss (c : Core) (line : Nat) (patrol lasting : Bool) : Core :=
  if bitAt (c.reg 0x8004) 31 then c
  else c.setReg 0x8004 (BitVec.ofNat 32 (line / 64 * 64 + memCode line * 2 ^ 23 + bit (c.isClean line) * 2 ^ 26 +
    bit patrol * 2 ^ 27 + bit lasting * 2 ^ 28 + 2 ^ 31))

/-- INT_WINDOW as it acts (R392). -/
def Core.window (c : Core) : Nat :=
  let w := c.rf 0x8014 16 0
  if w = 0 then 1 else if 86400 < w then 86400 else w

/-- A CRC miss on a line (R369, R377, R379): judged, remapped if lasting, refetched if clean. -/
def Core.miss (k : Ctx) (c : Core) (line : Nat) (patrol : Bool) : Core :=
  if c.knownEmpty line then c.lastMiss line patrol false
  else
    let inFill := match c.remapOf line with
      | some r => (match c.integ.fillOpen with
          | some f => decide (f.entry = r.entry)
          | none => false) || (match c.integ.fillQueued with
          | some f => decide (f.entry = r.entry)
          | none => false)
      | none => false
    let judged := c.integ.fullLines.contains line
    let live := c.integ.recent.filter fun r => decide (k.second < r.2 + c.window)
    let lasting := !judged && live.any fun r => r.1 = line
    let c := (c.bump 0x8008 1).lastMiss line patrol lasting
    let c := if patrol then c.bump 0x8010 1 else c
    let c := { c with integ := { c.integ with bad := if c.integ.bad.contains line then c.integ.bad else line :: c.integ.bad } }
    let c := if inFill then c.uncontained else c
    let c :=
      if judged then c
      else if lasting then
        (({ c with integ := { c.integ with recent := live.filter fun r => r.1 ≠ line } }).raiseInt 0x040C#16).remapLine k.ctr line
      else { c with integ := { c.integ with recent := (if live.length < 8 then live else live.drop 1) ++ [(line, k.second)] } }
    if c.isClean line then c.refetch line else c

/-- The frame may be replayed after a miss (R370): it is replayable, no shift window is open and it is no replay. -/
def Core.canReplay (k : Ctx) (c : Core) : Bool := c.frame.live && c.frame.replayable && !k.shift && !c.frame.replay

/-- What misses that a master met do to the frame (R370): the lines are judged, and the frame is due for replay or
aborted. -/
def Core.missFrame (k : Ctx) (c : Core) (code : Half) (bundle : BitVec 13) (lines : List Nat) : Core :=
  if lines.isEmpty then c
  else
    let can := c.canReplay k
    let c := lines.foldl (fun c l => c.miss k l false) c
    let c := { c with frame := { c.frame with crcEvents := c.frame.crcEvents + lines.length } }
    let c := c.raiseInt code
    if can then
      let c := if c.frame.replayDue then c else (c.corrected (memCode (lines.headD 0))).raiseInt 0x0408#16
      { c with frame := { c.frame with replayDue := true }, seq := { c.seq with stopped := true } }
    else c.abort code bundle

/-- Misses that an engine or the sequencer met in a frame (R370): the reader's code, and the frame's outcome. -/
def Core.frameMiss (k : Ctx) (c : Core) (u : Nat) (code : Half) (bundle : BitVec 13) (lines : List Nat) : Core :=
  if lines.isEmpty then c else (c.raise u code).missFrame k code bundle lines

/-- The lines among those read whose CRC misses: known bad ones, those the outside upsets now, and empty spares. -/
def Core.missing (c : Core) (lines upset : List Nat) : List Nat :=
  (lines.filter fun l => c.integ.bad.contains l || upset.contains l || c.knownEmpty l).eraseDups

/-- The lines a write leaves partly unwritten, whose stored CRC is therefore checked (R366). -/
def partLines (effs : List Eff) : List Nat :=
  effs.flatMap fun e => match e with
    | .mem a bs => ((lineRuns a bs.length).filter fun r => decide (r.2 < 64)).map fun r => lineOf r.1
    | .acc t i _ _ _ _ => [lineOf (tileAddr t i)]
    | .accInt t i _ _ _ => [lineOf (tileAddr t i)]
    | _ => []

/-- What an instruction raises before its completion, now (R58, R132). -/
def Core.fire (k : Ctx) (c : Core) (op : PendingOp) (e : Early) : Core :=
  let u := unitPlace op.unit
  Core.raises k.clock u op.bundle (Core.applyAll u op.bundle c e.effs).1 e.raises

/-- An instruction adds to accumulator elements through the conflict queues (R112, R192). -/
def PendingOp.adds (o : PendingOp) : Bool :=
  o.effs.any fun e => match e with
    | .acc _ _ _ _ _ _ => true
    | .accInt _ _ _ _ _ => true
    | _ => false

/-- TE_CQ_PEAK after the additions of an instruction: a queue has held 0 to 8 of them (R112, R128, log entry 32). -/
def Core.queuePeak (k : Ctx) (c : Core) : Core :=
  let n := Config.freeNat k.ctr "conflict queue" % 9
  if c.rf 0x3024 3 0 < n then c.setRf 0x3024 3 0 n else c

/-- An instruction leaves its engine: its stalls are counted (R51), its unit takes the next from the end of its interval, a product's
successor waits for its completion (R91), and its claims are cleared. -/
def Core.leave (c : Core) (op : PendingOp) : Core :=
  let i := unitIdx op.unit
  let c := { c with
    inflight := c.inflight.filter fun o => decide (o.id ≠ op.id)
    frame := { c.frame with stalls := c.frame.stalls + op.stalls }
    unitFree := setAt c.unitFree i (max (c.unitFree.getD i 0) op.freeNow)
    te := { c.te with last := c.te.last.map fun l => if l.id = op.id then { l with due := op.dueNow } else l } }
  if op.claims.isEmpty then c else c.release op.id

/-- Contract completion of an engine instruction (R257, R278): it leaves its engine, the lines it read or wrote in part are checked as
they stood before it (R366, R367), the writes it lost are dropped, its effects, codes and numeric events applied. -/
def Core.complete (k : Ctx) (c : Core) (op : PendingOp) (f : Fate) : Core :=
  let u := unitPlace op.unit
  let c := c.leave op
  let c :=
    if op.supp then c
    else
      let c := op.early.foldl (fun c e => c.fire k op e) c
      let lost := c.lost op.master none (op.effs.filterMap (·.run)) f
      let missed := c.missing (linesRead op.reads ++ partLines op.effs) (f.misses.map (·.toNat / 64 * 64))
      let c := c.frameMiss k u 0x0409#16 op.bundle missed
      let c := lost.foldl (fun c l => (c.collide l.line op.master l.winner).raise u 0x0407#16) c
      let (c, ev) := Core.applyAll u op.bundle c (lost.foldl (fun (es : List Eff) l => es.flatMap l.leave) op.effs)
      let c := if op.adds then c.queuePeak k else c
      let c := Core.raises k.clock u op.bundle c op.raises
      c.numEvents k.clock u (op.ev.join ev)
  (c.showBusy op.unit).checkRetire k

end Sys2Proof.Machine
end

