-- ==== Sys2Proof/Machine/Sequencer.lean ====
section
/-! DEFINITION. What the sequencer's instructions do to the core (R228–R243): scalar arithmetic, predicates, counted
loops, external waits, the carry words, STOP, SIGNAL and the operand-cache words. -/

namespace Sys2Proof.Machine

/-- The contract latency of the scalar instructions but MUL (R228). -/
def scalarLat : Nat := 2

/-- MUL's contract latency (R228). -/
def mulLat (k : Ctx) : Nat := if k.tc1 then 4 else 5

/-- A scalar result of an instruction at a site; a suppressed instruction writes nothing (R225). -/
def Core.scalar (k : Ctx) (c : Core) (a : At) (rd : BitVec 5) (v : Word) (lat : Nat) : Core :=
  if a.supp then c else c.result k (.sreg rd) v lat

/-- A register-register scalar operation (R230). -/
def Core.alu3 (k : Ctx) (c : Core) (a : At) (o : SqR3) (f : Word → Word → Word) (lat : Nat) : Core :=
  c.scalar k a o.rd (f (c.sreg k o.rs) (c.sreg k o.rt)) lat

/-- A register-immediate scalar operation with its immediate already extended (R230). -/
def Core.aluI (k : Ctx) (c : Core) (a : At) (o : SqI13) (imm : Word) (f : Word → Word → Word) : Core :=
  c.scalar k a o.rd (f (c.sreg k o.rs) imm) scalarLat

/-- The I13 immediate sign-extended. -/
def immS (o : SqI13) : Word := o.imm.signExtend 32

/-- The I13 immediate zero-extended, for ANDI, ORI and XORI (R230). -/
def immZ (o : SqI13) : Word := o.imm.setWidth 32

/-- Shifts use the low 5 bits of the count (R230). -/
def shlW (x n : Word) : Word := x <<< (n.toNat % 32)
def shrW (x n : Word) : Word := x >>> (n.toNat % 32)
def sraW (x n : Word) : Word := x.sshiftRight (n.toNat % 32)

/-- Signed and unsigned minimum and maximum (R230). -/
def minS (x y : Word) : Word := if BitVec.slt y x then y else x
def maxS (x y : Word) : Word := if BitVec.slt x y then y else x
def minU (x y : Word) : Word := if BitVec.ult y x then y else x
def maxU (x y : Word) : Word := if BitVec.ult x y then y else x

/-- A predicate result (R231). -/
def Core.predicate (k : Ctx) (c : Core) (a : At) (pd : BitVec 3) (v : Bool) : Core :=
  if a.supp then c else c.result k (.pred pd) (BitVec.ofNat 32 (bit v)) scalarLat

/-- The core with its sequencer at the start of a loop of `all` iterations, `active` of them not in shadow (R233). -/
def Core.loop (c : Core) (a : At) (lc : BitVec 2) (lenm1 : BitVec 9) (all active : Nat) : Core :=
  let b := a.bundle.toNat
  let q := c.seq
  let last := b + lenm1.toNat + 1
  if all = 0 then { c with seq := { q with prev := last } }
  else
    { c with seq := { q with
        prev := b, lc := setAt q.lc lc.toNat 0#32
        loops := ⟨lc, b + 1, last, 0, all, active, a.supp⟩ :: q.loops } }

/-- LOOPR (R235): M iterations as the frame header declares, the first min(n, M) active. -/
def Core.loopR (k : Ctx) (c : Core) (a : At) (lc : BitVec 2) (lenm1 : BitVec 9) (rs rm : BitVec 5) : Core :=
  let m := if rm = 0#5 then 0 else (c.seq.spre.getD rm.toNat 0#32).toNat
  let n := (c.sreg k rs).toNat
  let c := if m < n && !a.supp then (c.raise 0 0x020F#16).bump 0x200C 1 else c
  c.loop a lc lenm1 m (if n < m then n else m)

/-- Offset of event counter `ec` (R252). -/
def evCnt (ec : Nat) : Nat := 0x20C0 + 4 * ec

/-- The place of an event source's budget in the image's BUDGETS section (R292). -/
def budgetIdx (src : Nat) : Nat := src

/-- The budget of the source that a counter is bound to (R238, R281). -/
def Core.budget (k : Ctx) (c : Core) (ec : Nat) : Nat := k.budgets.getD (budgetIdx (c.rf (0x2080 + 4 * ec) 7 0)) 0

/-- The budget a WAITX on a counter counts at: the instruction after it is counted as issuing that many cycles later, and at
the earliest one cycle later (R21, R239). -/
def Core.waitCount (k : Ctx) (c : Core) (ec : Nat) : Nat := if c.budget k ec = 0 then 1 else c.budget k ec

/-- WAITX (R239): subtracts at once if the counter has reached n, else holds issue. A suppressed one reads no counter and counts
for timing as R21 counts it (R225, log entry 37). -/
def Core.waitX (k : Ctx) (c : Core) (a : At) (ec : BitVec 4) (n : Word) : Core :=
  if a.supp then { c with seq := { c.seq with nextAt := k.clock + c.waitCount k ec.toNat } }
  else if n = 0#32 then c
  else
    let cnt := c.reg (evCnt ec.toNat)
    if n ≤ cnt then c.setReg (evCnt ec.toNat) (cnt - n)
    else
      let c := (c.setRf 0x2000 1 1 1).setRf 0x2000 5 2 ec.toNat
      { c with seq := { c.seq with waiting := some ⟨ec, n, k.clock, k.clock + c.waitCount k ec.toNat⟩ } }

/-- The release of a WAITX whose counter has reached n (R239): the next bundle issues in the following cycle, and the cycles by
which that is later than the budget counts are lateness (R21, R23). -/
def Core.waitRelease (k : Ctx) (c : Core) : Core :=
  match c.seq.waiting with
  | none => c
  | some w =>
    let cnt := c.reg (evCnt w.ec.toNat)
    if w.n ≤ cnt then
      let c := (c.setReg (evCnt w.ec.toNat) (cnt - w.n)).setRf 0x2000 1 1 0
      { c with
        seq := { c.seq with waiting := none, nextAt := k.clock + 1 }
        frame := { c.frame with waitLate := c.frame.waitLate + (k.clock + 1 - w.budgetEnd) } }
    else c

/-- END (R228): the last bundle; a frame with nothing in flight retires. -/
def Core.endFrame (k : Ctx) (c : Core) : Core :=
  Core.checkRetire k { c with seq := { c.seq with ended := true } }

/-- COMMIT of the carry words (R240): pending until the guard band. -/
def Core.commitCarry (c : Core) (a : At) : Core :=
  if a.supp then c else c.setRf 0x2020 0 0 1

/-- SCARRY (R240): into the shadow, or discarded while a commit is pending (R62). -/
def Core.carry (k : Ctx) (c : Core) (a : At) (n : BitVec 3) (rs : BitVec 5) : Core :=
  let v := c.sreg k rs
  if a.supp then c
  else if bitAt (c.reg 0x2020) 0 then c.setRf 0x2020 2 2 1
  else c.setShadow (0x2040 + 4 * n.toNat) v

/-- STOP (R242): recorded; the frame runs on and a stop bath follows at the next tick. -/
def Core.stop (c : Core) (a : At) (code : Half) : Core :=
  if a.supp then c
  else
    let c := c.raise 0 0x0210#16
    let c := if bitAt (c.reg 0x2008) 31 then c
      else c.setReg 0x2008 (BitVec.ofNat 32 (0x80000000 + a.bundle.toNat * 0x10000 + code.toNat))
    c.askStop

/-- SIGNAL (R243): posted in the guard band. -/
def Core.post (k : Ctx) (c : Core) (a : At) (q : BitVec 4) (rs : BitVec 5) : Core :=
  let v := c.sreg k rs
  if a.supp then c else { c with frame := { c.frame with signals := c.frame.signals ++ [(q, v)] } }

/-- DOVR (R247). -/
def Core.setOverride (k : Ctx) (c : Core) (a : At) (ch : BitVec 2) (sel : Bool) (rs : BitVec 5) : Core :=
  let v := c.sreg k rs
  if a.supp then c else c.result k (.ovr ch sel) v scalarLat

/-- Address of a word of an operand-cache line (R232). -/
def ocAddr (o : SqOc) : Nat := cacheBase o.ve + 64 * o.line.toNat + 4 * o.word.toNat

/-- SLD and SST latency before the wait for a free cache cycle (R228). -/
def ocLat (k : Ctx) : Nat := if k.tc1 then 6 else 8

/-- The place of VE0's or VE1's operand cache among the shared ports. -/
def cachePort (ve : Bool) : Nat := 8 + bit ve

/-- The bundle holds an instruction for a VE (R222). -/
def Core.namesVe (c : Core) (b : Nat) (ve : Bool) : Bool :=
  let w := leNat (Memory.read c.mem (bundleAddr b) 32)
  decide ((if ve then fieldOf w 119 80 else fieldOf w 159 120) ≠ 0)

/-- The cycles for which an SLD or SST waits for a free cycle of its cache: none where its VE has nothing under way, else as many as
the image fixes (R162, R232, log entry 41). -/
def Core.cacheWait (k : Ctx) (c : Core) (a : At) (ve : Bool) : Nat :=
  if c.namesVe a.bundle.toNat ve || c.inflight.any fun o => o.ports.any fun p => p.place = cachePort ve then
    c.waitsOf k a.bundle 12
  else 0

/-- The wait cycles of an SLD or SST counted (R51). -/
def Core.stalled (c : Core) (w : Nat) : Core :=
  { c with frame := { c.frame with stalls := c.frame.stalls + w } }

/-- An SLD or SST is the sequencer's own until its contract completion, its wait included (R12, R228). -/
def Core.cacheBusy (k : Ctx) (c : Core) (a : At) (ve : Bool) : Core := c.sqBusy (k.clock + ocLat k + c.cacheWait k a ve)

/-- An SLD or SST takes its word (R232): an SLD's register shows it at its contract cycle, an SST's word is written; a CRC miss on the
line, which an SST's partial write checks too (R366), is handled as a VE's. -/
def Core.takeWord (k : Ctx) (c : Core) (x : CacheWord) : Core :=
  let l := lineOf x.addr
  let u := if x.addr < cacheBase true then 2 else 3
  match x.dst with
  | some r =>
    let v := BitVec.ofNat 32 (leNat (c.read k x.addr 4))
    let c := { c with seq := { c.seq with coming := SeqWrite.place ⟨.sreg r, v, x.due⟩ c.seq.coming } }
    c.frameMiss k u 0x0409#16 x.bundle (c.missing [l] (if x.miss then [l] else []))
  | none =>
    let c := c.store x.addr (leBytes 4 x.val.toNat)
    c.frameMiss k u 0x0409#16 x.bundle (c.missing [l] [])

/-- An SLD or SST at its issue: it takes its word in the first free cycle, now or after its wait. -/
def Core.useCache (k : Ctx) (c : Core) (a : At) (o : SqOc) (dst : Option (BitVec 5)) (v : Word) (miss : Bool) : Core :=
  let w := c.cacheWait k a o.ve
  let c := c.stalled w
  let x : CacheWord := ⟨k.clock + w, dst, ocAddr o, v, k.clock + ocLat k + w, a.bundle, miss⟩
  if a.supp then c
  else if w = 0 then c.takeWord k x
  else { c with seq := { c.seq with words := c.seq.words ++ [x] } }

/-- SLD (R232). -/
def Core.loadOc (k : Ctx) (c : Core) (a : At) (rd : BitVec 5) (o : SqOc) (miss : Bool) : Core :=
  c.useCache k a o (some rd) 0#32 miss

/-- SST (R232). -/
def Core.storeOc (k : Ctx) (c : Core) (a : At) (rs : BitVec 5) (o : SqOc) : Core :=
  c.useCache k a o none (c.sreg k rs) false

/-- MOVFN (R232): the frame's own frame number (R15). -/
def Core.frameNumber (c : Core) (hi : Bool) : Word :=
  if hi then (c.frame.fn >>> 32).setWidth 32 else c.frame.fn.setWidth 32

/-- A word whose value the manual leaves open: number `i` of those of a free value. -/
def freeWord (ctr i : Nat) : Word := BitVec.ofNat 32 (leNat ((List.range 4).map fun j => Config.freeByte ctr (4 * i + j)))

/-- Nothing of the frame has issued: its header lies in the four bundles behind which the first is in line (R227). -/
def Core.atEntry (c : Core) : Bool := c.running && decide (c.seq.slot = 7)

/-- The lines of the frame store that issue needs at bundle `b`: its own, and before the frame's first bundle those of the frame
header (R250, R251). -/
def Core.fetchLines (c : Core) (b : Nat) : List Nat :=
  (if c.atEntry then linesRead [(bundleAddr (c.seq.prev - 3), 128)] else []) ++ [lineOf (bundleAddr b)]

/-- The cycle in which a fetch trap at a bundle index falls: that in which the bundle would issue, or, for one of the frame header's,
the first bundle (R251). -/
def Core.trapCycle (c : Core) (b : Nat) : Option Nat :=
  if !c.running then none
  else if c.atEntry && decide (c.seq.prev < b + 4) && decide (b ≤ c.seq.prev) then some c.seq.nextAt
  else (c.inLine b).map (·.2)

/-- The instruction-fetch trap (R251): issue stops at the bundle, of which no slot issues; the frame is replayed or aborted (R370). A
miss on a line of the frame header traps with the header's index, and its values are not used: what the scalar registers and
predicates then hold is open (log entry 7). -/
def Core.fetchTrap (k : Ctx) (c : Core) (b : Nat) (lines : List Nat) : Core :=
  let head := c.atEntry && lines.any fun l => decide (l ≤ bundleAddr c.seq.prev)
  let q := { c.seq with stopped := true, slot := 7 }
  let q := if head then { q with sregs := (List.range 32).map (freeWord k.ctr), preds := Config.freeByte k.ctr 128 ||| 1#8 } else q
  Core.checkRetire k ({ c with seq := q }.frameMiss k 0 0x0402#16 (BitVec.ofNat 13 (if head then c.seq.prev - 3 else b)) lines)

end Sys2Proof.Machine
end

