-- ==== Sys2Proof/Machine/Operands.lean ====
section
/-! DEFINITION. How engine instructions form and check their operands: offset registers and counted extents (R255),
declared maxima (R256), layouts (R182–R184), grain tiles and index sheets (R94–R99). -/

namespace Sys2Proof.Machine

/-- base + (s[r] with the bits below the alignment cleared), modulo 2^32 (R255). -/
def Core.engAddr (k : Ctx) (c : Core) (base : Nat) (r : BitVec 5) (align : Nat) : Nat :=
  (base + (c.sreg k r).toNat / align * align) % 2 ^ 32

/-- The counted extent of `len` bytes from `a` lies in the bank of `base` (R255). -/
def inBank (base a len : Nat) : Bool := decide (bankOf a = bankOf base) && decide (bankOf (a + len - 1) = bankOf base)

/-- ENG_RANGE (R255): raised at issue, the frame aborted, a VE's too (R269, against R175: log entry 54); the instruction goes on as if
suppressed. -/
def Core.engRange (c : Core) (u : EngUnit) (bundle : BitVec 13) : Core :=
  (c.raise (unitPlace u) 0x0212#16).abort 0x0212#16 bundle

/-- A site with its instruction suppressed. -/
def dead (a : At) : At := { a with supp := true }

/-- A register count held to its declared maximum; above it ENG_COUNT_CLAMP is raised (R256). -/
def Core.clampCount (c : Core) (u : EngUnit) (n max : Nat) : Core × Nat :=
  if max < n then (c.raise (unitPlace u) 0x0213#16, max) else (c, n)

/-- The bank of accumulator line (t, r, g), of column group g of row r of tile t, and its line in that bank (R110). -/
def accBank (t r g : Nat) : Nat := g % 2 * 128 + r % 128 ^^^ (g / 2 % 4 * 32 + t % 16 * 2)
def accBankLine (t g : Nat) : Nat := t % 16 * 4 + g / 2 % 4

/-- The four banks that hold half-row `h` of row `r` of tile `t` (R269). -/
def halfRowBanks (t r h : Nat) : List Nat := (List.range 4).map fun i => accBank t r (4 * h + i)

/-- Width class of a format: 1 nibble, 2 byte, 4 half (R89). -/
def wclass (f : Nat) : Nat := if f = 9 then 1 else if f = 1 || f = 2 then 4 else 2

/-- Bytes of `n` packed elements of a format. -/
def packedLen (f n : Nat) : Nat := n * elemBits f / 8

/-- Length of an MX unit: 128 elements and four block scales (R183). -/
def mxUnit (f : Nat) : Nat := packedLen f 128 + 4

/-- Length of a grain tile's body (R95). -/
def grtLen (f q : Nat) : Nat := 64 + packedLen f (q * 1024) + (if isMx f then 512 else 0)

/-- Body length of a weight tile by layout (R259). -/
def bodyLen (lay f q : Nat) : Nat :=
  if lay = 5 then grtLen f q else if lay = 4 then 128 * mxUnit f else packedLen f 16384

/-- Byte offset of element (row `i`, K `x`) in AIL, or of column `i` in BIL, for e-byte elements (R182). -/
def ailOffset (e i x : Nat) : Nat :=
  let r := x % 32
  (e * i + r / (32 / e)) * 128 + x / 32 * 32 + r % (32 / e) * e

/-- Byte offset of element (r, c) in DIAG (R184). -/
def diagOffset (e r c : Nat) : Nat := e * (128 * r + (c + r) % 128)

/-- Sheet byte of the cell of a position, and the position's bit in the cell (R98). -/
def cellOffset (r c : Nat) : Nat := 64 * ((r / 4 + c / 4) % 32) + 2 * (r / 4)
def cellBit (r c : Nat) : Nat := 4 * (r % 4) + c % 4

/-- Position (r, c) of a sheet is active (R98). -/
def sheetActive (sheet : List Byte) (r c : Nat) : Bool := (natAt sheet (cellOffset r c) 2).testBit (cellBit r c)

/-- Active positions of a row, of a column, and of the sheet. -/
def rowCount (sheet : List Byte) (r : Nat) : Nat := ((List.range 128).filter (sheetActive sheet r ·)).length
def colCount (sheet : List Byte) (c : Nat) : Nat := ((List.range 128).filter (sheetActive sheet · c)).length
def sheetCount (sheet : List Byte) : Nat := ((List.range 128).map (rowCount sheet)).foldl (· + ·) 0

/-- ROWPRE[r] as the sheet holds it (R97). -/
def rowPre (sheet : List Byte) (r : Nat) : Nat := natAt sheet (0x800 + 2 * r) 2

/-- The value slot of an active position (R94, R105). -/
def slotOf (sheet : List Byte) (r c : Nat) : Nat :=
  rowPre sheet r + ((List.range c).filter (sheetActive sheet r ·)).length

/-- The active positions in row-major order: their linear indices 128 r + c. -/
def activeList (sheet : List Byte) : List Nat := (List.range 16384).filter fun p => sheetActive sheet (p / 128) (p % 128)

/-- The sheet of a bitmap given as the set of active linear indices, its counts recomputed (R97, R99). -/
def buildSheet (act : List Nat) : List Byte :=
  let mark := act.foldl (fun (m : List (Nat × Nat)) p =>
    let o := cellOffset (p / 128) (p % 128)
    Sparse.set (fun _ => 0) m o (Sparse.get (fun _ => 0) m o ||| 2 ^ cellBit (p / 128) (p % 128))) []
  let rows := (List.range 128).map fun r => (act.filter fun p => p / 128 = r).length
  let cols := (List.range 128).map fun c => (act.filter fun p => p % 128 = c).length
  let pre := (rows.foldl (fun (x : List Nat × Nat) n => (x.1 ++ [x.2], x.2 + n)) ([], 0)).1
  ((List.range 1024).flatMap fun i => leBytes 2 (Sparse.get (fun _ => 0) mark (2 * i))) ++
    pre.flatMap (leBytes 2) ++ cols.flatMap (leBytes 2)

/-- The fields of a grain tile header (R96). -/
structure TileHeader where
  epoch : Nat
  nnz : Nat
  cap : Nat
  fmt : Nat
  sexp : Nat
  slot : Nat
  tensor : Nat
  brow : Nat
  bcol : Nat
deriving DecidableEq, Repr

/-- The header at the start of a tile body (R96). -/
def tileHeader (body : List Byte) : TileHeader :=
  { epoch := natAt body 0 4, nnz := natAt body 4 2, cap := natAt body 6 1, fmt := natAt body 7 1 % 16
    sexp := natAt body 8 1, slot := natAt body 9 1, tensor := natAt body 0xC 4, brow := natAt body 0x10 2
    bcol := natAt body 0x12 2 }

/-- Offset of the MX scale array of a grain tile body (R95). -/
def scaleOff (f q : Nat) : Nat := 64 + packedLen f (q * 1024)

/-- Code of value slot `i` of a grain tile body (R94). -/
def slotCode (body : List Byte) (f i : Nat) : Nat := elemAt (body.drop 64) (elemBits f) i

/-- MX scale code of position (r, c) of a grain tile body (R95). -/
def slotScale (body : List Byte) (f q r c : Nat) : Nat := natAt body (scaleOff f q + 4 * r + c / 32) 1

/-- The epoch tag of a sheet slot (R99). -/
def Core.slotTag (c : Core) (slot : Nat) : Nat := (c.reg (0x7100 + 4 * slot)).toNat

/-- A sheet slot is in edit: an ME operation that may write it is in flight (R142). -/
def Core.inEdit (c : Core) (slot : Nat) : Bool := c.inflight.any fun o => o.edits.contains slot

/-- The scale exponent of latch entry `e` (R79). -/
def Core.latchS (c : Core) (e : Nat) : Int := signedOf 8 (fieldOf (c.reg (0x4100 + e / 4 * 4)).toNat (8 * (e % 4) + 7) (8 * (e % 4)))

end Sys2Proof.Machine
end

