-- ==== Sys2Proof/Machine/Tensor.lean ====
section
/-! DEFINITION. The tensor engine (R89–R122, R258–R262): weight loading and its header checks, dense, sparse and
transposed products with their chunk sums, row-set products, and the print stage (R75–R77, R153). -/

namespace Sys2Proof.Machine

/-! ## Element arrays -/

/-- The packed codes of `w` bits each of a byte string. -/
def unpack (w : Nat) : List Byte → List Nat
  | [] => []
  | a :: t =>
    if w = 4 then a.toNat % 16 :: a.toNat / 16 :: unpack w t
    else match w, t with
      | 16, b :: u => (a.toNat + 256 * b.toNat) :: unpack w u
      | 32, b :: c :: d :: u => leNat [a, b, c, d] :: unpack w u
      | 6, b :: c :: u =>
        let x := leNat [a, b, c]
        x % 64 :: x / 64 % 64 :: x / 4096 % 64 :: x / 262144 :: unpack w u
      | 8, u => a.toNat :: unpack w u
      | _, _ => []

/-- A stored operand element of a product: its K position, its value without its block scale, its scale code. -/
structure Term where
  k : Nat
  v : FVal
  sc : Nat

/-- An operand element of the TE by its code (R67): INT8 as an integer, others by their element format. -/
def elemVal (f x : Nat) : FVal := if isMx f then (fmtOfCode f).decode x else codeVal f x

/-- The 128 elements of an MX unit with their block scale codes (R183). -/
def unitElems (f : Nat) (unit : List Byte) : List (FVal × Nat) :=
  let n := packedLen f 128
  let sc := (unit.drop n).toArray
  (unpack (elemBits f) (unit.take n)).mapIdx fun i x => (elemVal f x, (sc.getD (i / 32) 0#8).toNat)

/-- The stored weights of a tile body, row by row, ascending columns (R94, R95, R182–R184). -/
def weightRows (tag : TileTag) (body sheet : List Byte) : List (List Term) :=
  let f := tag.wfmt
  let e := elemBits f / 8
  let arr := body.toArray
  let at_ (o : Nat) : Nat := leNat ((List.range e).map fun i => arr.getD (o + i) 0#8)
  (List.range 128).map fun r =>
    match tag.lay with
    | 4 =>
      (unitElems f ((body.drop (r * mxUnit f)).take (mxUnit f))).mapIdx fun k v => ⟨k, v.1, v.2⟩
    | 5 =>
      let codes := (unpack (elemBits f) ((body.drop 64).take (packedLen f (tag.q * 1024)))).toArray
      ((List.range 128).filter (sheetActive sheet r ·)).mapIdx fun i c =>
        ⟨c, elemVal f (codes.getD (rowPre sheet r + i) 0),
          if isMx f then (arr.getD (scaleOff f tag.q + 4 * r + c / 32) 0#8).toNat else 127⟩
    | 6 => (List.range 128).map fun c => ⟨c, elemVal f (at_ (diagOffset e r c)), 127⟩
    | _ => (List.range 128).map fun c => ⟨c, elemVal f (at_ (ailOffset e r c)), 127⟩

/-- The weights by output row: rows of the tile, or its columns in the transposed configurations (R105), ascending K. -/
def outputRows (trans : Bool) (rows : List (List Term)) : List (List Term) :=
  if trans then
    (List.range 128).map fun c =>
      (rows.mapIdx fun r ws => (ws.filter fun t => t.k = c).map fun t => { t with k := r }).flatten
  else rows

/-- The bytes of one activation column (R462). -/
def unitBytes (f : Nat) : Nat := if isMx f then mxUnit f else elemBits f * 16

/-- The 128 elements of an activation column (R182, R183). -/
def activations (f : Nat) (col : List Byte) : List (FVal × Nat) :=
  if isMx f then unitElems f col
  else
    let e := elemBits f / 8
    let arr := col.toArray
    (List.range 128).map fun k =>
      (elemVal f (leNat ((List.range e).map fun i => arr.getD (ailOffset e 0 k + i) 0#8)), 127)

/-! ## Chunk sums -/

/-- A chunk sum under way: the PA26 sum, if a position was active, the scale exponent, and the events. -/
structure ChunkRun where
  s : Option FVal
  scale : Int
  ev : NumEv

/-- One product into a chunk sum (R115). With `wide` the product carries its weight scale and is truncated to 17
fraction bits with a free exponent; otherwise it is truncated to PA26 and both scales wait for the chunk. -/
def chunkStep (wide ftz : Bool) (r : ChunkRun) (w : Term) (x : FVal × Nat) : ChunkRun :=
  let p := if w.sc = 255 || x.2 = 255 then FVal.nan false else (FVal.mul w.v x.1).1
  let ws : Int := w.sc - 127
  let xs : Int := x.2 - 127
  let (p, e1) := if wide then (trunc17 (p.scale ws), NumEv.none) else toPa26 ftz p
  let (s, e2) := match r.s with
    | none => (p, NumEv.none)
    | some s => if wide then (trunc17 (FVal.add s p).1, NumEv.none) else toPa26 ftz (FVal.add s p).1
  ⟨some s, if wide then xs else ws + xs, ((r.ev.join e1).join e2).join { inv := s.isNan }⟩

/-- A floating-point chunk sum with its scale applied (R72, R84, R115); `none` for an empty chunk (R114). -/
def chunkSum (wide ftz mx : Bool) (ws : List Term) (x : Array (FVal × Nat)) : Option FVal × NumEv :=
  let r := ws.foldl (fun r w => chunkStep wide ftz r w (x.getD w.k (.fin false 0 0, 127))) ⟨none, 0, {}⟩
  match r.s with
  | none => (none, r.ev)
  | some s =>
    let v := s.scale r.scale
    if mx then
      let (v, e) := flushIn ftz fmtFp32 v
      (some v, r.ev.join e)
    else (some v, r.ev)

/-- The integer a finite value denotes. -/
def FVal.toInt : FVal → Int
  | .fin s m e => scaledInt s m e 0
  | _ => 0

/-- An integer chunk sum (R117). -/
def chunkInt (ws : List Term) (x : Array (FVal × Nat)) : Int :=
  ws.foldl (fun a w => a + FVal.toInt w.v * FVal.toInt (x.getD w.k (.fin false 0 0, 127)).1) 0

/-- The weights of one output row cut into chunks of length `lc` by K position. -/
def chunksOf (lc : Nat) (ws : List Term) : List (List Term) :=
  (List.range (128 / lc)).map fun j => ws.filter fun w => w.k / lc = j

/-! ## TLOAD -/

/-- The number of the failed header check of a grain tile, with the code it raises (R101); a slot in edit always fails check 4
(R142). -/
def Core.headerFault (c : Core) (h : HdrCheck) : Option (Nat × Half) :=
  let t := tileHeader h.bytes
  let n := sheetCount (Memory.read c.mem (sheetBase h.slot) 2560)
  if c.inEdit h.slot then some (4, 0x0205#16)
  else if t.cap ≠ h.q || t.fmt ≠ h.fmt then some (1, 0x0208#16)
  else if t.nnz ≠ n || t.cap * 1024 < t.nnz then some (2, 0x0208#16)
  else if t.slot ≠ h.slot then some (3, 0x0208#16)
  else if t.epoch ≠ c.slotTag h.slot then some (4, 0x0205#16)
  else match h.expect with
    | some x => if t.epoch ≠ x then some (5, 0x0205#16) else none
    | none => none

/-- The header checks of a TLOAD made (R101): a failure marks the standby buffer empty and aborts the frame. TE_EPOCH_EXP after a
failure of check 1, 2 or 3 is the model's choice (log entry 49). -/
def Core.checkHeader (c : Core) (h : HdrCheck) (bundle : BitVec 13) : Core :=
  match c.headerFault h with
  | none => c
  | some (n, code) =>
    let c := { c with te := { c.te with standby := { c.te.standby with tag := none } } }
    let c := (c.raise 1 code).abort code bundle
    if bitAt (c.reg 0x3014) 31 then c
    else
      let t := tileHeader h.bytes
      let c := c.setReg 0x3014 (BitVec.ofNat 32 (code.toNat + h.slot * 2 ^ 16 + n * 2 ^ 22 + 2 ^ 31))
      let c := c.setReg 0x3018 (BitVec.ofNat 32 (h.addr % 2 ^ 23))
      let c := c.setReg 0x301C (BitVec.ofNat 32 (if n = 4 then c.slotTag h.slot else h.expect.getD 0))
      c.setReg 0x3020 (BitVec.ofNat 32 t.epoch)

/-- TLOAD's load time Lw (R100, R259). -/
def loadTime (lay len : Nat) : Nat := if lay = 5 && ceilDiv len 128 < 40 then 40 else ceilDiv len 128

/-- TLOAD (R100, R101, R259). -/
def Core.tload (k : Ctx) (c : Core) (s : At) (o : TLoadOp) : Core :=
  let base := o.abase.toNat * 128
  let a := c.engAddr k base o.ar 128
  let lay := o.lay.toNat
  let f := o.wfmt.toNat
  let q := o.qm1.toNat + 1
  let len := bodyLen lay f q
  let lw := loadTime lay len
  let lat := lw + if k.tc1 then 14 else 16
  if s.supp then c.issue k s .teLoad lat lw 0 PendingOp.blank
  else if !inBank base a len then (c.engRange .teLoad s.bundle).issue k (dead s) .teLoad lat lw 0 PendingOp.blank
  else
    let (body, bad) := c.readE k 2 a len
    let slot := o.slot.toNat
    let grt := decide (lay = 5)
    let sheet := if grt then c.read k (sheetBase slot) 2560 else []
    let expect := (c.sreg k o.er).toNat
    let c := c.issue k s .teLoad lat lw 0 { PendingOp.blank with
      master := 2, effs := bad
      reads := (a, len) :: if grt then [(sheetBase slot, 2560)] else []
      header := if grt then some ⟨k.clock + 14, a, slot, q, f, if o.echk then some expect else none, body.take 64⟩
                else none }
    let due := match c.inflight.getLast? with
      | some p => p.due
      | none => k.clock + lat
    { c with te := { c.te with standby := ⟨some ⟨lay, f, q⟩, body, sheet, due⟩, loaded := true } }

/-! ## Products -/

/-- A product as TMUL and TMULR form it: the shared fields, the capacity that sets its time, and the rows and K
positions that a row set leaves active. -/
structure Product where
  o : TMulOp
  q : Nat
  tagq : Nat
  rows : Option RowSet
  kset : Option RowSet

/-- The width class of a product (R89). -/
def Product.width (p : Product) : Nat :=
  if wclass p.o.wfmt.toNat < wclass p.o.afmt.toNat then wclass p.o.afmt.toNat else wclass p.o.wfmt.toNat

/-- The number of activation columns. -/
def Product.n (p : Product) : Nat := p.o.nm1.toNat + 1

/-- The accumulator tiles a product writes (R109). -/
def Product.tiles (p : Product) : List Nat := (tileRange p.o.t0.toNat (ceilDiv p.n 128)).filter fun t => decide (t < 16)

/-- The array state (R90). -/
def Product.array (p : Product) : ArrayState :=
  ⟨p.o.cfg.toNat, p.width, decide (p.o.wfmt.toNat = 10), if 2 ≤ p.o.cfg.toNat then p.q else 16⟩

/-- Streaming cycles S (R107). -/
def Product.stream (p : Product) : Nat := ceilDiv (p.n * p.q * p.width) 32

/-- The chunk length in force (R114). -/
def Product.chunkLen (p : Product) : Nat :=
  let l := 16 * 2 ^ p.o.chl.toNat
  if (isMx p.o.wfmt.toNat || isMx p.o.afmt.toNat) && 32 < l then 32 else l

/-- Token cost of a product (R90). -/
def Product.tokens (p : Product) : Nat :=
  if p.o.wfmt.toNat = 9 || p.o.afmt.toNat = 9 then 6 else if 2 ≤ p.o.cfg.toNat then 5 else 4

/-- Contract latency and issue interval of a product (R107, R262), with the fill of R91. -/
def Core.productTime (k : Ctx) (c : Core) (p : Product) : Nat × Nat :=
  let s := p.stream
  let trans := p.o.cfg.toNat % 2 = 1
  let fill := match c.te.last with
    | none => 0
    | some l => if l.arr = p.array then 0 else if k.tc1 then 40 else 48
  ((if trans then s + 16 else s) + (if k.tc1 then 24 else 28) + fill, if trans then s + 16 else s)

/-- The bytes of the whole 128-byte rows that a product's activations take (R462). -/
def Product.footprint (p : Product) : Nat := 128 * ceilDiv (p.n * unitBytes p.o.afmt.toNat) 128

/-- The tag agrees with the product (R261). -/
def Product.tagOk (p : Product) (t : Option TileTag) : Bool :=
  match t with
  | none => false
  | some t =>
    (match p.o.cfg.toNat with
      | 0 => t.lay = 2 || t.lay = 4
      | 1 => t.lay = 6
      | _ => t.lay = 5) && t.wfmt = p.o.wfmt.toNat && t.q = p.tagq

/-- What a product adds to one element: its effect, the events it raises and whether a chunk sum overflowed. -/
structure Cell where
  tile : Nat
  effs : List Eff
  ev : NumEv

/-- The part of output row `i` in the product, and whether it only serves the audit: a row-set product in ROWS mode
computes the selected and the audited rows (R152). -/
def Product.rowPart (p : Product) (i : Nat) : Bool × Bool :=
  match p.rows with
  | none => (true, false)
  | some r => (r.selected.getLsbD i || r.audited.getLsbD i, !r.selected.getLsbD i)

/-- One output element of a product (R114–R117). -/
def Product.cell (p : Product) (ftz : Bool) (order ord0 : Nat) (t e : Nat) (chunks : List (List Term))
    (x : Array (FVal × Nat)) (part quiet : Bool) : Cell :=
  let ow := !p.o.acc
  if p.o.wfmt.toNat = 10 then
    let terms := if part then (chunks.filter fun l => !l.isEmpty).map fun ws => chunkInt ws x else []
    ⟨t, if ow || !terms.isEmpty then [.accInt t e ow quiet terms] else [], {}⟩
  else
    let wide := decide (p.o.cfg.toNat % 2 = 1) && isMx p.o.wfmt.toNat
    let mx := isMx p.o.wfmt.toNat || isMx p.o.afmt.toNat
    let sums := if part then chunks.mapIdx fun j ws => (ord0 + j, chunkSum wide ftz mx ws x) else []
    let terms := sums.filterMap fun s => s.2.1.map fun v => (s.1, v)
    let ev := if quiet then {} else NumEv.joins (sums.map fun s => s.2.2)
    ⟨t, if ow || !terms.isEmpty then [.acc t e ow quiet (some order) terms] else [], ev⟩

/-- Operand values as the array takes them: subnormal BF16 and FP16 flushed under FTZ (R84). -/
def flushTerms (ftz : Bool) (f : Nat) (ws : List Term) : List Term × NumEv :=
  let r := ws.map fun t => (flushIn ftz (fmtOfCode f) t.v, t)
  (r.map fun x => { x.2 with v := x.1.1 }, { flu := r.any fun x => x.1.2.flu })

/-- Accumulator effects under the fences: those on a line that the master may not write become violations (R57, R58). -/
def Core.fenceAcc (c : Core) (master : Nat) (effs : List Eff) : List Eff :=
  if (List.range 8).all fun i => !bitAt (c.reg (0x1108 + 16 * i)) 0 then effs
  else
    (effs.foldl (fun (r : List Eff) e =>
      let line := match e with
        | .acc t i _ _ _ _ => lineOf (tileAddr t i)
        | .accInt t i _ _ _ => lineOf (tileAddr t i)
        | _ => 0x400000
      if c.denies master true line then
        if r.head? = some (.fence line master true) then r else .fence line master true :: r
      else e :: r) []).reverse

/-- Bytes of a weight buffer as a product sees them: undefined before its TLOAD's contract completion (R100). -/
def bufferBytes (k : Ctx) (ready : Nat) (l : List Byte) : List Byte :=
  if k.clock < ready then l.mapIdx fun i _ => Config.freeByte k.ctr i else l

/-- The effects and events of a product with weights `b` and activations at `x` (R102–R119). A subnormal operand counts as flushed if
it takes part in a row that is not only audited: a weight of it, or an activation at the K position of one (R84, R106, R152, R153). -/
def Core.productEffs (k : Ctx) (c : Core) (p : Product) (b : WeightBuf) (x : Nat) : List Eff × NumEv :=
  let f := p.o.wfmt.toNat
  let g := p.o.afmt.toNat
  let ftz := c.ftz && decide (f ≠ 10)
  let tag := b.tag.getD ⟨0, 0, 0⟩
  let rows := outputRows (p.o.cfg.toNat % 2 = 1) (weightRows tag (bufferBytes k b.ready b.body) (bufferBytes k b.ready b.sheet))
  let rows := match p.kset with
    | none => rows
    | some r => rows.map fun (ws : List Term) => ws.filter fun t => r.selected.getLsbD t.k
  let rows := rows.map (flushTerms ftz f)
  let lc := p.chunkLen
  let chunked := rows.map fun (r : List Term × NumEv) => chunksOf lc r.1
  let (bytes, bad) := c.readE k 3 x p.footprint
  let arr := bytes.toArray
  let cols := (List.range p.n).map fun n =>
    let col := (List.range (unitBytes g)).map fun i => arr.getD (n * unitBytes g + i) 0#8
    (activations g col).map fun v => (flushIn ftz (fmtOfCode g) v.1, v.2)
  let cells := cols.mapIdx fun n col =>
    let xs := (col.map fun v => (v.1.1, v.2)).toArray
    let t := p.o.t0.toNat + n / 128
    chunked.mapIdx fun i chunks =>
      let (part, quiet) := p.rowPart i
      p.cell ftz c.nextId (c.frame.chunkCtr.getD t 0) t (128 * i + n % 128) chunks xs part quiet
  let cells := cells.flatten.filter fun x => decide (x.tile < 16)
  let ovf : Nat := p.tiles.foldl (fun m t => if cells.any fun x => x.tile = t && x.ev.ovf then m + 2 ^ t else m) 0
  let taken := rows.zipIdx.filter fun r => p.rowPart r.2 = (true, false)
  let ks := (List.range 128).filter fun i => taken.any fun r => r.1.1.any fun t => t.k = i
  let ev := (NumEv.joins (cells.map fun x => x.ev)).join
    { flu := taken.any (fun r => r.1.2.flu) || cols.any fun col => ks.any fun i => (col[i]?).any fun v => v.1.2.flu }
  (bad ++ c.fenceAcc 2 (cells.flatMap fun x => x.effs) ++
    (if ovf = 0 then [] else [.tileFlags 0#16 (BitVec.ofNat 16 ovf) 0#16]), ev)

/-- TE_STATUS shows an array state (R128). -/
def Core.showArray (c : Core) (a : ArrayState) : Core :=
  (((c.setRf 0x3000 2 1 a.cfg).setRf 0x3000 4 3 (a.wclass / 2)).setRf 0x3000 8 5 (a.q - 1))

/-- The engine goes to the product's array state (R91). -/
def Core.setArray (c : Core) (p : Product) (id due : Nat) : Core :=
  Core.showArray { c with te := { c.te with last := some ⟨p.array, p.o.t0.toNat, ceilDiv p.n 128, id, due⟩ } } p.array

/-- The instruction whose claim a product with CHAIN = 1 takes over (R121). -/
def Core.chained (c : Core) (p : Product) : Option Nat :=
  match c.te.last with
  | some l =>
    if p.o.chain && l.arr = p.array && l.t0 = p.o.t0.toNat && l.tiles = ceilDiv p.n 128 then some l.id else none
  | none => none

/-- A product (R91, R100, R102–R122, R260, R261): claims, swap, tag check, extent check, then the array. -/
def Core.product (k : Ctx) (c : Core) (s : At) (p : Product) : Core :=
  let (lat, interval) := c.productTime k p
  let timing (c : Core) (s : At) : Core :=
    (c.issue k s .teArray lat interval p.tokens PendingOp.blank).setArray p c.nextId (k.clock + lat)
  if s.supp then timing c s
  else
    match c.claimed p.tiles (c.chained p) with
    | some (t, owner) => c.doubleClaim 1 t s.bundle owner
    | none =>
      let id := c.nextId
      let c := c.claim p.tiles id s.bundle
      let c := if c.te.loaded then { c with te := { c.te with active := c.te.standby, loaded := false } } else c
      if !p.tagOk c.te.active.tag then
        ((c.release id).raise 1 0x0208#16).abort 0x0208#16 s.bundle
      else
        let base := p.o.xbase.toNat * 128
        let x := c.engAddr k base p.o.ar 128
        if !inBank base x p.footprint then timing ((c.release id).engRange .teArray s.bundle) (dead s)
        else
          let c := c.setType p.tiles (decide (p.o.wfmt.toNat = 10))
          let c := if p.o.acc then c else c.clearTileFlags p.tiles
          let (effs, ev) := c.productEffs k p c.te.active x
          let c := c.issue k s .teArray lat interval p.tokens { PendingOp.blank with
            master := 2, claims := p.tiles, reads := [(x, p.footprint)], effs := effs, ev := ev }
          let c := (c.setArray p id (k.clock + lat)).bump 0x3028 1
          { c with frame := { c.frame with
              products := c.frame.products + 1
              chunkCtr := p.tiles.foldl (fun l t => setAt l t (l.getD t 0 + 128 / p.chunkLen)) c.frame.chunkCtr } }

/-- The product of a TMUL. -/
def tmulProduct (o : TMulOp) (qm1 : BitVec 4) : Product := ⟨o, qm1.toNat + 1, qm1.toNat + 1, none, none⟩

/-- TMUL (R260). -/
def Core.tmul (k : Ctx) (c : Core) (s : At) (o : TMulOp) (qm1 : BitVec 4) : Core := c.product k s (tmulProduct o qm1)

/-- ROWCAP of the predictor entry whose PPRED wrote a row set (R152). -/
def Core.rowCap (c : Core) (rs : Nat) : Nat := c.rf (0x7C00 + 32 * (c.rowSets.getD rs RowSet.reset).pent) 7 1

/-- The product of a TMULR. -/
def Core.tmulrProduct (c : Core) (o : TMulOp) (kmode : Bool) (rs : BitVec 3) : Product :=
  let r := c.rowSets.getD rs.toNat RowSet.reset
  let cap := c.rowCap rs.toNat
  ⟨o, if kmode then cap / 8 else cap / 8 + 1, 16, if kmode then none else some r, if kmode then some r else none⟩

/-- TMULR (R152, R260). -/
def Core.tmulr (k : Ctx) (c : Core) (s : At) (o : TMulOp) (kmode : Bool) (rs : BitVec 3) : Core :=
  c.product k s (c.tmulrProduct o kmode rs)

/-! ## TPRINT -/

/-- A print descriptor in force (R75). -/
structure PrintDesc where
  ofmt : Nat
  mxax : Bool
  biasEn : Bool
  ssrc : Bool
  cap : Bool
  hpush : Bool
  sidx : Nat
  qexp : Int
  oscale : Word
  clipLo : Word
  clipHi : Word
  bias : Nat

/-- Print descriptor `n` (R87). -/
def Core.printDesc (c : Core) (n : Nat) : PrintDesc :=
  let b := 0x4800 + 32 * n
  let w := c.reg b
  ⟨fld w 3 0, bitAt w 4, bitAt w 5, bitAt w 6, bitAt w 7, bitAt w 8, fld w 23 16, signedOf 8 (fld w 31 24),
    c.reg (b + 4), c.reg (b + 8), c.reg (b + 12), c.rf (b + 16) 22 0⟩

/-- The scale exponent of a print descriptor (R75, R82). -/
def Core.printScale (c : Core) (d : PrintDesc) : Int := if d.ssrc then c.latchS d.sidx else d.qexp

/-- Clip of R76: NaN passes, zeros compare equal, and of bounds in the wrong order the upper one holds. -/
def clip (lo hi v : Word) : Word :=
  if (f32 v).isNan then v
  else if FVal.lt (f32 hi) (f32 v) || FVal.lt (f32 hi) (f32 lo) then hi
  else if FVal.lt (f32 v) (f32 lo) then lo
  else v

/-- Steps 1 to 3 of R75 on one element. -/
def printSteps (ftz : Bool) (d : PrintDesc) (a bias : Word) : Word × NumEv :=
  let (v1, e1) := f32Mul ftz a d.oscale
  let (v2, e2) := if d.biasEn then f32Add ftz v1 bias else (v1, {})
  (clip d.clipLo d.clipHi v2, e1.join e2)

/-- Division by 2^s under the FP32 overflow and underflow rules (R75). -/
def divPow2 (ftz : Bool) (v : Word) (s : Int) : Word × NumEv :=
  let (x, e0) := flushIn ftz fmtFp32 (f32 v)
  let (w, e1) := toF32 ftz (x.scale (-s))
  (w, e0.join e1)

/-- Step 4 of R75 for a non-MX format: the stored bytes. -/
def storeBytes (ftz : Bool) (f : Nat) (s : Int) (v : Word) : List Byte × NumEv :=
  let (w, e1) := divPow2 ftz v s
  if f = 0 then (leBytes 4 w.toNat, e1)
  else
    let (x, e2) := toFmt f ftz (f32 w)
    (leBytes (elemBits f / 8) x, e1.join e2)

/-- The bytes of one MX unit from its 128 values (R77, R183). -/
def mxUnitBytes (f : Nat) (ftz : Bool) (vs : List Word) : List Byte × NumEv :=
  let blocks := (List.range 4).map fun b =>
    let xs := ((vs.drop (32 * b)).take 32).map f32
    let sc := mxScale f xs
    (sc, mxElems f sc ftz xs)
  (packElems (elemBits f) (blocks.flatMap fun b => b.2.1) ++ blocks.map (fun b => BitVec.ofNat 8 b.1),
    NumEv.joins (blocks.map fun b => b.2.2))

/-- Length of a print's output block (R262). -/
def printLen (f : Nat) : Nat := if isMx f then 128 * mxUnit f else packedLen f 16384

/-- Print time P (R262). -/
def printTime (d : PrintDesc) : Nat :=
  let a := printLen d.ofmt / 128
  if isMx d.ofmt && d.mxax then 128 + a else if a < 128 then 128 else a

/-- An element of a tile as FP32: an INT32 tile's is converted (R74, R463). -/
def tileVal (int : Bool) (w : Word) : Word := if int then (i32ToF32 w).1 else w

/-- TPRINT (R75–R77, R153, R262). -/
def Core.tprint (k : Ctx) (c : Core) (s : At) (o : TPrintOp) : Core :=
  let d := c.printDesc o.pd.toNat
  let t := o.tile.toNat
  let base := o.dbase.toNat * 128
  let a := c.engAddr k base o.ar 128
  let len := printLen d.ofmt
  let p := printTime d
  let lat := p + if k.tc1 then 24 else 28
  if s.supp then c.issue k s .tePrint lat p 1 PendingOp.blank
  else
    match c.claimed [t] none with
    | some (t, owner) => c.doubleClaim 1 t s.bundle owner
    | none =>
      let c := c.claim [t] c.nextId s.bundle
      if !inBank base a len then
        ((c.release c.nextId).engRange .tePrint s.bundle).issue k (dead s) .tePrint lat p 1 PendingOp.blank
      else
        let ftz := c.ftz
        let int := bitAt (c.reg 0x300C) (16 + t)
        let (tb, bad) := c.readE k 2 (tileAddr t 0) 65536
        let vals := ((unpack 32 tb).map fun x => tileVal int (BitVec.ofNat 32 x)).toArray
        let r := c.rowSets.getD o.rs.toNat RowSet.reset
        let shown (i : Nat) : Bool := !o.rsen || r.selected.getLsbD i
        let (bb, bad2) := if d.biasEn then c.readE k 2 d.bias 512 else ([], [])
        let bias := ((unpack 32 bb).map (BitVec.ofNat 32)).toArray
        let outs := (List.range 16384).map fun e =>
          printSteps ftz d (if shown (e / 128) then vals.getD e 0#32 else 0#32) (bias.getD (e % 128) 0#32)
        let v3 := (outs.map (·.1)).toArray
        let sc := c.printScale d
        let units :=
          if isMx d.ofmt then
            (List.range 128).map fun u => mxUnitBytes d.ofmt ftz
              ((List.range 128).map fun i => v3.getD (if d.mxax then 128 * i + u else 128 * u + i) 0#32)
          else (List.range 16384).map fun e => storeBytes ftz d.ofmt sc (v3.getD e 0#32)
        let bytes := units.flatMap (·.1)
        let ev := (NumEv.joins (outs.map (·.2))).join (NumEv.joins (units.map (·.2)))
        let amax := v3.toList.foldl (fun a w => match amaxOf w with
          | some x => amaxJoin a x
          | none => a) 0#32
        let audited := if o.rsen then (List.range 128).filter fun i => r.audited.getLsbD i else []
        let thr := f32 (c.reg (0x7C08 + 32 * r.pent))
        let misses := audited.filter fun i => !r.selected.getLsbD i &&
          (List.range 128).any fun j => FVal.lt thr (f32 (vals.getD (128 * i + j) 0#32))
        c.issue k s .tePrint lat p 1 { PendingOp.blank with
          master := 2, claims := [t]
          reads := (tileAddr t 0, 65536) :: if d.biasEn then [(d.bias, 512)] else []
          effs := bad ++ bad2 ++ c.writeE 2 a bytes ++ (if d.cap then [.amax d.sidx amax] else []) ++
            (if d.hpush then [.push d.sidx] else []) ++
            (if audited.isEmpty then [] else [.audit r.pent audited.length misses.length])
          ev := ev }

end Sys2Proof.Machine
end

