-- ==== Sys2Proof/Machine/Vector.lean ====
section
/-! DEFINITION. The vector engines (R160–R175, R263–R270): operand caches, lane masks, lane arithmetic, conversions,
reductions and moves. -/

namespace Sys2Proof.Machine

/-! ## Operands, masks and results -/

/-- The unit, the scratchpad master and the first mask register of a VE (`true` for VE1). -/
def veUnit (ve : Bool) : EngUnit := if ve then .ve1 else .ve0
def veMaster (ve : Bool) : Nat := if ve then 5 else 4
def veMaskOff (ve : Bool) (m : Nat) : Nat := 0x5100 + 64 * bit ve + 8 * m

/-- Lane mask `m`; m0 reads as all ones (R165). -/
def Core.mask (c : Core) (ve : Bool) (m : BitVec 3) : BitVec 64 :=
  if m = 0#3 then BitVec.allOnes 64 else c.reg (veMaskOff ve m.toNat + 4) ++ c.reg (veMaskOff ve m.toNat)

/-- The effects that write lane mask `m`; a write of m0 is ignored (R165). -/
def maskEffs (ve : Bool) (m : BitVec 3) (v : BitVec 64) : List Eff :=
  if m = 0#3 then []
  else [.reg (veMaskOff ve m.toNat) (v.setWidth 32), .reg (veMaskOff ve m.toNat + 4) ((v >>> 32).setWidth 32)]

/-- Cache lines of a vector operand by its source type STY (R161, R263). -/
def styLines (sty : Nat) : Nat := if sty = 2 || sty = 3 then 2 else 4

/-- Where vector `vn` of a cache lies. -/
def vecAddr (ve : Bool) (vn : Nat) : Nat := cacheBase ve + 256 * vn

/-- The lane codes of a vector operand. -/
def Core.laneCodes (k : Ctx) (c : Core) (ve : Bool) (sty vn : Nat) : List Nat :=
  unpack (if sty = 2 || sty = 3 then 16 else 32) (c.read k (vecAddr ve vn) (64 * styLines sty))

/-- The format of a floating-point source type. -/
def styFmt (sty : Nat) : FFmt := if sty = 2 then fmtBf16 else if sty = 3 then fmtFp16 else fmtFp32

/-- A lane of a floating-point source as FP32, widened exactly (R168, R74). -/
def widenLane (sty x : Nat) : Word :=
  if sty = 2 || sty = 3 then (toF32 false ((styFmt sty).decode x)).1 else BitVec.ofNat 32 x

/-- The value of a source lane as the frame amax takes it, an INT32 lane's rounded to FP32 (R80, R170, log entry 50). -/
def laneValue (sty x : Nat) : Word := if sty = 1 then (i32ToF32 (BitVec.ofNat 32 x)).1 else widenLane sty x

/-- A lane of a floating-point source as an arithmetic operation takes it: subnormal BF16 and FP16 flushed under FTZ
(R84); FP32 is flushed by the operation. -/
def sourceLane (ftz : Bool) (sty x : Nat) : Word × NumEv :=
  if sty = 2 || sty = 3 then
    let (v, e) := flushIn ftz (styFmt sty) ((styFmt sty).decode x)
    ((toF32 false v).1, e)
  else (BitVec.ofNat 32 x, {})

/-- Writes of lanes of `e` bytes from address `a`; `none` leaves a lane's bytes. A line written whole is one write, and
a line that a fence denies is a violation if any of its lanes is written (R58, R166). -/
def Core.writeLanes (c : Core) (master a e : Nat) (lanes : List (Option (List Byte))) : List Eff :=
  let placed := (lanes.mapIdx fun i l => (a + e * i, l)).filterMap fun x => x.2.map fun bs => (x.1, bs)
  let n := e * lanes.length
  (List.range ((a + n + 63) / 64 - a / 64)).flatMap fun i =>
    let line := (a / 64 + i) * 64
    let here := placed.filter fun x => lineOf x.1 = line
    if here.isEmpty then []
    else if c.denies master true line then [.fence line master true]
    else if here.length * e = 64 then [.mem line (here.flatMap (·.2))]
    else here.map fun x => .mem x.1 x.2

/-- The lanes of a result under a mask (R165): masked lanes are left, or written as zeros of `e` bytes with MZ = 1. -/
def maskLanes (mask : BitVec 64) (mz : Bool) (e : Nat) (vals : List (List Byte)) : List (Option (List Byte)) :=
  vals.mapIdx fun i v => if mask.getLsbD i then some v else if mz then some (List.replicate e 0#8) else none

/-- The effects of a 64-lane result into vector `vd`. -/
def Core.vecEffs (c : Core) (ve : Bool) (vd : Nat) (mask : BitVec 64) (mz : Bool) (vals : List Word) : List Eff :=
  c.writeLanes (veMaster ve) (vecAddr ve vd) 4 (maskLanes mask mz 4 (vals.map fun w => leBytes 4 w.toNat))

/-- The events of the unmasked lanes (R166). -/
def laneEvents (mask : BitVec 64) (evs : List NumEv) : NumEv :=
  NumEv.joins ((evs.mapIdx fun i e => if mask.getLsbD i then e else {}))

/-- A VE instruction issues: TC0 latencies are 2 above those of TC1 (R170). -/
def Core.veIssue (k : Ctx) (c : Core) (s : At) (ve : Bool) (lat interval : Nat) (op : PendingOp) : Core :=
  c.issue k s (veUnit ve) (lat + if k.tc1 then 0 else 2) interval 1 { op with master := veMaster ve }

/-- A divide or square root, with its interval of 4 cycles: it holds the next one on its VE and its token for that long, any other
instruction of its VE for 1 (R170, R171, R285). -/
def Core.holdDivide (k : Ctx) (c : Core) (ve : Bool) : Core :=
  { c with
    unitFree := setAt c.unitFree (8 + bit ve) (k.clock + 4)
    inflight := c.inflight.map fun o => if o.id + 1 = c.nextId then { o with tokenEnd := k.clock + 4 } else o }

/-- A VE1 read of the accumulator is held one cycle where VE0 reads one of its banks in the same cycle (R111). -/
def Core.accHold (k : Ctx) (c : Core) (ve : Bool) (banks : List Nat) : Nat :=
  bit (ve && c.inflight.any fun o => decide (o.unit = .ve0) && decide (o.issue = k.clock) && o.accBanks.any (banks.contains ·))

/-- A VE read of the accumulator holds its banks for its cycle, suppressed or not (R110, R111, R225, R269). -/
def Core.holdBanks (k : Ctx) (c : Core) (ve : Bool) (banks : List Nat) : Core :=
  let held := c.accHold k ve banks
  { c with inflight := c.inflight.map fun o => if o.id + 1 = c.nextId then { o with accBanks := banks, held := held } else o }

/-! ## Lane arithmetic -/

/-- One lane of an operation: floating-point or integer sources by STY (R263). -/
structure LaneFn where
  flt : Bool → Word → Word → Word → Word × NumEv
  int : Word → Word → Word

/-- A VA-form operation of `arity` sources (R263, R264): va, vb and, for VFMA, the old vd. -/
def Core.vArith (k : Ctx) (c : Core) (s : At) (o : VaOp) (f : LaneFn) (lat arity : Nat) : Core :=
  if s.supp then c.veIssue k s o.ve lat 1 PendingOp.blank
  else
    let sty := o.sty.toNat
    let ftz := c.ftz
    let a := c.laneCodes k o.ve sty o.va.toNat
    let b := c.laneCodes k o.ve sty o.vb.toNat
    let d := c.laneCodes k o.ve 0 o.vd.toNat
    let m := c.mask o.ve o.msk
    let out := (List.range 64).map fun i =>
      let x := a.getD i 0
      let y := b.getD i 0
      if sty = 1 then (f.int (BitVec.ofNat 32 x) (BitVec.ofNat 32 y), NumEv.none)
      else
        let (u, e1) := sourceLane ftz sty x
        let (v, e2) := if arity = 1 then (0#32, {}) else sourceLane ftz sty y
        let (w, e3) := f.flt ftz u v (BitVec.ofNat 32 (d.getD i 0))
        (w, (e1.join e2).join e3)
    let n := 64 * styLines sty
    c.veIssue k s o.ve lat 1 { PendingOp.blank with
      reads := [(vecAddr o.ve o.va.toNat, n), (vecAddr o.ve o.vb.toNat, n), (vecAddr o.ve o.vd.toNat, 256)].take arity
      effs := c.vecEffs o.ve o.vd.toNat m o.mz (out.map (·.1)), ev := laneEvents m (out.map (·.2)) }

/-- The integer half of an operation that has none. -/
def noInt : Word → Word → Word := fun x _ => x

/-- A floating-point binary operation, an integer one. -/
def bin (f : Bool → Word → Word → Word × NumEv) (g : Word → Word → Word) : LaneFn := ⟨fun z a b _ => f z a b, g⟩

/-- A floating-point unary operation, an integer one. -/
def un (f : Bool → Word → Word × NumEv) (g : Word → Word) : LaneFn := ⟨fun z a _ _ => f z a, fun x _ => g x⟩

/-- A bitwise operation on either source type. -/
def bitwise (g : Word → Word → Word) : LaneFn := ⟨fun _ a b _ => (g a b, {}), g⟩

/-- A sign operation on one FP32 lane; a NaN keeps its sign (R70). -/
def signOp (f : FVal → FVal) (ftz : Bool) (a : Word) : Word × NumEv :=
  let (x, e) := flushIn ftz fmtFp32 (f32 a)
  match x with
  | .nan s => ((toF32 false (.nan s)).1, e)
  | v => ((toF32 false (f v)).1, e)

/-- Set bits of a word. -/
def popcount (w : Word) : Nat := popNat 32 w.toNat

/-- VABS of an integer lane: −2^31 stays. -/
def absW (x : Word) : Word := if BitVec.slt x 0#32 then 0#32 - x else x

/-- VMOV (R263, R85): FP32 and INT32 lanes move unaltered, BF16 and FP16 are widened, and a widened value below the
FP32 normal range is flushed under FTZ. -/
def Core.vMov (k : Ctx) (c : Core) (s : At) (o : VaOp) : Core :=
  if s.supp then c.veIssue k s o.ve 6 1 PendingOp.blank
  else
    let sty := o.sty.toNat
    let m := c.mask o.ve o.msk
    let out := (c.laneCodes k o.ve sty o.va.toNat).map fun x =>
      if sty = 2 || sty = 3 then toF32 c.ftz ((styFmt sty).decode x) else (BitVec.ofNat 32 x, {})
    c.veIssue k s o.ve 6 1 { PendingOp.blank with
      reads := [(vecAddr o.ve o.va.toNat, 64 * styLines sty)]
      effs := c.vecEffs o.ve o.vd.toNat m o.mz (out.map (·.1)), ev := laneEvents m (out.map (·.2)) }

/-- VCVTI (R170): FP32 to INT32, truncating, saturating; a subnormal source is flushed as an arithmetic operation's is (R84, log
entry 13). -/
def cvtI (ftz : Bool) (a : Word) : Word × NumEv :=
  let (x, e1) := flushIn ftz fmtFp32 (f32 a)
  let (n, e2) := toInt 32 11 false x
  (BitVec.ofNat 32 n, e1.join e2)

/-! ## Masks (R264, R265) -/

/-- VCMP (R265). -/
def Core.vCmp (k : Ctx) (c : Core) (s : At) (o : VcmpOp) : Core :=
  if s.supp then c.veIssue k s o.ve 6 1 PendingOp.blank
  else
    let sty := o.sty.toNat
    let a := c.laneCodes k o.ve sty o.va.toNat
    let b := c.laneCodes k o.ve sty o.vb.toNat
    let m := c.mask o.ve o.msk
    let old := c.mask o.ve o.md
    let out := (List.range 64).map fun i =>
      let x := a.getD i 0
      let y := b.getD i 0
      if sty = 1 then (intCond o.cond (BitVec.ofNat 32 x) (BitVec.ofNat 32 y), NumEv.none)
      else floatCond c.ftz o.cond ((styFmt sty).decode x) ((styFmt sty).decode y) (styFmt sty) (styFmt sty)
    let bits := (List.range 64).foldl (fun n i =>
      let b := if m.getLsbD i then ((out.getD i (false, {})).1) else (!o.mz && old.getLsbD i)
      if b then n + 2 ^ i else n) 0
    let n := 64 * styLines sty
    c.veIssue k s o.ve 6 1 { PendingOp.blank with
      reads := [(vecAddr o.ve o.va.toNat, n), (vecAddr o.ve o.vb.toNat, n)]
      effs := maskEffs o.ve o.md (BitVec.ofNat 64 bits), ev := laneEvents m (out.map (·.2)) }

/-- A mask operation whose result does not depend on the cache (R264, R265). -/
def Core.vMask (k : Ctx) (c : Core) (s : At) (ve : Bool) (md : BitVec 3) (v : BitVec 64) : Core :=
  c.veIssue k s ve 6 1 { PendingOp.blank with effs := maskEffs ve md v }

/-- VMLOG (R265). -/
def maskLogic (fn : BitVec 2) (a b : BitVec 64) : BitVec 64 :=
  match fn.toNat with
  | 0 => a &&& b
  | 1 => a ||| b
  | 2 => a ^^^ b
  | _ => a &&& ~~~b

/-- VMLANE (R264): bits lo to hi. -/
def laneMask (lo hi : BitVec 6) : BitVec 64 :=
  BitVec.ofNat 64 (if hi < lo then 0 else (2 ^ (hi.toNat - lo.toNat + 1) - 1) * 2 ^ lo.toNat)

/-- VMSR (R264): half `h` of a mask replaced. -/
def maskHalf (old : BitVec 64) (h : Bool) (w : Word) : BitVec 64 :=
  if h then w ++ old.setWidth 32 else (old >>> 32).setWidth 32 ++ w

/-- VSPL (R264). -/
def Core.vSpl (k : Ctx) (c : Core) (s : At) (ve : Bool) (msk : BitVec 3) (mz : Bool) (rs : BitVec 5) (vd : BitVec 9) :
    Core :=
  if s.supp then c.veIssue k s ve 6 1 PendingOp.blank
  else c.veIssue k s ve 6 1 { PendingOp.blank with
    effs := c.vecEffs ve vd.toNat (c.mask ve msk) mz (List.replicate 64 (c.sreg k rs)) }

/-- VSCL (R267). -/
def Core.vScl (k : Ctx) (c : Core) (s : At) (ve : Bool) (v : ConvCtl) : Core :=
  c.veIssue k s ve 6 1 { PendingOp.blank with effs := [.conv ve v] }

/-! ## Conversions (R267, R268) -/

/-- The conversion control of a VE. -/
def Core.convCtl (c : Core) (ve : Bool) : ConvCtl := if ve then c.ve1ctl else c.ve0ctl

/-- The scale exponent in force for a VE's conversions (R267). -/
def Core.convScale (c : Core) (ve : Bool) : Int :=
  let v := c.convCtl ve
  if v.ssrc then c.latchS v.sidx.toNat else signedOf 8 v.qexp.toNat

/-- Cache lines of a narrow operand (R161). -/
def fmtLines (f : Nat) : Nat := if isMx f || f = 1 || f = 2 then 2 else 1

/-- Contribution of a VE to a frame amax (R80, R170): the unmasked source lanes. -/
def Core.capEffs (c : Core) (ve : Bool) (mask : BitVec 64) (lanes : List Word) : List Eff :=
  let v := c.convCtl ve
  if !v.cap then []
  else
    let live := (lanes.mapIdx fun i w => if mask.getLsbD i then amaxOf w else none).filterMap id
    [.amax v.sidx.toNat (live.foldl amaxJoin 0#32)]

/-- VCVTW (R268): narrow line to FP32 vector. -/
def Core.vCvtW (k : Ctx) (c : Core) (s : At) (o : VcvOp) : Core :=
  if s.supp then c.veIssue k s o.ve 8 1 PendingOp.blank
  else
    let f := o.fmt.toNat
    let a := cacheBase o.ve + 64 * o.line.toNat
    let n := 64 * fmtLines f
    let bytes := c.read k a n
    let m := c.mask o.ve o.msk
    let ftz := c.ftz
    let sc := c.convScale o.ve
    let codes := (unpack (elemBits f) (bytes.take (packedLen f 64)))
    let out := (List.range 64).map fun i =>
      let x := codes.getD i 0
      if isMx f then toF32 ftz (mxVal f x (bytes.getD (64 + i / 32) 0#8).toNat)
      else
        let (w, e1) := toF32 ftz (codeVal f x)
        let (v, e2) := toF32 ftz ((f32 w).scale sc)
        (v, e1.join e2)
    c.veIssue k s o.ve 8 1 { PendingOp.blank with
      reads := [(a, n)]
      effs := c.vecEffs o.ve o.vec.toNat m o.mz (out.map (·.1)), ev := laneEvents m (out.map (·.2)) }

/-- The two lines of an MX vector from 64 lanes under a mask (R77, R161, R170). -/
def mxVector (f : Nat) (ftz mz : Bool) (mask : BitVec 64) (vals : List Word) (old : List Nat) : List Byte × NumEv :=
  let blocks := (List.range 2).map fun b =>
    let xs := (List.range 32).map fun i =>
      if mask.getLsbD (32 * b + i) then f32 (vals.getD (32 * b + i) 0#32) else .fin false 0 0
    let sc := mxScale f xs
    (sc, mxElems f sc ftz xs)
  let codes := (blocks.flatMap fun b => b.2.1).mapIdx fun i x =>
    if mask.getLsbD i then x else if mz then 0 else old.getD i 0
  let elems := packElems (elemBits f) codes
  (elems ++ List.replicate (64 - elems.length) 0#8 ++ blocks.map (fun b => BitVec.ofNat 8 b.1) ++
    List.replicate 62 0#8, NumEv.joins (blocks.map fun b => b.2.2))

/-- VCVTN (R170, R268): FP32 vector to narrow line. -/
def Core.vCvtN (k : Ctx) (c : Core) (s : At) (o : VcvOp) : Core :=
  let f := o.fmt.toNat
  let lat := if isMx f then 10 else 8
  if s.supp then c.veIssue k s o.ve lat 1 PendingOp.blank
  else
    let a := cacheBase o.ve + 64 * o.line.toNat
    let m := c.mask o.ve o.msk
    let ftz := c.ftz
    let src := (c.laneCodes k o.ve 0 o.vec.toNat).map (BitVec.ofNat 32)
    let cap := c.capEffs o.ve m src
    let rd := (vecAddr o.ve o.vec.toNat, 256)
    if isMx f then
      let keeps := !o.mz && decide (m ≠ BitVec.allOnes 64)
      let old := if keeps then unpack (elemBits f) (c.read k a (packedLen f 64)) else []
      let (bs, ev) := mxVector f ftz o.mz m src old
      c.veIssue k s o.ve lat 1 { PendingOp.blank with
        reads := rd :: if keeps then [(a, 64)] else []
        effs := c.writeE (veMaster o.ve) a bs ++ cap, ev := ev }
    else
      let e := elemBits f / 8
      let out := src.map fun w => storeBytes ftz f (c.convScale o.ve) w
      c.veIssue k s o.ve lat 1 { PendingOp.blank with
        reads := [rd]
        effs := c.writeLanes (veMaster o.ve) a e (maskLanes m o.mz e (out.map (·.1))) ++ cap
        ev := laneEvents m (out.map (·.2)) }

/-! ## Accumulator reads (R164, R269) -/

/-- VACC (R164, R269). -/
def Core.vAcc (k : Ctx) (c : Core) (s : At) (o : VaccOp) : Core :=
  let row := o.row.toNat + (c.sreg k o.rr).toNat
  let hold (c : Core) : Core := c.holdBanks k o.ve (halfRowBanks o.tile.toNat (row % 128) (bit o.h))
  if s.supp then hold (c.veIssue k s o.ve 8 1 PendingOp.blank)
  else if 127 < row then hold ((c.engRange (veUnit o.ve) s.bundle).veIssue k (dead s) o.ve 8 1 PendingOp.blank)
  else
    let a := tileAddr o.tile.toNat (128 * row + 64 * bit o.h)
    let m := c.mask o.ve o.msk
    let mst := veMaster o.ve
    let bytes := c.read k a 256
    let lines := (List.range 4).filter fun i => (List.range 16).any fun j => m.getLsbD (16 * i + j)
    let bad := lines.filter fun i => c.denies mst false (a + 64 * i)
    let vals := (unpack 32 bytes).mapIdx fun i x => if bad.contains (i / 16) then 0#32 else BitVec.ofNat 32 x
    hold (c.veIssue k s o.ve 8 1 { PendingOp.blank with
      reads := lines.map fun i => (a + 64 * i, 64)
      effs := (bad.map fun i => .fence (lineOf (a + 64 * i)) mst false) ++ c.vecEffs o.ve o.vd.toNat m o.mz vals })

/-! ## Reductions (R172–R174) -/

/-- A reduction: whether it works in the floating-point class, its combination and its masked-lane identity (R172). -/
def redIsFloat (rop sty : Nat) : Bool := decide (rop ≤ 3) && decide (sty ≠ 1)

/-- The identity a masked lane contributes (R172). -/
def redIdentity (rop sty : Nat) : Word :=
  match rop with
  | 0 => if sty = 1 then 0#32 else 0x80000000#32
  | 1 => if sty = 1 then 0x80000000#32 else 0xFF800000#32
  | 2 => if sty = 1 then 0x7FFFFFFF#32 else 0x7F800000#32
  | 4 => 0xFFFFFFFF#32
  | _ => 0#32

/-- One combination (R172). -/
def redCombine (ftz : Bool) (rop sty : Nat) (a b : Word) : Word × NumEv :=
  match rop with
  | 0 => if sty = 1 then (a + b, {}) else f32Add ftz a b
  | 1 => if sty = 1 then (maxS a b, {}) else f32MinMax true ftz a b
  | 2 => if sty = 1 then (minS a b, {}) else f32MinMax false ftz a b
  | 3 => f32Amax ftz a b
  | 4 => (a &&& b, {})
  | 5 => (a ||| b, {})
  | 6 => (a ^^^ b, {})
  | _ => (a + b, {})

/-- What a lane brings into a reduction: its value, popcount for POPCNT, the identity if masked. -/
def redLeaf (ftz : Bool) (rop sty : Nat) (live : Bool) (x : Nat) : Word × NumEv :=
  if !live then (redIdentity rop sty, {})
  else if rop = 7 then (BitVec.ofNat 32 (popcount (BitVec.ofNat 32 x)), {})
  else if redIsFloat rop sty then sourceLane ftz sty x
  else (BitVec.ofNat 32 x, {})

/-- One stage of the pairwise tree (R173). -/
def redStage (ftz : Bool) (rop sty : Nat) : List (Word × NumEv) → List (Word × NumEv)
  | a :: b :: t =>
    let (w, e) := redCombine ftz rop sty a.1 b.1
    (w, (a.2.join b.2).join e) :: redStage ftz rop sty t
  | l => l

/-- The tree of `n` stages (R173). -/
def redTree (ftz : Bool) (rop sty : Nat) : Nat → List (Word × NumEv) → List (Word × NumEv)
  | 0, l => l
  | n + 1, l => redTree ftz rop sty n (redStage ftz rop sty l)

/-- VRED (R172, R173): lane 0 of the destination. -/
def Core.vRed (k : Ctx) (c : Core) (s : At) (o : VrOp) : Core :=
  if s.supp then c.veIssue k s o.ve 12 1 PendingOp.blank
  else
    let sty := o.sty.toNat
    let rop := o.rop.toNat
    let m := c.mask o.ve o.msk
    let codes := c.laneCodes k o.ve sty o.va.toNat
    let leaves := codes.mapIdx fun i x => redLeaf c.ftz rop sty (m.getLsbD i) x
    let (w, ev) := (redTree c.ftz rop sty 6 leaves).headD (0#32, {})
    let cap := c.capEffs o.ve m (codes.map (laneValue sty))
    c.veIssue k s o.ve 12 1 { PendingOp.blank with
      reads := [(vecAddr o.ve o.va.toNat, 64 * styLines sty)]
      effs := c.writeE (veMaster o.ve) (vecAddr o.ve o.vd.toNat) (leBytes 4 w.toNat) ++ cap, ev := ev }

/-- VRAX (R174): n vectors combined lane by lane in operand order. -/
def Core.vRax (k : Ctx) (c : Core) (s : At) (o : VrOp) : Core :=
  let n := o.nm1.toNat + 1
  if s.supp then c.veIssue k s o.ve (6 + n) n PendingOp.blank
  else
    let sty := o.sty.toNat
    let rop := o.rop.toNat
    let m := c.mask o.ve o.msk
    let vecs := (List.range n).map fun i => c.laneCodes k o.ve sty (o.va.toNat + i)
    let out := (List.range 64).map fun i =>
      let leaf (v : List Nat) := redLeaf c.ftz rop sty (m.getLsbD i) (v.getD i 0)
      match vecs with
      | [] => (0#32, NumEv.none)
      | v :: vs => vs.foldl (fun (r : Word × NumEv) u =>
          let (x, e1) := leaf u
          let (w, e2) := redCombine c.ftz rop sty r.1 x
          (w, (r.2.join e1).join e2)) (leaf v)
    let cap := vecs.flatMap fun v => c.capEffs o.ve m (v.map (laneValue sty))
    c.veIssue k s o.ve (6 + n) n { PendingOp.blank with
      reads := (List.range n).map fun i => (vecAddr o.ve (o.va.toNat + i), 64 * styLines sty)
      effs := c.vecEffs o.ve o.vd.toNat m o.mz (out.map (·.1)) ++ cap, ev := laneEvents m (out.map (·.2)) }

/-! ## Moves (R163, R270) -/

/-- VLD (`load`) and VST (R163, R270). -/
def Core.vBlock (k : Ctx) (c : Core) (s : At) (o : VbOp) (load : Bool) : Core :=
  let base := o.bank.toNat * 0x80000 + o.ofs.toNat * 128
  let a := c.engAddr k base o.ar 128
  let len := 64 * (o.lnm1.toNat + 1)
  let rows := (o.lnm1.toNat + 2) / 2
  let line := cacheBase o.ve + 64 * o.vl.toNat
  let mst := veMaster o.ve
  if s.supp then c.veIssue k s o.ve (12 + rows) rows PendingOp.blank
  else if !inBank base a len then
    (c.engRange (veUnit o.ve) s.bundle).veIssue k (dead s) o.ve (12 + rows) rows PendingOp.blank
  else if load then
    let (bs, bad) := c.readE k mst a len
    c.veIssue k s o.ve (12 + rows) rows { PendingOp.blank with
      reads := [(a, len)], effs := bad ++ c.writeE mst line bs }
  else
    c.veIssue k s o.ve (12 + rows) rows { PendingOp.blank with
      reads := [(line, len)], effs := c.writeE mst a (c.read k line len) }

/-- Element bytes by ESZ (R270). -/
def eszBytes (esz : BitVec 2) : Nat :=
  match esz.toNat with
  | 0 => 4
  | 1 => 2
  | _ => 1

/-- Scratchpad rows counted for VLDV and VSTV (R270). -/
def vvRows (o : VvOp) (a e : Nat) : Nat :=
  if o.ar = 0#5 then (a + 64 * e - 1) / 128 - a / 128 + 1 else if e = 4 then 3 else 2

/-- VLDV (`load`) and VSTV (R163, R166, R167, R270). -/
def Core.vVector (k : Ctx) (c : Core) (s : At) (o : VvOp) (load : Bool) : Core :=
  let e := eszBytes o.esz
  let base := o.bank.toNat * 0x80000 + o.ofs.toNat * 64
  let a := c.engAddr k base o.ar e
  let rows := vvRows o a e
  let line := cacheBase o.ve + 64 * o.vl.toNat
  let mst := veMaster o.ve
  let m := c.mask o.ve o.msk
  if s.supp then c.veIssue k s o.ve 12 rows PendingOp.blank
  else if !inBank base a (64 * e) then
    (c.engRange (veUnit o.ve) s.bundle).veIssue k (dead s) o.ve 12 rows PendingOp.blank
  else if load then
    let bs := (c.read k a (64 * e)).toArray
    let live := (List.range 64).filter fun i => m.getLsbD i
    let lines := (live.map fun i => lineOf (a + e * i)).eraseDups
    let bad := lines.filter fun l => c.denies mst false l
    let vals := (List.range 64).map fun i => (List.range e).map fun j =>
      if bad.contains (lineOf (a + e * i)) then 0#8 else bs.getD (e * i + j) 0#8
    c.veIssue k s o.ve 12 rows { PendingOp.blank with
      reads := lines.map fun l => (l, 64)
      effs := (bad.map fun l => .fence l mst false) ++ c.writeLanes mst line e (maskLanes m o.mz e vals) }
  else
    let bs := (c.read k line (64 * e)).toArray
    let vals := (List.range 64).map fun i => (List.range e).map fun j => bs.getD (e * i + j) 0#8
    c.veIssue k s o.ve 12 rows { PendingOp.blank with
      reads := [(line, 64 * e)]
      effs := c.writeLanes mst a e (maskLanes m false e vals) }

end Sys2Proof.Machine
end

