-- ==== Sys2Proof/Machine/Transform.lean ====
section
/-! DEFINITION. The transform engine (R176–R196, R271): strided copies with padding, tile transposition, gathers
through the row cache, scatters and scatter-additions. -/

namespace Sys2Proof.Machine

/-! ## Descriptors -/

/-- A transform descriptor (R180). -/
structure XDesc where
  src : Nat
  esz : Nat
  op : Nat
  dst : Nat
  padw : Bool
  trap : Bool
  idxdim : Nat
  slay : Nat
  dlay : Nat
  at0 : Nat
  atnm1 : Nat
  int : Bool
  col0 : Nat
  mxfmt : Nat
  fill : Word
  idx : Nat
  p : List Nat
  e : List Nat
  bnd : List Nat
  off : List Int
  ss : List Int
  ds : List Int
deriving DecidableEq, Repr

/-- Five u16 fields packed two to a word from word `w` (R180). -/
def packed16 (f : Nat → Word) (w : Nat) : List Nat :=
  (List.range 5).map fun i => fld (f (w + i / 2)) (16 * (i % 2) + 15) (16 * (i % 2))

/-- The dimension that IDXDIM indexes. A value of 5 to 7 is in no list of reserved ones and names none: which dimension it indexes is
free (R180, R197, log entry 51). -/
def indexedDim (r : Nat) : Nat := if r ≤ 4 then r else Config.freeNat r "indexed dimension" % 5

/-- A descriptor from its 32 words. -/
def xdescOf (f : Nat → Word) : XDesc :=
  let w0 := f 0
  let w1 := f 1
  let w2 := f 2
  let hi (i : Nat) : Nat := fld (f (27 + i / 4)) (8 * (i % 4) + 7) (8 * (i % 4))
  { src := fld w0 22 0, esz := fld w0 25 23, op := fld w0 29 26
    dst := fld w1 22 0, padw := bitAt w1 23, trap := bitAt w1 24, idxdim := indexedDim (fld w1 27 25)
    slay := fld w2 3 0, dlay := fld w2 7 4, at0 := fld w2 11 8, atnm1 := fld w2 15 12, int := bitAt w2 16
    col0 := fld w2 23 17, mxfmt := fld w2 27 24
    fill := f 3, idx := fld (f 4) 22 0
    p := (List.range 5).map fun i => fld (f 5) (3 * i + 2) (3 * i)
    e := packed16 f 6, bnd := packed16 f 9
    off := (List.range 5).map fun i => (f (12 + i)).toInt
    ss := (List.range 5).map fun i => signedOf 40 (hi i * 2 ^ 32 + (f (17 + i)).toNat)
    ds := (List.range 5).map fun i => signedOf 40 (hi (5 + i) * 2 ^ 32 + (f (22 + i)).toNat) }

/-- Descriptor `n` in force. -/
def Core.xdesc (c : Core) (n : Nat) : XDesc := xdescOf fun w => c.reg (0x5400 + 128 * n + 4 * w)

/-- Length of one element (R178, R183). -/
def XDesc.len (x : XDesc) : Nat := if x.slay = 4 then mxUnit x.mxfmt else 2 ^ x.esz

/-- Element `i` of a list of dimensions. -/
def dim {α : Type} [Inhabited α] (l : List α) (i : Nat) : α := l.getD i default

/-- The destination dimension that feeds source dimension `j`: the i with P[i] = j. -/
def XDesc.feeds (x : XDesc) (j : Nat) : Nat := (x.p.findIdx? (· = j)).getD j

/-- The destination dimension along which the index tensor runs (R188); of a SCATTER_ADD whose IDXDIM is not 1 the model takes
dimension 1, as R191 does (log entry 51). -/
def XDesc.idxAlong (x : XDesc) : Nat := if x.op = 2 then x.feeds x.idxdim else if x.op = 4 then 1 else x.idxdim

/-- Whether the operation takes indices. -/
def XDesc.indexed (x : XDesc) : Bool := decide (2 ≤ x.op)

/-- Length of the index tensor (R188). -/
def XDesc.idxLen (x : XDesc) : Nat := if x.indexed then dim x.e x.idxAlong else 0

/-- An index is in range: below BND[IDXDIM], or for SCATTER_ADD below 128 rows a tile (R189–R191). -/
def XDesc.inRange (x : XDesc) (v : Int) : Bool :=
  decide (0 ≤ v) && decide (v < if x.op = 4 then ((128 * (x.atnm1 + 1) : Nat) : Int) else ((dim x.bnd x.idxdim : Nat) : Int))

/-- Position number `i` in element order as coordinates d0 to d4 (R177). -/
def XDesc.coords (x : XDesc) (i : Nat) : List Nat :=
  (x.e.foldl (fun (r : List Nat × Nat) e => (r.1 ++ [r.2 % e], r.2 / e)) ([], i)).1

/-- The number of positions. -/
def XDesc.count (x : XDesc) : Nat := x.e.foldl (· * ·) 1

/-- The in-tile offset of column `a`, row `b` under a fixed-shape layout (R182, R184): in BIL (3), which holds activations, the column
stands for AIL's row and the row for its K position. -/
def tileOffset (lay e : Nat) (a b : Int) : Int :=
  if lay = 6 then ((diagOffset e b.toNat a.toNat : Nat) : Int)
  else if lay = 3 then ((ailOffset e a.toNat b.toNat : Nat) : Int)
  else ((ailOffset e b.toNat a.toNat : Nat) : Int)

/-- The address of coordinates under a layout and strides (R177, R181). -/
def layAddr (lay e base : Nat) (co : List Int) (st : List Int) : Int :=
  let far := dim co 2 * dim st 2 + dim co 3 * dim st 3 + dim co 4 * dim st 4
  if lay = 2 || lay = 3 || lay = 6 then base + tileOffset lay e (dim co 0) (dim co 1) + far
  else base + dim co 0 * dim st 0 + dim co 1 * dim st 1 + far

/-- What a position does: where it reads, where it writes, whether FILL is written, and its index position. -/
structure XElem where
  key : Option Nat
  src : Option Int
  dst : Option Int
  fill : Bool
deriving DecidableEq, Repr

/-- The position at coordinates `d`, index values `idx`, bases `src` and `dst` (R177, R185, R187, R189, R190). -/
def XDesc.elem (x : XDesc) (src dst : Nat) (idx : Array Int) (d : List Nat) : XElem :=
  let di := d.map Int.ofNat
  let s0 := (List.range 5).map fun j => dim di (x.feeds j) + dim x.off j
  let s1 := if x.op = 1 then [dim di 1, dim di 0] ++ s0.drop 2 else s0
  let j := dim d x.idxAlong
  let v := idx.getD j 0
  let oor := (x.op = 2 || x.op = 3) && !x.inRange v
  let vin := if oor then 0 else v
  let s := if x.op = 2 then setAt s1 x.idxdim vin else s1
  let dd := if x.op = 3 then setAt di x.idxdim vin else di
  let free (i : Nat) : Bool := ((x.op = 2 || x.op = 3) && i = x.idxdim) || (x.op = 1 && decide (i < 2))
  let pad := (List.range 5).any fun i =>
    !free i && (decide (dim s i < 0) || decide (((dim x.bnd i : Nat) : Int) ≤ dim s i))
  let da := layAddr x.dlay x.len dst dd x.ds
  let key := if x.op = 2 || x.op = 3 then some j else none
  if x.op = 3 && oor then ⟨key, none, none, false⟩
  else if x.op = 2 && oor then ⟨key, none, some da, true⟩
  else if pad then ⟨key, none, if x.padw then some da else none, true⟩
  else ⟨key, some (layAddr x.slay x.len src s x.ss), some da, false⟩

/-- The bytes of one FILL element (R180). -/
def XDesc.fillBytes (x : XDesc) : List Byte :=
  (List.range x.len).map fun i => (leBytes 4 x.fill.toNat).getD (i % 4) 0#8

/-! ## Access counts (R195) -/

/-- The rows of a run of accesses, one for each change of index position or row in element order. -/
def rowRuns (len : Nat) : Option (Option Nat × Int) → List (Option Nat × Int) → List (Option Nat × Int)
  | _, [] => []
  | last, (key, a) :: t =>
    let first := a / 128
    let n := ((a + len - 1) / 128 - first).toNat
    let rows := (List.range (n + 1)).map fun (i : Nat) => (key, first + (i : Int))
    let fresh := if last = rows.head? then rows.drop 1 else rows
    fresh ++ rowRuns len rows.getLast? t

/-- The order in which a descriptor reads its sources: element order, or for TRANSPOSE the order of the source tile's
rows (R187). -/
def XDesc.readOrder (x : XDesc) (d : List Nat) : List Nat := if x.op = 1 then [dim d 1, dim d 0] ++ d.drop 2 else d

/-- The static elements of a descriptor: every index 0, so that no position is out of range. -/
def XDesc.statics (x : XDesc) (src dst : Nat) : List XElem × List XElem :=
  let ps := (List.range x.count).map x.coords
  (ps.map fun d => x.elem src dst #[] (x.readOrder d), ps.map (x.elem src dst #[]))

/-- The rows of a descriptor's read accesses and of its write accesses (R195): the loader counts them from its own bases, whatever
bases an XRUN replaces. -/
def XDesc.accesses (x : XDesc) : List Int × List Int :=
  let (rs, ws) := x.statics x.src x.dst
  let srcs := if x.op = 4 then
      (List.range x.count).map fun i =>
        let d := x.coords i
        (some (dim d 1), (x.src : Int) + (dim d 0 : Nat) * dim x.ss 0 + (dim d 1 : Nat) * dim x.ss 1)
    else rs.filterMap fun e => e.src.map fun a => (e.key, a)
  let ra := (rowRuns x.len none srcs).map (·.2)
  let ri := (List.range (ceilDiv (4 * x.idxLen) 128)).map fun i => (((x.idx / 128 + i : Nat)) : Int)
  let wa := if x.op = 4 then [] else (rowRuns x.len none (ws.filterMap fun e => e.dst.map fun a => (e.key, a))).map (·.2)
  (ra ++ ri, wa)

/-- A descriptor's accesses by bank. -/
def XDesc.bankCounts (x : XDesc) : List Nat :=
  let (ra, wa) := x.accesses
  (List.range 8).map fun (b : Nat) => ((ra ++ wa).filter fun r => r / 4096 = (b : Int)).length

/-- T of R195 with the terms of TRANSPOSE and SCATTER_ADD. -/
def XDesc.time (x : XDesc) : Nat :=
  let (ra, wa) := x.accesses
  let t := (x.bankCounts ++ [ceilDiv ra.length 2, ceilDiv wa.length 2]).foldl (fun a b => if a < b then b else a) 0
  if x.op = 1 then t + 64 * x.len
  else if x.op = 4 && t < 4 * dim x.e 1 then 4 * dim x.e 1
  else t

/-! ## Base replacement (R193, R271) -/

/-- The lowest and highest byte of an extent: base, numbers of coordinates and strides by dimension. -/
def spanOf (base len : Nat) (lims : List Nat) (st : List Int) : Int × Int :=
  let ends := (List.range 5).map fun i => ((dim lims i - 1 : Nat) : Int) * dim st i
  let lo := ends.foldl (fun a v => if v < 0 then a + v else a) (base : Int)
  let hi := ends.foldl (fun a v => if 0 < v then a + v else a) (base : Int)
  (lo, hi + len - 1)

/-- A replaced base is accepted: it, or its whole extent where R271 asks for that, lies in the bank of the
descriptor's own base. -/
def rangeOk (own : Nat) (r : Int × Int) : Bool :=
  decide (own < 0x400000) && decide (r.1 / 0x80000 = (bankOf own : Nat)) && decide (r.2 / 0x80000 = (bankOf own : Nat))

/-- A base as an XRUN takes it: replaced by bits [22:0] of a register, the alignment bits cleared (R271). -/
def Core.xbase (k : Ctx) (c : Core) (own : Nat) (r : BitVec 5) (align : Nat) : Nat :=
  if r = 0#5 then own else fld (c.sreg k r) 22 0 / align * align

/-! ## Data -/

/-- On-chip bytes at an element address as a snapshot of reads sees them. -/
def snapRead (ctr : Nat) (mem : List (Nat × Byte)) (effs : List Eff) (land : List (Nat × List Byte)) (a n : Nat) : List Byte :=
  if effs.isEmpty && land.isEmpty then Memory.read mem a n
  else (List.range n).map fun i => byteUnder ctr mem effs land (a + i)

/-- An element address lies in the scratchpad (R196). -/
def inPad (a : Int) (len : Nat) : Bool := decide (0 ≤ a) && decide (a + len ≤ 0x400000)

/-- The violation of an element address (R196). -/
def padFence (a : Int) (wr : Bool) : Eff := .fence (lineOf (a % 0x800000).toNat) 1 wr

/-- Whether two lists of elements of one length share a byte. -/
def overlaps (len : Nat) (xs ys : List Int) : Bool :=
  match xs, ys with
  | [], _ => false
  | _, [] => false
  | x :: xt, y :: yt =>
    let lo (z : Int) (l : List Int) : Int := l.foldl (fun a b => if b < a then b else a) z
    let hi (z : Int) (l : List Int) : Int := l.foldl (fun a b => if a < b then b else a) z
    if hi x xt + len ≤ lo y yt || hi y yt + len ≤ lo x xt then false
    else (x :: xt).any fun a => (y :: yt).any fun b => decide (a < b + len) && decide (b < a + len)

/-- Writes in order, those that follow on joined into one. -/
def joinWrites (ws : List (Nat × List Byte)) : List (Nat × List Byte) :=
  let step (r : List (Nat × Nat × List (List Byte))) (w : Nat × List Byte) : List (Nat × Nat × List (List Byte)) :=
    match r with
    | (a, n, bs) :: t => if a + n = w.1 then (a, n + w.2.length, w.2 :: bs) :: t else (w.1, w.2.length, [w.2]) :: r
    | [] => [(w.1, w.2.length, [w.2])]
  ((ws.foldl step []).reverse).map fun r => (r.1, r.2.2.reverse.flatten)

/-- Row-cache hits of a gather's reads in order: 16 rows, least recently used replaced (R194). -/
def cacheHits (rows : List Int) : Nat :=
  (rows.foldl (fun (r : List Int × Nat) row =>
    if r.1.contains row then (row :: r.1.filter (· ≠ row), r.2 + 1) else ((row :: r.1).take 16, r.2)) ([], 0)).2

/-- An instruction of the XE issues: 20 + T in TC1, 24 + T in TC0, the issue interval equal to the latency (R271). -/
def Core.xeIssue (k : Ctx) (c : Core) (s : At) (t : Nat) (op : PendingOp) : Core :=
  let lat := t + if k.tc1 then 20 else 24
  c.issue k s .xe lat lat 1 { op with master := 1 }

/-- The index tensor as read: its values and the violations (R188). -/
def Core.readIndices (k : Ctx) (c : Core) (idx n : Nat) : Array Int × List Eff :=
  let (bs, bad) := c.readE k 1 idx (4 * n)
  (((unpack 32 bs).map fun x => signedOf 32 x).toArray, bad)

/-- COPY, TRANSPOSE, GATHER and SCATTER on accepted bases (R177–R190, R194, R196). -/
def Core.xeMove (k : Ctx) (c : Core) (s : At) (n : Nat) (x : XDesc) (src dst idx : Nat) : Core :=
  let (ix, bad0) := c.readIndices k idx x.idxLen
  let ps := (List.range x.count).map x.coords
  let trapAt := if x.op = 2 && x.trap then
      (ps.find? fun d => !x.inRange (ix.getD (dim d x.idxAlong) 0)).map fun d => dim d x.idxAlong
    else none
  let live := match trapAt with
    | some _ => ps.takeWhile fun d => x.inRange (ix.getD (dim d x.idxAlong) 0)
    | none => ps
  let es := live.map (x.elem src dst ix)
  let (effs, land) := c.inFlightOver k 0 0x400000
  let clash := overlaps x.len (es.filterMap (·.src)) (es.filterMap (·.dst))
  let steps := es.mapIdx fun i e =>
    let (bs, bad) : List Byte × List Eff := match e.src with
      | none => (x.fillBytes, [])
      | some a =>
        if !inPad a x.len then (List.replicate x.len 0#8, [padFence a false])
        else
          let a := a.toNat
          let den := (lineRuns a x.len).filter fun r => c.denies 1 false r.1
          let raw := snapRead k.ctr c.mem effs land a x.len
          ((raw.mapIdx fun j b => if den.any (fun r => decide (r.1 ≤ a + j) && decide (a + j < r.1 + r.2)) then 0#8 else b),
            den.map fun r => .fence (lineOf r.1) 1 false)
    let bs := if clash && !e.fill then (List.range x.len).map fun j => Config.freeByte k.ctr (x.len * i + j) else bs
    match e.dst with
    | none => (bad, none)
    | some d => if inPad d x.len then (bad, some (d.toNat, bs)) else (bad ++ [padFence d true], none)
  let writes := (joinWrites (steps.filterMap (·.2))).flatMap fun w => c.writeE 1 w.1 w.2
  let oor := if trapAt.isSome then 0 else ((List.range x.idxLen).filter fun j => !x.inRange (ix.getD j 0)).length
  let srcs := es.filterMap fun e => e.src.map fun a => (e.key, a)
  let hits := if x.op = 2 then cacheHits ((rowRuns x.len none srcs).map (·.2)) else 0
  let code : Half := if x.op = 2 then 0x0305#16 else 0x0309#16
  c.xeIssue k s x.time { PendingOp.blank with
    reads := (if x.idxLen = 0 then [] else [(idx, 4 * x.idxLen)]) ++
      ((es.filterMap (·.src)).filter fun a => inPad a x.len).map fun a => (a.toNat, x.len)
    effs := bad0 ++ steps.flatMap (·.1) ++ writes ++
      (if oor = 0 then [] else if x.op = 2 then [.count 0x5204 oor, .gatherOor oor] else [.count 0x5208 oor]) ++
      (if hits = 0 then [] else [.count 0x520C hits]) ++
      (match trapAt with
        | some j => [.first 0x5210 (BitVec.ofNat 32 (n + 32 * j + 2 ^ 31)) [(0x5214, BitVec.ofInt 32 (ix.getD j 0))]]
        | none => [])
    raises := if trapAt.isSome then [⟨code, true⟩] else if oor = 0 then [] else [⟨code, false⟩] }

/-- SCATTER_ADD on accepted bases (R191, R192). -/
def Core.xeAdd (k : Ctx) (c : Core) (s : At) (x : XDesc) (tiles : List Nat) (src idx : Nat) : Core :=
  let (ix, bad0) := c.readIndices k idx (dim x.e 1)
  let (effs, land) := c.inFlightOver k 0 0x400000
  let rows := (List.range (dim x.e 1)).map fun j =>
    let v := ix.getD j 0
    if !x.inRange v then none
    else some ((List.range (dim x.e 0)).map fun i =>
      let a := (src : Int) + (i : Nat) * dim x.ss 0 + (j : Nat) * dim x.ss 1
      let t := x.at0 + v.toNat / 128
      let e := 128 * (v.toNat % 128) + x.col0 + i
      let (w, bad) : Nat × List Eff :=
        if !inPad a 4 then (0, [padFence a false])
        else if c.denies 1 false a.toNat || c.denies 1 false (a.toNat + 3) then (0, [.fence (lineOf a.toNat) 1 false])
        else (leNat (snapRead k.ctr c.mem effs land a.toNat 4), [])
      (a, bad, if x.int then Eff.accInt t e false false [signedOf 32 w] else Eff.acc t e false false none [(0, fmtFp32.decode w)]))
  let used := (rows.filterMap id).flatten
  let oor := (rows.filter Option.isNone).length
  c.xeIssue k s x.time { PendingOp.blank with
    claims := tiles
    reads := (idx, 4 * dim x.e 1) :: ((used.filter fun u => inPad u.1 4).map fun u => (u.1.toNat, 4))
    effs := bad0 ++ used.flatMap (fun u => u.2.1) ++ c.fenceAcc 1 (used.map fun u => u.2.2) ++
      (if oor = 0 then [] else [.count 0x5208 oor])
    raises := if oor = 0 then [] else [⟨0x0309#16, false⟩] }

/-- XRUN of a descriptor whose operation is `op` (R176–R196, R271); a descriptor of another operation issues nothing
under this row's name. -/
def Core.xrun (k : Ctx) (c : Core) (s : At) (o : XrunOp) (op : Nat) : Core :=
  let n := o.desc.toNat
  let x := c.xdesc n
  if x.op ≠ op then c
  else
    let src := c.xbase k x.src o.rsrc (if op = 2 then 128 else 1)
    let dst := c.xbase k x.dst o.rdst (if op = 3 then 128 else 1)
    let idx := c.xbase k x.idx o.ridx 4
    if s.supp then c.xeIssue k s x.time PendingOp.blank
    else
      let tiles := if op = 4 then (tileRange x.at0 (x.atnm1 + 1)).filter fun t => decide (t < 16) else []
      match c.claimed tiles none with
      | some (t, owner) => c.doubleClaim 4 t s.bundle owner
      | none =>
        let id := c.nextId
        let c := if op = 4 then c.claim tiles id s.bundle else c
        let srcR := if op = 2 then spanOf src x.len x.bnd x.ss else ((src : Int), (src : Int))
        let dstR := if op = 3 then spanOf dst x.len (setAt x.e x.idxdim (dim x.bnd x.idxdim)) x.ds else ((dst : Int), (dst : Int))
        let ok := (o.rsrc = 0#5 || rangeOk x.src srcR) && (o.rdst = 0#5 || rangeOk x.dst dstR) &&
          (o.ridx = 0#5 || rangeOk x.idx ((idx : Int), ((idx + 4 * x.idxLen - 1 : Nat) : Int)))
        if !ok then
          ((if op = 4 then c.release id else c).engRange .xe s.bundle).xeIssue k (dead s) x.time PendingOp.blank
        else if op = 4 then ((c.setType tiles x.int).setRf 0x5200 5 1 n).xeAdd k s x tiles src idx
        else (c.setRf 0x5200 5 1 n).xeMove k s n x src dst idx

end Sys2Proof.Machine
end

