-- ==== Sys2Proof/Machine/Update.lean ====
section
/-! DEFINITION. The update engine (R199–R218, R272): factor sets, update passes, staged embedding rows, the
touched-row filter and the request for a global step advance. -/

namespace Sys2Proof.Machine

/-! ## FP32 values with the events that made them -/

/-- An FP32 value and the numeric events of its computation (R86). -/
structure Tr where
  w : Word
  ev : NumEv

def Tr.of (w : Word) : Tr := ⟨w, {}⟩

def Tr.op2 (f : Bool → Word → Word → Word × NumEv) (z : Bool) (a b : Tr) : Tr :=
  let (w, e) := f z a.w b.w
  ⟨w, (a.ev.join b.ev).join e⟩

def Tr.add (z : Bool) (a b : Tr) : Tr := Tr.op2 f32Add z a b
def Tr.sub (z : Bool) (a b : Tr) : Tr := Tr.op2 f32Sub z a b
def Tr.mul (z : Bool) (a b : Tr) : Tr := Tr.op2 f32Mul z a b
def Tr.div (z : Bool) (a b : Tr) : Tr := Tr.op2 f32Div z a b
def Tr.max (z : Bool) (a b : Tr) : Tr := Tr.op2 (f32MinMax true) z a b
def Tr.min (z : Bool) (a b : Tr) : Tr := Tr.op2 (f32MinMax false) z a b
def Tr.sqrt (z : Bool) (a : Tr) : Tr :=
  let (w, e) := f32Sqrt z a.w
  ⟨w, a.ev.join e⟩

/-- The events of several values on one. -/
def Tr.also (a : Tr) (l : List Tr) : Tr := ⟨a.w, NumEv.joins (a.ev :: l.map (·.ev))⟩

/-- FP32 1.0 and +0. -/
def one32 : Word := 0x3F800000#32
def Tr.one : Tr := Tr.of one32
def Tr.zero : Tr := Tr.of 0#32

/-- An integer rounded to FP32 (R204). -/
def Tr.nat (n : Nat) : Tr := ⟨(toF32 false (intVal n)).1, {}⟩

/-- pow_u from bit `n` bits on: running result and square (R202). -/
def powSteps (z : Bool) : Nat → Nat → Tr → Tr → Tr
  | 0, _, r, q => r.also [q]
  | n + 1, k, r, q => powSteps z n (k / 2) (if k % 2 = 1 then Tr.mul z r q else r) (Tr.mul z q q)

/-- pow_u (R202): 40 bits ascending. -/
def powU (z : Bool) (b : Tr) (k : Nat) : Tr := powSteps z 40 k Tr.one b

/-- A NaN comparison aside, a < b on FP32. -/
def ltW (a b : Word) : Bool := FVal.lt (f32 a) (f32 b)

/-! ## Factor sets (R200–R204) -/

/-- The global step t. -/
def Core.gstep (c : Core) : Nat := (c.reg 0x6004).toNat + c.rf 0x6008 7 0 * 2 ^ 32

/-- The multipliers of a group at step t (R204); `pt i` is curve point i. -/
def curve (z : Bool) (npts : Nat) (hold : Bool) (step : Nat → Nat) (lrm dm : Nat → Tr) (t : Nat) : Tr × Tr :=
  if npts = 0 then (Tr.one, Tr.one)
  else
    let last := npts - 1
    if t ≤ step 0 then (lrm 0, dm 0)
    else if step last ≤ t then (lrm last, dm last)
    else
      let i := (List.range npts).foldl (fun a j => if step j ≤ t then j else a) 0
      if hold then (lrm i, dm i)
      else
        let f := Tr.div z (Tr.nat (t - step i)) (Tr.nat (step (i + 1) - step i))
        let mix (p : Nat → Tr) : Tr := Tr.add z (p i) (Tr.mul z f (Tr.sub z (p (i + 1)) (p i)))
        (mix lrm, mix dm)

/-- The group entry and its curve pass the check of R201. -/
def groupOk (g : List Byte) : Bool :=
  let n := natAt g 4 1
  let step (i : Nat) : Nat := natAt g (128 + 16 * i) 8 % 2 ^ 40
  decide (natAt g 0 1 < 4) && decide (natAt g 1 1 ≤ 1) && decide (natAt g 2 1 ≤ 1) && decide (n ≤ 64) &&
    (List.range (n - 1)).all fun i => decide (step i < step (i + 1))

/-- The factor set of a group at step t, and the events of its arithmetic (R202). -/
def factorSet (z : Bool) (g : List Byte) (t : Nat) : FactorSet × NumEv :=
  let f (o : Nat) : Tr := Tr.of (BitVec.ofNat 32 (natAt g o 4))
  let pt (o i : Nat) : Tr := f (128 + 16 * i + o)
  let step (i : Nat) : Nat := natAt g (128 + 16 * i) 8 % 2 ^ 40
  let flags := natAt g 3 1
  let (lrm, dm) := curve z (natAt g 4 1) (flags.testBit 1) step (pt 8) (pt 12) t
  let lr := Tr.mul z (f 0x08) lrm
  let lam := Tr.mul z (f 0x0C) dm
  let keep := Tr.sub z Tr.one (Tr.mul z lr lam)
  let ob1 := Tr.sub z Tr.one (f 0x10)
  let ob2 := Tr.sub z Tr.one (f 0x14)
  let s0 := natAt g 0x38 8 % 2 ^ 40
  let n := if t + 1 ≤ s0 then 1 else t + 1 - s0
  let ic1 := Tr.div z Tr.one (Tr.sub z Tr.one (powU z (f 0x10) n))
  let ic2 := Tr.div z Tr.one (Tr.sub z Tr.one (powU z (f 0x14) n))
  ({ rule := natAt g 0 1, flags := flags, mfmt := natAt g 1 1, sfmt := natAt g 2 1
     lr := lr.w, lam := lam.w, keep := keep.w, b1 := (f 0x10).w, b2 := (f 0x14).w, ob1 := ob1.w, ob2 := ob2.w
     eps := (f 0x18).w, ic1 := ic1.w, ic2 := ic2.w, clip := (f 0x1C).w, trmin := (f 0x20).w, trmax := (f 0x24).w
     rscale := (f 0x28).w, step := BitVec.ofNat 40 t },
    NumEv.joins [keep.ev, ob1.ev, ob2.ev, ic1.ev, ic2.ev])

/-- UE_FAULT: the first fault since cleared (R219). -/
def ueFault (code : Half) (d fs : Nat) : Eff :=
  .first 0x605C (BitVec.ofNat 32 (code.toNat + d * 2 ^ 16 + fs * 2 ^ 20 + 2 ^ 31)) []

/-- A UE operation issues: its latency, 8 more in TC0, is its issue interval (R218). -/
def Core.ueIssue (k : Ctx) (c : Core) (s : At) (lat : Nat) (op : PendingOp) : Core :=
  let lat := lat + if k.tc1 then 0 else 8
  c.issue k s .ue lat lat 1 { op with master := 6 }

/-- UE_STATUS.OP of an operation that is not suppressed. -/
def Core.ueOp (c : Core) (s : At) (code : Nat) : Core := if s.supp then c else c.setRf 0x6000 4 1 code

/-- An operation that its factor set does not allow (R201, R206): recorded as it issues, the frame aborted; it writes nothing and
takes its time. -/
def Core.ueRefused (k : Ctx) (c : Core) (s : At) (lat d fs : Nat) (code : Half) : Core :=
  let c := (Core.apply 5 s.bundle c (ueFault code d fs)).1
  ((c.raise 5 code).abort code s.bundle).ueIssue k s lat PendingOp.blank

/-- ENG_RANGE of an update operation (R255): the UE's fault too (R219). -/
def Core.ueRange (k : Ctx) (c : Core) (s : At) (lat d fs : Nat) : Core :=
  let c := (Core.apply 5 s.bundle c (ueFault 0x0212#16 d fs)).1
  (c.engRange .ue s.bundle).ueIssue k (dead s) lat PendingOp.blank

/-- The bytes that UGFAC reads: the group entry and the points that it has, of at most 64 (R201, R204). -/
def groupBytes (entry : List Byte) : Nat := 128 + 16 * min (natAt entry 4 1) 64

/-- UGFAC (R201, R202, R272). -/
def Core.ugfac (k : Ctx) (c : Core) (s : At) (f : BitVec 4) (bank : BitVec 3) (ra : BitVec 5) (ofs : BitVec 12) : Core :=
  let base := bank.toNat * 0x80000 + ofs.toNat * 128
  let a := c.engAddr k base ra 128
  if s.supp then c.ueIssue k s 120 PendingOp.blank
  else if !inBank base a 1152 then c.ueRange k s 120 0 f.toNat
  else
    let n := groupBytes (c.readE k 6 a 128).1
    let (g, bad) := c.readE k 6 a n
    let c := c.ueOp s 3
    if groupOk g then
      let (fs, ev) := factorSet c.ftz g c.gstep
      c.ueIssue k s 120 { PendingOp.blank with reads := [(a, n)], effs := bad ++ [.factor f.toNat (some fs)], ev := ev }
    else
      c.ueIssue k s 120 { PendingOp.blank with
        reads := [(a, n)], effs := bad ++ [.factor f.toNat none, ueFault 0x020B#16 0 f.toNat]
        raises := [⟨0x020B#16, true⟩] }

/-! ## Update descriptors (R205) -/

/-- An update descriptor in force. -/
structure UDesc where
  grad : Nat
  gfmt : Nat
  fs : Nat
  w : Nat
  m : Nat
  v : Nat
  body : Nat
  bfmt : Nat
  q : Nat
  sparse : Bool
  n : Nat
  norms : Nat
  psum : Nat
  xo : Nat
  tensor : Nat
  elem0 : Nat
  sidx : Nat
  cap : Bool
  rowMode : Bool
  rstride : Nat
  gstride : Nat
  rows : Nat

/-- Update descriptor `d` (R219). -/
def Core.udesc (c : Core) (d : Nat) : UDesc :=
  let r (i : Nat) : Word := c.reg (0x6400 + 64 * d + 4 * i)
  let a (i : Nat) : Nat := fld (r i) 22 0
  { grad := a 0, gfmt := fld (r 0) 23 23, fs := fld (r 0) 27 24, w := a 1, m := a 2, v := a 3, body := a 4
    bfmt := fld (r 4) 26 23, q := fld (r 4) 30 27 + 1, sparse := bitAt (r 4) 31, n := (r 5).toNat
    norms := a 6, psum := a 7, xo := a 8, tensor := (r 9).toNat, elem0 := (r 10).toNat
    sidx := fld (r 11) 7 0, cap := bitAt (r 11) 8, rowMode := bitAt (r 11) 9
    rstride := fld (r 12) 15 0, gstride := fld (r 12) 31 16, rows := (r 13).toNat }

/-- Bytes of an element in FP32 (0) or BF16 (1). -/
def stateBytes (f : Nat) : Nat := if f = 0 then 4 else 2

/-- Values of an array in FP32 or BF16, widened (R74). -/
def stateVals (f : Nat) (bs : List Byte) : Array Tr :=
  ((unpack (8 * stateBytes f) bs).map fun x =>
    Tr.of (if f = 0 then BitVec.ofNat 32 x else (toF32 false (fmtBf16.decode x)).1)).toArray

/-- A value stored in FP32 or, to nearest even, in BF16 (R207). -/
def storeState (z : Bool) (f : Nat) (x : Tr) : List Byte × NumEv :=
  if f = 0 then (leBytes 4 x.w.toNat, x.ev)
  else
    let (b, e) := toFmt 1 z (f32 x.w)
    (leBytes 2 b, x.ev.join e)

/-- Stochastic rounding of a master weight to BF16 (R212). -/
def stochastic (z : Bool) (x : Tr) (r : Nat) : List Byte × NumEv :=
  let s := if x.w.toNat < 2 ^ 31 then 0 else 0x8000
  let m := x.w.toNat % 2 ^ 31
  match f32 x.w with
  | .nan _ => (leBytes 2 (s + 0x7FC0), x.ev)
  | .inf _ => (leBytes 2 (s + 0x7F80), x.ev)
  | .fin _ a e =>
    if 0x7F7F0000 < m then (leBytes 2 (s + 0x7F7F), x.ev.join { sat := [1] })
    else if z && fmtFp32.isTiny a e then (leBytes 2 s, x.ev.join { flu := true })
    else (leBytes 2 (s + (m + r) / 65536), x.ev)

/-- The job seed (R214). -/
def Core.seed (c : Core) : List Byte := (List.range 4).flatMap fun i => leBytes 4 (c.reg (0x6010 + 4 * i)).toNat

/-- A master weight stored in MFMT (R212); `e` is its element number. -/
def Core.storeMaster (c : Core) (d : UDesc) (mfmt : Nat) (x : Tr) (e : Nat) : List Byte × NumEv :=
  if mfmt = 0 then (leBytes 4 x.w.toNat, x.ev)
  else stochastic c.ftz x (randomBits c.seed (e % 2 ^ 32) d.tensor c.gstep 0)

/-- The gradient scale from the clip norm (R207). -/
def gradScale (z : Bool) (f : FactorSet) (norm2 : Tr) : Tr :=
  if !f.flags.testBit 2 then Tr.one
  else
    let gn := Tr.sqrt z norm2
    if (f32 gn.w).isNan then gn
    else if ltW f.clip gn.w then Tr.div z (Tr.of f.clip) gn
    else Tr.one.also [gn]

/-- The moments after one gradient: rule 1's pair, or the momentum alone (R207). -/
def moments (z : Bool) (f : FactorSet) (second : Bool) (m v g1 : Tr) : Tr × Tr :=
  if second then
    (Tr.add z (Tr.mul z (Tr.of f.b1) m) (Tr.mul z (Tr.of f.ob1) g1),
      Tr.add z (Tr.mul z (Tr.of f.b2) v) (Tr.mul z (Tr.of f.ob2) (Tr.mul z g1 g1)))
  else (Tr.add z (Tr.mul z (Tr.of f.b1) m) g1, v)

/-- u of rule 1 (R207). -/
def adamDir (z : Bool) (f : FactorSet) (ic1 ic2 m v : Tr) : Tr :=
  Tr.div z (Tr.mul z m ic1) (Tr.add z (Tr.sqrt z (Tr.mul z v ic2)) (Tr.of f.eps))

/-- w·keep − lr·x (R207). -/
def decayStep (z : Bool) (f : FactorSet) (w x : Tr) : Tr :=
  Tr.sub z (Tr.mul z w (Tr.of f.keep)) (Tr.mul z (Tr.of f.lr) x)

/-- The trust ratio (R207). -/
def trustRatio (z : Bool) (f : FactorSet) (n0 n1 : Tr) : Tr :=
  let nw := Tr.sqrt z n0
  let nr := Tr.sqrt z n1
  if (f32 nw.w).isNan then nw.also [nr]
  else if (f32 nr.w).isNan then nr.also [nw]
  else if ltW 0#32 nw.w && ltW 0#32 nr.w then
    Tr.min z (Tr.max z (Tr.div z nw nr) (Tr.of f.trmin)) (Tr.of f.trmax)
  else Tr.one.also [nw, nr]

/-- What a pass makes of one element: new moments, weight, X0, and its terms of the two partial sums. -/
structure ElemOut where
  m : Tr
  v : Tr
  w : Tr
  xo : Tr
  p0 : Tr
  p1 : Tr

/-- The passes (R206): FULL 0, NORM 1, APPLY 2, MOM 3, PREP 4. -/
def passAllowed (rule pass : Nat) : Bool :=
  match rule with
  | 0 => pass = 0
  | 1 => pass = 0
  | 2 => pass = 1 || pass = 2
  | _ => pass = 3 || pass = 4 || pass = 2

/-- The rule keeps second moments (R207). -/
def useSecond (f : FactorSet) : Bool := f.rule = 1 || (f.rule = 2 && !f.flags.testBit 0)

/-- One element of a pass (R207). -/
def passElem (z : Bool) (f : FactorSet) (pass : Nat) (gs tr den lrrs g m v w o : Tr) : ElemOut :=
  let none_ := Tr.zero
  let g1 := Tr.mul z g gs
  let (m1, v1) := if pass = 2 || pass = 4 then (m, v) else moments z f (useSecond f) m v g1
  let dir := if useSecond f then adamDir z f (Tr.of f.ic1) (Tr.of f.ic2) m1 v1 else m1
  let r := Tr.add z dir (Tr.mul z (Tr.of f.lam) w)
  match pass with
  | 0 => ⟨m1, v1, decayStep z f w dir, none_, none_, none_⟩
  | 1 => ⟨m1, v1, w, none_, Tr.mul z w w, Tr.mul z r r⟩
  | 2 =>
    if f.rule = 2 then ⟨m1, v1, Tr.sub z w (Tr.mul z (Tr.of f.lr) (Tr.mul z tr r)), none_, none_, none_⟩
    else ⟨m1, v1, Tr.sub z (Tr.mul z w (Tr.of f.keep)) (Tr.mul z lrrs o), none_, none_, none_⟩
  | 3 => ⟨m1, v1, w, none_, none_, Tr.mul z m1 m1⟩
  | _ => ⟨m1, v1, w, Tr.div z m1 den, none_, none_⟩

/-! ## Weight bodies (R209) -/

/-- Byte distance of successive tile bodies. -/
def bodyStride (f q : Nat) : Nat := ceilDiv (grtLen f q) 128 * 128

/-- The arrays a body write touches: address and length. -/
def UDesc.bodyRuns (d : UDesc) : List (Nat × Nat) :=
  if d.bfmt = 0 then []
  else if d.sparse then
    (List.range (d.n / (d.q * 1024))).map fun j => (d.body + j * bodyStride d.bfmt d.q, grtLen d.bfmt d.q)
  else if isMx d.bfmt then [(d.body, d.n / 128 * mxUnit d.bfmt)]
  else [(d.body, packedLen d.bfmt d.n)]

/-- The values area and scale array of one grain tile body in an MX format, each block scaled over its active values
(R77, R209). -/
def mxBody (f q : Nat) (z : Bool) (sheet : List Byte) (nnz : Nat) (vals : Array Tr) : List Byte × NumEv :=
  let act : List (Nat × Nat) := ((activeList sheet).take nnz).mapIdx fun i p => (p, i)
  let blocks := (List.range 512).map fun b =>
    let here : List (Nat × Nat) := act.filter fun x => x.1 / 32 = b
    let vs := (List.range 32).map fun j => match here.find? fun x => x.1 % 32 = j with
      | some x => f32 (vals.getD x.2 Tr.zero).w
      | none => .fin false 0 0
    let sc := mxScale f vs
    let (codes, ev) := mxElems f sc z vs
    (sc, here.map (fun (x : Nat × Nat) => (x.2, codes.getD (x.1 % 32) 0)), ev)
  let placed : List (Nat × Nat) := blocks.flatMap fun b => b.2.1
  let codes := (List.range (q * 1024)).map fun i => match placed.find? fun x => x.1 = i with
    | some x => x.2
    | none => 0
  (packElems (elemBits f) codes ++ blocks.map (fun b => BitVec.ofNat 8 b.1), NumEv.joins (blocks.map fun b => b.2.2))

/-- The body writes of a FULL or APPLY pass (R209): runs of bytes, and the events. -/
def Core.bodyWrites (k : Ctx) (c : Core) (d : UDesc) (ws : Array Tr) : List (Nat × List Byte) × NumEv :=
  let f := d.bfmt
  let z := c.ftz
  let s := c.latchS d.sidx
  if f = 0 then ([], {})
  else if !d.sparse then
    if isMx f then
      let us := (List.range (d.n / 128)).map fun u =>
        mxUnitBytes f z ((List.range 128).map fun i => (ws.getD (128 * u + i) Tr.zero).w)
      ([(d.body, us.flatMap (·.1))], NumEv.joins (us.map (·.2)))
    else
      let us := ws.toList.map fun x => storeBytes z f s x.w
      ([(d.body, us.flatMap (·.1))], NumEv.joins (us.map (·.2)))
  else
    let slots := d.q * 1024
    let tiles := (List.range (d.n / slots)).map fun j =>
      let a := d.body + j * bodyStride f d.q
      let h := tileHeader (c.read k a 64)
      let vals := ((List.range slots).map fun i => ws.getD (j * slots + i) Tr.zero).toArray
      if isMx f then
        let (bs, ev) := mxBody f d.q z (c.read k (sheetBase h.slot) 2560) h.nnz vals
        ([(a + 64, bs)], ev)
      else
        let us := (List.range slots).map fun i =>
          if i < h.nnz then storeBytes z f s (vals.getD i Tr.zero).w
          else (List.replicate (elemBits f / 8) 0#8, NumEv.none)
        ([(a + 8, [BitVec.ofInt 8 s]), (a + 64, us.flatMap (·.1))], NumEv.joins (us.map (·.2)))
    (tiles.flatMap (·.1), NumEv.joins (tiles.map (·.2)))

/-! ## UUPD (R205–R209) -/

/-- The arrays a pass reads and writes: address and length (R206, R207). -/
def UDesc.passReads (d : UDesc) (f : FactorSet) (pass : Nat) : List (Nat × Nat) :=
  let hasG := pass = 0 || pass = 1 || pass = 3
  let sl := d.n * stateBytes f.sfmt
  (if hasG then [(d.grad, d.n * stateBytes d.gfmt)] else []) ++
  (if f.rule = 3 && pass = 2 then [] else [(d.m, sl)]) ++
  (if useSecond f then [(d.v, sl)] else []) ++
  (if pass ≤ 2 then [(d.w, d.n * stateBytes f.mfmt)] else []) ++
  (if f.rule = 3 && pass = 2 then [(d.xo, 2 * d.n)] else []) ++
  (if (hasG && f.flags.testBit 2) || pass = 4 || (f.rule = 2 && pass = 2) then [(d.norms, 12)] else [])

def UDesc.passWrites (d : UDesc) (f : FactorSet) (pass : Nat) : List (Nat × Nat) :=
  let hasG := pass = 0 || pass = 1 || pass = 3
  let sl := d.n * stateBytes f.sfmt
  (if hasG then [(d.m, sl)] else []) ++ (if hasG && useSecond f then [(d.v, sl)] else []) ++
  (if pass = 0 || pass = 2 then (d.w, d.n * stateBytes f.mfmt) :: d.bodyRuns else []) ++
  (if pass = 1 then [(d.psum, 8)] else if pass = 3 then [(d.psum + 4, 4)] else []) ++
  (if pass = 4 then [(d.xo, 2 * d.n)] else [])

/-- Rows that runs of bytes touch, with their banks (R218). -/
def touchedRows (runs : List (Nat × Nat)) : List Nat :=
  runs.flatMap fun r => if r.2 = 0 then [] else
    (List.range ((r.1 + r.2 - 1) / 128 - r.1 / 128 + 1)).map fun i => (r.1 / 128 + i) / 4096

/-- T of R218 from the banks of the rows counted. -/
def updateTime (rows : List Nat) : Nat :=
  ((List.range 8).map fun b => (rows.filter (· = b)).length).foldl (fun a n => if a < n then n else a)
    (ceilDiv rows.length 2)

/-- A run lies in one scratchpad bank (R255). -/
def oneBank (r : Nat × Nat) : Bool := r.2 = 0 || (decide (r.1 + r.2 ≤ 0x400000) && inBank r.1 r.1 r.2)

/-- T of an operation that names an invalid factor set: the formats that R218 counts by are those of no group, so its value is
free (log entry 39). -/
def staleRows (k : Ctx) : Nat := Config.freeNat k.ctr "rows under an invalid factor set"

/-- UUPD (R205–R209, R212). -/
def Core.uupd (k : Ctx) (c : Core) (s : At) (di : BitVec 4) (pass : BitVec 3) : Core :=
  let d := c.udesc di.toNat
  let p := pass.toNat
  let z := c.ftz
  match c.factors.getD d.fs none with
  | none =>
    let lat := 32 + staleRows k
    if s.supp then c.ueIssue k s lat PendingOp.blank
    else (c.ueOp s 1).ueRefused k s lat di.toNat d.fs 0x020D#16
  | some f =>
    let reads := d.passReads f p
    let writes := d.passWrites f p
    let lat := 32 + updateTime (touchedRows (reads ++ writes))
    if s.supp then c.ueIssue k s lat PendingOp.blank
    else if !passAllowed f.rule p || (f.rule = 3 && (d.sparse || d.rowMode)) then
      (c.ueOp s 1).ueRefused k s lat di.toNat d.fs 0x020C#16
    else if !(reads ++ writes).all oneBank then c.ueRange k s lat di.toNat d.fs
    else
      let arr (a f : Nat) : Array Tr := stateVals f ((c.readE k 6 a (d.n * stateBytes f)).1)
      let norms := (unpack 32 (c.readE k 6 d.norms 12).1).map fun x => Tr.of (BitVec.ofNat 32 x)
      let norm (i : Nat) : Tr := norms.getD i Tr.zero
      let hasG := p = 0 || p = 1 || p = 3
      let gs := if hasG || (f.rule = 2 && p = 2) then gradScale z f (norm 2) else Tr.one
      let tr := if f.rule = 2 && p = 2 then trustRatio z f (norm 0) (norm 1) else Tr.one
      let den := if p = 4 then Tr.add z (Tr.sqrt z (norm 1)) (Tr.of f.eps) else Tr.one
      let lrrs := if f.rule = 3 && p = 2 then Tr.mul z (Tr.of f.lr) (Tr.of f.rscale) else Tr.one
      let g := if hasG then arr d.grad d.gfmt else #[]
      let m := arr d.m f.sfmt
      let v := if useSecond f then arr d.v f.sfmt else #[]
      let w := if p ≤ 2 then arr d.w f.mfmt else #[]
      let o := if f.rule = 3 && p = 2 then arr d.xo 1 else #[]
      let at_ (x : Array Tr) (i : Nat) : Tr := x.getD i Tr.zero
      let outs := (List.range d.n).map fun i =>
        passElem z f p gs tr den lrrs (at_ g i) (at_ m i) (at_ v i) (at_ w i) (at_ o i)
      let ms := outs.map fun x => storeState z f.sfmt x.m
      let vs := outs.map fun x => storeState z f.sfmt x.v
      let wts := p = 0 || p = 2
      let mw := outs.mapIdx fun i x => c.storeMaster d f.mfmt x.w (d.elem0 + i)
      let xs := outs.map fun x => storeState z 1 x.xo
      let (bodies, bev) := if wts then c.bodyWrites k d (outs.map (·.w)).toArray else ([], {})
      let psum (l : List Tr) : Tr := l.foldl (Tr.add z) Tr.zero
      let p0 := psum (outs.map (·.p0))
      let p1 := psum (outs.map (·.p1))
      let amax := outs.foldl (fun a x => match amaxOf x.w.w with
        | some y => amaxJoin a y
        | none => a) 0#32
      let put (a : Nat) (bs : List Byte) : List Eff := c.writeE 6 a bs
      let effs := (if hasG then put d.m (ms.flatMap (·.1)) else []) ++
        (if hasG && useSecond f then put d.v (vs.flatMap (·.1)) else []) ++
        (if wts then put d.w (mw.flatMap (·.1)) ++ bodies.flatMap (fun b => put b.1 b.2) else []) ++
        (if p = 1 then put d.psum (leBytes 4 p0.w.toNat ++ leBytes 4 p1.w.toNat)
          else if p = 3 then put (d.psum + 4) (leBytes 4 p1.w.toNat) else []) ++
        (if p = 4 then put d.xo (xs.flatMap (·.1)) else []) ++
        (if wts && d.cap then [.amax d.sidx amax] else [])
      let ev := NumEv.joins ((if hasG then ms.map (·.2) else []) ++ (if hasG && useSecond f then vs.map (·.2) else []) ++
        (if wts then mw.map (·.2) ++ [bev] else []) ++ (if p = 1 then [p0.ev, p1.ev] else if p = 3 then [p1.ev] else []) ++
        (if p = 4 then xs.map (·.2) else []) ++ [gs.ev, tr.ev, den.ev, lrrs.ev])
      let bad := reads.flatMap fun r => (c.readE k 6 r.1 r.2).2
      (c.ueOp s 1).ueIssue k s lat { PendingOp.blank with reads := reads, effs := bad ++ effs, ev := ev }

/-! ## UROW (R210) -/

/-- The bytes of a staged row block, and where its arrays lie in it: masters, first and second moments (R210). -/
def rowLayout (f : FactorSet) (n : Nat) : Nat × Nat × Nat × Nat :=
  let w := 64
  let m := w + n * stateBytes f.mfmt
  let v := m + n * stateBytes f.sfmt
  (w, m, v, if f.rule = 1 then v + n * stateBytes f.sfmt else v)

/-- The header and the arrays of a staged block at an address, as R218 counts them: each by itself. -/
def FactorSet.blockRuns (f : FactorSet) (n a : Nat) : List (Nat × Nat) :=
  let (w, m, v, len) := rowLayout f n
  [(a, 64), (a + w, m - w), (a + m, v - m), (a + v, len - v)]

/-- The ordering of steps n, saturating (R210). -/
def satAdd1 (n : Nat) : Nat := if n = 2 ^ 32 - 1 then n else n + 1

/-- What UROW makes of one row: new block bytes, or none if the row is left; whether it was skipped; events. -/
structure RowOut where
  bytes : Option (List Byte)
  skipped : Bool
  ev : NumEv

/-- One staged row (R210). -/
def Core.row (c : Core) (d : UDesc) (f : FactorSet) (gs : Tr) (j0 j n : Nat) (blk grad : List Byte) : RowOut :=
  let z := c.ftz
  let t := c.gstep
  let last := natAt blk 0 8 % 2 ^ 40
  let count := natAt blk 8 4
  if natAt blk 0xC 4 % 2 = 1 then ⟨none, false, {}⟩
  else if t ≤ last && 0 < count then ⟨none, true, {}⟩
  else
    let (ow, om, ov, _) := rowLayout f n
    let sl := n * stateBytes f.sfmt
    let w := stateVals f.mfmt ((blk.drop ow).take (n * stateBytes f.mfmt))
    let m := stateVals f.sfmt ((blk.drop om).take sl)
    let v := stateVals f.sfmt ((blk.drop ov).take sl)
    let g := stateVals d.gfmt grad
    let k := if 0 < count then t - last - 1 else 0
    let keepk := powU z (Tr.of f.keep) k
    let b1k := powU z (Tr.of f.b1) k
    let b2k := powU z (Tr.of f.b2) k
    let cnt := satAdd1 count
    let ic (b : Word) : Tr := Tr.div z Tr.one (Tr.sub z Tr.one (powU z (Tr.of b) cnt))
    let ic1 := ic f.b1
    let ic2 := ic f.b2
    let second := decide (f.rule = 1)
    let at_ (x : Array Tr) (i : Nat) : Tr := x.getD i Tr.zero
    let outs := (List.range n).map fun i =>
      let wi := Tr.mul z (at_ w i) keepk
      let mi := Tr.mul z (at_ m i) b1k
      let vi := if second then Tr.mul z (at_ v i) b2k else Tr.zero
      let (m1, v1) := moments z f second mi vi (Tr.mul z (at_ g i) gs)
      let dir := if second then adamDir z f ic1 ic2 m1 v1 else m1
      (storeState z f.sfmt m1, storeState z f.sfmt v1,
        c.storeMaster d f.mfmt (decayStep z f wi dir) (d.elem0 + Config.rowElement j0 j n i))
    let head := leBytes 8 t ++ leBytes 4 cnt ++ (blk.drop 12).take 52
    ⟨some (head ++ outs.flatMap (fun x => x.2.2.1) ++ outs.flatMap (fun x => x.1.1) ++
        if second then outs.flatMap fun x => x.2.1.1 else []), false,
      NumEv.joins (outs.flatMap fun x => if second then [x.1.2, x.2.1.2, x.2.2.2] else [x.1.2, x.2.2.2])⟩

/-- UROW (R210, R272). -/
def Core.urow (k : Ctx) (c : Core) (s : At) (di : BitVec 4) (rj : BitVec 5) (nrows : BitVec 12) : Core :=
  let d := c.udesc di.toNat
  let j0 := (c.sreg k rj).toNat
  let nr := nrows.toNat
  let n := d.n % 8192
  let z := c.ftz
  match c.factors.getD d.fs none with
  | none =>
    let lat := 32 + 48 * nr + staleRows k
    if s.supp then c.ueIssue k s lat PendingOp.blank
    else (c.ueOp s 2).ueRefused k s lat di.toNat d.fs 0x020D#16
  | some f =>
    let (_, _, _, len) := rowLayout f n
    let js := (List.range nr).map (j0 + ·)
    let blocks := js.map fun j => (d.w + j * d.rstride, len)
    let grads := js.map fun j => (d.grad + j * d.gstride, n * stateBytes d.gfmt)
    let norms := if f.flags.testBit 2 then [(d.norms, 12)] else []
    let statics := (List.range nr).flatMap fun j =>
      let b := f.blockRuns n (d.w + j * d.rstride)
      b ++ b ++ [(d.grad + j * d.gstride, n * stateBytes d.gfmt)]
    let lat := 32 + 48 * nr + updateTime (touchedRows (statics ++ norms))
    let inB (base : Nat) (r : Nat × Nat) : Bool := r.2 = 0 || inBank base r.1 r.2
    if s.supp then c.ueIssue k s lat PendingOp.blank
    else if 2 ≤ f.rule then
      (c.ueOp s 2).ueRefused k s lat di.toNat d.fs 0x020C#16
    else if !(blocks.all (inB d.w) && grads.all (inB d.grad)) then
      c.ueRange k s lat di.toNat d.fs
    else
      let nrm := (unpack 32 (c.readE k 6 d.norms 12).1).map fun x => Tr.of (BitVec.ofNat 32 x)
      let gs := gradScale z f (nrm.getD 2 Tr.zero)
      let rows := js.map fun j =>
        let a := d.w + j * d.rstride
        (a, c.row d f gs j0 j n (c.readE k 6 a len).1 (c.readE k 6 (d.grad + j * d.gstride) (n * stateBytes d.gfmt)).1)
      let skipped := (rows.filter fun r => r.2.skipped).length
      let reads := blocks ++ grads ++ norms
      let bad := reads.flatMap fun r => (c.readE k 6 r.1 r.2).2
      (c.ueOp s 2).ueIssue k s lat { PendingOp.blank with
        reads := reads
        effs := bad ++ rows.flatMap (fun r => match r.2.bytes with
          | some bs => c.writeE 6 r.1 bs
          | none => []) ++ (if skipped = 0 then [] else [.count 0x6058 skipped])
        ev := NumEv.joins (gs.ev :: rows.map fun r => r.2.ev)
        raises := if skipped = 0 then [] else [⟨0x020E#16, false⟩] }

/-! ## Touched-row filter (R211) -/

/-- The row ids of descriptor `d`'s slots in slot order. -/
def filterRows (l : List (BitVec 4 × Word)) (d : BitVec 4) : List Word := (l.filter fun x => x.1 = d).map (·.2)

/-- One id through the filter: the filter after it, its slot, and whether it was out of range (R211). -/
def filterStep (d : BitVec 4) (rows : Nat) (l : List (BitVec 4 × Word)) (id : Word) : List (BitVec 4 × Word) × Int × Bool :=
  if id.toInt < 0 || (rows : Int) ≤ id.toInt then (l, -1, true)
  else
    let mine := filterRows l d
    match mine.findIdx? (· = id) with
    | some i => (l, (i : Int), false)
    | none => (l ++ [(d, id)], (mine.length : Int), false)

/-- Ids through the filter in order (R211). -/
def filterAll (d : BitVec 4) (rows : Nat) : List (BitVec 4 × Word) → List Word → List (BitVec 4 × Word) × List Int × Nat
  | l, [] => (l, [], 0)
  | l, id :: t =>
    let (l1, s, oor) := filterStep d rows l id
    let (l2, ss, n) := filterAll d rows l1 t
    (l2, s :: ss, n + bit oor)

/-- UFILT (R211, R272). -/
def Core.ufilt (k : Ctx) (c : Core) (s : At) (di : BitVec 4) (bank : BitVec 3) (ra rb rn nmx : BitVec 5) : Core :=
  let base := bank.toNat * 0x80000
  let a := c.engAddr k base ra 4
  let b := c.engAddr k base rb 4
  let nmax := 1024 * (nmx.toNat + 1)
  let lat := 32 + nmax + 2 * ceilDiv nmax 32
  let n0 := (c.sreg k rn).toNat
  if s.supp then c.ueIssue k s lat PendingOp.blank
  else if !(inBank base a (4 * nmax) && inBank base b (4 * nmax)) then
    c.ueRange k s lat di.toNat (c.udesc di.toNat).fs
  else
    let (c, n) := c.clampCount .ue n0 nmax
    let (bs, bad) := c.readE k 6 a (4 * n)
    let ids := (unpack 32 bs).map (BitVec.ofNat 32)
    let (l, slots, oor) := filterAll di (c.udesc di.toNat).rows c.filter ids
    (c.ueOp s 4).ueIssue k s lat { PendingOp.blank with
      reads := if n = 0 then [] else [(a, 4 * n)]
      effs := bad ++ c.writeE 6 b (slots.flatMap fun v => leBytes 4 (BitVec.ofInt 32 v).toNat) ++ [.filter l] ++
        (if oor = 0 then [] else [.count 0x6060 oor]) }

/-- UFLIST (R211, R272); its declared maximum is the program's, which the loader sums (`Core.filtMax`). -/
def Core.uflist (k : Ctx) (c : Core) (s : At) (di : BitVec 4) (bank : BitVec 3) (ra : BitVec 5) : Core :=
  let base := bank.toNat * 0x80000
  let a := c.engAddr k base ra 4
  let nmax := c.filtMax.getD di.toNat 0
  let lat := 32 + 2 * ceilDiv nmax 32
  if s.supp then c.ueIssue k s lat PendingOp.blank
  else if nmax ≠ 0 && !inBank base a (4 * nmax) then c.ueRange k s lat di.toNat (c.udesc di.toNat).fs
  else
    (c.ueOp s 5).ueIssue k s lat { PendingOp.blank with
      effs := c.writeE 6 a ((filterRows c.filter di).flatMap fun w => leBytes 4 w.toNat) }

/-- UADV (R200): the step advances at the next tick. -/
def Core.uadv (k : Ctx) (c : Core) (s : At) : Core :=
  let c := c.ueOp s 6
  (if s.supp then c else c.setRf 0x6008 8 8 1).ueIssue k s 4 PendingOp.blank

end Sys2Proof.Machine
end

