-- ==== Sys2Proof/Machine/Mask.lean ====
section
/-! DEFINITION. The mask engine (R130–R152, R273): dodges, burns and refreshes of grain tiles, score stages, sheet moves,
companion planes, and the activation predictor. -/

namespace Sys2Proof.Machine

/-- A companion plane of a mask descriptor (R131). -/
structure Plane where
  addr : Nat
  wide : Bool
  preset : Bool

/-- A mask descriptor in force (R131, R157). -/
structure MDesc where
  body : Nat
  q : Nat
  fmt : Nat
  slot : Nat
  npl : Nat
  magSrc : Bool
  init : Bool
  nzOnly : Bool
  sclr : Bool
  repEn : Bool
  initv : Word
  decay : Word
  sbuf : Nat
  sbWide : Bool
  report : Nat
  planes : List Plane

/-- Mask descriptor `d`. -/
def Core.mdesc (c : Core) (d : Nat) : MDesc :=
  let r (i : Nat) : Word := c.reg (0x7400 + 64 * d + 4 * i)
  let w := r 1
  { body := fld (r 0) 22 0, q := fld w 3 0 + 1, fmt := fld w 7 4, slot := fld w 13 8, npl := fld w 16 14
    magSrc := bitAt w 17, init := bitAt w 18, nzOnly := bitAt w 19, sclr := bitAt w 20, repEn := bitAt w 21
    initv := r 2, decay := r 3, sbuf := fld (r 4) 22 0, sbWide := bitAt (r 4) 23, report := fld (r 5) 22 0
    planes := ((List.range 4).map fun i => ⟨fld (r (6 + i)) 22 0, bitAt (r (6 + i)) 23, bitAt (r (6 + i)) 24⟩).take
      (fld w 16 14) }

/-- Bytes of a plane's entry and of the plane (R131). -/
def Plane.entry (p : Plane) : Nat := if p.wide then 4 else 2
def MDesc.planeLen (d : MDesc) (p : Plane) : Nat := d.q * 1024 * p.entry

/-- Rb, Rp, R and Rs of R143. -/
def MDesc.rb (d : MDesc) : Nat := ceilDiv (grtLen d.fmt d.q) 128
def MDesc.rp (d : MDesc) : Nat := (d.planes.map fun p => if p.wide then 32 * d.q else 16 * d.q).foldl (· + ·) 0
def MDesc.rr (d : MDesc) : Nat := 2 * (d.rb + d.rp)
def MDesc.rs (d : MDesc) : Nat := if d.sclr then if d.sbWide then 512 else 256 else 0

/-- The length of the score buffer (R135). -/
def MDesc.sbLen (d : MDesc) : Nat := if d.sbWide then 65536 else 32768

/-- An ME operation issues: its latency, 8 more in TC0, is its issue interval (R130, R143). -/
def Core.meIssue (k : Ctx) (c : Core) (s : At) (lat : Nat) (op : PendingOp) : Core :=
  let lat := lat + if k.tc1 then 0 else 8
  c.issue k s .me lat lat 1 { op with master := 7 }

/-- ME_STATUS.OP and the frame's count of operations, for an operation that is not suppressed. -/
def Core.meOp (c : Core) (s : At) (code : Nat) : Core :=
  if s.supp then c
  else
    let c := c.setRf 0x7000 4 1 code
    { c with frame := { c.frame with meOps := c.frame.meOps + 1 } }

/-- ME_FAULT: the first fault since cleared (R157). -/
def meFault (code : Half) (d slot : Nat) : Eff :=
  .first 0x7014 (BitVec.ofNat 32 (code.toNat + d * 2 ^ 16 + slot * 2 ^ 21 + 2 ^ 31)) []

/-- A failed check of a mask operation, within its first `n` cycles (R132): ME_FAULT, its code and the abort. -/
def meFailed (k : Ctx) (n : Nat) (code : Half) (d slot : Nat) : Early :=
  ⟨k.clock + Config.accessCycle k.ctr 0x10000 % n, [meFault code d slot], [⟨code, true⟩]⟩

/-- ENG_RANGE of a mask or predictor operation (R255): the ME's fault too (R157). -/
def Core.meRange (k : Ctx) (c : Core) (s : At) (lat d slot : Nat) : Core :=
  let c := (Core.apply 6 s.bundle c (meFault 0x0212#16 d slot)).1
  (c.engRange .me s.bundle).meIssue k (dead s) lat PendingOp.blank

/-- The code of the first failing header check of R132. -/
def Core.maskCheck (c : Core) (d : MDesc) (h : TileHeader) (sheet : List Byte) : Option Half :=
  let n := sheetCount sheet
  if h.cap ≠ d.q || h.fmt ≠ d.fmt then some 0x0208#16
  else if h.nnz ≠ n || h.cap * 1024 < h.nnz then some 0x0208#16
  else if h.slot ≠ d.slot then some 0x0208#16
  else if h.epoch ≠ c.slotTag d.slot then some 0x0205#16
  else none

/-! ## Selection (R133, R134, R137) -/

/-- Magnitude order: finite below infinite below NaN, equal magnitudes by linear index (R133, R134). -/
def magBefore (a b : FVal × Nat) : Bool :=
  match a.1, b.1 with
  | .nan _, .nan _ => decide (a.2 ≤ b.2)
  | .nan _, _ => false
  | _, .nan _ => true
  | x, y => FVal.lt x y || (!FVal.lt y x && decide (a.2 ≤ b.2))

/-- Score order: highest first, equal scores by linear index (R137). -/
def scoreBefore (a b : FVal × Nat) : Bool :=
  FVal.lt b.1 a.1 || (!FVal.lt a.1 b.1 && decide (a.2 ≤ b.2))

/-- The tile as an edit reads it: header, sheet, active positions, codes of its slots, its planes' bytes. -/
structure TileView where
  h : TileHeader
  sheet : List Byte
  act : List Nat
  body : List Byte
  codes : Array Nat
  planes : List (Plane × Array Byte)

/-- Runs of bytes an edit reads. -/
def MDesc.tileRuns (d : MDesc) : List (Nat × Nat) :=
  (d.body, grtLen d.fmt d.q) :: (sheetBase d.slot, 2560) :: d.planes.map fun p => (p.addr, d.planeLen p)

/-- The tile of a descriptor as read at issue, with the violations. -/
def Core.tileView (k : Ctx) (c : Core) (d : MDesc) : TileView × List Eff :=
  let (body, e1) := c.readE k 7 d.body (grtLen d.fmt d.q)
  let sheet := c.read k (sheetBase d.slot) 2560
  let ps := d.planes.map fun p => (p, c.readE k 7 p.addr (d.planeLen p))
  ({ h := tileHeader body, sheet := sheet, act := activeList sheet, body := body
     codes := (unpack (elemBits d.fmt) ((body.drop 64).take (packedLen d.fmt (d.q * 1024)))).toArray
     planes := ps.map fun x => (x.1, x.2.1.toArray) }, e1 ++ ps.flatMap fun x => x.2.2)

/-- Magnitude of the active position in slot `i` at linear index `p` (R133). -/
def MDesc.magnitude (d : MDesc) (t : TileView) (i p : Nat) : FVal :=
  if d.magSrc then
    match t.planes.head? with
    | some (_, bs) => FVal.abs (fmtFp32.decode (leNat ((List.range 4).map fun j => bs.getD (4 * i + j) 0#8)))
    | none => .fin false 0 0
  else
    let x := t.codes.getD i 0
    FVal.abs (if isMx d.fmt then mxVal d.fmt x (slotScale t.body d.fmt d.q (p / 128) (p % 128)) else codeVal d.fmt x)

/-- The positions a dodge of k drops, in order, with their magnitudes (R134). -/
def MDesc.dodged (d : MDesc) (t : TileView) (k : Nat) : List (FVal × Nat) :=
  ((t.act.mapIdx fun i p => (d.magnitude t i p, p)).mergeSort magBefore).take k

/-- The positions a burn of k adds, in order (R137, R139): `kept` are the active positions that stay. -/
def MDesc.burned (d : MDesc) (t : TileView) (kept : List Nat) (score : Array Word) (k : Nat) : List Nat :=
  let on := t.act.foldl (fun (a : Array Bool) p => a.setIfInBounds p true) (Array.replicate 16384 false)
  let elig := (List.range 16384).filterMap fun p =>
    let v := f32 (score.getD p 0#32)
    if on.getD p false || v.isNan || (d.nzOnly && !FVal.lt (.fin false 0 0) v.abs) then none else some (v, p)
  ((elig.mergeSort scoreBefore).take (min k (d.q * 1024 - kept.length))).map (·.2)

/-! ## Rebuilding (R140, R141) -/

/-- Of the events of a rebuilding, a mask operation raises NUM_SATURATED alone (R275). -/
def NumEv.satOnly (e : NumEv) : NumEv := { sat := e.sat }

/-- A plane entry at its reset value (R140). -/
def MDesc.resetEntry (d : MDesc) (p : Plane) : List Byte × NumEv :=
  if !p.preset then (List.replicate p.entry 0#8, {})
  else if p.wide then (leBytes 4 d.initv.toNat, {})
  else
    let (x, e) := toFmt 1 false (f32 d.initv)
    (leBytes 2 x, e)

/-- The code of an added position (R140). -/
def MDesc.initCode (d : MDesc) (t : TileView) (p : Nat) : Nat × NumEv :=
  if !d.init then (0, {})
  else if isMx d.fmt then
    let sc := slotScale t.body d.fmt d.q (p / 128) (p % 128)
    if sc = 255 then (0, {})
    else narrow d.fmt false ((f32 d.initv).scale (127 - (sc : Int)))
  else
    let (w, e1) := divPow2 false d.initv (signedOf 8 t.h.sexp)
    let (x, e2) := toFmt d.fmt false (f32 w)
    (x, e1.join e2)

/-- The slot that held each linear index before an edit: a table of 16,384 entries. -/
def slotTable (act : List Nat) : Array (Option Nat) :=
  (act.mapIdx fun i p => (p, i)).foldl (fun (a : Array (Option Nat)) x => a.setIfInBounds x.1 (some x.2))
    (Array.replicate 16384 none)

/-- A plane's bytes after its positions become `act` (R140, R147): kept entries move, new ones are reset, padding is
zeroed. -/
def MDesc.movePlane (d : MDesc) (p : Plane) (old : Array Byte) (slots : Array (Option Nat)) (act : List Nat) :
    List Byte × NumEv :=
  let e := p.entry
  let (rst, ev) := d.resetEntry p
  let parts := act.map fun q => match slots.getD q none with
    | some i => ((List.range e).map (fun j => old.getD (e * i + j) 0#8), NumEv.none)
    | none => (rst, ev)
  (parts.flatMap (·.1) ++ List.replicate (e * (d.q * 1024 - act.length)) 0#8, NumEv.joins (parts.map (·.2)))

/-- The greatest of a list. -/
def maxOf (l : List Nat) : Nat := l.foldl (fun a b => if a < b then b else a) 0

/-- The effects and events of rewriting a tile to the active positions `act` (R140, R141). -/
def Core.rebuild (c : Core) (d : MDesc) (t : TileView) (act : List Nat) : List Eff × NumEv :=
  let slots := slotTable t.act
  let codes := act.map fun p => match slots.getD p none with
    | some i => (t.codes.getD i 0, NumEv.none)
    | none => d.initCode t p
  let vals := packElems (elemBits d.fmt) (codes.map (·.1) ++ List.replicate (d.q * 1024 - act.length) 0)
  let epoch := (t.h.epoch + 1) % 2 ^ 32
  let rowmax := maxOf ((List.range 128).map fun r => (act.filter fun p => p / 128 = r).length)
  let head := leBytes 4 epoch ++ leBytes 2 act.length ++ (t.body.drop 6).take 4 ++ leBytes 2 rowmax ++ (t.body.drop 12).take 52
  let planes := t.planes.map fun x => (x.1, d.movePlane x.1 x.2 slots act)
  (c.writeE 7 d.body (head ++ vals ++ t.body.drop (64 + vals.length)) ++
    planes.flatMap (fun x => c.writeE 7 x.1.addr x.2.1) ++
    c.writeE 7 (sheetBase d.slot) (buildSheet act) ++ [.reg (0x7100 + 4 * d.slot) (BitVec.ofNat 32 epoch), .edited],
    (NumEv.joins (codes.map (·.2) ++ planes.map fun x => x.2.2)).satOnly)

/-- k as an ME operation applies it (R130, R273). -/
def Core.meCount (k : Ctx) (c : Core) (o : MEditOp) : Nat :=
  let v := if o.kr then (c.sreg k o.rk).toNat % 65536 else o.kimm.toNat
  if 16384 < v then 16384 else v

/-- A dodge, a burn or both (R132–R142, R158): `dodge`, `burn` say which. -/
def Core.meEdit (k : Ctx) (c : Core) (s : At) (o : MEditOp) (code : Nat) (dodge burn : Bool) : Core :=
  let d := c.mdesc o.d.toNat
  let lat := 32 + (if dodge then 32 * d.q else 0) + (if burn then 512 else 0) + d.rr + (if burn then d.rs else 0) + 48
  if s.supp then c.meIssue k s lat PendingOp.blank
  else
    let req := c.meCount k o
    let (t, bad) := c.tileView k d
    let c := c.meOp s code
    let off : List Eff := if burn then [.stage ScoreStage.reset] else []
    let blank := { PendingOp.blank with reads := d.tileRuns, edits := [d.slot] }
    let stageBad := burn && !(c.stage.valid && c.stage.desc = o.d.toNat && c.stage.tensor.toNat = t.h.tensor &&
      c.stage.brow = t.h.brow && c.stage.bcol = t.h.bcol)
    let fault : Option (Half × Nat) := match c.maskCheck d t.h t.sheet with
      | some x => some (x, 32)
      | none => if stageBad then some (0x0209#16, lat) else none
    match fault with
    | some (x, n) => c.meIssue k s lat { blank with effs := bad ++ off, early := [meFailed k n x o.d.toNat d.slot] }
    | none =>
      let drops := if dodge then d.dodged t req else []
      let gone := drops.map (·.2)
      let dropped := gone.foldl (fun (a : Array Bool) p => a.setIfInBounds p true) (Array.replicate 16384 false)
      let kept := t.act.filter fun p => !dropped.getD p false
      let adds := if burn then d.burned t kept c.stage.score.toArray req else []
      let added := adds.foldl (fun (a : Array Bool) p => a.setIfInBounds p true) (Array.replicate 16384 false)
      let isKept := kept.foldl (fun (a : Array Bool) p => a.setIfInBounds p true) (Array.replicate 16384 false)
      let act := (List.range 16384).filter fun p => isKept.getD p false || added.getD p false
      let changed := decide (0 < drops.length + adds.length)
      let (effs, ev) := if changed then c.rebuild d t act else ([], {})
      let epoch := if changed then (t.h.epoch + 1) % 2 ^ 32 else t.h.epoch
      let sb := if d.sbWide then 4 else 2
      let clear := if burn && d.sclr && c.stage.fromBuf then
          adds.flatMap fun p => c.writeE 7 (d.sbuf + sb * p) (List.replicate sb 0#8)
        else []
      let edge := match drops.getLast? with
        | some x => (toF32 false x.1).1.toNat
        | none => 0
      let report := if d.repEn then c.writeE 7 d.report (leBytes 2 drops.length ++ leBytes 2 adds.length ++ leBytes 2 req ++
          leBytes 2 act.length ++ leBytes 4 epoch ++ leBytes 4 edge)
        else []
      c.meIssue k s lat { blank with
        effs := bad ++ effs ++ clear ++ report ++ off ++
          [.reg 0x7004 (BitVec.ofNat 32 (drops.length + adds.length * 65536)),
           .reg 0x7008 (BitVec.ofNat 32 (act.length + req * 65536)), .reg 0x700C (BitVec.ofNat 32 epoch)]
        ev := ev }

/-! ## Scores (R135, R136) -/

/-- |x| of an FP32 score. -/
def absScore (w : Word) : Word := if (f32 w).isNan then 0x7FC00000#32 else w &&& 0x7FFFFFFF#32

/-- MSCORE (R135, R136, R273). -/
def Core.mscore (k : Ctx) (c : Core) (s : At) (o : MScoreOp) : Core :=
  let d := c.mdesc o.d.toNat
  let base := o.bank.toNat * 0x80000 + o.ofs.toNat * 1024
  let a := c.engAddr k base o.ra 64
  let glen := if o.gf then 32768 else 65536
  let brows := d.sbLen / 128
  let lat := 24 + if o.src then brows else glen / 128 + if o.acc then 2 * brows else 0
  if s.supp then c.meIssue k s lat PendingOp.blank
  else if !o.src && !inBank base a glen then c.meRange k s lat o.d.toNat d.slot
  else
    let (hb, e0) := c.readE k 7 d.body 64
    let h := tileHeader hb
    let usesBuf := o.src || o.acc
    let (bb, e1) := if usesBuf then c.readE k 7 d.sbuf d.sbLen else ([], [])
    let (gb, e2) := if o.src then ([], []) else c.readE k 7 a glen
    let vals (wide : Bool) (l : List Byte) : List Word := (stateVals (bit (!wide)) l).toList.map (·.w)
    let buf := vals d.sbWide bb
    let g := (vals (!o.gf) gb).map absScore
    let news := if !o.src && o.acc then
        List.zipWith (fun b x => storeState false (bit (!d.sbWide))
          (Tr.add false (Tr.mul false (Tr.of d.decay) (Tr.of b)) (Tr.of x))) buf g
      else []
    let stored := news.flatMap (·.1)
    let score := if o.src then buf.map absScore else if o.acc then vals d.sbWide stored else g
    let v : ScoreStage := ⟨true, o.d.toNat, BitVec.ofNat 32 h.tensor, h.brow, h.bcol, o.src, score⟩
    (c.meOp s 4).meIssue k s lat { PendingOp.blank with
      reads := (d.body, 64) :: (if usesBuf then [(d.sbuf, d.sbLen)] else []) ++ if o.src then [] else [(a, glen)]
      effs := e0 ++ e1 ++ e2 ++ (if !o.src && o.acc then c.writeE 7 d.sbuf stored else []) ++ [.stage v]
      ev := NumEv.joins (news.map (·.2)) }

/-! ## Sheets and planes (R145–R147) -/

/-- MSLOAD (R145). -/
def Core.msload (k : Ctx) (c : Core) (s : At) (o : MSheetOp) : Core :=
  let d := c.mdesc o.d.toNat
  let base := o.bank.toNat * 0x80000 + o.ofs.toNat * 64
  let a := c.engAddr k base o.ra 64
  if s.supp then c.meIssue k s 84 PendingOp.blank
  else if !inBank base a 2560 then c.meRange k s 84 o.d.toNat d.slot
  else
    let (sb, e1) := c.readE k 7 a 2560
    let (hb, e0) := c.readE k 7 d.body 64
    let h := tileHeader hb
    let act := activeList sb
    let n := act.length
    let fault : Option Half :=
      if h.cap ≠ d.q || h.fmt ≠ d.fmt || h.slot ≠ d.slot then some 0x0208#16
      else if h.cap * 1024 < n then some 0x020A#16
      else if n ≠ h.nnz then some 0x0208#16
      else none
    (c.meOp s 5).meIssue k s 84 (match fault with
      | some x => { PendingOp.blank with
          reads := [(a, 2560), (d.body, 64)], edits := [d.slot], effs := e0 ++ e1
          early := [meFailed k 84 x o.d.toNat d.slot] }
      | none => { PendingOp.blank with
          reads := [(a, 2560), (d.body, 64)], edits := [d.slot]
          effs := e0 ++ e1 ++ c.writeE 7 (sheetBase d.slot) (buildSheet act) ++
            [.reg (0x7100 + 4 * d.slot) (BitVec.ofNat 32 h.epoch)] })

/-- MSSTORE (R146). -/
def Core.msstore (k : Ctx) (c : Core) (s : At) (o : MSheetOp) : Core :=
  let d := c.mdesc o.d.toNat
  let base := o.bank.toNat * 0x80000 + o.ofs.toNat * 64
  let a := c.engAddr k base o.ra 64
  if s.supp then c.meIssue k s 76 PendingOp.blank
  else if !inBank base a 2560 then c.meRange k s 76 o.d.toNat d.slot
  else
    let sheet := c.read k (sheetBase d.slot) 2560
    let (hb, e0) := c.readE k 7 d.body 64
    let op := { PendingOp.blank with reads := [(sheetBase d.slot, 2560), (d.body, 64)] }
    (c.meOp s 6).meIssue k s 76 (match c.maskCheck d (tileHeader hb) sheet with
      | some x => { op with effs := e0, early := [meFailed k 32 x o.d.toNat d.slot] }
      | none => { op with effs := e0 ++ c.writeE 7 a sheet })

/-- MREMAP (R147). -/
def Core.mremap (k : Ctx) (c : Core) (s : At) (di : BitVec 5) (old : BitVec 6) : Core :=
  let d := c.mdesc di.toNat
  let lat := 112 + 2 * d.rp
  if s.supp then c.meIssue k s lat PendingOp.blank
  else
    let (hb, e0) := c.readE k 7 d.body 64
    let sheet := c.read k (sheetBase d.slot) 2560
    let oldSheet := c.read k (sheetBase old.toNat) 2560
    let ps : List (Plane × List Byte × List Eff) := d.planes.map fun p => (p, c.readE k 7 p.addr (d.planeLen p))
    let op := { PendingOp.blank with
      reads := (d.body, 64) :: (sheetBase d.slot, 2560) :: (sheetBase old.toNat, 2560) ::
        d.planes.map (fun (p : Plane) => (p.addr, d.planeLen p)) }
    let bad := e0 ++ ps.flatMap fun x => x.2.2
    (c.meOp s 7).meIssue k s lat (match c.maskCheck d (tileHeader hb) sheet with
      | some x => { op with effs := bad, early := [meFailed k 32 x di.toNat d.slot] }
      | none =>
        if old.toNat = d.slot then { op with effs := bad }
        else
          let slots := slotTable (activeList oldSheet)
          let act := activeList sheet
          let out := ps.map fun x => (x.1, d.movePlane x.1 x.2.1.toArray slots act)
          { op with
            effs := bad ++ out.flatMap fun x => c.writeE 7 x.1.addr x.2.1
            ev := (NumEv.joins (out.map fun x => x.2.2)).satOnly })

/-! ## The activation predictor (R151–R155) -/

/-- The score of one row of a block over the columns of t (R151), with its events. -/
def predScore (row : List Word) (cols : List (List Word)) : Word × NumEv :=
  cols.foldl (fun (p : Word × NumEv) col =>
    let s := (List.zip row col).foldl (fun (s : Word × NumEv) x =>
      let (w, e) := f32Fma false x.1 x.2 s.1
      (w, s.2.join e)) (0#32, {})
    (if (f32 s.1).isNan || ltW p.1 s.1 then s.1 else p.1, p.2.join s.2)) (0xFF800000#32, {})

/-- Rows of one BF16 matrix of 32 columns. -/
def bfRows (bs : List Byte) (n : Nat) : List (List Word) :=
  let vals := (stateVals 1 bs).toList.map (·.w)
  (List.range n).map fun i => (vals.drop (32 * i)).take 32

/-- A set of rows as bits. -/
def rowBits (l : List Nat) : BitVec 128 := BitVec.ofNat 128 (l.foldl (fun a i => a + 2 ^ i) 0)

/-- Predicted-active order: NaN first, then descending, ties by row (R151). -/
def predBefore (a b : FVal × Nat) : Bool :=
  match a.1.isNan, b.1.isNan with
  | true, true => decide (a.2 ≤ b.2)
  | true, false => true
  | false, true => false
  | false, false => scoreBefore a b

/-- PPRED (R151, R273). -/
def Core.ppred (k : Ctx) (c : Core) (s : At) (o : PPredOp) : Core :=
  let j := o.j.toNat
  let base := o.bank.toNat * 0x80000
  let rp := c.sreg k o.rp
  let rq := c.sreg k o.rq
  let nmax := 64 * (o.nmx.toNat + 1)
  let lat := 88 + ceilDiv nmax 2
  let aA := base + 64 * fld rp 12 0
  let aT := base + 64 * fld rp 28 16
  let rs := o.rs.toNat
  let named (c : Core) : Core := { c with rowSets := setAt c.rowSets rs { (c.rowSets.getD rs RowSet.reset) with pent := j } }
  if s.supp then (named c).meIssue k s lat PendingOp.blank
  else if !(inBank base aA 8192 && inBank base aT (64 * nmax)) then
    c.meRange k s lat 0 0
  else
    let c := named c
    let (c, n) := c.clampCount .me (fld rq 10 0 + 1) nmax
    let (ab, e1) := c.readE k 7 aA 8192
    let (tb, e2) := c.readE k 7 aT (64 * n)
    let cols := bfRows tb n
    let p := 0x7C00 + 32 * j
    let scores := (bfRows ab 128).map fun r => predScore r cols
    let thr := c.reg (p + 4)
    let live := (scores.mapIdx fun i x => (f32 x.1, i)).filter fun x => x.1.isNan || FVal.lt (f32 thr) x.1
    let sel := ((live.mergeSort predBefore).take (c.rf p 7 1)).map (·.2)
    let fn := c.frame.fn.toNat
    let aud := (List.range 128).filter fun i => (128 * fld rq 26 16 + i + fn) % 2 ^ c.rf p 11 8 = 0
    (c.meOp s 8).meIssue k s lat { PendingOp.blank with
      reads := [(aA, 8192), (aT, 64 * n)]
      effs := e1 ++ e2 ++ [.rowSet rs ⟨rowBits sel, rowBits aud, j⟩]
      ev := NumEv.joins (scores.map (·.2)) }

/-- PCTL (R155): the request acts at the next tick. -/
def Core.pctl (k : Ctx) (c : Core) (s : At) (j : BitVec 4) (en : Bool) : Core :=
  let c := c.meOp s 9
  let c := if s.supp then c else { c with frame := { c.frame with pctl := c.frame.pctl ++ [(j, en)] } }
  c.meIssue k s 4 PendingOp.blank

end Sys2Proof.Machine
end

