-- ==== Sys2Proof/Machine/Checks.lean ====
section
/-! DEFINITION. The consistency checks of a core's memory block (R57, R63, R87, R157, R197, R219, R252): the reason code of
the first that fails, over any values of the block's CMT registers. -/

namespace Sys2Proof.Machine

/-- Every number below `n` passes. -/
def allBelow (n : Nat) (p : Nat → Bool) : Bool := (List.range n).all p

/-- A byte range lies in one scratchpad bank. -/
def bankRun (lo hi : Int) : Bool :=
  decide (0 ≤ lo) && decide (lo ≤ hi) && decide (hi < 0x400000) && decide (bankOf lo.toNat = bankOf hi.toNat)

/-! ## Fences (R57, R63) -/

/-- Base, limit and control of fence `i`. -/
def fenceAt (f : Nat → Word) (i : Nat) : Nat × Nat × Word :=
  (fld (f (0x1100 + 16 * i)) 22 6, fld (f (0x1104 + 16 * i)) 22 6, f (0x1108 + 16 * i))

/-- Two enabled fences overlap. -/
def fencesOverlap (f : Nat → Word) : Bool :=
  (List.range 8).any fun i => (List.range i).any fun j =>
    let (b, l, c) := fenceAt f i
    let (b', l', c') := fenceAt f j
    bitAt c 0 && bitAt c' 0 && decide (b ≤ l') && decide (b' ≤ l)

/-! ## Print descriptors and NUMCTL (R87) -/

/-- The scale table meets an enabled fence that is not open to every master. -/
def tableFenced (f : Nat → Word) : Bool :=
  let lo := fld (f 0x4000) 14 8 * 0x200
  bitAt (f 0x4000) 15 && (List.range 8).any fun i =>
    let (b, l, c) := fenceAt f i
    bitAt c 0 && decide (b ≤ lo + 0x1FF) && decide (lo ≤ l) && decide (fld c 18 1 ≠ 0x3FFFF)

/-- A print descriptor's bias vector lies in one bank. -/
def biasOk (f : Nat → Word) (n : Nat) : Bool :=
  let a := fld (f (0x4810 + 32 * n)) 22 6 * 64
  !bitAt (f (0x4800 + 32 * n)) 5 || bankRun a (a + 511)

/-! ## Transform descriptors (R197) -/

/-- A layout combination that R181 allows. -/
def layoutsOk (op s d esz : Nat) : Bool :=
  let plain (x : Nat) : Bool := decide (x < 2)
  if plain s && plain d then true
  else if op = 0 && ((plain s && (d = 2 || d = 3)) || ((s = 2 || s = 3) && plain d)) then decide (esz ≤ 1)
  else if op = 0 && s = d && (s = 4 || s = 5) then true
  else if op ≤ 1 && (plain s || s = 6) && (plain d || d = 6) then decide (esz ≤ 2)
  else false

/-- Lowest and highest address of a strided range of `n` positions in each dimension. -/
def strideSpan (base : Nat) (ns : List Nat) (st : List Int) (len : Nat) : Int × Int :=
  let ends := (List.range 5).map fun i => ((dim ns i - 1 : Nat) : Int) * dim st i
  (ends.foldl (fun (a : Int) x => if x < 0 then a + x else a) (base : Int),
    ends.foldl (fun (a : Int) x => if 0 < x then a + x else a) (base : Int) + len - 1)

/-- The reason code of an XDESC's first failed check. A descriptor of all zeros is unused: CMTINIT may leave a descriptor at its reset
value, and that value is all zeros (R180, R295, log entry 14). -/
def xdescReason (f : Nat → Word) (n : Nat) : Option Nat :=
  let w (i : Nat) : Word := f (0x5400 + 128 * n + 4 * i)
  let x := xdescOf w
  if (List.range 30).all fun i => w i = 0#32 then none
  else
    let mx := x.slay = 4 || x.dlay = 4
    let shaped (l : Nat) : Bool := l = 2 || l = 3 || l = 6
    if 4 < x.op || x.esz = 7 || 6 < x.slay || 6 < x.dlay || (mx && !isMx x.mxfmt) ||
      !layoutsOk x.op x.slay x.dlay x.esz then some 0x11
    else if x.e.any (· = 0) || x.off.any (fun o => decide (o < -65535) || decide (65535 < o)) ||
      ((shaped x.slay || shaped x.dlay || x.op = 1) && !(dim x.e 0 = 128 && dim x.e 1 = 128)) ||
      (x.op = 1 && !(dim x.off 0 = 0 && dim x.off 1 = 0)) then some 0x12
    else if !((List.range 5).all fun i => x.p.contains i) || ((x.op = 3 || x.op = 4) && x.p ≠ [0, 1, 2, 3, 4]) ||
      (x.op = 1 && !(dim x.p 0 = 0 && dim x.p 1 = 1)) then some 0x13
    else if 0x400000 ≤ x.src || 0x400000 ≤ x.dst || 0x400000 ≤ x.idx || x.idx % 4 ≠ 0 ||
      (x.op = 2 && (x.src % 128 ≠ 0 || dim x.ss x.idxdim % 128 ≠ 0)) ||
      (x.op = 3 && (x.dst % 128 ≠ 0 || dim x.ds x.idxdim % 128 ≠ 0)) then some 0x14
    else
      let (s0, s1) := strideSpan x.src x.bnd x.ss x.len
      let (d0, d1) := strideSpan x.dst (setAt x.e x.idxdim (dim x.bnd x.idxdim)) x.ds x.len
      if 2 ≤ x.op && (!bankRun x.idx ((x.idx + 4 * x.idxLen - 1 : Nat) : Int) || (x.op = 2 && !bankRun s0 s1) ||
        (x.op = 3 && !bankRun d0 d1)) then some 0x15
      else if x.op = 4 && (15 < x.at0 + x.atnm1 || 128 < x.col0 + dim x.e 0 || x.esz ≠ 2) then some 0x16
      else none

/-! ## The whole block -/

/-- An event source code that SQ_EVBIND may hold (R238). -/
def sourceOk (x : Nat) : Bool :=
  x = 0 || (0x10 ≤ x && x ≤ 0x1F) || x = 0x20 || x = 0x21 || (0x30 ≤ x && x ≤ 0x3F) || x = 0x40 || x = 0x41

/-- A field of words at a fixed stride lies in the scratchpad, aligned. -/
def addrField (f : Nat → Word) (off align : Nat) : Bool :=
  decide (fld (f off) 22 0 < 0x400000) && decide (fld (f off) 22 0 % align = 0)

/-- Whether the check of a reason code passes; 0x0C looks at the plane words below NPL (R157, log entry 54). -/
def coreCheckOk (f : Nat → Word) (reason : Nat) : Bool :=
  let pd (n : Nat) : Nat := 0x4800 + 32 * n
  let md (n : Nat) : Nat := 0x7400 + 64 * n
  let pe (n : Nat) : Nat := 0x7C00 + 32 * n
  let ud (n : Nat) : Nat := 0x6400 + 64 * n
  match reason with
  | 0x01 => allBelow 16 fun n => allBelow 8 fun b =>
      let o := fld (f (0x1000 + 4 * n)) (4 * b + 3) (4 * b)
      !(decide (9 ≤ o) && decide (o ≤ 0xE))
  | 0x02 => allBelow 8 fun i => decide ((fenceAt f i).1 ≤ (fenceAt f i).2.1)
  | 0x03 => allBelow 8 fun i => decide ((fenceAt f i).2.1 < 0x500000 / 64)
  | 0x04 => !fencesOverlap f
  | 0x07 => allBelow 64 fun n => decide (fld (f (pd n)) 3 0 < 0xB)
  | 0x08 => allBelow 64 fun n => !(f32 (f (pd n + 8))).isNan && !(f32 (f (pd n + 12))).isNan
  | 0x09 => allBelow 64 (biasOk f)
  | 0x0A => bitAt (f 0x4000) 15 || allBelow 64 fun n => decide (fld (f (pd n)) 8 6 = 0)
  | 0x0B => !tableFenced f
  | 0x0C => allBelow 32 fun n => addrField f (md n) 128 && addrField f (md n + 16) 64 && addrField f (md n + 20) 16 &&
      allBelow 4 fun i => decide (fld (f (md n + 4)) 16 14 ≤ i) || addrField f (md n + 24 + 4 * i) 64
  | 0x0D => allBelow 32 fun n =>
      let w := f (md n + 4)
      decide (1 ≤ fld w 7 4) && decide (fld w 7 4 ≤ 0xA) && decide (fld w 13 8 ≤ 50) && decide (fld w 16 14 ≤ 4)
  | 0x0E => allBelow 32 fun n =>
      let w := f (md n + 4)
      !bitAt w 17 || (decide (0 < fld w 16 14) && bitAt (f (md n + 24)) 23)
  | 0x0F => allBelow 16 fun j =>
      let r := fld (f (pe j)) 7 1
      decide (r % 8 = 0) && decide (8 ≤ r) && decide (r ≤ 120)
  | 0x10 => allBelow 16 fun j =>
      let l := fld (f (pe j)) 11 8
      decide (4 ≤ l) && decide (l ≤ 10) && decide (fld (f (pe j + 12)) 15 0 ≠ 0)
  | 0x17 => allBelow 16 fun d => [0, 4, 8, 12, 16, 24, 28, 32].all fun o => addrField f (ud d + o) 64
  | 0x18 => allBelow 16 fun d =>
      let w := f (ud d + 16)
      let n := (f (ud d + 20)).toNat
      decide (fld w 26 23 < 0xB) &&
        (if bitAt w 31 then decide (n % ((fld w 30 27 + 1) * 1024) = 0)
         else !isMx (fld w 26 23) || decide (n % 128 = 0))
  | 0x19 => allBelow 16 fun d =>
      let dim := fld (f (ud d + 20)) 12 0
      let w := f (ud d + 48)
      !bitAt (f (ud d + 44)) 9 || (decide (dim % 32 = 0) && decide (32 ≤ dim) && decide (dim ≤ 4096) &&
        decide (fld w 15 0 % 128 = 0) && decide (fld w 31 16 % 128 = 0))
  | 0x1A => allBelow 16 fun n => sourceOk (fld (f (0x2080 + 4 * n)) 7 0)
  | r => allBelow 24 fun n => decide (xdescReason f n ≠ some r)

/-- The reason code of the first check that fails, in ascending order (R61). -/
def coreReason (f : Nat → Word) : Option Nat :=
  [0x01, 0x02, 0x03, 0x04, 0x07, 0x08, 0x09, 0x0A, 0x0B, 0x0C, 0x0D, 0x0E, 0x0F, 0x10, 0x11, 0x12, 0x13, 0x14, 0x15, 0x16,
    0x17, 0x18, 0x19, 0x1A].find? fun r => !coreCheckOk f r

/-- The bits of a register under an access code, at one offset. -/
def cmtOffsets (l : List RegBlk) : List (Nat × Word) :=
  l.flatMap fun b =>
    let m := b.mask .cmt
    if m = 0#32 then [] else (List.range b.count).map fun i => (b.base + b.stride * i, m)

/-- The CMT registers of a core's memory block, with their CMT bits: all but the carry words (R240, R252). -/
def coreCmt : List (Nat × Word) := (cmtOffsets coreRegs).filter fun r => !(decide (0x2040 ≤ r.1) && decide (r.1 < 0x2060))

/-- Every field of a core's memory block takes its shadow value (R61); ENABLED of each predictor entry follows ENABLE
(R155). -/
def Core.applyShadows (c : Core) : Core :=
  let c := coreCmt.foldl (fun c r =>
    c.setReg r.1 ((c.reg r.1 &&& ~~~r.2) ||| (c.shadowReg r.1 &&& r.2))) c
  (List.range 16).foldl (fun c j => c.setRf (0x7C10 + 32 * j) 0 0 (c.rf (0x7C00 + 32 * j) 0 0)) c

end Sys2Proof.Machine
end

