-- ==== Sys2Proof/Machine/Crypto.lean ====
section
/-! DEFINITION. The functions of the security block that the manual names (R411): SHA-256 and SHA-384, HKDF-SHA-384,
AES-256 in GCM and XTS mode, and ECDSA P-384 verification; the CRC-32 of a flit (R301) and the Merkle root (R384). -/

namespace Sys2Proof.Machine

/-! ## SHA-2 -/

/-- The integer cube or square root of a number, by bits from `b` down. -/
def rootGo (p n : Nat) : Nat → Nat → Nat
  | 0, r => r
  | b + 1, r => let c := r + 2 ^ b; rootGo p n b (if c ^ p ≤ n then c else r)

/-- The first `n` primes among the candidates. -/
def primesFrom : Nat → Nat → List Nat → List Nat
  | 0, _, ps => ps
  | f + 1, k, ps => primesFrom f (k + 1) (if ps.any fun p => k % p = 0 then ps else ps ++ [k])

/-- The primes up to 410: at least 80 of them. -/
def primes : List Nat := primesFrom 409 2 []

/-- The first `w` bits of the fractional part of the `p`-th root of `q`. -/
def rootFraction (w p q : Nat) : Nat := rootGo p (q * 2 ^ (p * w)) (w + 8) 0 % 2 ^ w

/-- The shift and rotate amounts of one member of SHA-2. -/
structure ShaShape where
  w : Nat
  rounds : Nat
  big0 : List Nat
  big1 : List Nat
  small0 : List Nat
  small1 : List Nat

/-- SHA-256 works on 32-bit words, SHA-384 on 64-bit ones (FIPS 180-4). -/
def sha256Shape : ShaShape := ⟨32, 64, [2, 13, 22], [6, 11, 25], [7, 18, 3], [17, 19, 10]⟩
def sha384Shape : ShaShape := ⟨64, 80, [28, 34, 39], [14, 18, 41], [1, 8, 7], [19, 61, 6]⟩

def ShaShape.rotr (h : ShaShape) (n x : Nat) : Nat := (x >>> n ||| x <<< (h.w - n)) % 2 ^ h.w

/-- The three-rotation function. -/
def ShaShape.big (h : ShaShape) (l : List Nat) (x : Nat) : Nat :=
  h.rotr (l.getD 0 0) x ^^^ h.rotr (l.getD 1 0) x ^^^ h.rotr (l.getD 2 0) x

/-- The function with two rotations and a shift. -/
def ShaShape.small (h : ShaShape) (l : List Nat) (x : Nat) : Nat :=
  h.rotr (l.getD 0 0) x ^^^ h.rotr (l.getD 1 0) x ^^^ x >>> l.getD 2 0

/-- The round constants. -/
def ShaShape.consts (h : ShaShape) : List Nat := (primes.take h.rounds).map (rootFraction h.w 3)

/-- The message schedule, newest word first. -/
def ShaShape.expand (h : ShaShape) : Nat → List Nat → List Nat
  | 0, ws => ws
  | n + 1, ws =>
    let w := (h.small h.small1 (ws.getD 1 0) + ws.getD 6 0 + h.small h.small0 (ws.getD 14 0) + ws.getD 15 0) % 2 ^ h.w
    h.expand n (w :: ws)

/-- One round on the eight working variables. -/
def ShaShape.round (h : ShaShape) (v : List Nat) (kw : Nat × Nat) : List Nat :=
  match v with
  | [a, b, c, d, e, f, g, x] =>
    let t1 := x + h.big h.big1 e + ((e &&& f) ^^^ ((2 ^ h.w - 1 - e) &&& g)) + kw.1 + kw.2
    let t2 := h.big h.big0 a + ((a &&& b) ^^^ (a &&& c) ^^^ (b &&& c))
    [(t1 + t2) % 2 ^ h.w, a, b, c, (d + t1) % 2 ^ h.w, e, f, g]
  | l => l

/-- One block. -/
def ShaShape.block (h : ShaShape) (ks : List Nat) (st : List Nat) (blk : List Byte) : List Nat :=
  let w0 := (List.range 16).map fun i => beNat (bytesAt blk (i * h.w / 8) (h.w / 8))
  let ws := (h.expand (h.rounds - 16) w0.reverse).reverse
  List.zipWith (fun a b => (a + b) % 2 ^ h.w) st ((ks.zip ws).foldl h.round st)

/-- The byte string cut into pieces of `n` bytes, `f` of them at most. -/
def chunked (n : Nat) : Nat → List Byte → List (List Byte)
  | 0, _ => []
  | f + 1, l => if l.isEmpty then [] else l.take n :: chunked n f (l.drop n)

/-- The byte string in pieces of `n` bytes, the last one shorter. -/
def pieces (n : Nat) (l : List Byte) : List (List Byte) := chunked n (l.length / n + 1) l

/-- A padded message. -/
def ShaShape.pad (h : ShaShape) (m : List Byte) : List Byte :=
  let blk := 2 * h.w
  let len := h.w / 4
  let z := (blk - (m.length + 1 + len) % blk) % blk
  m ++ [0x80#8] ++ List.replicate z 0#8 ++ beBytes len (8 * m.length)

/-- The hash of a message from an initial value, cut to `n` bytes. -/
def ShaShape.hash (h : ShaShape) (iv : List Nat) (n : Nat) (m : List Byte) : List Byte :=
  let ks := h.consts
  (((pieces (2 * h.w) (h.pad m)).foldl (h.block ks) iv).flatMap (beBytes (h.w / 8))).take n

/-- SHA-256. -/
def sha256 (m : List Byte) : List Byte :=
  sha256Shape.hash ((primes.take 8).map (rootFraction 32 2)) 32 m

/-- SHA-384. -/
def sha384 (m : List Byte) : List Byte :=
  sha384Shape.hash (((primes.drop 8).take 8).map (rootFraction 64 2)) 48 m

/-! ## HMAC and HKDF -/

/-- HMAC-SHA-384. -/
def hmac384 (key m : List Byte) : List Byte :=
  let k := if 128 < key.length then sha384 key else key
  let k := k ++ List.replicate (128 - k.length) 0#8
  sha384 (k.map (· ^^^ 0x5C#8) ++ sha384 (k.map (· ^^^ 0x36#8) ++ m))

/-- HKDF-Expand, `f` blocks at most. -/
def hkdfGo (prk info : List Byte) : Nat → Nat → List Byte → List Byte
  | 0, _, _ => []
  | f + 1, i, t =>
    let t := hmac384 prk (t ++ info ++ [BitVec.ofNat 8 i])
    t ++ hkdfGo prk info f (i + 1) t

/-- HKDF-Expand to `n` bytes. -/
def hkdfExpand (prk info : List Byte) (n : Nat) : List Byte := (hkdfGo prk info (n / 48 + 1) 1 []).take n

/-- HKDF-SHA-384 with no salt (R412). -/
def hkdf (secret info : List Byte) (n : Nat) : List Byte := hkdfExpand (hmac384 (List.replicate 48 0#8) secret) info n

/-- The bytes of an info string given as its ASCII codes. -/
def ascii (s : String) : List Byte := s.toList.map fun ch => BitVec.ofNat 8 ch.toNat

/-! ## AES-256-GCM -/

/-- Multiplication in GCM's field, on numbers whose most significant bit is the coefficient of 1. -/
def ghashMul (x y : Nat) : Nat :=
  ((List.range 128).foldl (fun (r : Nat × Nat) i =>
    let z := if x.testBit (127 - i) then r.1 ^^^ r.2 else r.1
    let v := if r.2.testBit 0 then (r.2 >>> 1) ^^^ (0xE1 <<< 120) else r.2 >>> 1
    (z, v)) (0, y)).1

/-- GHASH of whole blocks, short ones padded with zeros. -/
def ghash (h : Nat) (blocks : List (List Byte)) : Nat :=
  blocks.foldl (fun y b => ghashMul (y ^^^ beNat (bytesAt b 0 16)) h) 0

/-- GCM's key stream applied to a byte string, from counter block 2. -/
def gcmStream (key nonce data : List Byte) : List Byte :=
  ((pieces 16 data).mapIdx fun i p => xorBytes p (aesEncrypt key (nonce ++ beBytes 4 (i + 2)))).flatten

/-- GCM's tag over additional data and ciphertext. -/
def gcmTag (key nonce aad ct : List Byte) : List Byte :=
  let h := beNat (aesEncrypt key (List.replicate 16 0#8))
  let s := ghash h (pieces 16 aad ++ pieces 16 ct ++ [beBytes 8 (8 * aad.length) ++ beBytes 8 (8 * ct.length)])
  xorBytes (beBytes 16 s) (aesEncrypt key (nonce ++ beBytes 4 1))

/-- AES-256-GCM encryption: ciphertext and tag. -/
def gcmSeal (key nonce aad pt : List Byte) : List Byte × List Byte :=
  let ct := gcmStream key nonce pt
  (ct, gcmTag key nonce aad ct)

/-- AES-256-GCM decryption: the plaintext, if the tag verifies. -/
def gcmOpen (key nonce aad ct tag : List Byte) : Option (List Byte) :=
  if gcmTag key nonce aad ct = tag then some (gcmStream key nonce ct) else none

/-! ## AES-256-XTS (R419) -/

/-- Doubling of XTS's tweak. -/
def xtsDouble (t : Nat) : Nat := if t.testBit 127 then ((t * 2) % 2 ^ 128) ^^^ 0x87 else t * 2

/-- The tweak of block `j` of a data unit. -/
def xtsTweak (key2 : List Byte) (unit : Nat) : Nat → Nat
  | 0 => leNat (aesEncrypt key2 (leBytes 16 unit))
  | j + 1 => xtsDouble (xtsTweak key2 unit j)

/-- One 16-byte block of HBM under a 64-byte key pair: data units of 256 bytes, tweak the address over 256. -/
def xtsBlock (enc : Bool) (keys : List Byte) (addr : Nat) (blk : List Byte) : List Byte :=
  let t := leBytes 16 (xtsTweak (keys.drop 32) (addr / 256) (addr % 256 / 16))
  let f := if enc then aesEncrypt else aesDecrypt
  xorBytes t (f (keys.take 32) (xorBytes t blk))

/-! ## ECDSA P-384 -/

/-- The prime of P-384's field, the group's order, and the curve's constant b. -/
def p384 : Nat := 2 ^ 384 - 2 ^ 128 - 2 ^ 96 + 2 ^ 32 - 1
def n384 : Nat :=
  0xFFFFFFFFFFFFFFFFFFFFFFFFFFFFFFFFFFFFFFFFFFFFFFFFC7634D81F4372DDF581A0DB248B0A77AECEC196ACCC52973
def b384 : Nat :=
  0xB3312FA7E23EE7E4988E056BE3F82D19181D9C6EFE8141120314088F5013875AC656398D8A2ED19D2A85C8EDD3EC2AEF

/-- The base point of P-384. -/
def g384 : Nat × Nat :=
  (0xAA87CA22BE8B05378EB1C71EF320AD746E1D3B628BA79B9859F741E082542A385502F25DBF55296C3A545E3872760AB7,
   0x3617DE4A96262C6F5D9E98BF9292DC29F8F41DBD289A147CE9DA3113B5F0B8C00A60B1CE1D7E819D7A431D7C90EA0E5F)

/-- Powers modulo `m`, by the bits of the exponent from the least. -/
def powMod (m : Nat) : Nat → Nat → Nat → Nat → Nat
  | 0, _, _, r => r
  | f + 1, b, e, r => powMod m f (b * b % m) (e / 2) (if e % 2 = 1 then r * b % m else r)

/-- The inverse modulo a prime. -/
def invMod (m a : Nat) : Nat := powMod m 384 (a % m) (m - 2) 1

/-- A point in Jacobian coordinates; z = 0 is the point at infinity. -/
structure JPoint where
  x : Nat
  y : Nat
  z : Nat

/-- Twice a point. -/
def JPoint.dbl (a : JPoint) : JPoint :=
  let p := p384
  let delta := a.z * a.z % p
  let gamma := a.y * a.y % p
  let beta := a.x * gamma % p
  let alpha := 3 * ((a.x + p - delta) * (a.x + delta)) % p
  let x := (alpha * alpha + 8 * p - 8 * beta) % p
  let z := ((a.y + a.z) * (a.y + a.z) + 2 * p - gamma - delta) % p
  let y := (alpha * (4 * beta + p - x) + 8 * p * p - 8 * gamma * gamma) % p
  ⟨x, y, z⟩

/-- The sum of two points. -/
def JPoint.add (a b : JPoint) : JPoint :=
  if a.z = 0 then b
  else if b.z = 0 then a
  else
    let p := p384
    let z1 := a.z * a.z % p
    let z2 := b.z * b.z % p
    let u1 := a.x * z2 % p
    let u2 := b.x * z1 % p
    let s1 := a.y * z2 % p * b.z % p
    let s2 := b.y * z1 % p * a.z % p
    if u1 = u2 then (if s1 = s2 then a.dbl else ⟨1, 1, 0⟩)
    else
      let h := (u2 + p - u1) % p
      let r := (s2 + p - s1) % p
      let h2 := h * h % p
      let h3 := h * h2 % p
      let v := u1 * h2 % p
      let x := (r * r + 3 * p - h3 - 2 * v) % p
      let y := (r * (v + p - x) + p * p - s1 * h3) % p
      ⟨x, y, h * a.z % p * b.z % p⟩

/-- A multiple of a point, by the bits of the factor from the least. -/
def JPoint.mulGo : Nat → Nat → JPoint → JPoint → JPoint
  | 0, _, _, acc => acc
  | f + 1, k, b, acc => JPoint.mulGo f (k / 2) b.dbl (if k % 2 = 1 then acc.add b else acc)

/-- The x coordinate of a point. -/
def JPoint.affineX (a : JPoint) : Nat := let i := invMod p384 a.z; a.x * (i * i % p384) % p384

/-- A public key in uncompressed SEC1 form: a point of the curve. -/
def sec1Point (key : List Byte) : Option JPoint :=
  let x := beNat (bytesAt key 1 48)
  let y := beNat (bytesAt key 49 48)
  if key.length = 97 && key.getD 0 0#8 = 4#8 && decide (x < p384) && decide (y < p384) &&
      decide (y * y % p384 = (x * x % p384 * x + (p384 - 3) * x + b384) % p384) then some ⟨x, y, 1⟩
  else none

/-- ECDSA P-384 verification of a 96-byte signature (r, s), big-endian, over a SHA-384 digest. -/
def ecdsaOk (key digest sig : List Byte) : Bool :=
  match sec1Point key with
  | none => false
  | some q =>
    let r := beNat (bytesAt sig 0 48)
    let s := beNat (bytesAt sig 48 48)
    if sig.length = 96 && decide (0 < r) && decide (r < n384) && decide (0 < s) && decide (s < n384) then
      let w := invMod n384 s
      let e := beNat (digest.take 48)
      let a := JPoint.mulGo 384 (e * w % n384) ⟨g384.1, g384.2, 1⟩ ⟨1, 1, 0⟩
      let b := JPoint.mulGo 384 (r * w % n384) q ⟨1, 1, 0⟩
      let t := a.add b
      decide (t.z ≠ 0) && decide (t.affineX % n384 = r)
    else false

/-- A key identifier of a public key (R413). -/
def keyIdOf (key : List Byte) : Word := BitVec.ofNat 32 (natAt (sha384 key) 0 4)

/-! ## CRC-32 and Merkle trees -/

/-- One bit of the reflected CRC-32. -/
def crc32Bit (c : Nat) : Nat := if c % 2 = 1 then (c / 2) ^^^ 0xEDB88320 else c / 2

/-- CRC-32 of a flit (R301): polynomial 0x04C1_1DB7, reflected. -/
def crc32 (l : List Byte) : Nat :=
  (l.foldl (fun c b => crc32Bit (crc32Bit (crc32Bit (crc32Bit (crc32Bit (crc32Bit (crc32Bit (crc32Bit
    (c ^^^ b.toNat))))))))) 0xFFFFFFFF) ^^^ 0xFFFFFFFF

/-- A leaf of the Merkle tree (R384). -/
def merkleLeaf (chunk : List Byte) : List Byte := sha256 (0#8 :: chunk)

/-- One level of the tree: pairs hashed, an odd node carried up. -/
def merkleLevel : List (List Byte) → List (List Byte)
  | a :: b :: t => sha256 (1#8 :: (a ++ b)) :: merkleLevel t
  | l => l

/-- The root over leaves (R384). -/
def merkleGo : Nat → List (List Byte) → List Byte
  | 0, l => l.headD []
  | f + 1, l => if l.length ≤ 1 then l.headD [] else merkleGo f (merkleLevel l)

def merkleRoot (leaves : List (List Byte)) : List Byte := merkleGo (Nat.log2 (leaves.length + 1) + 2) leaves

end Sys2Proof.Machine
end

