-- ==== Sys2Proof/Machine/ChipState.lean ====
section
/-! DEFINITION. The state of the chip outside the cores: the shutter, the image in force, the link ports, the roster,
the collective engine, the services of the control cluster, the security block, the health table, the test unit, the
power manager and the management controller. A register of the global area is held in `State.gregs`, not here. -/

namespace Sys2Proof.Machine

/-! ## Shutter (R10–R36) -/

/-- The follower's tick synchronisation (R30–R34): whether a symbol has been seen since acquisition began, the ticks since the first,
runs of good, bad and missing ticks, whether this tick had its symbol, the identifier of the last echo request, and the reports it owes
upstream or has received. -/
structure Sync where
  symbols : Nat
  ticksSince : Nat
  good : Nat
  bad : Nat
  missing : Nat
  gotSymbol : Bool
  echoId : Half
  haltSeen : Bool
  haltReport : Bool
  skewReport : Bool
deriving DecidableEq, Repr

def Sync.reset : Sync :=
  { symbols := 0, ticksSince := 0, good := 0, bad := 0, missing := 0, gotSymbol := false, echoId := 0#16,
    haltSeen := false, haltReport := false, skewReport := false }

/-- Lock acquisition starts from its first symbol (R31); the reports owed stay. -/
def Sync.restart (y : Sync) : Sync :=
  { y with symbols := 0, ticksSince := 0, good := 0, bad := 0, missing := 0, gotSymbol := false }

/-- The shutter unit: the frame number, the cycles of the last and of the next tick, the fraction of a cycle carried
from frame to frame (R11), the cycle in which the guard band of the present tick's frames begins and whether it has (R12), the ticks
raised, the core frequency in half megahertz, its nanosecond time base, whether the job has started
and the ring position due next, a stop bath due at the next tick (R28), whether the master owes its members HALT,
whether the link plan check failed (R323), derate steps due at the next tick (R13), the nanosecond up to which TICK_OUT is high (R34),
and the newest frame whose records are all in the contact-sheet ring (R127). -/
structure Shutter where
  fn : BitVec 48
  lastTick : Nat
  nextTick : Nat
  fraction : Nat
  guardAt : Nat
  guarded : Bool
  ticks : Nat
  freq2 : Nat
  baseNs : Nat
  baseClock : Nat
  started : Bool
  ringPos : Nat
  stopNext : Bool
  masterHalt : Bool
  noStart : Bool
  derates : Nat
  tickOutNs : Nat
  sheetFn : Option (BitVec 48)
  sync : Sync
deriving DecidableEq, Repr

def Shutter.reset : Shutter :=
  { fn := 0#48, lastTick := 0, nextTick := 112500, fraction := 0, guardAt := 111988, guarded := false, ticks := 0
    freq2 := 225, baseNs := 0, baseClock := 0,
    started := false, ringPos := 0, stopNext := false, masterHalt := false,
    noStart := false, derates := 0, tickOutNs := 0, sheetFn := none, sync := Sync.reset }

/-! ## The image in force (R291–R295, R322, R325) -/

/-- A port entry of the link plan. -/
structure PortPlan where
  use : Nat
  width : Nat
  peer : Word
deriving DecidableEq, Repr

/-- A receive or gather window. -/
structure Window where
  base : Nat
  size : Nat
  gather : Bool
  port : Nat
  slots : Nat
  slotSize : Nat
deriving DecidableEq, Repr

/-- A collective descriptor. -/
structure Coll where
  op : Nat
  set : Nat
  bf16 : Bool
  comp : Nat
  k : Nat
  starts : Nat
  root : Nat
  src : Nat
  srcRole : Nat
  dst : Nat
  dstRole : Nat
  resid : Nat
  residRole : Nat
  nelem : Nat
  tensor : Word
  sparse : Bool
  q : Nat
  depth : Nat
  window : Nat
  bytes : Nat
  lstride : Nat
deriving DecidableEq, Repr

/-- The link plan. -/
structure LinkPlan where
  rosterMax : Nat
  ports : List PortPlan
  windows : List Window
  colls : List Coll
deriving DecidableEq, Repr

/-- What the loader keeps of the image in force: the header's fields, the derate steps in force at load, the WAITX budgets, the link plan, the worst case of
each core's schedule entries, the frame stores' staged copies by core, the signer, and the number under which the places that the manual has the compiler
choose without naming them in the image are free (Config.imageMap, log entry 24). -/
structure Image where
  tclass : Nat
  slack : Nat
  steps : Nat
  periodNs : Nat
  tokpeak : Nat
  confidential : Bool
  coreMask : Nat
  ring : Nat
  budgets : List Nat
  plan : LinkPlan
  worst : List (Nat × Nat × Nat)
  fstores : List (Nat × List Byte)
  signer : Word
  map : Nat
deriving DecidableEq, Repr

/-- A load in progress: the copy in the staging area and the mailbox command that asked for it. -/
structure LoadJob where
  bytes : List Byte
  hdr : MboxHdr
deriving DecidableEq, Repr

/-! ## Link ports (R299–R309) -/

/-- One direction's key generation: key, salt, generation and group counter. -/
structure LinkKey where
  key : List Byte
  salt : List Byte
  gen : Nat
  group : Nat
deriving DecidableEq, Repr

/-- A flit in the retry buffer: its sequence number, its bytes, and how often it has been sent. -/
structure TxFlit where
  seq : Nat
  bytes : List Byte
  sent : Nat
deriving DecidableEq, Repr

/-- A link port: what it expects next, the accepted flits not yet acknowledged, whether it discards until the expected
SEQ arrives, the open tag group, the message under assembly, whole messages not yet taken, the next SEQ to send, the
retry buffer, flits that wait for room in it, the two directions' keys, tag failures of the session, the group at
which a direction's next generation takes over, the widest width at which every lane trains (R299), the echo request under way and the
tick of the last measurement (R30, R317), how many sequenced flits have been given to the port to send, and the numbers of the
codewords it could not correct (R302). -/
structure Port where
  expected : Nat
  unacked : Nat
  nakked : Bool
  held : List (List Byte)
  assembly : List Byte
  inbox : List (List Byte)
  txNext : Nat
  retry : List TxFlit
  waiting : List (List Byte)
  tx : Option LinkKey
  rx : Option LinkKey
  tagFails : Nat
  rxSwitch : Option Nat
  txSwitch : Option Nat
  lanes : Nat
  echo : Option Half
  echoed : Option Nat
  given : Nat
  badWords : List Nat
deriving DecidableEq, Repr

def Port.reset : Port :=
  { expected := 0, unacked := 0, nakked := false, held := [], assembly := [], inbox := [], txNext := 0, retry := [],
    waiting := [], tx := none, rx := none, tagFails := 0, rxSwitch := none, txSwitch := none, lanes := 0, echo := none, echoed := none
    given := 0, badWords := [] }

/-! ## Roster (R318–R321, R359) -/

/-- A roster member entry. -/
structure Member where
  id : Word
  keyId : Word
  port : Nat
  hops : Nat
  sets : Half
deriving DecidableEq, Repr

/-- A roster epoch record. -/
structure RosterRec where
  epoch : Word
  boundary : BitVec 48
  members : List Member
deriving DecidableEq, Repr

/-- What a leader has sent to every member and waits to see staged (R359): an epoch record, a start, a freeze or a fix,
who has answered, and the mailbox command that waits for it. -/
inductive Proposal
  | epoch (r : RosterRec) | start (fn : BitVec 48) | freeze (step : BitVec 40) | fix (step : BitVec 40)
deriving DecidableEq, Repr

structure Awaiting where
  what : Proposal
  stagedBy : List Word
  hdr : Option MboxHdr
deriving DecidableEq, Repr

/-- The roster agent: the record in force, the staged one, the last boundary with the record it replaced, what this
module has proposed as leader, oldest first, the last proposal it has taken, with the member it came from, and the member that
announced the start of the job. -/
structure Roster where
  inForce : Option RosterRec
  staged : Option RosterRec
  lastSwitch : Option (Option RosterRec × BitVec 48)
  awaiting : List Awaiting
  taken : Option (Word × Proposal)
  starter : Option Word
deriving DecidableEq, Repr

def Roster.reset : Roster := ⟨none, none, none, [], none, none⟩

/-! ## Collectives (R324–R335) -/

/-- A collective from its first start record on (R326): descriptor, frame number, layer, overrides, the cores whose
start records have come, and whether it has started; from then on the members of its set in position order, this
module's position, the resolved SRC, the address of its results and RESID, the contributions and the result blocks that
have come, by position, whether this module's own sums are written, whether its ready slot has been signalled, the step that its GREQs
carried, the ports it has sent on with the place of the last flit of each message among those given to the port, and the code it fails
with. -/
structure CollRun where
  coll : Nat
  fn : BitVec 48
  layer : Word
  srcOvr : BitVec 64
  dstOvr : BitVec 64
  cores : List Nat
  started : Bool
  members : List Member
  me : Nat
  src : Nat
  dst : Nat
  residIn : Nat
  residOut : Nat
  parts : List (Nat × List Byte)
  blocks : List Nat
  summed : Bool
  signalled : Bool
  step : Word
  sends : List (Nat × Nat)
  failed : Option Half
deriving DecidableEq, Repr

/-- The collective engine: its runs in the order of their first start records or, once started, of their starts; CDATA for
runs not yet started here (the sender's identifier and the message); and the collectives started last, by descriptor,
frame number and layer, so that a replayed frame's start records are known as repeats (R326). -/
structure Collectives where
  runs : List CollRun
  early : List (List Byte)
  begun : List (Nat × BitVec 48 × Word)
deriving DecidableEq, Repr

def Collectives.reset : Collectives := ⟨[], [], []⟩

/-! ## Services of the control cluster (R345–R362) -/

/-- A record of an ingest stream as received (R350). -/
structure IngestRec where
  source : Word
  arrival : BitVec 64
  bytes : List Byte
deriving DecidableEq, Repr

/-- An ingest stream: its arguments, the records of the current shuffle block, the data cursor, the rows of the batch
under way, the slots that hold a batch, the next slot, the dropped-record count, and whether it has stopped. -/
structure Stream where
  args : IngestArgs
  block : List IngestRec
  blockNo : Nat
  cursor : Nat
  rows : List (List Byte)
  full : List Nat
  nextSlot : Nat
  dropped : Nat
  stopped : Bool
deriving DecidableEq, Repr

/-- What an NVMe command serves. -/
inductive NvmeUse
  | ingest (stream : Word) | checkpoint | manifest | publish
deriving DecidableEq, Repr

/-- An NVMe command (R353): Read or Write, Force Unit Access, its first block, the number of blocks, and the bytes a Write carries. -/
structure NvmeReq where
  write : Bool
  fua : Bool
  lba : Nat
  blocks : Nat
  bytes : List Byte
deriving DecidableEq, Repr

/-- An NVMe command in flight (R355): its queue pair and identifier, the command, what it serves, whether its request
carries a core-notify tag, how often it has failed, and the time in ns of its doorbell. -/
structure NvmeCmd where
  qp : Half
  cid : Half
  req : NvmeReq
  use : NvmeUse
  notify : Bool
  failures : Nat
  rungAt : Nat
deriving DecidableEq, Repr

/-- The checkpoint writer (R356, R385): the step to freeze at, where it writes, the mailbox command that waits, whether
the freeze has been taken, the cursor, frame number and roster epoch bound to the step, the negative's address and length,
the core state records, the leaves and stored bytes of the chunks written, the manifest once it is being written, and whether its
signature block is. -/
structure Ckpt where
  step : Nat
  target : Target
  hdr : Option MboxHdr
  frozen : Bool
  cursor : Nat
  fnFreeze : BitVec 48
  repoch : Word
  cores : List (List Byte)
  neg : Nat
  len : Nat
  leaves : List (List Byte)
  stored : Nat
  manifest : Option (List Byte)
  signed : Bool
deriving DecidableEq, Repr

/-- The serving endpoint (R360): its arguments, per stream the next response number, and the tokens in the response
ring. -/
structure Serving where
  args : ServeArgs
  seqs : List Nat
  responses : List (List Byte)
deriving DecidableEq, Repr

/-- The services: the mailbox commands in progress, those STOP commands that wait for the stop bath, mailboxes whose response is
to be discarded, the mailbox buffers, the notification queues and host rings, ingest streams, NVMe queue pairs, the tails of their submission queues, and
their commands, the checkpoint under way and the requests behind it, its interval and the second
it last ran out, a PUBLISH that waits for the next seal and whether its read will be uncorrectable, the serving
endpoint, the cursors recorded against global steps, the stream position a restore has set, the step it restored, whether
one failed, the last sealed manifest, the control processors' service buffers, and the configuration space and MSI-X table of each PCIe
function, as the bytes written there since its reset (R340, R341). -/
structure Services where
  running : List (Option MboxHdr)
  stops : List MboxHdr
  discard : List MboxHdr
  buffers : List (Nat × Byte)
  queues : List (List (List Byte))
  rings : List (Option (Nat × Nat × Nat))
  streams : List Stream
  qps : List NvmeArgs
  tails : List (Half × Nat)
  cmds : List NvmeCmd
  ckpt : Option Ckpt
  ckptNext : List (Target × Option MboxHdr)
  interval : Nat
  ckptAt : Nat
  publish : Option (MboxHdr × Target)
  serving : Option Serving
  cursors : List (Nat × Nat)
  ingestAt : Option (Word × Nat)
  restored : Option Nat
  restoreFailed : Bool
  sealed : Option (List Byte)
  cpBuf : List (Nat × Byte)
  pcie : List (List (Nat × Byte) × List (Nat × Byte))
deriving DecidableEq, Repr

def Services.reset : Services :=
  { running := List.replicate 17 none, stops := [], discard := [], buffers := [],
    queues := List.replicate 16 [], rings := List.replicate 16 none, streams := [], qps := [], tails := [], cmds := [],
    ckpt := none, ckptNext := [], interval := 3600, ckptAt := 0, publish := none, serving := none, cursors := [], ingestAt := none, restored := none,
    restoreFailed := false, sealed := none, cpBuf := [], pcie := List.replicate 2 ([], []) }

/-! ## Security (R411–R429) -/

/-- A role session (R425): handle, role (1 operator, 2 installer, 3 maker), the path that opened it, its credential's key
identifier and the second it was last used. -/
structure Session where
  handle : Word
  role : Nat
  src : Nat
  cred : Word
  used : Nat
deriving DecidableEq, Repr

/-- A nonce a challenge has returned: for which path, and when (R425). -/
structure Nonce where
  src : Nat
  bytes : List Byte
  at_ : Nat
deriving DecidableEq, Repr

/-- A job key with its identifier and the signer it requires (R418). -/
structure JobKey where
  key : List Byte
  keyId : Word
  signer : Word
deriving DecidableEq, Repr

/-- The security block and the flash log region: credentials, sessions, nonces, failed opens with their times, locked
roles, job and tenant keys, the job key that the HBM is stored under (none: a load key), member keys, signers, the audit ring's entries (oldest first), the next SEQ, which session set
the OK bit of each KEY register, and whether the log region fails writes (R428). -/
structure Security where
  maker : Option (List Byte)
  installer : Option (List Byte)
  operator : Option (List Byte)
  sessions : List Session
  nonces : List Nonce
  failures : List (Nat × Nat)
  locked : List (Nat × Nat)
  jobKey : Option JobKey
  hbmKey : Option (List Byte)
  tenants : List (Option (List Byte))
  tenantIds : List Word
  members : List (Word × List Byte)
  signers : List (Option (List Byte))
  audit : List (List Byte)
  auditNext : Nat
  keys : List (Nat × Word)
  logBad : Bool
deriving DecidableEq, Repr

def Security.reset : Security :=
  { maker := none, installer := none, operator := none, sessions := [], nonces := [], failures := [], locked := [],
    jobKey := none, hbmKey := none, tenants := List.replicate 16 none, tenantIds := List.replicate 16 0#32, members := [],
    signers := List.replicate 16 none, audit := [], auditNext := 0,
    keys := [], logBad := false }

/-! ## Health table and test unit (R394–R409, R432–R434) -/

/-- An entry of the unit health table (R433). -/
structure Health where
  state : Nat
  flags : Nat
  code : Half
  gen : Word
  since : Nat
  events : Nat
deriving DecidableEq, Repr

/-- A two-slot record in flash (R389): the bytes of slots A and B. -/
structure TwoSlot where
  a : List Byte
  b : List Byte
deriving DecidableEq, Repr

/-- A requested test (R404): the unit, its mode, which test, whether it has started, the unit's state before, and the segments (unit,
index) that its slices have tested. -/
structure TestReq where
  unit : Nat
  full : Bool
  test : Nat
  running : Bool
  was : Nat
  done : List (Nat × Nat)
deriving DecidableEq, Repr

/-- A request that waits for a slice's end (R400, R401): an access of a register (a read, or the word to write), a transfer of the host
DMA engine, or a refetch that falls due. -/
inductive Held
  | access (a : Nat) (w : Option Word) | move (m : HostMove) | refetch (line : Nat) (hbmBad : Bool)
deriving DecidableEq, Repr

/-- A slice in progress (R399): the core, its segment, its tokens, what it found, and the requests held meanwhile. -/
structure Slice where
  core : CoreId
  seg : Segment
  result : SliceResult
  held : List Held
deriving DecidableEq, Repr

/-- The health and test unit: segments of the rotation already tested (core, unit, index), slices in progress, the cycle from which a
core's next slice may start, the
requested test, the times of the last passing test and of the last rotation, the canaries' margins, the UTC second of
their measurement, the flash records, the powered hours before this start, lines the remap record has yet to take
(core, memory, line), the start count, the tick of the last leak of each chip-level bucket, and the event log with its
part in flash. -/
structure Htu where
  tested : List (Nat × Nat × Nat)
  slices : List Slice
  sliceFrom : List (Nat × Nat)
  request : Option TestReq
  passedAt : Nat
  rotatedAt : Nat
  canaries : List Int
  measuredUtc : Nat
  hours : Nat
  shutdownRec : TwoSlot
  ageingRec : TwoSlot
  remapRec : TwoSlot
  remapDue : List (Nat × Nat × Nat)
  ageingDue : Bool
  boots : Nat
  leaks : List Nat
  events : List (Half × BitVec 48)
  flushed : List (Half × BitVec 48)
deriving DecidableEq, Repr

def Htu.reset : Htu :=
  { tested := [], slices := [], sliceFrom := [], request := none, passedAt := 0, rotatedAt := 0, canaries := List.replicate 1280 0,
    measuredUtc := 0, hours := 0, shutdownRec := ⟨[], []⟩, ageingRec := ⟨[], []⟩, remapRec := ⟨[], []⟩, remapDue := [], ageingDue := false,
    boots := 0, leaks := List.replicate 26 0, events := [], flushed := [] }

/-! ## Power, pins and management (R415, R430, R437–R458) -/

/-- Where the module stands in its power sequences (R448–R450): off with an input that may start it, held in reset,
starting, ready, or in shutdown stage 1 to 4. -/
inductive PowerPhase
  | off | held | starting | ready | shutdown (stage : Nat) | standby
deriving DecidableEq, Repr

/-- The power manager and the pins: phase, whether this start is a cold start, overvoltage latch, low-input force, steps forced by heat, a class change due,
whether the reference clock is missing, PWRGOOD, what keeps ALERT_N asserted (R431: 0 a health change, 1 a stop bath, 2 a sensor
beyond its limit), PERST_N low, the PCIe endpoint training, the die and inlet temperatures last reported, and whether
shutdown stage 2 passed, and the training cache in flash, once a shutdown has written it (R448, R449). -/
structure Power where
  phase : PowerPhase
  cold : Bool
  latched : Bool
  lowInput : Bool
  heatSteps : Nat
  pending : Option Nat
  refLost : Bool
  pwrgood : Bool
  alerts : List Nat
  perst : Bool
  pcieTraining : Bool
  dieTemp : List Nat
  inletTemp : Nat
  sdtDone : Bool
  trainCache : Option Nat
deriving DecidableEq, Repr

def Power.reset : Power :=
  { phase := .starting, cold := true, latched := false, lowInput := false, heatSteps := 0, pending := none,
    refLost := false, pwrgood := true, alerts := [], perst := false, pcieTraining := false,
    dieTemp := List.replicate 48 0, inletTemp := 0, sdtDone := false, trainCache := none }

/-- A firmware slot: its bundle, and its security version number. -/
structure FwSlot where
  image : List Byte
  version : Nat
deriving DecidableEq, Repr

/-- Safelight and Loupe: the I3C dynamic address, the UTC time set and the second it was set at, the firmware slots, the
running slot, the slot marked next, the anti-rollback counter, the SPDM transcript, and Loupe's session and rate. -/
structure Mgmt where
  i3c : Option (BitVec 7)
  utc : Option (Nat × Nat)
  slots : List FwSlot
  running : Nat
  next : Option Nat
  rollback : Nat
  spdm : List Byte
  loupe : Option Word
  baud : Nat
deriving DecidableEq, Repr

def Mgmt.reset : Mgmt :=
  { i3c := none, utc := none, slots := [⟨[], 0⟩, ⟨[], 0⟩], running := 0, next := none, rollback := 0, spdm := [],
    loupe := none, baud := 115200 }

/-- Something the module sends out: a flit on a port, an MSI-X vector of a function, an answer on a path (SOURCE code of
R427) with its status and bytes, a write to host memory, an NVMe command, a peer-to-peer write of an NVMe doorbell, the answer to a
read, or a poisoned completion. -/
inductive Output
  | flit (port : Nat) (bytes : List Byte)
  | vector (pf n : Nat)
  | reply (src : Nat) (code : Half) (bytes : List Byte)
  | hostWrite (addr : Nat) (bytes : List Byte)
  | nvme (qp cid : Half) (req : NvmeReq)
  | doorbell (qp : Half) (tail : Nat)
  | read (bytes : List Byte)
  | poisoned
  | resetPcie
deriving DecidableEq, Repr

/-- A contact-sheet record on its way to the ring (R126): the core, its frame number and its 128 bytes. -/
structure SheetOut where
  core : Nat
  fn : BitVec 48
  bytes : List Byte
deriving DecidableEq, Repr

end Sys2Proof.Machine
end

