-- ==== Sys2Proof/Machine/State.lean ====
section
/-! DEFINITION. The state of the XD-7260: the queue of waiting commands, the core clock, the 144 logical cores, the
registers of the global area, the HBM, and the units of the chip; the state after reset; why a run can stop. -/

namespace Sys2Proof.Machine

/-- Why a run stops with a fault. -/
inductive Fault
  /-- A write of ones into a reserved field: R7 leaves the device's behaviour undefined. Raised by REGISTER_WRITE and by
  POKE. Safe: the machine stops where the manual says nothing. -/
  | reservedFieldWrite (addr : Nat)
deriving DecidableEq, Repr

/-- Why a command has no meaning. -/
inductive Refusal
  /-- The command is not modelled; raised by its arm in Dispatch.lean alone. Safe. -/
  | notModelled (mnemonic : String)
deriving DecidableEq, Repr

/-- The state of the module. `pending` is the queue of commands, `freeCtr` counts the free values taken (log entry 2),
`clock` is the core clock in cycles since the release of reset, `gregs` and `gshadow` hold the values in force and the
shadows of the global registers, `sent` what has left the module, newest last. -/
structure State where
  pending : List Instr
  freeCtr : Nat
  clock : Nat
  cores : Vector Core 144
  gregs : List (Nat × Word)
  gshadow : List (Nat × Word)
  hbm : List (Nat × Byte)
  shutter : Shutter
  image : Option Image
  loading : Option LoadJob
  ports : List Port
  roster : Roster
  coll : Collectives
  svc : Services
  sec : Security
  health : List Health
  htu : Htu
  power : Power
  mgmt : Mgmt
  sheets : List SheetOut
  sent : List Output
deriving DecidableEq, Repr

/-- A core after reset: CORE_ID shows its logical number and its place on the die, with the spare column 12 in every
row (R39, log entry 4). -/
def Core.atReset (n : Nat) : Core := Core.reset.setReg 0 (BitVec.ofNat 32 (n + n % 12 * 256 + n / 12 * 4096))

/-- An entry of the health table before the first start (R433, log entry 5). -/
def Health.reset (u : Nat) : Health :=
  if u < 192 then ⟨if u % 13 = 12 && decide (u < 156) then 5 else 0, 0, 0#16, 0#32, 0, 0⟩ else ⟨0xFF, 0, 0#16, 0#32, 0, 0⟩

/-- The machine right after reset. -/
def State.reset : State :=
  { pending := [], freeCtr := 0, clock := 0, cores := Vector.ofFn fun n => Core.atReset n.val, gregs := [],
    gshadow := [], hbm := [], shutter := Shutter.reset, image := none, loading := none,
    ports := List.replicate 16 Port.reset, roster := Roster.reset, coll := Collectives.reset, svc := Services.reset,
    sec := Security.reset, health := (List.range 256).map Health.reset, htu := Htu.reset, power := Power.reset,
    mgmt := Mgmt.reset, sheets := [], sent := [] }

end Sys2Proof.Machine
end

