-- ==== Sys2Proof/Machine/Chip.lean ====
section
/-! DEFINITION. The named operations over the whole chip: global registers, time, the cores as the chip sees them, the
HBM, event counters, vectors, stop baths, the unit health table, sessions, the audit log and mailbox completion. -/

namespace Sys2Proof.Machine

/-! ## Registers of the global area -/

/-- The value in force of a register of the global area. -/
def State.greg (s : State) (a : Nat) : Word := Sparse.get globReset s.gregs a

/-- The state with a global register written. -/
def State.setGreg (s : State) (a : Nat) (w : Word) : State := { s with gregs := Sparse.set globReset s.gregs a w }

/-- The shadow of a CMT register of the global area (R6). -/
def State.gshadowReg (s : State) (a : Nat) : Word := Sparse.get globReset s.gshadow a

/-- The state with a global shadow written. -/
def State.setGshadow (s : State) (a : Nat) (w : Word) : State :=
  { s with gshadow := Sparse.set globReset s.gshadow a w }

/-- Field [hi:lo] of a global register. -/
def State.gf (s : State) (a hi lo : Nat) : Nat := fld (s.greg a) hi lo

/-- The state with field [hi:lo] of a global register written. -/
def State.setGf (s : State) (a hi lo v : Nat) : State := s.setGreg a (setFld (s.greg a) hi lo v)

/-- The state with `n` added to a saturating counter of the global area. -/
def State.bumpG (s : State) (a n : Nat) : State := s.setGreg a (satAdd32 (s.greg a) n)

/-- Whether a bit of a global register is set. -/
def State.gbit (s : State) (a i : Nat) : Bool := bitAt (s.greg a) i

/-! ## Time -/

/-- The shutter's time base in nanoseconds at a cycle (R11). -/
def State.nsAt (s : State) (t : Nat) : Nat := s.shutter.baseNs + (t - s.shutter.baseClock) * 2000 / s.shutter.freq2

/-- The shutter's time base in nanoseconds (R11). -/
def State.nowNs (s : State) : Nat := s.nsAt s.clock

/-- The time base in seconds. -/
def State.nowSec (s : State) : Nat := s.nowNs / 1000000000

/-- The state no earlier than a cycle: an event due later than now comes with the clock at its cycle (log entry 1). -/
def State.atCycle (s : State) (t : Nat) : State := if s.clock < t then { s with clock := t } else s

/-- The state with a free value taken (log entry 2). -/
def State.tick1 (s : State) : State := { s with freeCtr := s.freeCtr + 1 }

/-- The UTC second, if a time has been set (R431). -/
def State.utc (s : State) : Nat :=
  match s.mgmt.utc with
  | none => 0
  | some (u, at_) => u + (s.nowSec - at_)

/-! ## Outputs -/

/-- Something leaves the module. -/
def State.emit (s : State) (o : Output) : State := { s with sent := s.sent ++ [o] }

/-- MSI-X vector `n` of PF0 (R344). -/
def State.vector (s : State) (n : Nat) : State := s.emit (.vector 0 n)

/-- A status code that the manual does not name: of one of the classes, with a low byte from 0x01 on (R8, log entry 53). -/
def freeCode (ctr : Nat) (what : String) : Half :=
  let n := Config.freeNat ctr what
  BitVec.ofNat 16 (256 * (1 + n % 7) + 1 + n / 7 % 255)

/-- A code for the event log of the test unit (R388). -/
def State.logEvent (s : State) (code : Half) : State :=
  { s with htu := { s.htu with events := s.htu.events ++ [(code, s.shutter.fn)] } }

/-! ## The image in force -/

/-- LD_STATUS.LOADED. -/
def State.loaded (s : State) : Bool := s.gbit 0x50000 1

/-- SHT_CTL.RUN in force. -/
def State.running (s : State) : Bool := s.gbit 0x40004 0

/-- SHT_STATUS.HALTED. -/
def State.halted (s : State) : Bool := s.gbit 0x40020 3

/-- CPM_STATUS.READY. -/
def State.ready (s : State) : Bool := s.gbit 0x3000C 5

/-- The loaded image is confidential. -/
def State.confidential (s : State) : Bool :=
  match s.image with
  | some i => i.confidential
  | none => false

/-- The contract figures in force are those of TC1 (R276); without an image no contract is in force. -/
def State.tc1 (s : State) : Bool :=
  match s.image with
  | some i => decide (i.tclass = 1)
  | none => true

/-! ## Health table (R432–R434) -/

/-- An entry of the health table. -/
def State.unitHealth (s : State) (u : Nat) : Health := s.health.getD u ⟨0xFF, 0, 0#16, 0#32, 0, 0⟩

/-- A cause keeps ALERT_N asserted until Safelight has read it (R431). -/
def State.alertFor (s : State) (n : Nat) : State :=
  if s.power.alerts.contains n then s else { s with power := { s.power with alerts := s.power.alerts ++ [n] } }

/-- A change to an entry: state, flags and code written, GEN advanced, both functions told and ALERT_N asserted. -/
def State.setHealth (s : State) (u st fl : Nat) (code : Half) : State :=
  let h := s.unitHealth u
  let h := { h with
    state := st, flags := fl, code := code, gen := h.gen + 1#32, since := s.nowSec
    events := if h.events = 2 ^ 32 - 1 then h.events else h.events + 1 }
  let s := State.alertFor { s with health := setAt s.health u h } 0
  (s.vector 34).emit (.vector 1 1)

/-- An event against a unit: an OK unit becomes DEGRADED on a bucket overflow, and a remap-full one is flagged
(R376, R381). -/
def State.noteUnit (s : State) (u : Nat) (code : Half) : State :=
  let h := s.unitHealth u
  let st := if h.state = 0 && decide (code = 0x040B#16) then 1 else h.state
  let fl := if code = 0x0405#16 then h.flags ||| 2 else h.flags
  s.setHealth u st fl code

/-- A failed unit (R397, R402). -/
def State.failUnit (s : State) (u : Nat) (code : Half) : State := s.setHealth u 4 (s.unitHealth u).flags code

/-! ## Cores -/

/-- A logical core. -/
def State.core (s : State) (c : CoreId) : Core := s.cores.get c

/-- The state with a core replaced. -/
def State.setCore (s : State) (c : CoreId) (x : Core) : State := { s with cores := s.cores.set c.val x c.isLt }

/-- The physical core that carries a logical one: its index k in the health table (R39, R40, R433). -/
def State.physical (s : State) (c : CoreId) : Nat :=
  let w := (s.core c).reg 0
  13 * fld w 15 12 + fld w 11 8

/-- A logical core is available: its physical core is not fenced, failed or in test (R40, R432). -/
def State.available (s : State) (c : CoreId) : Bool :=
  let h := s.unitHealth (s.physical c)
  decide (h.state ≠ 2) && decide (h.state ≠ 3) && decide (h.state ≠ 4)

/-- The bytes that a descriptor in flight will write into the memory of core `c`. -/
def DmaOp.landingIn (o : DmaOp) (own c : CoreId) : List (Nat × List Byte) :=
  if o.supp || decide (o.code ≠ 0#16) then []
  else o.rows.filterMap fun r => match r.dst with
    | .here a => if own = c then some (a, r.bytes) else none
    | .peer p a => if p = c then some (a, r.bytes) else none
    | _ => none

/-- The bytes that descriptors in flight will write into a core. -/
def State.landingIn (s : State) (c : CoreId) : List (Nat × List Byte) :=
  (List.finRange 144).flatMap fun o => ((s.core o).dma.flatMap (·.inflight)).flatMap (·.landingIn o c)

/-- A core's ring holds a spare entry, which closes a shift window (R19). -/
def Core.hasSpare (c : Core) : Bool := c.sched.any fun e => e.kind = 5

/-- A shift window is open (R19): some core whose ring can close it runs behind the ring (log entry 19). -/
def State.shiftOpen (s : State) : Bool := s.cores.any fun c => c.hasSpare && decide (0 < c.behind)

/-- The number of the image's load (R295). -/
def State.loadNumber (s : State) : Nat :=
  match s.image with
  | some i => i.map
  | none => 0

/-- What an operation on core `c` sees of the chip. -/
def State.ctx (s : State) (c : CoreId) : Ctx :=
  { clock := s.clock, ctr := s.freeCtr, own := c.val, map := s.loadNumber, tc1 := s.tc1, shift := s.shiftOpen, second := s.nowSec
    budgets := match s.image with
      | some i => i.budgets
      | none => []
    landing := s.landingIn c }

/-- A report of a core's integrity logic (address, code): a lasting or remap-full line is due in the remap record, and
the unit's entry of the health table changes but for a lasting line (R376, R379, R381). -/
def State.takeReport (c : CoreId) (s : State) (r : Nat × Half) : State :=
  let due (s : State) : State :=
    { s with htu := { s.htu with remapDue := s.htu.remapDue ++ [(s.physical c, memCode r.1, r.1)] } }
  if r.2 = 0x040C#16 then due (s.logEvent r.2)
  else if r.2 = 0x0405#16 then (due s).noteUnit (s.physical c) r.2
  else s.noteUnit (s.physical c) r.2

/-- What the integrity logic of a core has reported is taken. -/
def State.drainReports (s : State) (c : CoreId) : State :=
  let x := s.core c
  x.integ.reports.foldl (State.takeReport c) (s.setCore c { x with integ := { x.integ with reports := [] } })

/-- An operation on one core, with a free value for it. -/
def State.onCore (s : State) (c : CoreId) (f : Ctx → Core → Core) : State :=
  let s := s.tick1
  let x := f (s.ctx c) (s.core c)
  let s := s.setCore c x
  if x.integ.reports.isEmpty then s else s.drainReports c

/-- The same at a cycle of its own. -/
def State.onCoreAt (s : State) (c : CoreId) (t : Nat) (f : Ctx → Core → Core) : State :=
  let s := (s.atCycle t).tick1
  let x := f { s.ctx c with clock := t } (s.core c)
  let s := s.setCore c x
  if x.integ.reports.isEmpty then s else s.drainReports c

/-- Every core changed alike. -/
def State.mapCores (s : State) (f : CoreId → Core → Core) : State :=
  { s with cores := Vector.ofFn fun i => f i (s.cores.get i) }

/-- `n` events of a source reach every core's counters that are bound to it (R238). -/
def Core.addEvents (src n : Nat) (c : Core) : Core :=
  (List.range 16).foldl (fun c i =>
    if src ≠ 0 && c.rf (0x2080 + 4 * i) 7 0 = src then c.bump (0x20C0 + 4 * i) n else c) c

/-- An event of a source (R238). -/
def State.event (s : State) (src : Nat) : State := s.mapCores fun _ c => c.addEvents src 1

/-! ## Stop bath (R28) -/

/-- A stop bath follows at the next tick. -/
def State.stopBath (s : State) : State := { s with shutter := { s.shutter with stopNext := true } }

/-- Shutdown stage 1 has no work left (R388, R449): the module has halted and no checkpoint is under way. Stage 2 follows, or
stage 3 where HTU_CTL.SKIP_SDT omits the test and coverage has not expired. -/
def State.shutdownOn (s : State) : State :=
  match s.power.phase with
  | .shutdown 1 =>
    if (s.halted || !s.running) && s.svc.ckpt.isNone then
      { s with power := { s.power with
        phase := .shutdown (if s.gbit 0x20018 1 && !s.gbit 0x20000 2 then 3 else 2) } }
    else s
  | _ => s

/-- A shutter event's code (SHT_STATUS.LAST_CODE). -/
def State.raiseSht (s : State) (code : Half) : State := s.setGf 0x40020 31 16 code.toNat

/-- The latest code of the test unit (HTU_STATUS.LAST_CODE). -/
def State.raiseHtu (s : State) (code : Half) : State := (s.setGf 0x20000 31 16 code.toNat).logEvent code

/-! ## Tokens (R285, R288) -/

/-- The tokens a core's engine instructions hold in this cycle (R285). -/
def Core.tokensHeld (clock : Nat) (c : Core) : Nat :=
  c.inflight.foldl (fun a o => if o.issue ≤ clock && clock < o.tokenEnd + o.stalls then a + o.tokens else a) 0

/-- The tokens a slice of the in-service test holds (R399), by its tail unit code. -/
def sliceTokens (unit : Nat) : Nat := if unit = 1 then 4 else if unit = 15 then 6 else 1

/-- The tokens held on the chip in a cycle: the engines', those of slices in progress, and one for each port that the link plan
enables (R285, R399). -/
def State.tokensHeld (s : State) (t : Nat) : Nat :=
  s.cores.foldl (fun a c => a + c.tokensHeld t) 0 +
    s.htu.slices.foldl (fun a x => a + sliceTokens x.seg.unit.toNat) 0 +
    match s.image with
    | some i => (i.plan.ports.filter fun p => p.use ≠ 0).length
    | none => 0

/-- The token meter in a cycle (R288): above the pool in force, the first event since load is recorded and a stop bath follows. -/
def State.meter (s : State) (t : Nat) : State :=
  if s.loaded && decide (s.gf 0x3000C 25 16 < s.tokensHeld t) then
    let s := s.stopBath
    if s.gbit 0x50024 31 then s
    else (s.setGreg 0x50024 (BitVec.ofNat 32 (2 ^ 31 + (t - s.shutter.lastTick) % 2 ^ 30))).setGreg 0x50028
      (s.shutter.fn.setWidth 32)
  else s

/-! ## HBM (R4, R343, R362, R419) -/

/-- Bytes of HBM that do not exist above 384 GiB (R4). -/
def hbmSize : Nat := 384 * 2 ^ 30

/-- A range of bytes lies in HBM. -/
def inHbm (a n : Nat) : Bool := decide (a + n ≤ hbmSize)

/-- The bytes that descriptors in flight will write into HBM. -/
def State.landingHbm (s : State) (a n : Nat) : List (Nat × List Byte) :=
  (List.finRange 144).flatMap fun o => ((s.core o).dma.flatMap (·.inflight)).flatMap fun d =>
    if d.supp || decide (d.code ≠ 0#16) then []
    else d.rows.filterMap fun r => match r.dst with
      | .hbm b => if b < a + n && a < b + r.bytes.length then some (b, r.bytes) else none
      | _ => none

/-- `n` bytes of HBM as the device sees them; above the HBM, zeros. A byte that a descriptor in flight will write reads as
its old or its new value (R246, R278). -/
def State.hbmRead (s : State) (a n : Nat) : List Byte :=
  match s.landingHbm a n with
  | [] => Memory.read s.hbm a n
  | l => (List.range n).map fun i => byteUnder s.freeCtr s.hbm [] l (a + i)

/-- The state with bytes of HBM written. -/
def State.hbmWrite (s : State) (a : Nat) (bs : List Byte) : State := { s with hbm := Memory.write s.hbm a bs }

/-- Base, entry size and committed length of KV region `r` (R360); entry size 0 is a closed region. -/
def State.kvRegion (s : State) (r : Nat) : Nat × Nat × Nat × Nat :=
  let a := 0xA0000 + 32 * r
  ((s.greg a).toNat / 64 * 64 + s.gf (a + 24) 6 0 * 2 ^ 32, s.gf (a + 4) 15 0 * 64, (s.greg (a + 8)).toNat,
    (s.greg (a + 12)).toNat)

/-- Whether a schedule entry is in a region's VMASK. -/
def State.kvMask (s : State) (r e : Nat) : Bool :=
  if e < 32 then s.gbit (0xA0010 + 32 * r) e else s.gbit (0xA0014 + 32 * r) (e - 32)

/-- The regions that bound a byte range, for a reader in schedule entry `e` or outside any frame. -/
def State.kvBounds (s : State) (e : Option Nat) (a n : Nat) : List (Nat × Nat) :=
  (List.range 256).filterMap fun r =>
    let (base, es, cap, clen) := s.kvRegion r
    if es = 0 || (match e with
        | some e => s.kvMask r e
        | none => false) then none
    else
      let lo := base + clen * es
      let hi := base + cap * es
      if lo < a + n && a < hi then some (lo, hi) else none

/-- A bounded read of HBM (R362): +0 bytes at or beyond each region's committed length, with whether it was clipped. -/
def State.hbmBounded (s : State) (e : Option Nat) (a n : Nat) : List Byte × Bool :=
  match s.kvBounds e a n with
  | [] => (s.hbmRead a n, false)
  | bs => ((s.hbmRead a n).mapIdx fun i b =>
      if bs.any fun r => decide (r.1 ≤ a + i) && decide (a + i < r.2) then 0#8 else b, true)

/-- A bounded read by a service, counted if clipped. -/
def State.serviceRead (s : State) (a n : Nat) : List Byte × State :=
  let (bs, clipped) := s.hbmBounded none a n
  (bs, if clipped then s.bumpG 0x7020C 1 else s)

/-- The clear ranges that BAR2 segments map (R343). -/
def State.inClear (s : State) (a : Nat) : Bool :=
  (List.range 16).any fun n =>
    let w := s.greg (0x70100 + 4 * n)
    bitAt w 31 && bitAt w 30 && decide (fld w 6 0 ≤ 95) && decide (fld w 6 0 * 2 ^ 32 ≤ a) &&
      decide (a < (fld w 6 0 + 1) * 2 ^ 32)

/-- Every byte of a range lies in a clear range; ranges are checked at both ends and at each 4 GiB step between. -/
def State.clearRange (s : State) (a n : Nat) : Bool :=
  s.inClear a && s.inClear (a + n - 1) &&
    (List.range (n / 2 ^ 32)).all fun i => s.inClear (a + i * 2 ^ 32)

/-- Some byte of a range lies in a clear range. -/
def State.touchesClear (s : State) (a n : Nat) : Bool :=
  n ≠ 0 && (s.inClear a || s.inClear (a + n - 1) || (List.range (n / 2 ^ 32)).any fun i => s.inClear (a + i * 2 ^ 32))

/-- The HBM load key is renewed (R412): what the HBM held outside the clear ranges is undefined from now on. -/
def State.rekeyHbm (s : State) : State :=
  let s := s.tick1
  { s with hbm := s.hbm.foldl (fun m c =>
      if s.inClear c.1 then m else Memory.setByte m c.1 (Config.freeByte s.freeCtr c.1)) s.hbm }

/-! ## Sessions (R424–R426) -/

/-- The session with a handle, unless it has not been used for 3,600 s (R425). -/
def State.session (s : State) (h : Word) : Option Session :=
  if h = 0#32 then none else s.sec.sessions.find? fun x => x.handle = h && decide (s.nowSec < x.used + 3600)

/-- A handle names a session of a role. -/
def State.holds (s : State) (h : Word) (role : Nat) : Bool :=
  match s.session h with
  | some x => decide (x.role = role)
  | none => false

/-- SEC_STATUS shows the open sessions and the keys held. -/
def State.showSec (s : State) : State :=
  let s := s.setGf 0x10000 21 17 s.sec.sessions.length
  let s := s.setGf 0x10000 0 0 (bit s.sec.jobKey.isSome)
  let s := s.setGf 0x10000 16 1
    ((List.range 16).foldl (fun a i => if (s.sec.tenants.getD i none).isSome then a + 2 ^ i else a) 0)
  s.setGreg 0x10004 (match s.sec.jobKey with
    | some k => k.keyId
    | none => 0#32)

/-- A session has been used. -/
def State.useSession (s : State) (h : Word) : State :=
  { s with sec := { s.sec with sessions := s.sec.sessions.map fun x =>
      if x.handle = h then { x with used := s.nowSec } else x } }

/-- Sessions end: the OK bits of SHT_KEY and LNK_KEY that they set are cleared (R35, R337), and Loupe's session with
them. -/
def State.endSessions (s : State) (p : Session → Bool) : State :=
  let gone := s.sec.sessions.filter p
  let dead := gone.map (·.handle)
  let s := { s with
    sec := { s.sec with sessions := s.sec.sessions.filter fun x => !p x }
    mgmt := { s.mgmt with loupe := match s.mgmt.loupe with
      | some h => if dead.contains h then none else some h
      | none => none } }
  let s := (s.sec.keys.filter fun k => dead.contains k.2 && (k.1 = 0x40044 || k.1 = 0x60008)).foldl
    (fun s k => s.setGreg k.1 0#32) s
  s.showSec

/-- A write to a KEY register: a session handle of the role sets OK, any other value clears it (R35). -/
def State.writeKey (s : State) (off role : Nat) (v : Word) : State :=
  let ok := s.holds v role
  let s := if ok then s.useSession v else s
  let keys := (s.sec.keys.filter fun (k : Nat × Word) => decide (k.1 ≠ off)) ++ (if ok then [(off, v)] else [])
  State.setGreg { s with sec := { s.sec with keys := keys } } off (if ok then 1#32 else 0#32)

/-! ## Audit log (R427, R428) -/

/-- What an audit entry says beyond its SEQ, time and chain. -/
structure AuditNote where
  role : Nat
  src : Nat
  action : Nat
  result : Half
  unit : Word
  session : Word
  cred : Word
  arg : List Byte

/-- One audit entry of 128 bytes. -/
def auditEntry (seq utc : Nat) (fn : BitVec 48) (prev : List Byte) (n : AuditNote) : List Byte :=
  leBytes 8 seq ++ leBytes 8 utc ++ leBytes 6 fn.toNat ++ leBytes 1 n.role ++ leBytes 1 n.src ++ leBytes 2 n.action ++
    leBytes 2 n.result.toNat ++ leBytes 4 n.unit.toNat ++ leBytes 4 n.session.toNat ++ leBytes 4 n.cred.toNat ++
    bytesAt n.arg 0 24 ++ prev ++ List.replicate 32 0#8

/-- The SHA-256 of the newest entry; zeros before the first. -/
def Security.auditHead (x : Security) : List Byte :=
  match x.audit.getLast? with
  | some e => sha256 e
  | none => List.replicate 32 0#8

/-- The flash log region fails a write (R428): the failure is recorded, and no privileged action succeeds from now on. -/
def State.logFault (s : State) : State := State.setGf { s with sec := { s.sec with logBad := true } } 0x10000 23 23 1

/-- An entry is appended; the ring keeps the newest 8,192. -/
def State.append (s : State) (n : AuditNote) : State :=
  let e := auditEntry s.sec.auditNext s.utc s.shutter.fn s.sec.auditHead n
  let l := s.sec.audit ++ [e]
  let s := { s with sec := { s.sec with
    audit := if 8192 < l.length then l.drop 1 else l, auditNext := s.sec.auditNext + 1 } }
  (s.setGreg 0x10010 (BitVec.ofNat 32 (s.sec.auditNext - 1))).setGreg 0x10014
    (BitVec.ofNat 32 ((s.sec.auditNext - 1) / 2 ^ 32))

/-- An entry is appended to the log, unless its region has failed (R427, R428). -/
def State.audit (s : State) (n : AuditNote) : State := if s.sec.logBad then s.logFault else s.append n

/-- The audit note of a mailbox command. -/
def State.noteOf (s : State) (h : MboxHdr) (op : Nat) (code : Half) : AuditNote :=
  { role := match s.session h.session with
      | some x => x.role
      | none => 0
    src := h.src.toNat, action := op, result := code, unit := h.unit, session := h.session
    cred := match s.session h.session with
      | some x => x.cred
      | none => 0#32
    arg := h.arg }

/-! ## Mailboxes (R345, R346) -/

/-- The number of a mailbox: 0 to 15 on PF0, 16 the management mailbox of PF1; the other paths have none. -/
def mboxBox (h : MboxHdr) : Option Nat := if h.src.toNat ≤ 16 then some h.src.toNat else none

/-- Where a mailbox's STATUS register is held; the management mailbox's lies beyond BAR0. -/
def mboxStatus (n : Nat) : Nat := if n < 16 then 0x81004 + n * 0x2000 else 0x10001004

/-- A command completes: RESULT and length in the buffer, the response after the header, STATUS, DSEQ and the vector; on
another path an answer is sent. A response to a mailbox that an FLR reset is discarded (R341). -/
def State.complete (s : State) (h : MboxHdr) (code : Half) (resp : List Byte) : State :=
  match mboxBox h with
  | none => s.emit (.reply h.src.toNat code resp)
  | some n =>
    let gone := s.svc.discard.contains h
    let s := { s with svc := { s.svc with
      running := if gone then s.svc.running else setAt s.svc.running n none, discard := s.svc.discard.erase h } }
    if gone then s
    else
      let b := s.svc.buffers
      let b := Memory.write b (n * 0x2000) (leBytes 2 code.toNat)
      let b := Memory.write b (n * 0x2000 + 0xC) (leBytes 4 (resp.take 4032).length)
      let b := Memory.write b (n * 0x2000 + 0x40) (resp.take 4032)
      let s := { s with svc := { s.svc with buffers := b } }
      let w := s.greg (mboxStatus n)
      let s := s.setGreg (mboxStatus n) (setFld (setFld (setFld w 31 16 code.toNat) 1 1 1) 0 0 0)
      let s := s.setGreg (mboxStatus n + 4) h.seq
      if h.notify then (if n < 16 then s.vector (2 + n) else s.emit (.vector 1 0)) else s

/-- What the checks every command passes decide: refused with a code, or to run; a UNIT other than 0xFFFF_FFFF is named, and GEN must
be its generation (R346, R434, R448). -/
def State.mboxCheck (s : State) (h : MboxHdr) (role : Nat) (names free : Bool) : Option Half :=
  if !s.ready && decide (h.src.toNat < 16) && !free then some 0x0606#16
  else if h.malformed || decide (4032 < h.plen.toNat) then some 0x0605#16
  else if role ≠ 0 && !s.holds h.session role then some 0x0601#16
  else if (names || decide (h.unit ≠ 0xFFFFFFFF#32)) && (decide (256 ≤ h.unit.toNat) || (s.unitHealth h.unit.toNat).gen ≠ h.gen) then some 0x0604#16
  else none

/-- How a command ends for now: complete with a code and a response, or in progress. -/
inductive MboxEnd
  | done (s : State) (code : Half) (resp : List Byte)
  | waits (s : State)

/-- A mailbox's STATUS.BUSY is 1 while its command is in progress. -/
def State.busy (s : State) (h : MboxHdr) : State :=
  match mboxBox h with
  | none => s
  | some n => State.setGf { s with svc := { s.svc with running := setAt s.svc.running n (some h) } } (mboxStatus n) 0 0 1

/-- A refusal, audited unless it is MBOX_INVALID (R346, R428). -/
def State.refuse (s : State) (h : MboxHdr) (op : Nat) (code : Half) : State :=
  ((if code = 0x0605#16 then s else if h.logFails then s.logFault else s.audit (s.noteOf h op code)).complete h code [])

/-- A doorbell of a busy mailbox is ignored and REFUSED set, with SVC_BUSY (R345, R364). -/
def State.mboxBusy (s : State) (n : Nat) : State := (s.setGf (mboxStatus n) 2 2 1).logEvent 0x0606#16

/-- A command of opcode `op` that needs `role` (0: any), and always names a unit if `names`: a doorbell while busy is refused,
then the checks, then the command itself, its entry in the audit log before its effect; if the log's region fails the write, or has
failed one, the command is refused with a code that the manual does not name (R345, R346, R428, log entry 53). -/
def State.mbox (s : State) (h : MboxHdr) (op role : Nat) (names free : Bool) (f : State → MboxEnd) : State :=
  if s.power.phase = .off || s.power.phase = .standby then s
  else match mboxBox h with
  | some n =>
    if (s.svc.running.getD n none).isSome then s.mboxBusy n
    else go ((s.setGf (mboxStatus n) 1 1 0).busy h)
  | none => go s
where
  /-- The checks and the command. -/
  go (s : State) : State :=
    match s.mboxCheck h role names free with
    | some code => s.refuse h op code
    | none =>
      if (role ≠ 0 || op = 0x21 || op = 0x22) && (s.sec.logBad || h.logFails) then
        let s := s.tick1
        s.logFault.complete h (freeCode s.freeCtr "log fault result") []
      else
        let s0 := s.useSession h.session
        match f s0 with
        | .waits s1 => if role = 0 then s1 else s1.audit (s0.noteOf h op 0#16)
        | .done s1 code resp =>
          if code = 0x0605#16 then s0.complete h code []
          else (if role = 0 && code = 0#16 then s1 else s1.audit (s0.noteOf h op code)).complete h code resp

/-- A waiting command ends; one that fails after its entry has a second entry with the code (R428). -/
def State.finish (s : State) (h : MboxHdr) (op : Nat) (code : Half) (resp : List Byte) : State :=
  (if code = 0#16 || code = 0x0605#16 then s else s.audit (s.noteOf h op code)).complete h code resp

/-- A waiting command, if there is one, ends. -/
def State.finishOpt (s : State) (h : Option MboxHdr) (op : Nat) (code : Half) (resp : List Byte) : State :=
  match h with
  | some h => s.finish h op code resp
  | none => s

end Sys2Proof.Machine
end

