-- ==== Sys2Proof/Machine/Encoding.lean ====
section
/-! DEFINITION. The encodings of a frame program: a bundle of 32 bytes, its guard and its seven slots (R221, R222, R224), as the
loader reads them. A slot value that the manual reserves, or that sets a bit its form does not use, has no decoding
(R228, R231, R244, R254, R259, R260, R262–R265, R268, R270–R273). -/

namespace Sys2Proof.Machine

/-- Field [hi:lo] of a slot value as a bit vector. -/
def bits {n : Nat} (w hi lo : Nat) : BitVec n := BitVec.ofNat n (fieldOf w hi lo)

/-- Field [hi:lo] of a slot value is 0. -/
def zeroAt (w hi lo : Nat) : Bool := decide (fieldOf w hi lo = 0)

/-- What a slot holds: `none` where the loader refuses it, `some none` for a no-op. -/
abbrev SlotCode := Option (Option Instr)

/-- An instruction whose encoding is accepted under a condition. -/
def encoded (ok : Bool) (i : Instr) : SlotCode := if ok then some (some i) else none

/-! ## Sequencer (R228) -/

/-- The operands of form R3. -/
def r3Of (w : Nat) : SqR3 := ⟨bits w 22 18, bits w 17 13, bits w 12 8⟩

/-- The operands of form I13. -/
def i13Of (w : Nat) : SqI13 := ⟨bits w 22 18, bits w 17 13, bits w 12 0⟩

/-- The operands of form OC. -/
def ocOf (w : Nat) : SqOc := ⟨w.testBit 17, bits w 16 6, bits w 5 2⟩

/-- Opcodes 0x00 to 0x0F. -/
def sqLow (a : Site) (w : Nat) : SlotCode :=
  match fieldOf w 28 23 with
  | 0x00 => if zeroAt w 22 0 then some none else none
  | 0x01 => encoded (zeroAt w 22 0) (.end_ a)
  | 0x02 => encoded true (.loopi a (bits w 22 21) (bits w 20 12) (bits w 11 0))
  | 0x03 => encoded (zeroAt w 1 0) (.loopr a (bits w 22 21) (bits w 20 12) (bits w 11 7) (bits w 6 2))
  | 0x04 =>
    if w.testBit 18 then encoded (zeroAt w 17 16) (.waitx a (bits w 22 19) (.imm (bits w 15 0)))
    else encoded (zeroAt w 12 0) (.waitx a (bits w 22 19) (.reg (bits w 17 13)))
  | 0x05 => encoded (zeroAt w 22 0) (.commit a)
  | 0x06 => encoded (zeroAt w 22 16) (.sqStop a (bits w 15 0))
  | 0x07 => encoded (zeroAt w 18 18 && zeroAt w 12 0) (.signal a (bits w 22 19) (bits w 17 13))
  | 0x08 => encoded (zeroAt w 19 18 && zeroAt w 12 0) (.scarry a (bits w 22 20) (bits w 17 13))
  | 0x09 => encoded (zeroAt w 19 18 && zeroAt w 12 0) (.dovr a (bits w 22 21) (w.testBit 20) (bits w 17 13))
  | 0x0A => encoded (zeroAt w 1 0) (.sld a (bits w 22 18) (ocOf w) false)
  | 0x0B => encoded (zeroAt w 1 0) (.sst a (bits w 22 18) (ocOf w))
  | 0x0C => encoded (zeroAt w 15 0) (.movlc a (bits w 22 18) (bits w 17 16))
  | 0x0D => encoded (zeroAt w 16 0) (.movfn a (bits w 22 18) (w.testBit 17))
  | _ => none

/-- Opcodes 0x10 to 0x28: scalar arithmetic. -/
def sqAlu (a : Site) (w : Nat) : SlotCode :=
  let r (i : Instr) : SlotCode := encoded (zeroAt w 7 0) i
  match fieldOf w 28 23 with
  | 0x10 => r (.add a (r3Of w))
  | 0x11 => r (.sub a (r3Of w))
  | 0x12 => r (.mul a (r3Of w))
  | 0x13 => r (.and a (r3Of w))
  | 0x14 => r (.or a (r3Of w))
  | 0x15 => r (.xor a (r3Of w))
  | 0x16 => r (.shl a (r3Of w))
  | 0x17 => r (.shr a (r3Of w))
  | 0x18 => r (.sra a (r3Of w))
  | 0x19 => r (.min a (r3Of w))
  | 0x1A => r (.max a (r3Of w))
  | 0x1B => r (.minu a (r3Of w))
  | 0x1C => r (.maxu a (r3Of w))
  | 0x20 => encoded true (.addi a (i13Of w))
  | 0x23 => encoded true (.andi a (i13Of w))
  | 0x24 => encoded true (.ori a (i13Of w))
  | 0x25 => encoded true (.xori a (i13Of w))
  | 0x26 => encoded true (.shli a (i13Of w))
  | 0x27 => encoded true (.shri a (i13Of w))
  | 0x28 => encoded true (.srai a (i13Of w))
  | _ => none

/-- The SQ slot below its guard. -/
def sqSlot (a : Site) (w : Nat) : SlotCode :=
  let cond := decide (fieldOf w 19 17 ≤ 5)
  match fieldOf w 28 23 with
  | 0x2E => encoded (zeroAt w 17 16) (.lil a (bits w 22 18) (bits w 15 0))
  | 0x2F => encoded (zeroAt w 17 16) (.lih a (bits w 22 18) (bits w 15 0))
  | 0x30 => encoded (cond && zeroAt w 6 0) (.pcmp a (bits w 22 20) (bits w 19 17) (bits w 16 12) (bits w 11 7))
  | 0x31 => encoded cond (.pcmpi a (bits w 22 20) (bits w 19 17) (bits w 16 12) (bits w 11 0))
  | 0x32 => encoded (zeroAt w 11 0) (.plog a (bits w 22 20) (bits w 19 17) (bits w 16 14) (bits w 13 12))
  | o => if o < 0x10 then sqLow a w else sqAlu a w

/-! ## Tensor engine (R258–R262) -/

/-- The layouts and weight formats of TLOAD (R259). -/
def loadPair (lay f : Nat) : Bool :=
  if lay = 2 || lay = 6 then (decide (1 ≤ f) && decide (f ≤ 4)) || f = 10
  else if lay = 4 then decide (5 ≤ f) && decide (f ≤ 9)
  else lay = 5 && decide (1 ≤ f) && decide (f ≤ 10)

/-- The fields that TMUL and TMULR share. -/
def mulOf (w : Nat) : TMulOp :=
  ⟨bits w 52 51, bits w 50 47, bits w 46 43, bits w 38 28, bits w 27 26, w.testBit 25, w.testBit 24, bits w 23 20, bits w 19 15,
    bits w 14 0⟩

/-- The conditions of R260 on the fields that TMUL and TMULR share. -/
def mulOk (w : Nat) : Bool :=
  let wf := fieldOf w 50 47
  let af := fieldOf w 46 43
  decide (1 ≤ wf) && decide (wf ≤ 10) && decide (1 ≤ af) && decide (af ≤ 10) && decide ((wf = 10) ↔ (af = 10)) &&
    !(decide (fieldOf w 52 51 = 1) && decide (5 ≤ wf) && decide (wf ≤ 9))

/-- The TE slot. -/
def teSlot (a : Site) (w : Nat) : SlotCode :=
  if w = 0 then some none
  else
    match fieldOf w 55 53 with
    | 1 =>
      let lay := fieldOf w 52 49
      let grt := decide (lay = 5)
      encoded (loadPair lay (fieldOf w 48 45) && zeroAt w 23 15 && (grt || decide (fieldOf w 44 41 = 15)) &&
          (if grt then decide (fieldOf w 40 35 ≤ 50) else zeroAt w 40 34) && (w.testBit 34 || zeroAt w 33 29))
        (.tload a ⟨bits w 52 49, bits w 48 45, bits w 44 41, bits w 40 35, w.testBit 34, bits w 33 29, bits w 28 24,
          bits w 14 0⟩)
    | 2 => encoded (mulOk w && (w.testBit 52 || decide (fieldOf w 42 39 = 15))) (.tmul a (mulOf w) (bits w 42 39))
    | 3 => encoded (mulOk w && zeroAt w 52 51) (.tmulr a (mulOf w) (w.testBit 42) (bits w 41 39))
    | 4 =>
      encoded (zeroAt w 38 20 && (w.testBit 42 || zeroAt w 41 39))
        (.tprint a ⟨bits w 52 49, bits w 48 43, w.testBit 42, bits w 41 39, bits w 19 15, bits w 14 0⟩)
    | _ => none

/-! ## Vector engines (R263–R270) -/

/-- The STY values of operation class F, of class I and of class B (R263). -/
def styF (s : Nat) : Bool := s = 0 || s = 2 || s = 3
def styI (s : Nat) : Bool := s = 1
def styB (s : Nat) : Bool := s = 0 || s = 1

/-- The operands of form VA. -/
def vaOf (ve : Bool) (w : Nat) : VaOp :=
  ⟨ve, bits w 33 31, w.testBit 30, bits w 29 28, bits w 26 18, bits w 17 9, bits w 8 0⟩

/-- A VA-form slot whose class takes its STY; a unary operation holds VB = 0 (R264). -/
def vaSlot (w : Nat) (sty : Nat → Bool) (unary : Bool) (i : Instr) : SlotCode :=
  encoded (sty (fieldOf w 29 28) && !w.testBit 27 && (!unary || zeroAt w 8 0)) i

/-- The operands of form VR. -/
def vrOf (ve : Bool) (w : Nat) : VrOp :=
  ⟨ve, bits w 33 31, w.testBit 30, bits w 29 28, bits w 27 25, bits w 24 19, bits w 18 10, bits w 9 1⟩

/-- The STY values of a reduction (R270). -/
def ropOk (rop s : Nat) : Bool := if rop ≤ 2 then styF s || styI s else if rop = 3 then styF s else styB s

/-- The operands of form VV. -/
def vvOf (ve : Bool) (w : Nat) : VvOp :=
  ⟨ve, bits w 33 31, w.testBit 30, bits w 29 28, bits w 27 25, bits w 24 20, bits w 19 9, bits w 8 0⟩

/-- The operands of form VB. -/
def vbOf (ve : Bool) (w : Nat) : VbOp := ⟨ve, bits w 33 31, bits w 30 26, bits w 25 18, bits w 17 7, bits w 6 0⟩

/-- The operands of forms VW and VN. -/
def vcvOf (ve : Bool) (w : Nat) : VcvOp := ⟨ve, bits w 33 31, w.testBit 30, bits w 29 26, bits w 25 17, bits w 16 6⟩

/-- Opcodes 0x01 to 0x18: lane arithmetic in form VA. -/
def veArith (ve : Bool) (a : Site) (w : Nat) : SlotCode :=
  let o := vaOf ve w
  let fi (s : Nat) : Bool := styF s || styI s
  match fieldOf w 39 34 with
  | 0x01 => vaSlot w fi false (.vadd a o)
  | 0x02 => vaSlot w fi false (.vsub a o)
  | 0x03 => vaSlot w fi false (.vmul a o)
  | 0x04 => vaSlot w styF false (.vfma a o)
  | 0x05 => vaSlot w fi false (.vmin a o)
  | 0x06 => vaSlot w fi false (.vmax a o)
  | 0x07 => vaSlot w fi true (.vabs a o)
  | 0x08 => vaSlot w fi true (.vneg a o)
  | 0x09 => vaSlot w fi true (.vmov a o)
  | 0x0A => vaSlot w styF true (.vrcp a o)
  | 0x0B => vaSlot w styF true (.vrsq a o)
  | 0x0C => vaSlot w styF true (.vexp2 a o)
  | 0x0D => vaSlot w styF true (.vlog2 a o)
  | 0x0E => vaSlot w styF false (.vdiv a o)
  | 0x0F => vaSlot w styF true (.vsqrt a o)
  | 0x10 => vaSlot w styI false (.vshl a o)
  | 0x11 => vaSlot w styI false (.vshr a o)
  | 0x12 => vaSlot w styI false (.vsra a o)
  | 0x13 => vaSlot w styB false (.vand a o)
  | 0x14 => vaSlot w styB false (.vor a o)
  | 0x15 => vaSlot w styB false (.vxor a o)
  | 0x16 => vaSlot w styB true (.vnot a o)
  | 0x17 => vaSlot w styB true (.vpopc a o)
  | 0x18 =>
    encoded (fi (fieldOf w 29 28) && !w.testBit 27 && decide (fieldOf w 26 24 ≤ 5) && zeroAt w 23 21)
      (.vcmp a ⟨ve, bits w 33 31, w.testBit 30, bits w 29 28, bits w 26 24, bits w 20 18, bits w 17 9, bits w 8 0⟩)
  | _ => none

/-- The other VE opcodes. -/
def veOther (ve : Bool) (a : Site) (w : Nat) : SlotCode :=
  let plain := zeroAt w 33 30
  let fmt := decide (1 ≤ fieldOf w 29 26) && decide (fieldOf w 29 26 ≤ 10)
  match fieldOf w 39 34 with
  | 0x19 =>
    encoded (plain && zeroAt w 29 27 && zeroAt w 26 23 && zeroAt w 17 12 && zeroAt w 8 3)
      (.vmlog a ⟨ve, bits w 22 21, bits w 20 18, bits w 11 9, bits w 2 0⟩)
  | 0x1A => encoded (plain && zeroAt w 14 0) (.vmlane a ve (bits w 29 24) (bits w 23 18) (bits w 17 15))
  | 0x1B => encoded (plain && zeroAt w 20 0) (.vmsr a ve (bits w 29 25) (w.testBit 24) (bits w 23 21))
  | 0x1C => encoded (zeroAt w 15 0) (.vspl a ve (bits w 33 31) (w.testBit 30) (bits w 29 25) (bits w 24 16))
  | 0x1D => encoded (plain && zeroAt w 11 0) (.vscl a ve (w.testBit 29) (w.testBit 28) (bits w 27 20) (bits w 19 12))
  | 0x20 => encoded (fmt && zeroAt w 5 0) (.vcvtw a (vcvOf ve w))
  | 0x21 => encoded (fmt && zeroAt w 5 0) (.vcvtn a (vcvOf ve w))
  | 0x22 => vaSlot w styF true (.vcvti a (vaOf ve w))
  | 0x23 => vaSlot w styI true (.vcvtf a (vaOf ve w))
  | 0x24 =>
    encoded (zeroAt w 3 0)
      (.vacc a ⟨ve, bits w 33 31, w.testBit 30, bits w 29 21, bits w 20 17, bits w 16 10, w.testBit 9, bits w 8 4⟩)
  | 0x28 =>
    encoded (ropOk (fieldOf w 27 25) (fieldOf w 29 28) && zeroAt w 24 19 && !w.testBit 30 && !w.testBit 0)
      (.vred a (vrOf ve w))
  | 0x29 =>
    encoded (ropOk (fieldOf w 27 25) (fieldOf w 29 28) && !zeroAt w 24 19 && decide (fieldOf w 9 1 + fieldOf w 24 19 ≤ 511) &&
      !w.testBit 0) (.vrax a (vrOf ve w))
  | 0x30 => encoded (decide (fieldOf w 17 7 + fieldOf w 25 18 ≤ 2047)) (.vld a (vbOf ve w))
  | 0x31 => encoded (decide (fieldOf w 17 7 + fieldOf w 25 18 ≤ 2047)) (.vst a (vbOf ve w))
  | 0x32 => encoded (decide (fieldOf w 29 28 ≤ 2)) (.vldv a (vvOf ve w))
  | 0x33 => encoded (decide (fieldOf w 29 28 ≤ 2)) (.vstv a (vvOf ve w))
  | _ => none

/-- A VE slot. -/
def veSlot (ve : Bool) (a : Site) (w : Nat) : SlotCode :=
  if w = 0 then some none else if fieldOf w 39 34 < 0x19 then veArith ve a w else veOther ve a w

/-! ## Transform, update and mask engines (R271–R273) -/

/-- The XE slot; `op` gives the operation of a transform descriptor, which decides the row's name. -/
def xeSlot (op : Nat → Nat) (a : Site) (w : Nat) : SlotCode :=
  if w = 0 then some none
  else if decide (fieldOf w 31 28 = 1) && zeroAt w 7 0 && decide (fieldOf w 27 23 ≤ 23) then
    let o : XrunOp := ⟨bits w 27 23, bits w 22 18, bits w 17 13, bits w 12 8⟩
    some (some (match op (fieldOf w 27 23) with
      | 1 => .xeTranspose a o
      | 2 => .xeGather a o
      | 3 => .xeScatter a o
      | 4 => .xeScatterAdd a o
      | _ => .xeCopy a o))
  else none

/-- The AUX slot with bit 31 clear: the update engine. -/
def ueSlot (a : Site) (w : Nat) : SlotCode :=
  match fieldOf w 30 27 with
  | 1 => encoded (decide (fieldOf w 22 20 ≤ 4) && zeroAt w 19 0) (.uupd a (bits w 26 23) (bits w 22 20))
  | 2 => encoded (!zeroAt w 17 6 && zeroAt w 5 0) (.urow a (bits w 26 23) (bits w 22 18) (bits w 17 6))
  | 3 => encoded (zeroAt w 2 0) (.ugfac a (bits w 26 23) (bits w 22 20) (bits w 19 15) (bits w 14 3))
  | 4 => encoded true (.ufilt a (bits w 26 23) (bits w 22 20) (bits w 19 15) (bits w 14 10) (bits w 9 5) (bits w 4 0))
  | 5 => encoded (zeroAt w 14 0) (.uflist a (bits w 26 23) (bits w 22 20) (bits w 19 15))
  | 6 => encoded (zeroAt w 26 0) (.uadv a)
  | _ => none

/-- The AUX slot with bit 31 set: the mask engine. -/
def meSlot (a : Site) (w : Nat) : SlotCode :=
  let edit : MEditOp := ⟨bits w 26 22, w.testBit 21, bits w 20 16, bits w 15 0⟩
  let editOk := if w.testBit 21 then zeroAt w 15 0 else zeroAt w 20 16
  let sheet : MSheetOp := ⟨bits w 26 22, bits w 21 19, bits w 18 14, bits w 13 1⟩
  match fieldOf w 30 27 with
  | 1 => encoded editOk (.mdodge a edit)
  | 2 => encoded editOk (.mburn a edit)
  | 3 => encoded editOk (.mrefresh a edit)
  | 4 =>
    encoded (zeroAt w 1 0 && (!w.testBit 21 || zeroAt w 20 2))
      (.mscore a ⟨bits w 26 22, w.testBit 21, w.testBit 20, w.testBit 19, bits w 18 16, bits w 15 11, bits w 10 2⟩)
  | 5 => encoded (!w.testBit 0) (.msload a sheet)
  | 6 => encoded (!w.testBit 0) (.msstore a sheet)
  | 7 => encoded (decide (fieldOf w 21 16 ≤ 50) && zeroAt w 15 0) (.mremap a (bits w 26 22) (bits w 21 16))
  | 8 =>
    encoded (zeroAt w 1 0)
      (.ppred a ⟨bits w 26 23, bits w 22 20, bits w 19 17, bits w 16 12, bits w 11 7, bits w 6 2⟩)
  | 9 => encoded (zeroAt w 21 0) (.pctl a (bits w 26 23) (w.testBit 22))
  | _ => none

/-- The AUX slot: bit 31 alone is a no-op too (R222). -/
def auxSlot (a : Site) (w : Nat) : SlotCode :=
  if w = 0 || w = 2 ^ 31 then some none else if w.testBit 31 then meSlot a w else ueSlot a w

/-! ## DMA (R244) and the bundle -/

/-- The DMA slot. -/
def dmaSlot (a : Site) (w : Nat) : SlotCode :=
  let op := fieldOf w 15 12
  if op = 0 then if zeroAt w 11 0 then some none else none
  else if op ≤ 4 then some (some (.dmaStart a (BitVec.ofNat 2 (op - 1)) (bits w 11 0) false))
  else if op ≤ 8 then some (some (.dmaStartOvr a (BitVec.ofNat 2 (op - 5)) (bits w 11 0) false))
  else none

/-- A decoded bundle: its guard mask and the instructions of its slots, in slot order (R222, R224). -/
structure Bundle where
  gmask : Nat
  slots : List (Option Instr)

/-- The instructions that a bundle issues, in slot order. -/
def Bundle.instrs (b : Bundle) : List Instr := b.slots.filterMap id

/-- The SQ instruction of a bundle. -/
def Bundle.sq (b : Bundle) : Option Instr := b.slots.headD none

/-- The instruction is one whose SQ slot takes no guard (R226). -/
def unguarded (i : Option Instr) : Bool :=
  match i with
  | some (.loopi _ _ _ _) => true
  | some (.loopr _ _ _ _ _) => true
  | some (.waitx _ _ _) => true
  | some (.end_ _) => true
  | _ => false

/-- All slots decoded, or none where one is refused. -/
def allSlots : List SlotCode → Option (List (Option Instr))
  | [] => some []
  | none :: _ => none
  | some x :: t => (allSlots t).map (x :: ·)

/-- The site of slot `i`, of which the bundle's SQ slot is `sq`: the bundle's guard if GMASK names the slot (R224), or the one that
stands in `a`. -/
def slotSite (a : Site) (sq i : Nat) : Site :=
  if a.guard = none && sq.testBit (39 - i) then { a with guard := some ⟨bits sq 31 29, sq.testBit 32⟩ } else a

/-- A bundle in 32 bytes, with the operation of each transform descriptor (R222, R226). -/
def bundleOf (op : Nat → Nat) (a : Site) (raw : List Byte) : Option Bundle :=
  let w := leNat raw
  let sq := fieldOf w 255 216
  let a := slotSite a sq
  match allSlots [sqSlot (a 0) sq, teSlot (a 1) (fieldOf w 215 160), veSlot false (a 2) (fieldOf w 159 120),
      veSlot true (a 3) (fieldOf w 119 80), xeSlot op (a 4) (fieldOf w 79 48), auxSlot (a 5) (fieldOf w 47 16),
      dmaSlot (a 6) (fieldOf w 15 0)] with
  | none => none
  | some l =>
    let g := fieldOf sq 39 33
    if g.testBit 6 && unguarded (l.headD none) then none else some ⟨g, l⟩

end Sys2Proof.Machine
end

