-- ==== Sys2Proof/Machine/FrameOps.lean ====
section
/-! DEFINITION. The frame of one core: its start (R15, R21, R227), and the guard-band work at its end in the order of R12:
the merge of the frame amax and the pushes (R80, R81), the predictor's miss limits (R154), the contact sheet record
(R123–R125), the carry commit (R240, R241) and the fill of a remapped line (R379). -/

namespace Sys2Proof.Machine

/-! ## Start -/

/-- The program a schedule entry runs: its bypass program if an entry that the predicted one names is not enabled
(R156). -/
def Core.bypasses (c : Core) (e : SchedEntry) : Bool :=
  decide (e.bypass ≠ 0xFFFF) && e.preds.any fun j => !bitAt (c.reg (0x7C10 + 32 * j)) 0

/-- The sequencer at the first bundle of the program at index `e`, from its frame header (R227). -/
def Core.entrySeq (c : Core) (e start : Nat) : Seq :=
  let h := Memory.read c.mem (bundleAddr e) 128
  let spre := (List.range 32).map fun i => if i = 0 then 0#32 else BitVec.ofNat 32 (natAt h (4 * i) 4)
  let carry := natAt h 1 1 % 2 = 1
  { Seq.reset with
    sregs := spre.mapIdx fun i w => if carry && decide (24 ≤ i) then c.reg (0x2040 + 4 * (i - 24)) else w
    preds := h.getD 0 0#8 ||| 1#8
    spre := spre, prev := e + 3, nextAt := start + 16 }

/-- The array state of the first product of the program from bundle `b`, bodies that no iteration runs left out (R91, R234). -/
def Core.firstArray (c : Core) : Nat → Nat → Option ArrayState
  | 0, _ => none
  | n + 1, b =>
    let w := leNat (Memory.read c.mem (bundleAddr b) 32)
    let a : Site := ⟨0, BitVec.ofNat 13 b, none⟩
    match teSlot a (fieldOf w 215 160) with
    | some (some (.tmul _ o q)) => some (tmulProduct o q).array
    | some (some (.tmulr _ o kmode rs)) => some (c.tmulrProduct o kmode rs).array
    | _ =>
      match sqSlot a (fieldOf w 255 216) with
      | some (some (.end_ _)) => none
      | some (some (.loopi _ _ len count)) => c.firstArray n (if count = 0#12 then b + len.toNat + 2 else b + 1)
      | some (some (.loopr _ _ len _ rm)) =>
        c.firstArray n (if c.seq.spre.getD rm.toNat 0#32 = 0#32 then b + len.toNat + 2 else b + 1)
      | _ => c.firstArray n (b + 1)

/-- The frame record of an entry that starts at cycle `start`. -/
def frameOf (e : SchedEntry) (l : FrameStart) (start : Nat) (shifted bypass : Bool) : Frame :=
  { Frame.none with
    live := true, fn := l.fn, entry := l.slot, kind := e.kind, replayable := e.replayable, ownTick := l.tick, guardAt := l.guard
    started := start, replay := l.replay, shifted := shifted, bypassRun := bypass
    retiredAt := if e.kind < 4 then none else some start }

/-- A schedule entry starts on the core. A dark or spare slot runs nothing (R17); the rest of the sequencer, the array
state and the conversion controls are set as at frame entry (R91, R227, R267); a miss on a line of the header traps when the first
bundle is due (R251, `Core.dues`). -/
def Core.enter (l : FrameStart) (start : Nat) (shift : Bool) (c : Core) : Core :=
  match c.sched[l.slot]? with
  | none => c
  | some e =>
    let by_ := c.bypasses e
    let f := frameOf e l start (shift && decide (0 < c.behind)) by_
    if 4 ≤ e.kind then { c with frame := f, seq := Seq.reset }
    else
      let x := if by_ then e.bypass else e.entry
      let c := { c with
        frame := f, seq := c.entrySeq x start, te := { c.te with last := none }
        ve0ctl := ConvCtl.reset, ve1ctl := ConvCtl.reset }
      let c := (c.setRf 0x2000 0 0 1).setRf 0x2000 1 1 0
      let c := match c.firstArray 8192 (x + 4) with
        | some a => c.showArray a
        | none => c
      (List.range 4).foldl (fun c ch => c.setRf (0x2200 + 32 * ch) 5 5 0) c

/-! ## Scale pushes (R79–R82) -/

/-- Address of entry `e` of the scale table (R79). -/
def Core.scaleAddr (c : Core) (e : Nat) : Nat := c.rf 0x4000 14 8 * 0x8000 + 128 * e

/-- The running amax of every entry raised to the frame's (R80). -/
def Core.mergeAmax (c : Core) : Core :=
  c.frame.amax.foldl (fun c r => c.setReg (0x4400 + 4 * r.1) (amaxJoin (c.reg (0x4400 + 4 * r.1)) r.2)) c

/-- The scale exponent in force of an entry written to the latch. -/
def Core.setLatch (c : Core) (e : Nat) (s : Int) : Core :=
  c.setRf (0x4100 + e / 4 * 4) (8 * (e % 4) + 7) (8 * (e % 4)) (twosOf 8 s)

/-- The least s ≥ s0 with A ≤ F · 2^(s − m), in at most two further steps (R81). -/
def raiseScale (a : Nat × Int) (f : Nat × Int) (m : Int) : Nat → Int → Int
  | 0, s => s
  | n + 1, s => if ltDyadic f.1 (f.2 + s - m) a.1 a.2 then raiseScale a f m n (s + 1) else s

/-- NUM_SCALE_CLAMP of a push: recorded in NUMSTAT and in the frame's flags, in no ENG_CODE slot (R81). -/
def Core.scaleClamped (c : Core) : Core :=
  let c := (c.setRf 0x4010 5 5 1).setRf 0x4010 31 16 0x0308
  { c with frame := { c.frame with numFlags := c.frame.numFlags ||| 32 } }

/-- The scale exponent computed from a history's largest finite value `a` for a format, and whether it was clamped. -/
def pushScale (fmt m : Nat) (a : Nat × Int) : Int × Bool :=
  let f := if fmt = 10 then (127, (0 : Int)) else (fmtOfCode fmt).maxFin
  let s := raiseScale a f m 2 (expOf a.1 a.2 - expOf f.1 f.2 + m - 1)
  if 127 < s then (127, true) else if s < -127 then (-127, true) else (s, false)

/-- A push of scale entry `e` (R81). -/
def Core.push (c : Core) (e : Nat) : Core :=
  let base := c.scaleAddr e
  let t := Memory.read c.mem base 128
  if !bitAt (c.reg 0x4000) 15 || !(natAt t 0x49 1).testBit 0 then c
  else
    let len := let l := natAt t 0x46 1; if l = 0 then 1 else if 16 < l then 16 else l
    let h := natAt t 0x47 1 % len
    let r := c.reg (0x4400 + 4 * e)
    let c := c.store (base + 4 * h) (leBytes 4 r.toNat)
    let c := c.store (base + 0x40) (leBytes 4 r.toNat)
    let c := c.store (base + 0x47) (leBytes 1 ((h + 1) % len))
    let c := c.store (base + 0x4C) (leBytes 4 (natAt t 0x4C 4 + 1))
    let c := c.setReg (0x4400 + 4 * e) 0#32
    let fmt := natAt t 0x48 1
    if (natAt t 0x49 1).testBit 1 || fmt = 0 || isMx fmt || 10 < fmt then c
    else
      let hist := setAt ((List.range 16).map fun i => BitVec.ofNat 32 (natAt t (4 * i) 4)) h r
      let best := (hist.take len).foldl (fun (a : Word) w => if isPosFinite w && decide (a.toNat < w.toNat) then w else a) 0#32
      match f32 best with
      | .fin _ m x =>
        if m = 0 then c
        else
          let (s, clamp) := pushScale fmt (natAt t 0x45 1 % 8) (m, x)
          let c := if clamp then c.scaleClamped else c
          (c.store (base + 0x44) (leBytes 1 (twosOf 8 s))).setLatch e s
      | _ => c

/-- Every marked entry is pushed, in ascending order. -/
def Core.runPushes (c : Core) : Core :=
  ((List.range 256).filter fun e => c.frame.pushes.contains e).foldl Core.push c

/-! ## Predictor (R154) -/

/-- A count that saturates at 0xFFFF. -/
def sat16 (n : Nat) : Nat := if 0xFFFF < n then 0xFFFF else n

/-- The miss limit of entry `j` (R154): the counts are shown, and an entry over its limit is bypassed, its own PCTL of the
frame overruled (R155). -/
def Core.missLimit (c : Core) (j : Nat) : Core :=
  let p := 0x7C00 + 32 * j
  let a := c.frame.audits.getD j 0
  let m := c.frame.misses.getD j 0
  let c := (c.setReg (p + 20) (BitVec.ofNat 32 (sat16 a + 65536 * sat16 m))).bump (p + 24) m
  if bitAt (c.reg (p + 16)) 0 && decide (0 < a) && decide (a < m * c.rf (p + 12) 15 0) then
    let c := ((c.setRf (p + 16) 0 0 0).setRf (p + 16) 1 1 1).setRf 0x4010 31 16 0x0306
    { c with frame := { c.frame with
        predEvents := c.frame.predEvents + 1, pctl := c.frame.pctl.filter fun r => r.1.toNat ≠ j } }
  else c

/-! ## Contact sheet (R123–R125) -/

/-- NUM_FIRST_INV of the frame (R119). -/
def Frame.firstInvWord (f : Frame) : Nat :=
  match f.firstInv with
  | .none => 0
  | some v => 2 ^ 31 + (if 0x3FFF < v.chunk then 0x3FFF else v.chunk) * 2 ^ 17 + v.bundle.toNat * 16 + v.tile

/-- OUTCOME of the frame's record (R124). -/
def Frame.outcome (f : Frame) (halt : Bool) : Nat :=
  bit f.retiredAt.isSome + 2 * bit f.overrun + 4 * bit f.aborted + 8 * bit f.abandoned +
    16 * bit (f.replayDue && !f.aborted) + 32 * bit f.replay + 64 * bit f.dropped.isSome +
    128 * bit (decide (f.ownTick < f.started)) + 256 * bit halt + 512 * bit f.shifted

/-- A u32 count that saturates. -/
def sat32 (n : Nat) : Nat := if 0xFFFFFFFF < n then 0xFFFFFFFF else n

/-- The frame's contact sheet record (R124); `halt` for a stop bath from the next tick. -/
def Frame.record (f : Frame) (core : Nat) (halt : Bool) : List Byte :=
  let drop := match f.dropped with
    | some d => d.toNat
    | .none => 0
  let retire := match f.retiredAt with
    | some t => sat32 (t - f.started)
    | .none => 0xFFFFFFFF
  let body := leBytes 6 f.fn.toNat ++ leBytes 1 f.entry ++ leBytes 1 f.kind ++ leBytes 2 (f.outcome halt) ++
    leBytes 2 f.faultCode.toNat ++ leBytes 2 f.faultBundle.toNat ++ leBytes 2 core ++ leBytes 4 retire ++
    leBytes 4 (sat32 (f.started - f.ownTick)) ++ leBytes 4 (sat32 f.waitLate) ++ leBytes 4 (sat32 f.stalls) ++
    leBytes 6 drop ++ leBytes 1 f.numFlags ++ leBytes 1 (popNat 16 f.tileInv.toNat) ++ leBytes 2 f.tileInv.toNat ++
    leBytes 2 f.tileOvf.toNat ++ leBytes 2 f.tileSat.toNat ++ leBytes 2 (sat16 f.products) ++
    leBytes 4 f.firstInvWord ++ leBytes 4 (sat32 f.sats) ++ leBytes 4 (sat32 f.collides) ++
    leBytes 4 (sat32 f.gatherOor) ++ leBytes 2 (sat16 f.crcEvents) ++ leBytes 2 (sat16 f.predEvents) ++
    (f.codes.take 11).flatMap (fun c => leBytes 2 c.toNat) ++ List.replicate 36 0#8
  body ++ leBytes 2 (crc16 body)

/-- Step 3 of the guard-band work: the record's window and the registers of the last frame (R12, R125). -/
def Core.publish (c : Core) (rec : List Byte) : Core :=
  let f := c.frame
  let c := (List.range 32).foldl (fun c i => c.setReg (0x9000 + 4 * i) (BitVec.ofNat 32 (natAt rec (4 * i) 4))) c
  let c := (c.setReg 0x4014 (BitVec.ofNat 32 f.numFlags)).setReg 0x4018 (BitVec.ofNat 32 f.firstInvWord)
  (c.setReg 0x1230 (BitVec.ofNat 32 (sat32 f.stalls))).setReg 0x7010
    (BitVec.ofNat 32 (sat16 f.meEdits + 65536 * sat16 f.meOps))

/-! ## Carry words and UADV at frame end -/

/-- A pending COMMIT of the carry words takes effect, or is withdrawn (R240, R241). -/
def Core.carryEnd (ok : Bool) (c : Core) : Core :=
  if !bitAt (c.reg 0x2020) 0 then c
  else
    let c := c.setRf 0x2020 0 0 0
    if ok then (List.range 8).foldl (fun c i => c.setReg (0x2040 + 4 * i) (c.shadowReg (0x2040 + 4 * i))) c
    else c.setRf 0x2020 3 3 1

/-! ## Fills (R379, R380) -/

/-- The open fill is done; a queued one becomes the open one. -/
def Core.fillDone (c : Core) : Core :=
  Core.showFills { c with integ := { c.integ with fillOpen := c.integ.fillQueued, fillQueued := none } }

/-- The state of a remap entry's spare. -/
def Core.setSpare (c : Core) (entry : Nat) (st : SpareState) : Core :=
  Core.showRemaps { c with integ := { c.integ with remaps := c.integ.remaps.map fun r =>
    if r.entry = entry then { r with state := st } else r } }

/-- The open fill's guard-band work (R379), `pass` saying whether the old line's CRC passes now. -/
def Core.fillStep (pass : Bool) (c : Core) : Core :=
  match c.integ.fillOpen with
  | none => c
  | some f =>
    if f.refetching then c
    else if c.integ.remaps.any (fun r => r.entry = f.entry && r.state = .valid) then c.fillDone
    else if pass then
      (({ c.write f.line f.old with integ := { c.integ with bad := c.integ.bad.filter (· ≠ f.line) } }).setSpare f.entry .valid).fillDone
    else if c.isClean f.line then
      let c := (c.setSpare f.entry .refetch).refetch f.line
      { c with integ := { c.integ with fillOpen := some { f with refetching := true } } }
    else c.fillDone

/-- The fills' guard-band work: the open fill, and the queued one directly after it (R380). -/
def Core.fillWork (p q : Bool) (c : Core) : Core :=
  let open_ := c.integ.fillOpen
  let c := c.fillStep p
  if open_.isSome && c.integ.fillOpen.isSome && decide (c.integ.fillOpen.map (·.entry) ≠ open_.map (·.entry)) then c.fillStep q
  else c

/-! ## Guard-band work -/

/-- The frame retired normally: what R80, R81, R154, R241, R243 and R361 require. -/
def Frame.normal (f : Frame) : Bool := f.retiredAt.isSome && !f.aborted && !f.abandoned && !f.replayDue

/-- Steps 1 and 2 of the guard-band work. -/
def Core.guardMerge (c : Core) : Core :=
  if c.frame.normal then (List.range 16).foldl Core.missLimit (c.mergeAmax.runPushes) else c

/-- Cycles of guard-band work before a late frame's successor may start: 2 for each push (R24, R81). -/
def Frame.pushCycles (f : Frame) : Nat := if f.normal then 2 * f.pushes.length else 0

/-- When a frame's guard-band work ends: it begins with the guard band, or once a late frame has retired (R12, R24). -/
def Frame.workEnd (f : Frame) : Nat := max f.guardAt (f.retiredAt.getD 0) + f.pushCycles

/-- Step 4 as far as the core goes, and the end of the frame: a UADV of a frame that did not retire normally is dropped
(R371). -/
def Core.guardEnd (p q : Bool) (c : Core) : Core :=
  let ok := c.frame.normal
  let c := c.carryEnd ok
  let c := if ok then c else c.setRf 0x6008 8 8 0
  let c := c.fillWork p q
  { c with frame := { c.frame with live := false, signals := [], kvCommits := [] }, workEnd := c.frame.workEnd }

end Sys2Proof.Machine
end

