-- ==== Sys2Proof/Machine/Commit.lean ====
section
/-! DEFINITION. Commits of the CMT blocks (R36, R60–R63, R127, R337, R442): requests, withdrawals, the checks in the order
of R61, and what a block's commit brings with it. -/

namespace Sys2Proof.Machine

/-! ## The shutter's period -/

/-- Core cycles of one period, times 2,000 (R11): the frequency is held in half megahertz. -/
def cycleNum (period freq2 : Nat) : Nat := period * freq2

/-- C for a period at a frequency (R11). -/
def cyclesOf (period freq2 : Nat) : Nat := cycleNum period freq2 / 2000

/-- The frequency after `k` derate steps (R13), in half megahertz. -/
def derated (k : Nat) : Nat := 3600 - 180 * k

/-- SHT_CYC shows C in force. -/
def State.showCycles (s : State) : State :=
  s.setGreg 0x40038 (BitVec.ofNat 32 (cyclesOf (s.greg 0x40000).toNat s.shutter.freq2))

/-! ## The blocks -/

/-- CMT_STATUS of a block. -/
def State.blkStatus (s : State) : Block → Word
  | .core c => (s.core c).reg 0x1204
  | .shutter => s.greg 0x40040
  | .link => s.greg 0x60004
  | .cpm => s.greg 0x30008

/-- CMT_STATUS of a block written. -/
def State.setBlkStatus (s : State) (b : Block) (w : Word) : State :=
  match b with
  | .core c => s.setCore c ((s.core c).setReg 0x1204 w)
  | .shutter => s.setGreg 0x40040 w
  | .link => s.setGreg 0x60004 w
  | .cpm => s.setGreg 0x30008 w

/-- A commit of the block is pending. -/
def State.blkPending (s : State) (b : Block) : Bool := bitAt (s.blkStatus b) 0

/-- PENDING of the block. -/
def State.setPending (s : State) (b : Block) (v : Bool) : State := s.setBlkStatus b (setFld (s.blkStatus b) 0 0 (bit v))

/-- The CMT registers of the global area in a range of offsets, with their CMT bits. -/
def globCmt (lo hi : Nat) : List (Nat × Word) := (cmtOffsets globRegs).filter fun r => decide (lo ≤ r.1) && decide (r.1 < hi)

/-- The range of offsets of a chip-level block. -/
def blkRange : Block → Nat × Nat
  | .shutter => (0x40000, 0x50000)
  | .link => (0x60000, 0x70000)
  | .cpm => (0x30000, 0x40000)
  | .core _ => (0, 0)

/-- Every field of a chip-level block takes its shadow value (R61). -/
def State.applyGlob (s : State) (b : Block) : State :=
  (globCmt (blkRange b).1 (blkRange b).2).foldl (fun s r =>
    s.setGreg r.1 ((s.greg r.1 &&& ~~~r.2) ||| (s.gshadowReg r.1 &&& r.2))) s

/-! ## Who may commit, and when -/

/-- The shutter commit changes a field that only the installer may change (R35). -/
def State.changesSync (s : State) : Bool :=
  decide (fld (s.greg 0x40004) 3 1 ≠ fld (s.gshadowReg 0x40004) 3 1) || decide (s.greg 0x40030 ≠ s.gshadowReg 0x40030)

/-- The reason and code of the first check of R61: who may commit. -/
def State.blkRights (s : State) (b : Block) : Option (Nat × Half) :=
  match b with
  | .core _ => if s.loaded then some (0x06, 0x0204#16) else none
  | .shutter => if s.changesSync && !s.gbit 0x40044 0 then some (0, 0x0601#16) else none
  | .link => if s.gbit 0x60008 0 then none else some (0, 0x0601#16)
  | .cpm => if s.gbit 0x3001C 0 then none else some (0, 0x0601#16)

/-- A port carries traffic: sequenced flits unacknowledged or waiting, or a message or group half received. -/
def Port.busy (p : Port) : Bool := !p.retry.isEmpty || !p.waiting.isEmpty || !p.held.isEmpty || !p.assembly.isEmpty

/-- Offset of LNK_PCTL of port `p`; the port's further registers follow it. -/
def portOff (p : Nat) : Nat := 0x61000 + 0x40 * p

/-- A link port. -/
def State.port (s : State) (p : Nat) : Port := s.ports.getD p Port.reset

/-- The state with a port replaced. -/
def State.setPort (s : State) (p : Nat) (x : Port) : State := { s with ports := setAt s.ports p x }

/-- LNK_PSTATUS.STATE of a port: 0 DOWN, 1 TRAINING, 2 KEYING, 3 UP, 4 FAILED. -/
def State.portState (s : State) (p : Nat) : Nat := s.gf (portOff p + 4) 2 0

/-- The block is idle (R36, R60). -/
def State.blkIdle (s : State) (b : Block) (atTick : Bool) : Bool :=
  match b with
  | .core c => !(s.core c).frame.live
  | .shutter => atTick || !s.running
  | .link => allBelow 16 fun p => decide (s.greg (portOff p) = s.gshadowReg (portOff p)) || !(s.port p).busy
  | .cpm => s.power.pending.isNone

/-- The reason of an IMMEDIATE commit of a block that is not idle (R61). -/
def blkBusy : Block → Nat
  | .core _ => 0x05
  | .shutter => 0x06
  | .link => 0x03
  | .cpm => 0x04

/-! ## Consistency checks -/

/-- The shutter's checks on its shadows (R36, R127). -/
def State.shutterCheckOk (s : State) (reason : Nat) : Bool :=
  let p := (s.gshadowReg 0x40000).toNat
  let ctl := s.gshadowReg 0x40004
  let pol := s.gshadowReg 0x40028
  let en := bitAt (s.gshadowReg 0x40100) 0
  let depth := fld (s.gshadowReg 0x4010C) 16 0
  let base := fld (s.gshadowReg 0x40104) 31 12 * 4096 + fld (s.gshadowReg 0x40108) 6 0 * 2 ^ 32
  match reason with
  | 1 => decide (20000 ≤ p) && decide (p ≤ 500000000)
  | 2 => allBelow 4 fun i => decide (fld pol (2 * i + 1) (2 * i) ≠ 3)
  | 3 => decide (fld ctl 2 1 ≠ 3)
  | 4 => !(bitAt ctl 3 && decide (fld ctl 2 1 = 1))
  | 5 => match s.image with
    | some i => i.worst.all fun w => decide (w.2.2 + 512 ≤ cyclesOf p s.shutter.freq2)
    | none => true
  | 7 => !en || (decide (16 ≤ depth) && decide (depth ≤ 65536))
  | _ => !en || inHbm base (depth * 0x4800)

/-- A planned port of the loaded image that a link commit disables or narrows (R337). -/
def State.narrows (s : State) : Bool :=
  match s.image with
  | none => false
  | some i => s.running && (List.range 16).any fun p =>
      let plan := i.plan.ports.getD p ⟨0, 0, 0#32⟩
      let w := s.gshadowReg (portOff p)
      decide (plan.use ≠ 0) && decide (w ≠ s.greg (portOff p)) &&
        (!bitAt w 0 || decide (2 ^ fld w 2 1 < plan.width))

/-- The token pool of a power class (R441). -/
def poolOf (cls : Nat) : Nat := if cls = 2 then 720 else if cls = 1 then 600 else 480

/-- The strap class; 0b11 is taken as P20 (R441). -/
def State.strapClass (s : State) : Nat := let c := s.gf 0x30014 3 2; if c = 3 then 0 else c

/-- The reason of the block's first consistency check that fails, in ascending order (R61). -/
def State.blkReason (s : State) (b : Block) : Option Nat :=
  match b with
  | .core c => coreReason (s.core c).shadowReg
  | .shutter => [1, 2, 3, 4, 5, 7, 8].find? fun r => !s.shutterCheckOk r
  | .link =>
    if !(allBelow 16 fun p => decide (fld (s.gshadowReg (portOff p)) 2 1 ≠ 3)) then some 0x01
    else if s.narrows then some 0x02 else none
  | .cpm =>
    let c := fld (s.gshadowReg 0x30000) 1 0
    if c = 3 then some 0x01
    else if s.strapClass < c then some 0x02
    else match s.image with
      | some i => if poolOf c < i.tokpeak then some 0x03 else none
      | none => none

/-! ## Outcomes -/

/-- A rejection (R36, R61). -/
def State.rejectCommit (s : State) (b : Block) (reason : Nat) (code : Half) : State :=
  let w := s.blkStatus b
  let s := s.setBlkStatus b (setFld (setFld (setFld (setFld w 0 0 0) 1 1 1) 15 8 reason) 31 16 code.toNat)
  if b = .shutter then (s.setGf 0x40020 4 4 1).raiseSht code else s

/-- LOCKED on LOCAL follows RUN; on another source a change of source starts lock acquisition again (R31, R36). -/
def State.sourceApplied (s : State) (was : Nat) : State :=
  let now := s.gf 0x40004 2 1
  if now = 0 then (s.setGf 0x40020 0 0 (bit s.running)).setGf 0x4002C 15 0 0
  else if now = was then s
  else State.setGf { s with shutter := { s.shutter with sync := s.shutter.sync.restart } } 0x40020 0 0 0

/-- What a shutter commit brings: C follows the period, and ticks, with them a follower's lock acquisition, begin when RUN is set (R11,
R12, R31, R36). -/
def State.shutterApplied (s : State) (ran : Bool) (was : Nat) : State :=
  let s := (s.sourceApplied was).showCycles
  if s.running && !ran then
    let s := if s.gf 0x40004 2 1 = 0 then s else s.setGf 0x40020 0 0 0
    let next := s.clock + cyclesOf (s.greg 0x40000).toNat s.shutter.freq2
    { s with shutter := { s.shutter with
        lastTick := s.clock, fraction := 0, nextTick := next, guardAt := next - 512, guarded := false, sync := s.shutter.sync.restart } }
  else s

/-- An enabled port trains, a disabled one goes down; a failed one retrains only while RUN is 0 or HALTED is 1 (R305). The width in
force of a trained one is the smaller of the width allowed and that of its lanes (R299). -/
def State.portApplied (s : State) (p : Nat) : State :=
  if !s.gbit (portOff p) 0 then State.setPort (s.setGf (portOff p + 4) 2 0 0) p Port.reset
  else if s.portState p = 0 || (s.portState p = 4 && (!s.running || s.halted)) then
    State.setPort (s.setGf (portOff p + 4) 2 0 1) p Port.reset
  else if s.portState p = 2 || s.portState p = 3 then
    s.setGf (portOff p + 4) 4 3 (min (s.gf (portOff p) 2 1) (s.port p).lanes)
  else s

/-- The forced class (R439, R443): P20 on a low input, else the strap class less the steps that heat has taken. -/
def State.forceLimit (s : State) : Nat := if s.power.lowInput then 0 else s.strapClass - s.power.heatSteps

/-- The lowest of the strap class, the committed class and the forced class (R441). -/
def State.classDue (s : State) : Nat :=
  let c := s.gf 0x30000 1 0
  if c < s.forceLimit then c else s.forceLimit

/-- A class change, if one is due, waits for the next tick (R442). -/
def State.askClass (s : State) : State :=
  { s with power := { s.power with pending := if s.classDue = s.gf 0x3000C 1 0 then none else some s.classDue } }

/-- A commit that passed every check takes effect; LAST_CODE keeps the code of the latest rejection (R36, log entry 15). -/
def State.applyCommit (s : State) (b : Block) : State :=
  let s := s.setPending b false
  match b with
  | .core c => s.setCore c (s.core c).applyShadows
  | .shutter => (s.applyGlob b).shutterApplied s.running (s.gf 0x40004 2 1)
  | .link => (List.range 16).foldl State.portApplied (s.applyGlob b)
  | .cpm => (s.applyGlob b).askClass

/-- The checks of R61 from the first on, and the commit. -/
def State.tryCommit (s : State) (b : Block) : State :=
  match s.blkRights b with
  | some (r, code) => s.rejectCommit b r code
  | none =>
    match s.blkReason b with
    | some r => s.rejectCommit b r 0x0204#16
    | none => s.applyCommit b

/-- A write of GO = 1 (R60–R62). Without IMMEDIATE every check waits, with PENDING set, for the tick that applies the commit; with
it they are made at the write, who may commit before the block's idleness (log entry 15). -/
def State.commitGo (s : State) (b : Block) (immediate : Bool) : State :=
  if s.blkPending b then s
  else if !immediate then s.setPending b true
  else match s.blkRights b with
    | some (r, code) => s.rejectCommit b r code
    | none => if s.blkIdle b false then s.tryCommit b else s.rejectCommit b (blkBusy b) 0x0204#16

/-- A write of CANCEL = 1 (R62). -/
def State.commitCancel (s : State) (b : Block) : State := if s.blkPending b then s.setPending b false else s

/-- Whether the shutter raises ticks: RUN is in force and the reference clock is present; after its loss one more tick brings
the stop bath (R35, R446). -/
def State.ticking (s : State) : Bool := s.running && (!s.power.refLost || s.shutter.stopNext)

/-- The first tick at which the block is idle (R60). -/
def State.commitTick (s : State) (b : Block) : State :=
  if s.ticking && s.blkPending b && s.blkIdle b true then (s.atCycle s.shutter.nextTick).tryCommit b else s

end Sys2Proof.Machine
end

