-- ==== Sys2Proof/Machine/Queues.lean ====
section
/-! DEFINITION. The notification queues (R243, R348) and the two services that consume one: ingest, whose slots frames release
(R351), and the serving endpoint, whose tokens they post (R360, R422). -/

namespace Sys2Proof.Machine

/-- A slot of an ingest stream is released: it no longer holds a batch. -/
def Stream.release (t : Stream) (slot : Nat) : Stream := { t with full := t.full.filter (fun i => decide (i ≠ slot)) }

/-- A record in the form of a stream's records: a 16-byte header and its bytes, sealed under a tenant's key if there is one
(R350, R422). -/
def sealedRecord (key : Option (List Byte)) (source arrival : Nat) (bytes : List Byte) : List Byte :=
  match key with
  | none => leBytes 4 bytes.length ++ leBytes 4 source ++ leBytes 8 arrival ++ bytes
  | some k =>
    let h := leBytes 4 (bytes.length + 16) ++ leBytes 4 source ++ leBytes 8 arrival
    let (ct, tag) := gcmSeal k (leBytes 4 source ++ leBytes 8 arrival) h bytes
    h ++ ct ++ tag

/-- The tenant key of an index. -/
def State.tenantKey (s : State) (t : Option (BitVec 4)) : Option (List Byte) :=
  match t with
  | some i => s.sec.tenants.getD i.toNat none
  | none => none

/-- A token that a frame has posted is appended to the response ring (R360). Which stream it answers is free where more than
one is open, and so is whether the host has emptied the ring (log entry 25). -/
def State.respond (s : State) (v : Serving) (token : Nat) : State :=
  let s := s.tick1
  let n := v.args.regions.length
  let i := Config.freeNat s.freeCtr "stream of a token" % (if n = 0 then 1 else n)
  let k := v.seqs.getD i 0
  let r := sealedRecord (s.tenantKey (v.args.tenants.getD i none)) i k (leBytes 4 token)
  let at_ := v.args.response.toNat + 64 * (v.responses.length % (if v.args.depth = 0 then 1 else v.args.depth))
  let first := v.responses.isEmpty || decide (Config.freeNat s.freeCtr "response ring empty" % 2 = 1)
  let s := State.emit { s with svc := { s.svc with
    serving := some { v with seqs := setAt v.seqs i (k + 1), responses := v.responses ++ [r] } } } (.hostWrite at_ r)
  if first then s.vector 37 else s

/-- A post to a queue that no service consumes: mirrored into the host ring bound to it, or held. -/
def State.hold (s : State) (q : Nat) (entry : List Byte) : State :=
  match s.svc.rings.getD q none with
  | some (base, n, i) =>
    State.vector (State.emit { s with svc := { s.svc with rings := setAt s.svc.rings q (some (base, n, (i + 1) % n)) } }
      (.hostWrite (base + 16 * i) entry)) (18 + q)
  | none =>
    let l := s.svc.queues.getD q []
    if 256 ≤ l.length then (s.bumpG 0x70208 1).logEvent 0x0608#16
    else
      let s := { s with svc := { s.svc with queues := setAt s.svc.queues q (l ++ [entry]) } }
      if l.isEmpty then s.vector (18 + q) else s

/-- A post to a notification queue (R348): the service bound to the queue consumes it at once (log entry 25). -/
def State.post (s : State) (q : Nat) (entry : List Byte) : State :=
  let v := natAt entry 0 4
  if s.svc.streams.any fun t => decide (t.args.queue.toNat = q) then
    State.vector { s with svc := { s.svc with streams := s.svc.streams.map fun t =>
      if t.args.queue.toNat = q then t.release v else t } } (18 + q)
  else
    match s.svc.serving with
    | some x => if x.args.queue.toNat = q then (s.vector (18 + q)).respond x v else s.hold q entry
    | none => s.hold q entry

/-- The posts of a frame, in issue order. -/
def State.postAll (s : State) (core : Nat) (fn : BitVec 48) (l : List (BitVec 4 × Word)) : State :=
  l.foldl (fun s r => s.post r.1.toNat
    (leBytes 4 r.2.toNat ++ leBytes 6 fn.toNat ++ leBytes 2 core ++ List.replicate 4 0#8)) s

end Sys2Proof.Machine
end

