-- ==== Sys2Proof/Machine/Frames.lean ====
section
/-! DEFINITION. The frames of the whole module: their guard-band work, the schedule ring with its shift window, overruns and their
policies, abandoned frames, the stop bath, and what a tick does to the global step, the plates and the predictor (R12–R29, R155,
R200, R215). -/

namespace Sys2Proof.Machine

/-! ## Flits the module sends on its own -/

/-- A flit of 256 bytes (R301). -/
def flitOf (typ seq len : Nat) (som eom : Bool) (payload : List Byte) : List Byte :=
  let b := leBytes 4 (typ + 16 * (seq % 4096) + 65536 * len + 2 ^ 24 * bit som + 2 ^ 25 * bit eom) ++ bytesAt payload 0 248
  b ++ leBytes 4 (crc32 b)

/-- The epoch of a roster record; 0 without one (R318). -/
def epochOf (r : Option RosterRec) : Word :=
  match r with
  | some r => r.epoch
  | none => 0#32

/-- The roster epoch in force (R318). -/
def State.epoch (s : State) : Word := epochOf s.roster.inForce

/-- One frame number comes before another (R14). -/
def fnBefore (a b : BitVec 48) : Bool := (a - b).msb

/-- The roster record in force at a frame number: the staged one from its boundary on, the replaced one before the last boundary
(R320, R321). -/
def State.rosterAt (s : State) (fn : BitVec 48) : Option RosterRec :=
  let now := match s.roster.lastSwitch with
    | some (old, b) => if fnBefore fn b then old else s.roster.inForce
    | none => s.roster.inForce
  match s.roster.staged with
  | some r => if fnBefore fn r.boundary then now else some r
  | none => now

/-- The staged epoch, or the one in force (R316). -/
def State.nextEpoch (s : State) : Word :=
  match s.roster.staged with
  | some r => r.epoch
  | none => s.epoch

/-- A TICK flit's payload (R316). -/
def tickPayload (b : TickBlock) : List Byte :=
  leBytes 6 b.fn.toNat ++ leBytes 2 b.flags.toNat ++ leBytes 4 b.stamp.toNat ++ leBytes 4 b.period.toNat ++
    leBytes 4 b.repoch.toNat ++ leBytes 4 b.next.toNat

/-- A port runs at x4, as tick symbols need (R315). -/
def State.tickPort (s : State) (port : Nat) : Bool := decide (s.gf (portOff port + 4) 4 0 = 3 + 8 * 2)

/-- A TICK flit leaves on a port that runs at x4 (R315). -/
def State.sendTick (s : State) (port : Nat) (b : TickBlock) : State :=
  if s.tickPort port then s.emit (.flit port (flitOf 5 0 0 false false (tickPayload b))) else s

/-- SHT_STATUS.LOCKED. -/
def State.locked (s : State) : Bool := s.gbit 0x40020 0

/-- SHT_CTL.SOURCE in force: 0 LOCAL, 1 LINK, 2 PIN. -/
def State.source (s : State) : Nat := s.gf 0x40004 2 1

/-- SHT_CTL.MASTER in force. -/
def State.master (s : State) : Bool := s.gbit 0x40004 3

/-- A tick block of this module (R316). -/
def State.ownBlock (s : State) (up halt : Bool) (stamp : Nat) : TickBlock :=
  { fn := s.shutter.fn
    flags := BitVec.ofNat 16 (bit up + 2 * bit halt + 4 * bit s.shutter.sync.haltReport +
      8 * bit s.shutter.sync.skewReport + 16 * bit s.locked)
    stamp := BitVec.ofNat 32 stamp, period := s.greg 0x40000, repoch := epochOf (s.rosterAt s.shutter.fn), next := s.nextEpoch }

/-- The ports of SHT_SYNC_PORT.DOWNSTREAM. -/
def State.downstream (s : State) : List Nat := (List.range 16).filter fun p => s.gbit 0x40030 (16 + p)

/-- A block goes out on every downstream port (R29). -/
def State.sendDown (s : State) (b : TickBlock) : State := s.downstream.foldl (fun s p => s.sendTick p b) s

/-! ## KV commits (R361) -/

/-- A commit record advances CLEN, or is ignored and counted. -/
def State.kvCommit (s : State) (r : KvCommit) : State :=
  let a := 0xA0000 + 32 * r.region
  if 255 < r.region || s.gf (a + 4) 15 0 = 0 || r.length < s.greg (a + 12) || s.greg (a + 8) < r.length then s.bumpG 0x70210 1
  else s.setGreg (a + 12) r.length

/-! ## The guard band (R12) -/

/-- The overrun policy of a frame kind (R24). -/
def State.policy (s : State) (kind : Nat) : Nat := if kind < 4 then s.gf 0x40028 (2 * kind + 1) (2 * kind) else 0

/-- A core's frame brings a stop bath at the next tick (R24, R27, R28). -/
def State.coreHalts (s : State) (c : Core) : Bool :=
  c.frame.haltNext || (c.frame.aborted && !s.gbit 0x40028 8) || c.frame.abandoned ||
    (c.frame.overrun && decide (s.policy c.frame.kind = 2))

/-- A stop bath follows at the next tick. -/
def State.haltComing (s : State) : Bool :=
  s.shutter.stopNext || s.shutter.sync.haltSeen || s.cores.any fun c => s.coreHalts c

/-- A record on its way to the ring, with CS_CTL.EN in force (R126). -/
def State.sheetOut (s : State) (core : Nat) (fn : BitVec 48) (bytes : List Byte) : State :=
  if s.gbit 0x40100 0 then { s with sheets := s.sheets ++ [⟨core, fn, bytes⟩] } else s

/-- The entry that is due at the next tick is not run for a late frame under DROP_NEXT: its frame number is in the late frame's record
(R24). -/
def State.dropNext (s : State) (halt : Bool) (f : Frame) : Frame :=
  if f.overrun && decide (s.policy f.kind = 1) && f.dropped.isNone && !halt then { f with dropped := some (s.shutter.fn + 1#48) }
  else f

/-- The guard-band work of a core's frame: the merge, the record, the commits and posts, the fill (R12, R379); a frame that brings a
stop bath does so whatever starts after it on the core (R27). -/
def State.guardCore (halt : Bool) (s : State) (c : CoreId) : State :=
  let s := s.tick1
  let s := if s.coreHalts (s.core c) then s.stopBath else s
  let s := s.setCore c { s.core c with frame := s.dropNext halt (s.core c).frame }
  let pass (w : String) : Bool := decide (Config.freeNat s.freeCtr w % 2 = 1)
  let x := (s.core c).guardMerge
  let f := x.frame
  let rec_ := f.record c.val halt
  let s := s.setCore c ((x.publish rec_).guardEnd (pass "old line passes") (pass "queued line passes"))
  let s := s.sheetOut c.val f.fn rec_
  let s := if f.normal then f.kvCommits.foldl State.kvCommit (s.postAll c.val f.fn f.signals) else s
  s.drainReports c

/-- Every core in turn. -/
def State.eachCore (s : State) (p : State → CoreId → Bool) (f : State → CoreId → State) : State :=
  (List.finRange 144).foldl (fun s c => if p s c then f s c else s) s

/-- The frame's guard band began before it retired (R24). -/
def Frame.overruns (f : Frame) (guardAt : Nat) : Bool :=
  match f.retiredAt with
  | .none => true
  | .some t => decide (guardAt < t)

/-- The overrun of a frame is recorded, once (R24). -/
def State.markOverrun (s : State) (c : CoreId) : State :=
  let x := s.core c
  let s := s.setCore c { x with frame := { x.frame with overrun := true } }
  ((s.bumpG 0x40024 1).setGf 0x40020 2 2 1).raiseSht 0x0201#16

/-- The slots of unavailable logical cores in a frame set hold 0xFF bytes (R126). -/
def State.emptySlots (s : State) (fn : BitVec 48) : State :=
  s.eachCore (fun s c => !s.available c) fun s c => s.sheetOut c.val fn (List.replicate 128 0xFF#8)

/-- BEHIND (R25). -/
def State.showBehind (s : State) : State :=
  s.setGf 0x40020 5 5 (bit (s.cores.any fun c => !c.lateStarts.isEmpty || (c.frame.live && decide (c.frame.ownTick < c.frame.started))))

/-- A frame starts on a core in a cycle (R15, R17, R21). -/
def State.startCore (l : FrameStart) (start : Nat) (s : State) (c : CoreId) : State :=
  s.onCore c fun k x => x.enter l start k.shift

/-- A frame that started late has missed its own guard band: it is an overrun; a dark or spare slot, which no policy concerns,
ends at once (R17, R24, log entry 19). -/
def State.startedPast (s : State) (c : CoreId) : State :=
  let f := (s.core c).frame
  if f.live && !f.overrun && decide (f.guardAt ≤ f.started) then
    if f.kind < 4 then s.markOverrun c else s.guardCore s.haltComing c
  else s

/-- The frames that wait for the end of the last one start: each at the later of its own tick and the end of the guard-band work
before it, as far as that comes before the next tick (R24). -/
def State.startNext (c : CoreId) : List FrameStart → State → State
  | [], s => s.setCore c { s.core c with lateStarts := [] }
  | l :: rest, s =>
    let t := max l.tick (s.core c).workEnd
    if s.shutter.nextTick ≤ t then s.setCore c { s.core c with lateStarts := l :: rest }
    else
      let s := (s.startCore l t c).startedPast c
      if (s.core c).frame.live then s.setCore c { s.core c with lateStarts := rest } else State.startNext c rest s

/-! ## The tick (R11, R14, R17, R19, R26, R28) -/

/-- The tick after this one: C cycles and the fraction carried from here (R11), the guard band the last 512 of the C (R12); the run of
good symbols of a follower ends at a tick that had none (R31). -/
def Shutter.advance (h : Shutter) (period : Nat) : Shutter :=
  let num := h.fraction + cycleNum period h.freq2
  { h with
    fn := h.fn + 1#48, lastTick := h.nextTick, nextTick := h.nextTick + num / 2000, fraction := num % 2000
    guardAt := h.nextTick + cyclesOf period h.freq2 - 512, guarded := false, ticks := h.ticks + 1
    sync := { h.sync with
      gotSymbol := false, missing := if h.sync.gotSymbol then 0 else h.sync.missing + 1
      good := if h.sync.gotSymbol then h.sync.good else 0
      ticksSince := if h.sync.symbols = 0 then 0 else h.sync.ticksSince + 1 } }

/-- A frame that has not retired by the second tick after its own (R26); `prev` is the cycle of the tick before this one. -/
def State.abandonDue (prev : Nat) (s : State) (c : CoreId) : Bool :=
  let f := (s.core c).frame
  f.live && f.retiredAt.isNone && decide (f.ownTick < prev)

/-- A frame is abandoned: its guard-band work runs, nothing more issues, and a stop bath follows at this tick, not from the
next (R26, R124, log entry 19). -/
def State.abandon (s : State) (c : CoreId) : State :=
  let x := (s.core c).waitAbandoned s.clock
  let s := s.setCore c { x with
    frame := { x.frame with abandoned := true, haltNext := true }, seq := { x.seq with stopped := true }, lateStarts := [] }
  ((s.setGf 0x40020 2 2 1).raiseSht 0x0207#16).guardCore true c

/-- The stop bath begins: HALTED, the report, vector 0, and the STOP commands that waited (R28, R344, R346). A frame that then still
runs late issues on until it retires or is abandoned (log entry 19). -/
def State.halt (s : State) : State :=
  let s := s.mapCores fun _ c => { c with lateStarts := [] }
  let s := { s with shutter := { s.shutter with
    stopNext := false, masterHalt := s.shutter.masterHalt || s.master
    sync := { s.shutter.sync with haltReport := true, haltSeen := false } } }
  let s := (((s.setGf 0x40020 3 3 1).alertFor 1).vector 0).showBehind
  let waits := s.svc.stops
  waits.foldl (fun s h => s.finish h 0x0003 0#16 []) { s with svc := { s.svc with stops := [] } }

/-- The ring length of the image in force. -/
def State.ring (s : State) : Nat :=
  match s.image with
  | some i => if i.ring = 0 then 1 else i.ring
  | none => 1

/-- The ring position that a core runs at this tick, and by how many ticks it stays behind the ring: a spare entry that it reaches is
skipped and closes a shift (R19). -/
def Core.slotDue (c : Core) (pos ring : Nat) : Nat × Nat :=
  let at_ (n : Nat) : Nat := (pos + n * ring - n) % ring
  if c.behind = 0 then (pos, 0)
  else match c.sched[at_ c.behind]? with
    | some e => if e.kind = 5 then (at_ (c.behind - 1), c.behind - 1) else (at_ c.behind, c.behind)
    | none => (at_ c.behind, c.behind)

/-- A frame that is to start at this tick. -/
def Shutter.startAt (h : Shutter) (slot : Nat) (fn : BitVec 48) (replay : Bool) : FrameStart := ⟨slot, fn, h.lastTick, h.guardAt, replay⟩

/-- The entry due on a core: it starts, or waits for the frames before it, or is dropped (R24). -/
def State.runDue (pos : Nat) (s : State) (c : CoreId) : State :=
  let x := s.core c
  let due := x.slotDue pos s.ring
  let x := { x with behind := due.2 }
  let s := s.setCore c x
  let l := s.shutter.startAt due.1 s.shutter.fn false
  let f := x.frame
  if f.live then
    s.setCore c (if s.policy f.kind = 1 then { x with frame := { f with dropped := some s.shutter.fn } }
      else { x with lateStarts := x.lateStarts ++ [l] })
  else if f.dropped = some s.shutter.fn || (f.dropped.isSome && decide (s.shutter.lastTick < x.workEnd)) then s
  else s.startNext c (x.lateStarts ++ [l])

/-- A frame, ended or running late, is due for replay (R19, R370). -/
def Core.replays (c : Core) : Bool := c.frame.replayDue && !c.frame.aborted && !c.frame.abandoned

/-- A core with a schedule. -/
def Core.scheduled (c : Core) : Bool := !c.sched.isEmpty

/-- Re-exposure (R19): the cores with the miss run their frames again under the frame number they had (R15, R326), one that runs late
after its end (R24), before whatever waits there; the others leave the slot empty, and every core falls a tick behind the ring. -/
def State.reexpose (s : State) : State :=
  let s := s.mapCores fun _ c => if c.scheduled then { c with behind := c.behind + 1 } else c
  s.eachCore (fun s c => (s.core c).replays) fun s c =>
    let x := s.core c
    let ls := s.shutter.startAt x.frame.entry x.frame.fn true :: x.lateStarts
    if x.frame.live then s.setCore c { x with lateStarts := ls } else s.startNext c ls

/-- SHT_SLOT shows the entry of the lowest-numbered core with a schedule, and the shift window. -/
def State.showSlot (s : State) : State :=
  let e := match s.cores.toList.find? fun c => c.scheduled with
    | some c => c.frame.entry
    | none => 0
  (s.setGf 0x40034 5 0 e).setGf 0x40034 6 6 (bit s.shiftOpen)

/-- The frames of this tick. -/
def State.runFrames (s : State) : State :=
  let pos := s.shutter.ringPos
  let s := { s with shutter := { s.shutter with ringPos := (pos + 1) % s.ring } }
  let s := if !s.shiftOpen && s.cores.any (fun c => c.replays) then s.reexpose
    else s.eachCore (fun s c => (s.core c).scheduled) (State.runDue pos)
  s.showSlot.showBehind

/-- The tick symbols a tick sends: the master's downstream, with HALT if a report has reached it, and a follower's
upstream (R28, R315, R316). A report, and HALT, go out in one block (log entry 47). -/
def State.sendTicks (s : State) : State :=
  let s := s.tick1
  let stamp := Config.freeNat s.freeCtr "insertion offset" % 18
  let s := if s.master then
      let halt := s.shutter.masterHalt
      let s := s.sendDown (s.ownBlock false halt stamp)
      let s := { s with shutter := { s.shutter with masterHalt := false } }
      if halt && !s.halted then s.stopBath else s
    else s
  if s.source = 1 then
    let s := s.sendTick (s.gf 0x40030 3 0) (s.ownBlock true false stamp)
    { s with shutter := { s.shutter with sync := { s.shutter.sync with haltReport := false, skewReport := false } } }
  else s

/-! ## Global step, plates and predictor at a tick -/

/-- The plate roles at a UADV tick with the new global step `t` (R215). -/
def plateAdvance (w : Word) (freeze fix : Option Nat) (t : Nat) : Word :=
  let st := fld w 4 4
  let neg := fld w 5 5
  let put (mode src dst stable neg : Nat) (w : Word) : Word :=
    setFld (setFld (setFld (setFld (setFld w 1 0 mode) 2 2 src) 3 3 dst) 4 4 stable) 5 5 neg
  let due := freeze = some t
  let missed (w : Word) : Word := if due then setFld w 6 6 1 else w
  match fld w 1 0 with
  | 0 =>
    let s' := 1 - st
    if due then put 1 s' (1 - s') s' s' w else put 0 s' (1 - s') s' neg w
  | 1 => missed (put 2 (1 - neg) (1 - neg) neg neg w)
  | _ =>
    match fix with
    | some f =>
      if f ≤ t then missed (put 0 (1 - neg) neg (1 - neg) neg w) else missed w
    | none => missed w

/-- A 40-bit step register pair with its ARM bit. -/
def Core.armedStep (c : Core) (off : Nat) : Option Nat :=
  if bitAt (c.reg (off + 4)) 31 then some ((c.reg off).toNat + c.rf (off + 4) 7 0 * 2 ^ 32) else none

/-- The tick after a UADV (R200, R215). -/
def Core.advance (c : Core) : Core :=
  if !bitAt (c.reg 0x6008) 8 || c.frame.live then c
  else
    let t := (c.gstep + 1) % 2 ^ 40
    let c := (c.setReg 0x6004 (BitVec.ofNat 32 t)).setReg 0x6008 (BitVec.ofNat 32 (t / 2 ^ 32))
    let c := { c with factors := List.replicate 16 none, filter := [] }
    let c := (c.setRf 0x6050 15 0 0).setRf 0x6054 15 0 0
    let mode := fld (c.reg 0x6020) 1 0
    let w := plateAdvance (c.reg 0x6020) (c.armedStep 0x6024) (c.armedStep 0x602C) t
    let c := c.setReg 0x6020 w
    if mode = 0 || (mode = 2 && fld w 1 0 = 0) then
      (c.setReg 0x6034 (BitVec.ofNat 32 t)).setReg 0x6038 (BitVec.ofNat 32 (t / 2 ^ 32))
    else c

/-- The states that PCTL asked for at an entry take effect (R155). -/
def Core.predictorSet (c : Core) (j : BitVec 4) : Core :=
  let l := c.frame.pctl.filter fun r => r.1 = j
  let c := { c with frame := { c.frame with pctl := c.frame.pctl.filter fun r => r.1 ≠ j } }
  let off := 0x7C10 + 32 * j.toNat
  match l.getLast? with
  | none => c
  | some (_, en) => if en then (c.setRf off 0 0 1).setRf off 1 1 0 else c.setRf off 0 0 0

/-! ## Meanings -/

/-- COMMIT_APPLY (R60, R61). -/
def execCommitApply (b : Block) (s : State) : Host.Outcome State Fault Refusal := .next (s.commitTick b)

/-- PREDICTOR_ENABLED_SET (R155). -/
def execPredictorEnabledSet (c : CoreId) (j : BitVec 4) (s : State) : Host.Outcome State Fault Refusal :=
  .next (s.setCore c ((s.core c).predictorSet j))

end Sys2Proof.Machine
end

