-- ==== Sys2Proof/Machine/TickSync.lean ====
section
/-! DEFINITION. Tick synchronisation (R29–R34, R316, R317, R321): the symbols a follower receives, lock and its loss, halt
and skew reports on their way to the master, and the echo measurement. -/

namespace Sys2Proof.Machine

/-- The follower's synchronisation state replaced. -/
def State.setSync (s : State) (y : Sync) : State := { s with shutter := { s.shutter with sync := y } }

/-- |x| ≤ n. -/
def within (x : Int) (n : Nat) : Bool := decide (x.natAbs ≤ n)

/-- The slew before the next tick: the phase error, limited to ±8 ns (R30). -/
def slewOf (x : Int) : Int := if 8 < x then 8 else if x < -8 then -8 else x

/-- The time base moved by `ns` nanoseconds, and with it the next tick (R30, R31), but not into the past. -/
def State.moveBase (s : State) (ns : Int) : State :=
  let num := (s.shutter.fraction : Int) + ns * s.shutter.freq2
  { s with shutter := { s.shutter with
      nextTick := max s.clock ((s.shutter.nextTick : Int) + num / 2000).toNat, fraction := (num % 2000).toNat } }

/-- Lock is lost, or was not reached in time: TICK_SYNC_LOST, a stop bath at the next tick (R32, R33), and acquisition from the first
symbol on (R31, log entry 52). -/
def State.syncLost (s : State) : State :=
  let s := ((s.setGf 0x40020 0 0 0).setGf 0x40020 1 1 1).raiseSht 0x0503#16
  (s.setSync s.shutter.sync.restart).stopBath

/-- The time base jumps to the master's phase (R31, step 2), and FN is the symbol's; an edge on TICK_IN carries none, and FN stays (log
entry 52). -/
def State.jump (s : State) (err : Int) (fn : Option (BitVec 48)) : State :=
  let s := s.moveBase err
  match fn with
  | some f => { s with shutter := { s.shutter with fn := f } }
  | none => s

/-- A symbol or edge that gives the phase error of this tick (R30–R33): `interval` is the time since the one before, in ns. Once the time
base has jumped, it is slewed before the next tick; a tick without a symbol breaks the run of good ones, and not that of errors above
50 ns (log entry 52). -/
def State.symbol (s : State) (err : Int) (interval : Nat) (fn : Option (BitVec 48)) : State :=
  let y := s.shutter.sync
  let period := (s.greg 0x40000).toNat
  let y := { y with gotSymbol := true, missing := 0 }
  if y.symbols = 0 then s.setSync { y with symbols := 1, ticksSince := 0 }
  else if y.symbols = 1 then
    if within ((interval : Int) - period) 1000 then
      (s.jump err fn).setSync { y with symbols := 2, good := 0, bad := 0 }
    else s.setSync y
  else
    let y := { y with good := if within err 20 then y.good + 1 else 0, bad := if within err 50 then 0 else y.bad + 1 }
    let s := ((s.setGf 0x4002C 15 0 (twosOf 16 err)).moveBase (slewOf err)).setSync y
    if s.locked then (if 2 ≤ y.bad then s.syncLost else s)
    else if 16 ≤ y.good then s.setGf 0x40020 0 0 1
    else s

/-- A detected roster skew (R321): counted, reported upstream, and a stop bath at the next tick. -/
def State.rosterSkew (s : State) (counted : Bool) : State :=
  let s := (if counted then s.bumpG 0x60818 1 else s).logEvent 0x0502#16
  (s.setSync { s.shutter.sync with skewReport := true }).stopBath

/-- A downstream tick symbol on the upstream port (R29, R30, R316, R321): it is forwarded, and where ticks are raised it corrects the
time base; its REPOCH must be that of the roster in force at its tick. -/
def State.tickSymbol (s : State) (b : TickBlock) (arriveNs : Int) (interval : Nat) : State :=
  let s := s.tick1
  let stay := Config.freeNat s.freeCtr "residence" % 33
  let s := s.sendDown { b with stamp := b.stamp + BitVec.ofNat 32 stay }
  if !s.ticking then s
  else
    let err := arriveNs - (b.stamp.toNat / 4 : Nat) - (s.gf 0x4002C 31 16 : Nat)
    let s := s.symbol err interval (some b.fn)
    let s := if bitAt (b.flags.setWidth 32) 1 then s.setSync { s.shutter.sync with haltSeen := true } else s
    match s.rosterAt b.fn with
    | some r => if r.epoch = b.repoch then s else s.rosterSkew true
    | none => s

/-- TICK_FLIT, on the upstream port at x4 (R29, R315). -/
def execTickFlit (port : BitVec 4) (block : TickBlock) (arriveNs : Int) (intervalNs : Nat) (s : State) :
    Host.Outcome State Fault Refusal :=
  .next (if decide (s.source = 1) && decide (s.gf 0x40030 3 0 = port.toNat) && s.tickPort port.toNat then
    s.tickSymbol block arriveNs intervalNs else s)

/-- UPSTREAM_TICK_FLIT (R316): a report is forwarded with this module's own flags, reaches the master, or the block is
absorbed. -/
def execUpstreamTickFlit (port : BitVec 4) (block : TickBlock) (s : State) : Host.Outcome State Fault Refusal :=
  .next (if fld (block.flags.setWidth 32) 3 2 = 0 || !s.gbit 0x40030 (16 + port.toNat) || !s.tickPort port.toNat then s
    else if s.master then { s with shutter := { s.shutter with masterHalt := true } }
    else if s.source = 1 then
      let s := s.tick1
      s.sendTick (s.gf 0x40030 3 0) { block with
        flags := block.flags ||| (s.ownBlock true false 0).flags
        stamp := block.stamp + BitVec.ofNat 32 (Config.freeNat s.freeCtr "residence" % 33) }
    else s)

/-- TICK_IN_EDGE (R34): the master's tick with no link delay; `offsetNs` is its instant less this module's tick. It carries no frame
number (log entry 52). -/
def execTickInEdge (offsetNs : Int) (intervalNs : Nat) (s : State) : Host.Outcome State Fault Refusal :=
  .next (if s.ticking && decide (s.source = 2) then s.symbol offsetNs intervalNs none else s)

/-- LOCK_TIMEOUT (R32). -/
def execLockTimeout (s : State) : Host.Outcome State Fault Refusal :=
  .next (if s.source ≠ 0 && !s.locked && decide (0 < s.shutter.sync.symbols) && decide (4096 ≤ s.shutter.sync.ticksSince) then
    s.syncLost else s)

/-- TICK_SYNC_LOST (R33, R34): four consecutive symbols or edges are missing. -/
def execTickSyncLost (s : State) : Host.Outcome State Fault Refusal :=
  .next (if s.source ≠ 0 && s.locked && decide (4 ≤ s.shutter.sync.missing) then s.syncLost else s)

/-- An ECHO flit's payload (R301). -/
def echoPayload (reply : Bool) (id : Half) (residence : Nat) : List Byte :=
  leBytes 1 (bit reply) ++ leBytes 2 id.toNat ++ leBytes 4 residence

/-- A port's delay is due to be measured: at its training, and 1,024 ticks after the last measurement (R30). -/
def State.echoDue (s : State) (p : Nat) : Bool :=
  (decide (s.portState p = 2) || decide (s.portState p = 3)) &&
    match (s.port p).echoed with
    | none => true
    | some t => decide (t + 1024 ≤ s.shutter.ticks)

/-- ECHO_MEASUREMENT (R30): where it is due, a request leaves. -/
def execEchoMeasurement (port : BitVec 4) (s : State) : Host.Outcome State Fault Refusal :=
  .next (let p := port.toNat
    if !s.echoDue p then s
    else
      let id := s.shutter.sync.echoId + 1#16
      let s := s.setSync { s.shutter.sync with echoId := id }
      (s.setPort p { s.port p with echo := some id, echoed := some s.shutter.ticks }).emit
        (.flit p (flitOf 6 0 0 false false (echoPayload false id 0))))

/-- ECHO (R317): a request is answered; a response to the port's request under way gives the one-way delay. -/
def execEcho (port : BitVec 4) (reply : Bool) (id : Half) (residenceNs : Half) (roundTripNs : Word) (s : State) :
    Host.Outcome State Fault Refusal :=
  .next (if !reply then s.emit (.flit port.toNat (flitOf 6 0 0 false false (echoPayload true id (4 * residenceNs.toNat))))
    else if (s.port port.toNat).echo ≠ some id then s
    else
      let s := s.setPort port.toNat { s.port port.toNat with echo := none }
      let d := (roundTripNs.toNat - residenceNs.toNat + 1) / 2
      let s := s.setGf (portOff port.toNat + 12) 15 0 d
      if s.source = 1 && decide (s.gf 0x40030 3 0 = port.toNat) then s.setGf 0x4002C 31 16 d else s)

end Sys2Proof.Machine
end

