-- ==== Sys2Proof/Machine/TickEvents.lean ====
section
/-! DEFINITION. The events of a tick beside its frames: the global step (R200, R215), a change of power class (R441–R444),
a frequency derate (R13, R290) and the switch to a staged roster epoch (R320, R321). -/

namespace Sys2Proof.Machine

/-! ## Global step -/

/-- A core state record of a checkpoint (R383). -/
def Core.stateRecord (n : Nat) (c : Core) : List Byte :=
  let pent (i : Nat) : Nat := (List.range 16).foldl (fun a j => a + c.rf (0x7C10 + 32 * j) i i * 2 ^ j) 0
  leBytes 4 n ++ ((List.range 8).flatMap fun i => leBytes 4 (c.reg (0x2040 + 4 * i)).toNat) ++
    leBytes 2 (pent 0) ++ leBytes 2 (pent 1) ++ List.replicate 24 0#8 ++
    ((List.range 64).flatMap fun i => leBytes 4 (c.reg (0x4100 + 4 * i)).toNat) ++
    ((List.range 256).flatMap fun i => leBytes 4 (c.reg (0x4400 + 4 * i)).toNat) ++ List.replicate 704 0#8

/-- Records of a stream that batches already consumed hold: those emitted less the ones that wait in the batch under way and in
full slots (R351, log entry 20). -/
def Stream.position (t : Stream) : Nat := t.cursor - t.rows.length - t.full.length * t.args.batch

/-- The cursor that the batches up to a global step have reached is recorded against it, when the first core takes the step (R351,
log entry 20). -/
def State.recordCursor (s : State) (step : Nat) : State :=
  match s.svc.streams with
  | [] => s
  | t :: _ =>
    if s.svc.cursors.any fun r => r.1 = step then s
    else { s with svc := { s.svc with cursors := s.svc.cursors ++ [(step, t.position)] } }

/-- The cursor recorded against a global step. -/
def State.cursorAt (s : State) (step : Nat) : Nat :=
  match s.svc.cursors.find? fun r => r.1 = step with
  | some r => r.2
  | none => 0

/-- The negative's address and length in bytes, as a core's registers give them (R215, R219). -/
def Core.negative (c : Core) : Nat × Nat :=
  let p := c.rf 0x6020 5 5
  ((c.reg (0x6040 + 8 * p)).toNat / 4096 * 4096 + c.rf (0x6044 + 8 * p) 6 0 * 2 ^ 32, (c.reg 0x6064).toNat * 4096)

/-- The frozen state of a core joins the checkpoint under way; the first core that freezes freezes the module's (R215,
R356). -/
def State.freezeCore (s : State) (c : CoreId) : State :=
  match s.svc.ckpt with
  | none => s
  | some k =>
    if decide (fld ((s.core c).reg 0x6020) 1 0 ≠ 1) || (s.core c).gstep ≠ k.step then s
    else
      let k := if k.frozen then k
        else { k with
          frozen := true, fnFreeze := s.shutter.fn, repoch := s.epoch, cursor := s.cursorAt k.step
          neg := (s.core c).negative.1, len := (s.core c).negative.2
          cores := (List.finRange 144).map fun i => (s.core i).stateRecord i.val }
      { s with svc := { s.svc with
          ckpt := some { k with cores := setAt k.cores c.val ((s.core c).stateRecord c.val) } } }

/-- A core takes the step that its UADV asked for (R200), and with it a checkpoint's freeze. -/
def State.stepCore (s : State) (c : CoreId) : State :=
  if !bitAt ((s.core c).reg 0x6008) 8 then s
  else ((s.recordCursor (((s.core c).gstep + 1) % 2 ^ 40)).setCore c (s.core c).advance).freezeCore c

/-- The tick after a UADV on a core (R200): its global step advances, unless its frame runs late, whose end then brings the step (log
entry 19). -/
def State.stepAdvance (s : State) (c : CoreId) : State :=
  if !s.ticking || !bitAt ((s.core c).reg 0x6008) 8 || (s.core c).frame.live then s
  else (s.atCycle s.shutter.nextTick).stepCore c

/-- GLOBAL_STEP_ADVANCE (R200, R215). -/
def execGlobalStepAdvance (c : CoreId) (s : State) : Host.Outcome State Fault Refusal := .next (s.stepAdvance c)

/-! ## Power class -/

/-- The class and the token pool in force follow the strap, the committed and the forced class (R441). -/
def State.setClass (s : State) : State :=
  let c := s.classDue
  let s := { s with power := { s.power with pending := none } }
  (s.setGf 0x3000C 1 0 c).setGf 0x3000C 25 16 (poolOf c)

/-- POWER_CLASS_CHANGE (R442, R444): at a tick, pool and class change together, and the token meter follows. -/
def execPowerClassChange (s : State) : Host.Outcome State Fault Refusal :=
  .next (if s.ticking && s.power.pending.isSome then ((s.atCycle s.shutter.nextTick).setClass).meter s.shutter.nextTick else s)

/-! ## Derate -/

/-- The core frequency is changed; the time base keeps its value. -/
def State.setFreq (s : State) (f : Nat) : State :=
  State.showCycles { s with shutter := { s.shutter with freq2 := f, baseNs := s.nowNs, baseClock := s.clock } }

/-- A derate step takes effect at a tick: C and B follow, SLK_LEFT falls by 1, and with no slack left a stop bath comes at
this tick (R13, R290). -/
def State.derateTick (s : State) : State :=
  if !s.ticking || s.shutter.derates = 0 then s
  else
    let s := s.atCycle s.shutter.nextTick
    let k := s.gf 0x20024 8 6 + 1
    let s := s.setGf 0x20024 8 6 k
    let s := State.setFreq { s with shutter := { s.shutter with derates := s.shutter.derates - 1 } } (derated k)
    if !s.loaded then s
    else
      let left := s.gf 0x50020 23 16
      if left = 0 then (s.raiseHtu 0x0701#16).stopBath else s.setGf 0x50020 23 16 (left - 1)

/-- DERATE_AT_TICK. -/
def execDerateAtTick (s : State) : Host.Outcome State Fault Refusal := .next s.derateTick

/-! ## Roster -/

/-- ROS_EPOCH, ROS_NEXT, ROS_BOUND and ROS_COUNT show the records held (R337). -/
def State.showRoster (s : State) : State :=
  let s := s.setGreg 0x60804 s.epoch
  let s := s.setGf 0x60814 13 0 (match s.roster.inForce with
    | some r => r.members.length
    | none => 0)
  match s.roster.staged with
  | some r =>
    ((s.setGreg 0x60808 r.epoch).setGreg 0x6080C (r.boundary.setWidth 32)).setGreg 0x60810
      (BitVec.ofNat 32 (r.boundary.toNat / 2 ^ 32 + 2 ^ 16))
  | none => ((s.setGreg 0x60808 s.epoch).setGreg 0x6080C 0#32).setGreg 0x60810 0#32

/-- A roster epoch's boundary: the staged record comes into force; a member that has staged none raises
ROSTER_EPOCH_SKEW (R320, R321). -/
def State.rosterSwitch (s : State) : State :=
  match s.roster.staged with
  | none => s.rosterSkew false
  | some r =>
    if s.shutter.fn ≠ r.boundary then s
    else State.showRoster { s with roster := { s.roster with
      inForce := some r, staged := none, lastSwitch := some (s.roster.inForce, r.boundary) } }

/-- ROSTER_EPOCH_SWITCH. -/
def execRosterEpochSwitch (s : State) : Host.Outcome State Fault Refusal := .next s.rosterSwitch

end Sys2Proof.Machine
end

