-- ==== Sys2Proof/Machine/Link.lean ====
section
/-! DEFINITION. The Xedeko Link ports: sequenced flits, acknowledgement and go-back-N retry (R301–R305), sessions and tag groups
(R306–R309), training (R299), the messages they carry (R310, R311, R314) and the meanings of the rows that concern them. -/

namespace Sys2Proof.Machine

/-! ## Flits -/

/-- The header of a flit. -/
def flitHead (f : List Byte) : Word := BitVec.ofNat 32 (natAt f 0 4)

/-- SEQ of a flit. -/
def flitSeq (f : List Byte) : Nat := fld (flitHead f) 15 4

/-- LEN of a flit. -/
def flitLen (f : List Byte) : Nat := fld (flitHead f) 23 16

/-- The flit's CRC matches and its type is defined (R301). -/
def flitGood (f : List Byte) : Bool :=
  decide (natAt f 252 4 = crc32 (bytesAt f 0 252)) && decide (fld (flitHead f) 3 0 < 8)

/-- A class-0x05 code of a port. -/
def State.raisePort (s : State) (p : Nat) (code : Half) : State :=
  (s.setGf (portOff p + 4) 31 16 code.toNat).logEvent code

/-- The loaded image's link plan uses the port. -/
def State.portPlanned (s : State) (p : Nat) : Bool :=
  match s.image with
  | some i => decide ((i.plan.ports.getD p ⟨0, 0, 0#32⟩).use ≠ 0)
  | none => false

/-- A module with a planned port out of service enters a stop bath at its next tick (R305). -/
def State.portLost (s : State) (p : Nat) : State := if s.portPlanned p then s.stopBath else s

/-- A port goes to FAILED (R305, R308). -/
def State.portFail (s : State) (p : Nat) (code : Half) : State :=
  State.portLost ((s.raisePort p code).setGf (portOff p + 4) 2 0 4) p

/-! ## Sending -/

/-- Flits that a retry buffer holds (R304). -/
def retryDepth : Nat := 512

/-- A sequenced flit goes out for the first time: into the retry buffer and onto the line. -/
def State.firstSend (p : Nat) (s : State) (f : List Byte) : State :=
  let x := s.port p
  ((s.setPort p { x with retry := x.retry ++ [⟨flitSeq f, f, 1⟩] }).bumpG (portOff p + 0x28) 1).emit (.flit p f)

/-- A sequenced flit is sent, or waits for room in the retry buffer (R304). -/
def State.pushFlit (p : Nat) (s : State) (f : List Byte) : State :=
  let x := { s.port p with given := (s.port p).given + 1 }
  let s := s.setPort p x
  if x.waiting.isEmpty && decide (x.retry.length < retryDepth) then State.firstSend p s f
  else s.setPort p { x with waiting := x.waiting ++ [f] }

/-- The flits that a port was given up to the `n`-th have left it, or are gone with the session that carried them. -/
def State.flitsLeft (s : State) (p n : Nat) : Bool :=
  let x := s.port p
  decide (x.given < n) || decide (n + x.waiting.length ≤ x.given)

/-- Waiting flits take the room that acknowledged ones have left. -/
def State.drainWaiting (s : State) (p : Nat) : State :=
  let x := s.port p
  let n := retryDepth - x.retry.length
  (x.waiting.take n).foldl (State.firstSend p) (s.setPort p { x with waiting := x.waiting.drop n })

/-- The nonce of a tag group (R307). -/
def groupNonce (k : LinkKey) : List Byte := xorBytes k.salt (List.replicate 4 0#8 ++ leBytes 8 k.group)

/-- Generation n + 1 from generation n (R309, log entry 21). -/
def LinkKey.next (k : LinkKey) : LinkKey :=
  let b := hkdfExpand (k.key ++ k.salt) (ascii "XL rekey") 44
  ⟨b.take 32, (b.drop 32).take 12, k.gen + 1, 0⟩

/-- The key after one more group, the next generation taking over at the announced group. -/
def LinkKey.step (k : LinkKey) (switch : Option Nat) : LinkKey × Option Nat :=
  let k := { k with group := k.group + 1 }
  if switch = some k.group then (k.next, none) else (k, switch)

/-- The DATA flits of one tag group and its TAG flit (R307): `l` holds the plaintext pieces with SOM and EOM. -/
def sealGroup (k : LinkKey) (first : Nat) (l : List (List Byte × Bool × Bool)) : List (List Byte) :=
  let head (i : Nat) (x : List Byte × Bool × Bool) : List Byte :=
    (flitOf 1 ((first + i) % 4096) x.1.length x.2.1 x.2.2 []).take 4
  let aad := (l.mapIdx head).flatten
  let (ct, tag) := gcmSeal k.key (groupNonce k) aad (l.flatMap (·.1))
  let datas := l.mapIdx fun i x =>
    flitOf 1 ((first + i) % 4096) x.1.length x.2.1 x.2.2 (bytesAt ct (248 * i) x.1.length)
  datas ++ [flitOf 4 ((first + l.length) % 4096) 0 false false
    (leBytes 8 k.group ++ tag ++ leBytes 2 first ++ leBytes 1 l.length ++ leBytes 4 k.gen)]

/-- A message's pieces in groups of 64. -/
def groupsOf {α : Type} : Nat → List α → List (List α)
  | 0, _ => []
  | _, [] => []
  | n + 1, l => l.take 64 :: groupsOf n (l.drop 64)

/-- One tag group goes out. -/
def State.sendGroup (p : Nat) (s : State) (l : List (List Byte × Bool × Bool)) : State :=
  let x := s.port p
  match x.tx with
  | none => s
  | some k =>
    let (k', sw) := k.step x.txSwitch
    let s := s.setPort p { x with txNext := (x.txNext + l.length + 1) % 4096, tx := some k', txSwitch := sw }
    ((sealGroup k x.txNext l).foldl (State.pushFlit p) s).setGreg (portOff p + 0x2C) (BitVec.ofNat 32 k'.gen)

/-- A message goes out on a port; one for a port that is not UP goes nowhere (R307, R310). -/
def State.sendMessage (s : State) (p : Nat) (msg : List Byte) : State :=
  if s.portState p ≠ 3 then s
  else
    let l := pieces 248 msg
    let l := l.mapIdx fun i b => (b, decide (i = 0), decide (i + 1 = l.length))
    (groupsOf (l.length + 1) l).foldl (State.sendGroup p) s

/-- A message header (R310). -/
structure MsgHead where
  kind : Nat
  failed : Bool
  window : Nat
  src : Word
  dst : Word
  repoch : Word
  offset : Nat
  length : Nat
  coll : Nat
  slot : Nat
  step : Word

/-- The header's 32 bytes. -/
def MsgHead.bytes (h : MsgHead) : List Byte :=
  leBytes 1 h.kind ++ leBytes 1 (bit h.failed) ++ leBytes 2 h.window ++ leBytes 4 h.src.toNat ++ leBytes 4 h.dst.toNat ++
    leBytes 4 h.repoch.toNat ++ leBytes 4 h.offset ++ leBytes 4 h.length ++ leBytes 2 h.coll ++ leBytes 2 h.slot ++
    leBytes 4 h.step.toNat

/-- The header of a message. -/
def msgHead (m : List Byte) : MsgHead :=
  { kind := natAt m 0 1, failed := natAt m 1 1 % 2 = 1, window := natAt m 2 2, src := BitVec.ofNat 32 (natAt m 4 4)
    dst := BitVec.ofNat 32 (natAt m 8 4), repoch := BitVec.ofNat 32 (natAt m 12 4), offset := natAt m 16 4
    length := natAt m 20 4, coll := natAt m 24 2, slot := natAt m 26 2, step := BitVec.ofNat 32 (natAt m 28 4) }

/-- The body of a message. -/
def msgBody (m : List Byte) : List Byte := bytesAt m 32 (msgHead m).length

/-! ## Receiving -/

/-- An ACK or NAK leaves. -/
def State.answer (s : State) (p typ seq : Nat) : State := s.emit (.flit p (flitOf typ 0 0 false false (leBytes 2 seq)))

/-- ACK with the last SEQ accepted in order. -/
def State.sendAck (s : State) (p : Nat) : State :=
  let x := s.port p
  (s.setPort p { x with unacked := 0 }).answer p 2 ((x.expected + 4095) % 4096)

/-- A sequenced flit is discarded: NAK, and nothing is accepted until the expected SEQ arrives (R303). -/
def State.discardFlit (s : State) (p : Nat) : State :=
  let x := s.port p
  (s.setPort p { x with nakked := true }).answer p 3 x.expected

/-- A port accepts the next flit in order; an ACK follows at the latest after 32. -/
def State.acceptFlit (s : State) (p : Nat) : State :=
  let x := s.port p
  let s := s.setPort p { x with expected := (x.expected + 1) % 4096, unacked := x.unacked + 1, nakked := false }
  if 32 ≤ x.unacked + 1 then s.sendAck p else s

/-- The flits of a verified group join the message under assembly. -/
def Port.assemble (x : Port) (parts : List (List Byte × List Byte)) : Port :=
  parts.foldl (fun x r =>
    let a := if bitAt (flitHead r.1) 24 then r.2 else x.assembly ++ r.2
    if bitAt (flitHead r.1) 25 then { x with assembly := [], inbox := x.inbox ++ [a] } else { x with assembly := a }) x

/-- The flits with their slices of a byte string. -/
def sliceBy : List (List Byte) → List Byte → List (List Byte × List Byte)
  | [], _ => []
  | f :: t, l => (f, l.take (flitLen f)) :: sliceBy t (l.drop (flitLen f))

/-- What a TAG flit makes of the open group (R307): the plaintext if its fields fit and its tag verifies. -/
def Port.openGroup (x : Port) (f : List Byte) : Option (List Byte) :=
  match x.rx with
  | none => none
  | some k =>
    let pay := bytesAt f 4 248
    let fits := natAt pay 0 8 = k.group ∧ natAt pay 0x1B 4 = k.gen % 2 ^ 32 ∧ natAt pay 0x1A 1 = x.held.length ∧
      x.held.head?.map flitSeq = some (natAt pay 0x18 2)
    if fits then
      gcmOpen k.key (groupNonce k) (x.held.flatMap (bytesAt · 0 4)) (x.held.flatMap fun g => bytesAt g 4 (flitLen g))
        (bytesAt pay 8 16)
    else none

/-- A tag failure (R308): the group is discarded and asked for again; the second of a session fails the port. -/
def State.tagFailed (s : State) (p first : Nat) : State :=
  let x := s.port p
  let s := (s.setPort p { x with held := [], expected := first, unacked := 0, nakked := true, tagFails := x.tagFails + 1 }).bumpG
    (portOff p + 0x20) 1
  if 1 ≤ x.tagFails then s.portFail p 0x0506#16 else s.answer p 3 first

/-- A TAG flit in order closes the group: it is accepted if the tag verifies, and else discarded with its group, whose first SEQ
is asked for again (R307, R308). -/
def State.closeGroup (s : State) (p : Nat) (f : List Byte) : State :=
  let x := s.port p
  match x.openGroup f, x.rx with
  | some pt, some k =>
    let (k', sw) := k.step x.rxSwitch
    State.acceptFlit (s.setPort p { x.assemble (sliceBy x.held pt) with held := [], rx := some k', rxSwitch := sw }) p
  | _, _ => s.tagFailed p (match x.held with
    | g :: _ => flitSeq g
    | [] => natAt f (4 + 0x18) 2)

/-- A codeword that the port could not correct overlaps its flit number `m`: five flits are four codewords (R302). -/
def Port.fecFailed (x : Port) (m : Nat) : Bool :=
  x.badWords.any fun n => decide (5 * n < 4 * (m + 1)) && decide (4 * m < 5 * (n + 1))

/-- A sequenced flit arrives (R302, R303). -/
def State.receiveFlit (s : State) (p : Nat) (f : RxFlit) : State :=
  if s.portState p ≠ 3 then s
  else if (s.port p).fecFailed f.place then s.discardFlit p
  else if !flitGood f.bytes then (s.bumpG (portOff p + 0x18) 1).discardFlit p
  else
    let x := s.port p
    let typ := fld (flitHead f.bytes) 3 0
    if typ ≠ 1 && decide (typ ≠ 4) then s
    else if flitSeq f.bytes ≠ x.expected then (if x.nakked then s else s.discardFlit p)
    else if typ = 1 then
      let s := s.acceptFlit p
      s.setPort p { s.port p with held := x.held ++ [f.bytes] }
    else s.closeGroup p f.bytes

/-- DATA_FLIT. -/
def execDataFlit (port : BitVec 4) (f : RxFlit) (s : State) : Host.Outcome State Fault Refusal :=
  .next (s.receiveFlit port.toNat f)

/-- TAG_FLIT. -/
def execTagFlit (port : BitVec 4) (f : RxFlit) (s : State) : Host.Outcome State Fault Refusal :=
  .next (s.receiveFlit port.toNat f)

/-- The retry buffer after an acknowledgement of `seq`: everything up to it is freed (R304). -/
def freeUpTo (seq : Nat) (l : List TxFlit) : List TxFlit :=
  if l.any (·.seq = seq) then (l.dropWhile (·.seq ≠ seq)).drop 1 else l

/-- ACK (R304): flits are freed, and waiting ones follow. -/
def execAck (port : BitVec 4) (aseq : Half) (s : State) : Host.Outcome State Fault Refusal :=
  .next (let x := s.port port.toNat
    (s.setPort port.toNat { x with retry := freeUpTo aseq.toNat x.retry }).drainWaiting port.toNat)

/-- The flits of the retry buffer from a SEQ on go out again, and are counted (R303, R304). -/
def State.replay (s : State) (p seq : Nat) : State :=
  let x := s.port p
  let again := x.retry.dropWhile (·.seq ≠ seq)
  let keep := x.retry.take (x.retry.length - again.length)
  let s := s.setPort p { x with retry := keep ++ again.map fun f => { f with sent := f.sent + 1 } }
  (again.foldl (fun s f => s.emit (.flit p f.bytes)) s).bumpG (portOff p + 0x1C) again.length

/-- NAK (R303–R305): go-back-N, unless a flit has already been sent 8 times. -/
def execNak (port : BitVec 4) (eseq : Half) (s : State) : Host.Outcome State Fault Refusal :=
  .next (let p := port.toNat
    if s.portState p ≠ 3 then s
    else if ((s.port p).retry.dropWhile (·.seq ≠ eseq.toNat)).any (fun f => decide (8 ≤ f.sent)) then s.portFail p 0x0501#16
    else s.replay p eseq.toNat)

/-- ACK_TIMER (R303): 256 ns with a flit unacknowledged. -/
def execAckTimer (port : BitVec 4) (s : State) : Host.Outcome State Fault Refusal :=
  .next (if (s.port port.toNat).unacked = 0 then s else s.sendAck port.toNat)

/-! ## Training and sessions -/

/-- The fused identity: CHIP_LOT to CHIP_LCS, 24 bytes (R416). -/
def State.identity (s : State) : List Byte := (List.range 6).flatMap fun i => leBytes 4 (s.greg (4 * i)).toNat

/-- A measurement register, 48 bytes (R414). -/
def State.mr (s : State) (n : Nat) : List Byte :=
  (List.range 12).flatMap fun w => leBytes 4 (s.greg (0x10100 + 48 * n + 4 * w)).toNat

/-- The certificate chain of slot 0 (R416), over the identity, the life-cycle state's DIK and MR0 to MR4. -/
def State.certChain (s : State) : List Byte :=
  Config.secret 0 "certificate chain" (s.identity ++ leBytes 4 (s.greg 0x10008).toNat ++ (List.range 5).flatMap s.mr)

/-- What a module signs in its handshake (R306, step 2). -/
def handshakeBytes (eph : List Byte) (member : Word) (cert : List Byte) : List Byte := eph ++ leBytes 4 member.toNat ++ cert

/-- The KEY flit with which this module begins a session (R306, steps 1 and 2): the public key of a fresh ECDH pair, its member
identifier and the digest of its attestation certificate, signed with the DIK; the places of the fields are the model's (log entry
21). -/
def State.ownKeyFlit (s : State) : List Byte :=
  let b := handshakeBytes (bytesAt (Config.secret s.freeCtr "ECDH public key" []) 0 97) (s.greg 0x60800) (sha384 s.certChain)
  b ++ bytesAt (Config.secret s.freeCtr "DIK signature" (sha384 b)) 0 96

/-- The checks of a peer's handshake (R306, step 3): its certificate holds the device identity key whose digest the installer has set for
the member, and the signature over what it sent verifies under that key. -/
def State.handshakeOk (s : State) (eph : List Byte) (member : Word) (cert sig dik : List Byte) : Bool :=
  (s.sec.members.any fun m => decide (m.1 = member) && decide (m.2 = sha384 dik)) &&
    ecdsaOk dik (sha384 (handshakeBytes eph member cert)) sig

/-- LINK_TRAINING (R299, R305, R306, R448): the port has found its width and lanes; the handshake follows. -/
def execLinkTraining (port : BitVec 4) (t : Training) (s : State) : Host.Outcome State Fault Refusal :=
  .next (let p := port.toNat
    let st := s.portState p
    if !s.ready || !s.gbit (portOff p) 0 || !(st = 1 || (st = 4 && (!s.running || s.halted))) then s
    else
      let allowed := s.gf (portOff p) 2 1
      let w := if t.width.toNat < allowed then t.width.toNat else allowed
      let s := (s.setPort p { Port.reset with lanes := t.width.toNat }).setGf (portOff p + 4) 9 0
        (2 + 8 * w + 32 * bit t.reversed + 64 * t.inverted.toNat)
      let s := s.tick1
      s.emit (.flit p (flitOf 7 0 0 false false s.ownKeyFlit)))

/-- The handshake's checks fail, or it takes too long: the port stays out of service (R306). -/
def State.authFail (s : State) (p : Nat) : State := State.portLost (s.raisePort p 0x0506#16) p

/-- The two directions' keys of a session (R306): the member with the lower identifier transmits under the first. -/
def sessionKeys (secret : List Byte) (lower : Bool) : LinkKey × LinkKey :=
  let b := hkdf secret (ascii "XL port session") 88
  let one : LinkKey := ⟨b.take 32, (b.drop 64).take 12, 0, 0⟩
  let two : LinkKey := ⟨(b.drop 32).take 32, (b.drop 76).take 12, 0, 0⟩
  if lower then (one, two) else (two, one)

/-- KEY_FLIT (R306, R309). -/
def execKeyFlit (port : BitVec 4) (k : KeyNotice) (s : State) : Host.Outcome State Fault Refusal :=
  .next (let p := port.toNat
    match k with
    | .rekey g => s.setPort p { s.port p with rxSwitch := some g.toNat }
    | .handshake eph member cert sig dik =>
      if s.portState p ≠ 2 then s
      else if s.handshakeOk eph member cert sig dik then
        let s := s.tick1
        let (tx, rx) := sessionKeys (Config.secret s.freeCtr "ECDH secret" eph) (decide ((s.greg 0x60800) < member))
        let s := s.setPort p { s.port p with tx := some tx, rx := some rx, tagFails := 0 }
        ((s.setGf (portOff p + 4) 2 0 3).setGreg (portOff p + 8) member).setGreg (portOff p + 0x2C) 0#32
      else (s.setGreg (portOff p + 8) member).authFail p)

/-- HANDSHAKE_TIMEOUT (R306): 5 ms after FEC lock. -/
def execHandshakeTimeout (port : BitVec 4) (s : State) : Host.Outcome State Fault Refusal :=
  .next (if s.portState port.toNat = 2 then s.authFail port.toNat else s)

/-- KEY_GENERATION (R309): after 2^31 groups the sender announces the group at which the next generation takes over. -/
def execKeyGeneration (port : BitVec 4) (s : State) : Host.Outcome State Fault Refusal :=
  .next (let p := port.toNat
    let x := s.port p
    match x.tx with
    | none => s
    | some k =>
      if k.group < 2 ^ 31 || x.txSwitch.isSome then s
      else
        let s := s.tick1
        let at_ := k.group + 1 + Config.freeNat s.freeCtr "rekey group"
        (s.setPort p { x with txSwitch := some at_ }).emit
          (.flit p (flitOf 7 0 0 false false (Config.secret s.freeCtr "KEY flit" (leBytes 8 at_)))))

/-! ## Messages -/

/-- A message that completes is the first of its kind among those that the port has assembled: on one port they complete in their order
(R314). It is taken from there, and `f` done with it. -/
def State.takeMsg (s : State) (p : Nat) (m : List Byte) (f : State → State) : State :=
  let x := s.port p
  if x.inbox.find? (fun n => decide ((msgHead n).kind = (msgHead m).kind)) = some m then
    f (s.setPort p { x with inbox := x.inbox.erase m })
  else s

/-- A message's REPOCH is accepted (R321): the epoch in force, the one before up to the end of frame b + 1, and the staged
one from tick b − 1. -/
def State.epochOk (s : State) (e : Word) : Bool :=
  e = s.epoch ||
    (match s.roster.staged with
      | some r => r.epoch = e && decide (r.boundary.toNat ≤ s.shutter.fn.toNat + 1)
      | none => false) ||
    (match s.roster.lastSwitch with
      | some (old, b) => decide (epochOf old = e) && decide (s.shutter.fn.toNat ≤ b.toNat + 1)
      | none => false)

/-- The roster record of an epoch: in force, staged, or the last replaced (R320). -/
def State.rosterOf (s : State) (e : Word) : Option RosterRec :=
  (s.roster.inForce.toList ++ s.roster.staged.toList ++ (match s.roster.lastSwitch with
    | some (some old, _) => [old]
    | _ => [])).find? fun r => decide (r.epoch = e)

/-- The first-hop port towards a member under a roster record. -/
def RosterRec.portOf (r : RosterRec) (id : Word) : Option Nat :=
  match r.members.find? fun m => m.id = id with
  | some m => if m.port < 16 then some m.port else none
  | none => none

/-- A message dropped at its window (R311). -/
def State.windowDrop (s : State) (p : Nat) : State := (s.bumpG (portOff p + 0x24) 1).raisePort p 0x0505#16

/-- A window of the loaded image. -/
def State.window (s : State) (n : Nat) : Option Window :=
  match s.image with
  | some i => i.plan.windows[n]?
  | none => none

/-- A SEND message is written to its window, or dropped (R311, R314). -/
def State.takeSend (s : State) (p : Nat) (m : List Byte) : State :=
  let h := msgHead m
  match s.window h.window with
  | none => s.windowDrop p
  | some w =>
    if w.gather || decide (w.size < h.offset * 64 + h.length) || (w.port ≠ 0xFF && w.port ≠ p) || h.dst ≠ s.greg 0x60800 then
      s.windowDrop p
    else (s.hbmWrite (w.base + h.offset * 64) (msgBody m)).event (0x10 + p)

/-- SEND: a message of that kind is complete at the port (R311, R314, R321). -/
def execSend (port : BitVec 4) (msg : List Byte) (s : State) : Host.Outcome State Fault Refusal :=
  .next (s.takeMsg port.toNat msg fun s =>
    if !s.epochOk (msgHead msg).repoch then s.rosterSkew true else s.takeSend port.toNat msg)

end Sys2Proof.Machine
end

