-- ==== Sys2Proof/Machine/Roster.lean ====
section
/-! DEFINITION. The roster agent (R318–R321, R359): epoch records, proposals of the leader and the answers of the members, and
the check of the link plan before a job starts (R323). -/

namespace Sys2Proof.Machine

/-! ## Records -/

/-- A member entry of an epoch record (R318). -/
def memberOf (b : List Byte) : Member :=
  { id := BitVec.ofNat 32 (natAt b 0 4), keyId := BitVec.ofNat 32 (natAt b 4 4), port := natAt b 8 1, hops := natAt b 9 1
    sets := BitVec.ofNat 16 (natAt b 10 2) }

/-- An epoch record (R318). -/
def rosterRec (b : List Byte) : RosterRec :=
  { epoch := BitVec.ofNat 32 (natAt b 0 4), boundary := BitVec.ofNat 48 (natAt b 4 6)
    members := (List.range (natAt b 10 2)).map fun i => memberOf (bytesAt b (16 + 16 * i) 16) }

/-- A member entry's 16 bytes. -/
def Member.bytes (m : Member) : List Byte :=
  leBytes 4 m.id.toNat ++ leBytes 4 m.keyId.toNat ++ leBytes 1 m.port ++ leBytes 1 m.hops ++ leBytes 2 m.sets.toNat ++
    List.replicate 4 0#8

/-- An epoch record's bytes. -/
def RosterRec.bytes (r : RosterRec) : List Byte :=
  leBytes 4 r.epoch.toNat ++ leBytes 6 r.boundary.toNat ++ leBytes 2 r.members.length ++ List.replicate 4 0#8 ++
    r.members.flatMap Member.bytes

/-- The agent may stage a record (R320): COUNT within ROSTER_MAX of the loaded plan, and every neighbour on an UP port that
faces it. -/
def State.rosterOk (s : State) (r : RosterRec) : Bool :=
  (match s.image with
    | some i => decide (r.members.length ≤ i.plan.rosterMax)
    | none => true) &&
    r.members.all fun m => m.hops ≠ 1 ||
      (decide (m.port < 16) && decide (s.portState m.port = 3) && decide (s.greg (portOff m.port + 8) = m.id))

/-- A record is staged; ROS_SELF is the member that the record reaches through no port. -/
def State.stage (s : State) (r : RosterRec) : State :=
  let s := match r.members.find? fun m => m.port = 0xFF with
    | some m => s.setGreg 0x60800 m.id
    | none => s
  State.showRoster { s with roster := { s.roster with staged := some r } }

/-! ## Messages -/

/-- The members this module knows: of the record in force and of the staged one. -/
def State.knownMembers (s : State) : List Member :=
  let l := match s.roster.inForce with
    | some r => r.members
    | none => []
  l ++ (match s.roster.staged with
    | some r => r.members.filter fun m => !(l.map (·.id)).contains m.id
    | none => [])

/-- The first-hop port towards a member. -/
def State.portTo (s : State) (id : Word) : Option Nat :=
  match s.knownMembers.find? fun m => m.id = id with
  | some m => if m.port < 16 then some m.port else none
  | none => none

/-- A message header from this module. -/
def State.headTo (s : State) (kind : Nat) (dst : Word) (len : Nat) : MsgHead :=
  { kind := kind, failed := false, window := 0, src := s.greg 0x60800, dst := dst, repoch := s.epoch, offset := 0
    length := len, coll := 0, slot := 0, step := 0#32 }

/-- A ROSTER message to a member (R359). -/
def State.sendRoster (s : State) (dst : Word) (body : List Byte) : State :=
  match s.portTo dst with
  | some p => s.sendMessage p ((s.headTo 5 dst body.length).bytes ++ body)
  | none => s

/-- The other members of the job. -/
def State.others (s : State) : List Word := (s.knownMembers.filter fun m => decide (m.port < 16)).map (·.id)

/-- A ROSTER message to every other member. -/
def State.sendAll (s : State) (body : List Byte) : State := s.others.foldl (fun s m => s.sendRoster m body) s

/-- STAGED goes back to the announcing member. -/
def State.answerStaged (s : State) (src : Word) : State := s.sendRoster src (leBytes 4 2)

/-- A proposal's message body (R359, log entry 22). -/
def Proposal.body : Proposal → List Byte
  | .epoch r => leBytes 4 1 ++ r.bytes
  | .start fn => leBytes 4 5 ++ leBytes 6 fn.toNat
  | .freeze t => leBytes 4 6 ++ leBytes 8 t.toNat
  | .fix t => leBytes 4 7 ++ leBytes 8 t.toNat

/-! ## Taking a proposal -/

/-- JOB_START_FN is staged: the START registers take it, and the job has yet to start (R17); `src` announced it. -/
def State.takeStart (s : State) (src : Word) (fn : BitVec 48) : State :=
  let lo := fn.setWidth 32
  let hi := BitVec.ofNat 32 (fn.toNat / 2 ^ 32)
  let s := (((s.setGreg 0x40018 lo).setGreg 0x4001C hi).setGshadow 0x40018 lo).setGshadow 0x4001C hi
  { s with shutter := { s.shutter with noStart := false }, roster := { s.roster with starter := some src } }

/-- UE_FREEZE or UE_FIX with ARM = 1 on every core (R356). -/
def State.armCores (s : State) (off step : Nat) : State :=
  s.mapCores fun _ c => (c.setReg off (BitVec.ofNat 32 step)).setReg (off + 4) (BitVec.ofNat 32 (2 ^ 31 + step / 2 ^ 32 % 256))

/-- A drain that has not reached the seal keeps the module in DRAIN: its own writer arms FIX_AT (R356, R357). -/
def State.draining (s : State) : Bool :=
  match s.svc.ckpt with
  | some k => k.frozen
  | none => false

/-- A member takes a proposal. -/
def State.takeProposal (s : State) (src : Word) (p : Proposal) : State :=
  let s := { s with roster := { s.roster with taken := some (src, p) } }
  match p with
  | .epoch r => s.stage r
  | .start fn => s.takeStart src fn
  | .freeze t => s.armCores 0x6024 t.toNat
  | .fix t => if s.draining then s else s.armCores 0x602C t.toNat

/-- The leader proposes: it takes the proposal itself and sends it to every other member, whose answers it awaits; a job of
one member is staged at once. -/
def State.propose (s : State) (p : Proposal) (h : Option MboxHdr) : State :=
  let s := (s.takeProposal (s.greg 0x60800) p).sendAll p.body
  if s.others.isEmpty then s
  else { s with roster := { s.roster with awaiting := s.roster.awaiting ++ [⟨p, [], h⟩] } }

/-- The job's start is withdrawn. -/
def State.noStart (s : State) : State := { s with shutter := { s.shutter with noStart := true } }

/-- The frame number at which the job starts (R17). -/
def State.startFn (s : State) : Nat := (s.greg 0x40018).toNat + s.gf 0x4001C 15 0 * 2 ^ 32

/-- The link plan check has come, and the job has yet to start (R323). -/
def State.startNear (s : State) : Bool :=
  !s.shutter.started && decide (s.shutter.fn.toNat ≤ s.startFn) && decide (s.startFn ≤ s.shutter.fn.toNat + 16)

/-- What a withdrawn proposal leaves: no member changes epoch, and no job starts. A CANCEL does not say what it withdraws: it is the
proposal taken last, and the start too once the link plan has been checked (R323, log entry 22). -/
def State.withdraw (s : State) : State :=
  let s := match s.roster.taken with
    | some (_, .epoch _) => State.showRoster { s with roster := { s.roster with staged := none, taken := none } }
    | some (_, .start _) => State.noStart { s with roster := { s.roster with taken := none } }
    | _ => s
  if s.startNear then s.noStart else s

/-- The mailbox command of a proposal. -/
def Proposal.opcode : Proposal → Nat
  | .epoch _ => 0x0010
  | .start _ => 0x0002
  | _ => 0x0005

/-- The leader withdraws a proposal everywhere, and the command that waits for it ends with a code. -/
def State.cancelAll (s : State) (w : Option Awaiting) (code : Half) : State :=
  let s := (s.sendAll (leBytes 4 4)).withdraw
  match w with
  | some a => State.finishOpt { s with roster := { s.roster with awaiting := s.roster.awaiting.erase a } } a.hdr
      a.what.opcode code []
  | none => s

/-- The oldest proposal that a member has not answered: answers name none, and they come in order. -/
def State.awaitedFrom (s : State) (src : Word) : Option Awaiting := s.roster.awaiting.find? fun a => !a.stagedBy.contains src

/-! ## Meanings -/

/-- REFUSED goes back to the announcing member, over the port that a held record or else the refused one gives (R320). -/
def State.refuseRecord (s : State) (src : Word) (r : RosterRec) : State :=
  let body := leBytes 4 3 ++ leBytes 2 0x0507
  match s.portTo src, r.portOf src with
  | none, some p => s.sendMessage p ((s.headTo 5 src body.length).bytes ++ body)
  | _, _ => s.sendRoster src body

/-- ANNOUNCE (R320, R359): the record is checked and staged no later than tick BOUNDARY − 16, and the sender told. -/
def execAnnounce (src : Word) (rec : List Byte) (s : State) : Host.Outcome State Fault Refusal :=
  .next (let r := rosterRec rec
    if !s.rosterOk r then
      (s.logEvent 0x0507#16).refuseRecord src r
    else if r.boundary.toNat < s.shutter.fn.toNat + 16 then s
    else (s.takeProposal src (.epoch r)).answerStaged src)

/-- STAGED: the last member's answer completes the proposal. -/
def execStaged (src : Word) (s : State) : Host.Outcome State Fault Refusal :=
  .next (match s.awaitedFrom src with
    | none => s
    | some a =>
      let by_ := a.stagedBy ++ [src]
      if s.others.all by_.contains then
        State.finishOpt { s with roster := { s.roster with awaiting := s.roster.awaiting.erase a } } a.hdr a.what.opcode 0#16 []
      else { s with roster := { s.roster with
        awaiting := s.roster.awaiting.map fun x => if x = a then { a with stagedBy := by_ } else x } })

/-- REFUSED: the leader sends CANCEL (R323, R359). -/
def execRefused (src : Word) (code : Half) (s : State) : Host.Outcome State Fault Refusal :=
  .next (if s.others.contains src then s.cancelAll (s.awaitedFrom src) code else s)

/-- CANCEL from the member whose proposal this one took. -/
def execCancel (src : Word) (s : State) : Host.Outcome State Fault Refusal :=
  .next (match s.roster.taken with
    | some (from_, _) => if from_ = src then s.withdraw else s
    | none => if s.roster.starter = some src then s.withdraw else s)

/-- START (R17, R359). -/
def execRosterStart (src : Word) (fn : BitVec 48) (s : State) : Host.Outcome State Fault Refusal :=
  .next ((s.takeProposal src (.start fn)).answerStaged src)

/-- A member's own checkpoint at a step (R356). -/
def newCkpt (step : Nat) (t : Target) (h : Option MboxHdr) : Ckpt :=
  { step := step, target := t, hdr := h, frozen := false, cursor := 0, fnFreeze := 0#48, repoch := 0#32, cores := []
    neg := 0, len := 0, leaves := [], stored := 0, manifest := none, signed := false }

/-- FREEZE (R356, R359): FREEZE_AT is armed on every core, and the member's own checkpoint writer takes it up. -/
def execFreeze (src : Word) (step : BitVec 40) (t : Target) (s : State) : Host.Outcome State Fault Refusal :=
  .next (let s := if s.svc.ckpt.isSome then s else { s with svc := { s.svc with ckpt := some (newCkpt step.toNat t none) } }
    (s.takeProposal src (.freeze step)).answerStaged src)

/-- FIX (R356, R359): FIX_AT is armed on every core. -/
def execFix (src : Word) (step : BitVec 40) (s : State) : Host.Outcome State Fault Refusal :=
  .next ((s.takeProposal src (.fix step)).answerStaged src)

/-- Whether an epoch proposal has reached BOUNDARY − 24. -/
def Awaiting.late (a : Awaiting) (fn : BitVec 48) : Bool :=
  match a.what with
  | .epoch r => decide (r.boundary.toNat ≤ fn.toNat + 24)
  | _ => false

/-- STAGED_DEADLINE (R359): at BOUNDARY − 24 some member has not answered. -/
def execStagedDeadline (s : State) : Host.Outcome State Fault Refusal :=
  .next (match s.roster.awaiting.find? fun a => a.late s.shutter.fn with
    | some a => s.cancelAll (some a) 0x0507#16
    | none => s)

/-! ## The link plan check -/

/-- A port meets its entry of the link plan (R323). -/
def State.planMet (s : State) (p : Nat) (e : PortPlan) : Bool :=
  decide (e.use = 0) || (decide (s.portState p = 3) && decide (e.width ≤ 2 ^ s.gf (portOff p + 4) 4 3) &&
    decide (s.greg (portOff p + 8) = e.peer))

/-- A port that SHT_SYNC_PORT names runs at x4 (R323). -/
def State.syncMet (s : State) (p : Nat) : Bool :=
  !(decide (s.source = 1) && decide (s.gf 0x40030 3 0 = p) || s.gbit 0x40030 (16 + p)) ||
    (decide (s.portState p = 3) && decide (s.gf (portOff p + 4) 4 3 = 2))

/-- The link plan check at tick JOB_START_FN − 16 (R323). -/
def State.linkPlanCheck (s : State) : State :=
  match s.image with
  | none => s
  | some i =>
    if s.shutter.started || s.shutter.fn.toNat + 16 ≠ s.startFn then s
    else
      let bad := (List.range 16).filter fun p => !(s.planMet p (i.plan.ports.getD p ⟨0, 0, 0#32⟩) && s.syncMet p)
      if bad.isEmpty then s
      else
        State.noStart (bad.foldl (fun s p => s.raisePort p 0x0504#16) s)

/-- LINK_PLAN_CHECK (R323): a member that fails it reports to the leader, which cancels the start. -/
def execLinkPlanCheck (s : State) : Host.Outcome State Fault Refusal :=
  .next (let t := s.linkPlanCheck
    if !t.shutter.noStart || s.shutter.noStart then t
    else match t.roster.starter with
      | some from_ =>
        if from_ = t.greg 0x60800 then t.cancelAll none 0x0504#16 else t.sendRoster from_ (leBytes 4 3 ++ leBytes 2 0x0504)
      | none => t)

end Sys2Proof.Machine
end

