-- ==== Sys2Proof/Machine/Records.lean ====
section
/-! DEFINITION. The chip's integrity beyond a frame: two-slot records in flash (R389), the chip-level leaky buckets (R374, R376), the
patrol and refetches (R368, R369), the recent-miss table's expiry (R377), the remap and ageing records (R379, R382, R407)
and the contact-sheet ring (R126). -/

namespace Sys2Proof.Machine

/-! ## Two-slot records (R389) -/

/-- LENGTH of a slot. -/
def slotLen (b : List Byte) : Nat := natAt b 8 4

/-- SEQ of a slot. -/
def slotSeq (b : List Byte) : Nat := natAt b 4 4

/-- A slot is valid: its commit word is in place and its digest matches. -/
def slotValid (b : List Byte) : Bool :=
  let n := 16 + slotLen b
  decide (b.length = n + 36) && decide (natAt b (n + 32) 4 = 0x54494D43) && decide (sha256 (b.take n) = (b.drop n).take 32)

/-- SEQ `a` is higher than `b`, modulo 2^32. -/
def seqAfter (a b : Nat) : Bool := decide ((a + 2 ^ 32 - b) % 2 ^ 32 < 2 ^ 31) && decide (a ≠ b)

/-- The slot in force is A (`true`) or B, if either is valid. -/
def TwoSlot.which (r : TwoSlot) : Option Bool :=
  match slotValid r.a, slotValid r.b with
  | true, true => some (!seqAfter (slotSeq r.b) (slotSeq r.a))
  | true, false => some true
  | false, true => some false
  | false, false => none

/-- The body of the record in force. -/
def TwoSlot.body (r : TwoSlot) : Option (List Byte) :=
  r.which.map fun a => let b := if a then r.a else r.b; (b.drop 16).take (slotLen b)

/-- A slot's bytes. -/
def slotBytes (typ seq : Nat) (body : List Byte) : List Byte :=
  let h := leBytes 2 typ ++ leBytes 2 1 ++ leBytes 4 seq ++ leBytes 4 body.length ++ List.replicate 4 0#8 ++ body
  h ++ sha256 h ++ leBytes 4 0x54494D43

/-- A record is written over the slot that is not in force, with the next SEQ. -/
def TwoSlot.write (r : TwoSlot) (typ : Nat) (body : List Byte) : TwoSlot :=
  match r.which with
  | some true => { r with b := slotBytes typ (slotSeq r.a + 1) body }
  | some false => { r with a := slotBytes typ (slotSeq r.b + 1) body }
  | none => { r with a := slotBytes typ 1 body }

/-! ## Leaky buckets (R376) -/

/-- The health-table unit of a chip-level bucket (R409, R433). -/
def bucketUnit (m : Nat) : Nat := 156 + m

/-- A corrected event of a chip-level bucket. -/
def State.chipCorrected (s : State) (m : Nat) : State :=
  let off := 0x20404 + 8 * m
  let (l, ovf, past) := bucketEvent (s.gf off 7 0) (s.gf (0x20400 + 8 * m) 15 8) (s.gbit off 8)
  let s := (s.setGf off 7 0 l).setGf off 8 8 (bit ovf)
  if past then (s.raiseHtu 0x040B#16).noteUnit (bucketUnit m) 0x040B#16 else s

/-- `n` corrected events of a chip-level bucket. -/
def State.chipCorrectedN (s : State) (m n : Nat) : State := (List.range n).foldl (fun s _ => s.chipCorrected m) s

/-- L of a bucket as it acts: above 24 acts as 24. -/
def leakExp (cfg : Word) : Nat := let l := fld cfg 4 0; if 24 < l then 24 else l

/-- A leak is due: 2^L ticks after the last. -/
def leakDue (now last l : Nat) : Bool := decide (last + 2 ^ l ≤ now)

/-- A bucket leaks. -/
def State.leakBucket (s : State) (b : Bucket) : State :=
  let now := s.shutter.ticks
  match b with
  | .core c m =>
    let x := s.core c
    if m < 6 && leakDue now (x.integ.leak.getD m 0) (leakExp (x.reg (0x8040 + 8 * m))) then
      let x := x.setRf (0x8044 + 8 * m) 7 0 (x.rf (0x8044 + 8 * m) 7 0 - 1)
      s.setCore c { x with integ := { x.integ with leak := setAt x.integ.leak m now } }
    else s
  | .chip m =>
    if m < 26 && leakDue now (s.htu.leaks.getD m 0) (leakExp (s.greg (0x20400 + 8 * m))) then
      State.setGf { s with htu := { s.htu with leaks := setAt s.htu.leaks m now } } (0x20404 + 8 * m) 7 0
        (s.gf (0x20404 + 8 * m) 7 0 - 1)
    else s

/-- BUCKET_LEAK. -/
def execBucketLeak (b : Bucket) (s : State) : Host.Outcome State Fault Refusal := .next (s.leakBucket b)

/-- ON_DIE_ERROR_CHECK_AND_SCRUB (R374). -/
def execOnDieErrorCheckAndScrub (stack : BitVec 3) (s : State) : Host.Outcome State Fault Refusal :=
  .next (s.chipCorrected stack.toNat)

/-- PCIE_REPLAY (R376). -/
def execPcieReplay (s : State) : Host.Outcome State Fault Refusal := .next (s.chipCorrected 24)

/-- FEC_CODEWORD (R302): up to 8 corrected symbols are counted and feed the port's bucket, or the
codeword is counted as not corrected, and every flit that it overlaps has failed. -/
def execFecCodeword (port : BitVec 4) (word : Codeword) (s : State) : Host.Outcome State Fault Refusal :=
  .next (let p := port.toNat
    match word.corrected with
    | some n => (s.bumpG (portOff p + 0x10) n.val).chipCorrectedN (8 + p) n.val
    | none => (s.bumpG (portOff p + 0x14) 1).setPort p { s.port p with badWords := (s.port p).badWords ++ [word.number] })

/-! ## Patrol and refetch (R368, R369) -/

/-- First line address and lines of what patrol `m` sweeps (R42, R368, log entry 56): a scratchpad bank, the accumulator buffer, the
frame store, the index bank or an operand cache. -/
def patrolRange (m : Nat) : Nat × Nat :=
  if m < 8 then (0x80000 * m, 8192)
  else match m with
    | 8 => (0x400000, 16384) | 9 => (0x500000, 4096) | 10 => (0x540000, 2048) | 11 => (0x560000, 2048) | _ => (0x580000, 2048)

/-- Lines of a memory, by its code (R42, R392). -/
def memLines (m : Nat) : Nat :=
  match m with
  | 0 => 65536 | 1 => 16384 | 2 => 4096 | _ => 2048

/-- The lines of the 8 KiB range that memory segment `i` tests, over the six memories in the order of their codes (R398). -/
def segmentLines (i : Nat) : List Nat :=
  let first (m : Nat) : Nat := ((List.range m).map fun j => memLines j / 128).sum
  let m := ((List.range 6).find? fun m => decide (i < first (m + 1))).getD 5
  (List.range 128).map fun l => memBase m + (i - first m) * 0x2000 + 64 * l

/-- The slice that tests a memory of a core. -/
def State.memSlice (s : State) (c : CoreId) : Option Slice :=
  s.htu.slices.find? fun x => decide (x.core = c) && decide (x.seg.unit = 7#4)

/-- A line of a core lies in the range that a slice is testing (R400). -/
def State.inSlice (s : State) (c : CoreId) (line : Nat) : Bool :=
  match s.memSlice c with
  | some x => (segmentLines x.seg.index).contains line
  | none => false

/-- A request is held until the core's slice ends (R401). -/
def State.holdRequest (s : State) (c : CoreId) (r : Held) : State :=
  { s with htu := { s.htu with slices := s.htu.slices.map fun x =>
      if x.core = c then { x with held := x.held ++ [r] } else x } }

/-- The line that a patrol reads next. -/
def Core.patrolLine (c : Core) (m : Nat) : Nat := (patrolRange m).1 + 64 * c.integ.patrol.getD m 0

/-- A read by a patrol of the core (R368); `upset` says that the line's CRC fails now. -/
def Core.patrolRead (k : Ctx) (m : Nat) (upset : Bool) (c : Core) : Core :=
  if !bitAt (c.reg 0x8018) 0 || decide (13 ≤ m) then c
  else
    let line := c.patrolLine m
    let c := { c with integ := { c.integ with
      patrol := setAt c.integ.patrol m ((c.integ.patrol.getD m 0 + 1) % (patrolRange m).2) } }
    if (c.missing [line] (if upset then [line] else [])).isEmpty then c else c.miss k line true

/-- A patrol passes the 8 KiB range of a slice (R400). -/
def Core.patrolSkip (m : Nat) (c : Core) : Core :=
  { c with integ := { c.integ with
      patrol := setAt c.integ.patrol m ((c.integ.patrol.getD m 0 / 128 + 1) * 128 % (patrolRange m).2) } }

/-- PATROL_READ (R368, R400). -/
def execPatrolRead (c : CoreId) (mem : Nat) (upset : Bool) (s : State) : Host.Outcome State Fault Refusal :=
  .next (if s.inSlice c ((s.core c).patrolLine mem) then s.setCore c ((s.core c).patrolSkip mem)
    else s.onCore c fun k x => x.patrolRead k mem upset)

/-- The bytes that back a clean line: the loader's staged copy of the frame store, or HBM (R283, R369). -/
def State.backingBytes (s : State) (c : CoreId) (line : Nat) : Option (List Byte) :=
  if 0x500000 ≤ line && line < 0x540000 then
    match s.image with
    | some g => (g.fstores.find? fun r => r.1 = c.val).map fun r => bytesAt r.2 (line - 0x500000) 64
    | none => none
  else ((s.core c).backing line).map fun a => (s.hbmBounded none a 64).1

/-- The open fill's refetch has ended. -/
def Core.fillRefetched (line : Nat) (c : Core) : Core :=
  match c.integ.fillOpen with
  | some f => if f.line = line && f.refetching then c.fillDone else c
  | none => c

/-- A refetch that failed (R369): the line is handled as dirty from now on; one of the frame store brings a stop bath. -/
def Core.refetchFailed (line : Nat) (c : Core) : Core :=
  let c := c.raiseInt 0x040A#16
  let c := { c with
    integ := { c.integ with nowDirty := if c.integ.nowDirty.contains line then c.integ.nowDirty else line :: c.integ.nowDirty }
    frame := { c.frame with crcEvents := c.frame.crcEvents + 1 } }
  let c := match c.remapOf line with
    | some r => if r.state = .refetch then c.setSpare r.entry .empty else c
    | none => c
  if 0x500000 ≤ line && line < 0x540000 then c.askStop else c

/-- A refetch under way on a core ends (R369): written in a free cycle, discarded if a master has written the line in full
since the miss, or failed. -/
def State.refetchDone (s : State) (c : CoreId) (line : Nat) (hbmBad : Bool) : State :=
  let x := s.core c
  if !x.integ.refetches.contains line then s
  else
    let since := x.integ.writtenSince.contains line
    let x := { x with integ := { x.integ with
      refetches := x.integ.refetches.filter (· ≠ line), writtenSince := x.integ.writtenSince.filter (· ≠ line) } }
    let x := if since then x
      else match hbmBad, s.backingBytes c line with
        | false, some bs => x.store line bs
        | _, _ => x.refetchFailed line
    s.setCore c (x.fillRefetched line)

/-- REFETCH_COMPLETE (R369): in the range of a slice it waits for the slice's end (R400). -/
def execRefetchComplete (c : CoreId) (line : BitVec 23) (hbmBad : Bool) (s : State) : Host.Outcome State Fault Refusal :=
  .next (let l := lineOf line.toNat
    if s.inSlice c l then s.holdRequest c (.refetch l hbmBad) else s.refetchDone c l hbmBad)

/-- MISS_ENTRY_EXPIRY (R377): the line's entry, if WINDOW seconds have passed since its miss. -/
def execMissEntryExpiry (c : CoreId) (line : BitVec 23) (s : State) : Host.Outcome State Fault Refusal :=
  .next (let x := s.core c
    s.setCore c { x with integ := { x.integ with recent := x.integ.recent.filter (fun r =>
      decide (r.1 ≠ lineOf line.toNat) || decide (s.nowSec < r.2 + x.window)) } })

/-! ## Records -/

/-- A line of the remap record: core, memory and line address (R382, log entry 23). -/
def remapLineBytes (r : Nat × Nat × Nat) : List Byte := leBytes 2 r.1 ++ leBytes 2 r.2.1 ++ leBytes 4 r.2.2

/-- The lines that the remap record in force lists. -/
def Htu.remapped (h : Htu) : List (Nat × Nat × Nat) :=
  match h.remapRec.body with
  | some b => (List.range (b.length / 8)).map fun i => (natAt b (8 * i) 2, natAt b (8 * i + 2) 2, natAt b (8 * i + 4) 4)
  | none => []

/-- REMAP_RECORD_WRITE (R379): the lines judged on a core join the record in flash. -/
def execRemapRecordWrite (c : CoreId) (s : State) : Host.Outcome State Fault Refusal :=
  .next (let due := s.htu.remapDue.filter fun r => r.1 = s.physical c
    if due.isEmpty then s
    else { s with htu := { s.htu with
      remapRec := s.htu.remapRec.write 3 ((s.htu.remapped ++ due).flatMap remapLineBytes)
      remapDue := s.htu.remapDue.filter (fun r => decide (r.1 ≠ s.physical c)) } })

/-- The least margin of the canaries the planner counts and its index; those of idle spare cores do not count (R406). -/
def State.leastMargin (s : State) (l : List Int) : Int × Nat :=
  let counts (i : Nat) : Bool := decide (1248 ≤ i) || (s.unitHealth (i / 8)).state ≠ 5 || decide ((s.unitHealth (i / 8)).flags % 2 = 1)
  (List.range 1280).foldl (fun (a : Int × Nat) i =>
    if counts i && (decide (a.2 = 1280) || decide (l.getD i 0 < a.1)) then (l.getD i 0, i) else a) (0, 1280)

/-- The ageing record's body (R408, R409). -/
def State.ageingBody (s : State) : List Byte :=
  let (m, w) := s.leastMargin s.htu.canaries
  leBytes 1 (s.gf 0x20024 5 0) ++ leBytes 1 (s.gf 0x20024 8 6) ++ leBytes 1 (s.gf 0x20000 3 3) ++ [0#8] ++
    leBytes 4 (s.htu.hours + s.nowSec / 3600) ++ leBytes 8 s.htu.measuredUtc ++ leBytes 2 (twosOf 16 m) ++ leBytes 2 w ++
    List.replicate 12 0#8 ++ s.htu.canaries.flatMap fun v => leBytes 2 (twosOf 16 v)

/-- The ageing record is committed. -/
def State.writeAgeing (s : State) : State :=
  { s with htu := { s.htu with ageingRec := s.htu.ageingRec.write 2 s.ageingBody, ageingDue := false } }

/-- AGEING_RECORD_WRITE (R407). -/
def execAgeingRecordWrite (s : State) : Host.Outcome State Fault Refusal :=
  .next (if s.htu.ageingDue then s.writeAgeing else s)

/-! ## The contact-sheet ring (R126) -/

/-- A record of a frame is still to come: on its way to the ring, of a frame that runs, or of one that waits for a late one's end. -/
def State.recordDue (s : State) (fn : BitVec 48) : Bool :=
  (s.sheets.any fun x => decide (x.fn = fn)) ||
    s.cores.any fun x => (x.frame.live && decide (x.frame.fn = fn)) || x.lateStarts.any fun l => decide (l.fn = fn)

/-- CS_STATUS shows a frame all of whose records are in the ring, unless it shows a newer one (R127). -/
def State.showSheet (s : State) (fn : BitVec 48) : State :=
  let older := match s.shutter.sheetFn with
    | some last => fnBefore fn last
    | none => false
  if s.recordDue fn || older then s
  else State.setGreg { s with shutter := { s.shutter with sheetFn := some fn } } 0x40110 (fn.setWidth 32)

/-- CONTACT_SHEET_RING_WRITE (R126, R127): the oldest record of a core on its way reaches its ring slot in HBM. -/
def execContactSheetRingWrite (c : CoreId) (s : State) : Host.Outcome State Fault Refusal :=
  .next (match s.sheets.find? fun r => r.core = c.val with
    | none => s
    | some r =>
      let base := s.gf 0x40104 31 12 * 4096 + s.gf 0x40108 6 0 * 2 ^ 32
      let depth := s.gf 0x4010C 16 0
      let a := base + r.fn.toNat % depth * 0x4800 + 128 * c.val
      (State.hbmWrite { s with sheets := s.sheets.erase r } a r.bytes).showSheet r.fn)

end Sys2Proof.Machine
end

