-- ==== Sys2Proof/Machine/Storage.lean ====
section
/-! DEFINITION. Record ingest (R350–R352, R422) and NVMe (R353–R355): streams, shuffle and rows, queue pairs, commands with
their retries; and the host DMA engine's notice (R347). -/

namespace Sys2Proof.Machine

/-! ## Streams -/

/-- The job seed (R214). -/
def State.seed (s : State) : List Byte := (s.core 0).seed

/-- A step of the shuffle: element `i` changes places with one at or below it (R350). -/
def shuffleStep (seed : List Byte) (stream : Word) (b i : Nat) (p : List Nat) : List Nat :=
  let w := rng seed (i / 4) stream.toNat (b % 2 ^ 32) (256 + b / 2 ^ 32 % 256)
  let j := w.getD (i % 4) 0 % (i + 1)
  setAt (setAt p i (p.getD j 0)) j (p.getD i 0)

/-- The steps from `i` down to 1. -/
def shuffleGo (seed : List Byte) (stream : Word) (b : Nat) : Nat → List Nat → List Nat
  | 0, p => p
  | i + 1, p => shuffleGo seed stream b i (shuffleStep seed stream b (i + 1) p)

/-- The emitted order of a shuffle block of `nb` records (R350). -/
def shuffleOrder (seed : List Byte) (stream : Word) (b nb : Nat) : List Nat :=
  shuffleGo seed stream b (nb - 1) (List.range nb)

/-- The bytes of a row, filled up with a pattern of pad bytes (R350). -/
def padded (n : Nat) (pad bytes : List Byte) : List Byte :=
  (List.range n).map fun i => bytes.getD i (pad.getD (i % pad.length) 0#8)

/-- A record's row (R350): copied bytes, cut or zero-filled; token arrays filled up with the pad token; feature rows of
fixed width. -/
def ingestRow (a : IngestArgs) (bytes : List Byte) : List Byte :=
  match a.form with
  | .tok16 p => padded a.rowBytes (leBytes 2 p.toNat) bytes
  | .tok32 p => padded a.rowBytes (leBytes 4 p.toNat) bytes
  | .raw => bytesAt bytes 0 a.rowBytes
  | .feat => bytesAt bytes 0 a.rowBytes

/-- Records of a shuffle block. -/
def Stream.nb (t : Stream) : Nat := 2 ^ t.args.nbLog2

/-- The next record is emitted, if its block is complete and the batch under way has room: a row, and the cursor one
further. -/
def Stream.emit1 (seed : List Byte) (t : Stream) : Stream :=
  if t.stopped || decide (t.args.batch ≤ t.rows.length) || decide (t.block.length < t.nb) then t
  else
    let i := t.cursor - t.blockNo * t.nb
    let r := t.block.getD ((shuffleOrder seed t.args.stream t.blockNo t.nb).getD i 0) ⟨0#32, 0#64, []⟩
    let t := { t with rows := t.rows ++ [ingestRow t.args r.bytes], cursor := t.cursor + 1 }
    if i + 1 = t.nb then { t with block := t.block.drop t.nb, blockNo := t.blockNo + 1 } else t

/-- Records are emitted until the batch is full or the source is empty (R351). -/
def Stream.pump (seed : List Byte) (t : Stream) : Stream :=
  (List.range t.args.batch).foldl (fun t _ => t.emit1 seed) t

/-- The stream with an identifier. -/
def State.stream (s : State) (id : Word) : Option Stream := s.svc.streams.find? fun t => t.args.stream = id

/-- The state with a stream replaced by one of the same identifier. -/
def State.setStream (s : State) (t : Stream) : State :=
  { s with svc := { s.svc with streams := s.svc.streams.map fun u => if u.args.stream = t.args.stream then t else u } }

/-! ## NVMe commands -/

/-- The queue pair with an identifier. -/
def State.qp (s : State) (id : Half) : Option NvmeArgs := s.svc.qps.find? fun q => q.qp = id

/-- The lowest command identifier that is free on a queue pair. -/
def State.freeCid (s : State) (qp : Half) : Half :=
  BitVec.ofNat 16 (((List.range 1024).find? fun i =>
    s.svc.cmds.all fun c => decide (c.qp ≠ qp) || decide (c.cid.toNat ≠ i)).getD 1024)

/-- A submission queue entry of 64 bytes (R353): the Read or Write command of NVMe 2.0, with its namespace and PRP pointers (log
entry 26). -/
def nvmeEntry (cid : Half) (r : NvmeReq) (nsid prp1 prp2 : Nat) : List Byte :=
  leBytes 1 (if r.write then 1 else 2) ++ leBytes 1 0 ++ leBytes 2 cid.toNat ++ leBytes 4 nsid ++ List.replicate 16 0#8 ++
    leBytes 8 prp1 ++ leBytes 8 prp2 ++ leBytes 8 r.lba ++ leBytes 4 (r.blocks - 1 + 2 ^ 30 * bit r.fua) ++ List.replicate 12 0#8

/-- The tail of a queue pair's submission queue. -/
def State.nvmeTail (s : State) (qp : Half) : Nat :=
  match s.svc.tails.find? fun t => t.1 = qp with
  | some t => t.2
  | none => 0

/-- A command goes into its submission queue and its doorbell is rung (R354): in DIRECT mode in HBM, by a peer-to-peer write; in RELAY
mode in host memory, its data through a host buffer, by a request to the driver through notification queue 15. Where in its memory the
pair's data buffers lie, and what such a request says, is free (log entry 26). -/
def State.submit (s : State) (qp cid : Half) (req : NvmeReq) : State :=
  match s.qp qp with
  | none => s
  | some q =>
    let s := s.tick1
    let free (what : String) : Nat := Config.freeNat s.freeCtr what
    let tail := s.nvmeTail qp
    let next := (tail + 1) % q.entries
    let prp := free "NVMe data buffer"
    let e := nvmeEntry cid req (free "NVMe namespace") prp (free "NVMe second PRP")
    let s := { s with svc := { s.svc with tails := (s.svc.tails.filter fun (t : Half × Nat) => decide (t.1 ≠ qp)) ++ [(qp, next)] } }
    let s :=
      if q.direct then
        let s := s.hbmWrite (q.base + 64 * tail) e
        if req.bytes.length < q.bytes then s.hbmWrite (q.base + prp % (q.bytes - req.bytes.length)) req.bytes else s
      else
        let s := s.emit (.hostWrite (q.base + 64 * tail) e)
        if req.bytes.isEmpty then s else s.emit (.hostWrite prp req.bytes)
    let s := s.emit (.nvme qp cid req)
    if q.direct then s.emit (.doorbell qp next)
    else s.post 15 (leBytes 4 (free "doorbell request") ++ leBytes 6 s.shutter.fn.toNat ++ leBytes 2 (free "doorbell core") ++
      List.replicate 4 0#8)

/-- A command is issued; whether its service request carries a core-notify tag is the service's own affair (R347, log entry
26). -/
def State.nvme (s : State) (qp : Half) (use : NvmeUse) (req : NvmeReq) : State :=
  let s := s.tick1
  let cid := s.freeCid qp
  let c : NvmeCmd :=
    { qp := qp, cid := cid, req := req, use := use
      notify := decide (Config.freeNat s.freeCtr "core-notify tag" % 2 = 1), failures := 0, rungAt := s.nowNs }
  State.submit { s with svc := { s.svc with cmds := s.svc.cmds ++ [c] } } qp cid req

/-- Bytes per command: 2 MiB, or the controller's MDTS if that is smaller (R353). -/
def nvmeLimit (q : NvmeArgs) : Nat :=
  let m := if q.mdts = 0 || 0x200000 < q.mdts then 0x200000 else q.mdts
  if m < q.lba then q.lba else m / q.lba * q.lba

/-- A target that can be written: host memory, or a queue pair that is attached. -/
def State.targetOk (s : State) (t : Target) : Bool :=
  match t with
  | .host _ => true
  | .nvme qp _ => (s.qp qp).isSome

/-- Bytes written to storage from byte offset `off` of a target: as NVMe writes, or to the host ring. -/
def State.store (s : State) (t : Target) (off : Nat) (use : NvmeUse) (fua : Bool) (bytes : List Byte) : State :=
  match t with
  | .host a => s.emit (.hostWrite (a.toNat + off) bytes)
  | .nvme qp lba =>
    match s.qp qp with
    | none => s
    | some q => (pieces (nvmeLimit q) bytes).zipIdx.foldl (fun s r =>
        if r.1.isEmpty then s
        else s.nvme qp use ⟨true, fua, lba.toNat + (off + r.2 * nvmeLimit q) / q.lba, ceilDiv r.1.length q.lba, r.1⟩) s

/-- Ingest from NVMe keeps one Read in flight while a stream waits for records, of no more than a command may carry (R351, R353); the
extents are the source's own (log entry 26). -/
def State.wantRead (s : State) (t : Stream) : State :=
  match s.svc.qps with
  | [] => s
  | q :: _ =>
    if !t.args.fromNvme || t.stopped || decide (t.args.batch ≤ t.rows.length) ||
      s.svc.cmds.any (fun c => decide (c.use = .ingest t.args.stream)) then s
    else s.nvme q.qp (.ingest t.args.stream) ⟨false, false, Config.freeNat s.freeCtr "ingest extent",
      1 + Config.freeNat s.freeCtr "ingest blocks" % (nvmeLimit q / q.lba), []⟩

/-- A stream emits what it can. -/
def State.pump (s : State) (t : Stream) : State :=
  let t := t.pump s.seed
  (s.setStream t).wantRead t

/-! ## Ingest -/

/-- INGEST_OPEN's arguments are in range (R350, R351, R422). -/
def State.ingestOk (s : State) (a : IngestArgs) : Bool :=
  decide (10 ≤ a.nbLog2) && decide (a.nbLog2 ≤ 16) && decide (2 ≤ a.slots) && decide (a.slots ≤ 8) && decide (0 < a.batch) &&
    decide (0 < a.rowBytes) && (s.stream a.stream).isNone && inHbm a.base (a.slots * a.batch * a.rowBytes) &&
    (match a.tenant with
      | some i => (s.sec.tenants.getD i.toNat none).isSome
      | none => true)

/-- A stream at a cursor: the block that holds it is loaded again (R352). -/
def streamAt (a : IngestArgs) (cursor : Nat) : Stream :=
  { args := a, block := [], blockNo := cursor / 2 ^ a.nbLog2, cursor := cursor, rows := [], full := [], nextSlot := 0
    dropped := 0, stopped := false }

/-- INGEST_OPEN (R350, R351). -/
def execIngestOpen (h : MboxHdr) (a : IngestArgs) (s : State) : Host.Outcome State Fault Refusal :=
  .next (s.mbox h 7 1 false false fun s =>
    if !s.ingestOk a then .done s 0x0605#16 []
    else
      let c := match s.svc.ingestAt with
        | some (i, c) => if i = a.stream then c else 0
        | none => 0
      .done (State.pump { s with svc := { s.svc with streams := s.svc.streams ++ [streamAt a c] } } (streamAt a c)) 0#16 [])

/-- INGEST_CLOSE. -/
def execIngestClose (h : MboxHdr) (stream : Word) (s : State) : Host.Outcome State Fault Refusal :=
  .next (s.mbox h 8 1 false false fun s =>
    if (s.stream stream).isNone then .done s 0x0605#16 []
    else .done { s with svc := { s.svc with
      streams := s.svc.streams.filter (fun t => decide (t.args.stream ≠ stream)) } } 0#16 [])

/-- A record's plain bytes: those of a tenant-keyed stream are decrypted (R422). -/
def State.plainRecord (s : State) (a : IngestArgs) (source : Word) (arrival : BitVec 64) (bytes tag : List Byte) :
    Option (List Byte) :=
  match a.tenant with
  | none => some bytes
  | some _ =>
    match s.tenantKey a.tenant with
    | none => none
    | some k =>
      let n := leBytes 4 source.toNat ++ leBytes 8 arrival.toNat
      gcmOpen k n (leBytes 4 (bytes.length + tag.length) ++ n) bytes tag

/-- INGEST_RECORD (R350, R422): the record joins its block, and what can be emitted is. -/
def execIngestRecord (stream source : Word) (arrival : BitVec 64) (bytes : List Byte) (tag : List Byte) (s : State) :
    Host.Outcome State Fault Refusal :=
  .next (match s.stream stream with
    | none => s
    | some t =>
      match s.plainRecord t.args source arrival bytes tag with
      | none => s.setStream { t with dropped := t.dropped + 1 }
      | some b => s.pump { t with block := t.block ++ [⟨source, arrival, b⟩] })

/-- A complete batch goes into the next slot, if that is free, and the stream's doorbell rings (R351). -/
def State.batchReady (s : State) (t : Stream) : State :=
  if t.stopped || decide (t.rows.length < t.args.batch) || t.full.contains t.nextSlot then s
  else
    let s := s.hbmWrite (t.args.base + t.nextSlot * t.args.batch * t.args.rowBytes) t.rows.flatten
    let t := { t with rows := [], full := t.full ++ [t.nextSlot], nextSlot := (t.nextSlot + 1) % t.args.slots }
    (s.event (0x30 + t.args.doorbell.toNat)).pump t

/-- BATCH_READY (R351). -/
def execBatchReady (stream : Word) (s : State) : Host.Outcome State Fault Refusal :=
  .next (match s.stream stream with
    | some t => s.batchReady t
    | none => s)

/-- INGEST_STALL (R344, R351): for 1 s the source has had no record for the batch under way. -/
def execIngestStall (stream : Word) (s : State) : Host.Outcome State Fault Refusal :=
  .next (match s.stream stream with
    | some t => if decide (t.rows.length < t.args.batch) && decide (t.block.length < t.nb) then s.vector 36 else s
    | none => s)

/-- A fence violation of the host DMA engine: recorded at the core, whose frame is aborted (R58, R59). -/
def Core.hostViolation (k : Ctx) (c : Core) (a master : Nat) (wr : Bool) : Core :=
  let c := c.noteViolation (lineOf a) master wr
  if c.frame.live && c.frame.retiredAt.isNone then (c.abort 0x0203#16 (BitVec.ofNat 13 (c.rf 0x2004 12 0))).checkRetire k else c

/-- A transfer waits while a slice tests the core's memories (R401). -/
def State.heldMove (s : State) (m : HostMove) : Bool := (s.memSlice m.core).isSome

/-- What the host DMA engine does at a scratchpad (R59): it is checked against the fences as DMA-in or DMA-out, line by line, and it
stalls no master. What it fetches leaves the module; a line that misses its CRC poisons it. -/
def State.hostMove (s : State) (m : HostMove) : State :=
  let x := s.core m.core
  let k := s.ctx m.core
  match m.bytes with
  | .inl bs =>
    s.setCore m.core ((lineRuns m.addr.toNat bs.length).foldl (fun x r =>
      if x.denies 0 true r.1 then x.hostViolation k r.1 0 true
      else
        let b := (bs.drop (r.1 - m.addr.toNat)).take r.2
        (x.disturb k.ctr [(r.1, b)]).store r.1 b) x)
  | .inr n =>
    let lines := lineRuns m.addr.toNat n
    let bytes := (x.read k m.addr.toNat n).mapIdx fun i b => if x.denies 8 false (m.addr.toNat + i) then 0#8 else b
    let bad := x.missing (linesRead [(m.addr.toNat, n)]) []
    let s := s.setCore m.core (lines.foldl (fun x r => if x.denies 8 false r.1 then x.hostViolation k r.1 8 false else x) x)
    s.emit (if bad.isEmpty then .read bytes else .poisoned)

/-- A transfer of the host DMA engine, now or after the slice that tests the core's memories (R59, R401). -/
def State.hostTransfer (s : State) (m : HostMove) : State :=
  if s.heldMove m then s.holdRequest m.core (.move m) else s.hostMove m

/-- HOST_DMA_COMPLETE (R59, R347, R401). -/
def execHostDmaComplete (d : HostDone) (s : State) : Host.Outcome State Fault Refusal :=
  .next (let s := d.moves.foldl State.hostTransfer s
    if d.notify then s.event 0x40 else s)

/-! ## Queue pairs -/

/-- NVME_ATTACH's limits (R353, R354). -/
def State.qpOk (s : State) (a : NvmeArgs) : Bool :=
  decide (s.svc.qps.length < 8) && (s.qp a.qp).isNone && decide (2 ≤ a.entries) && decide (a.entries ≤ 1024) && a.prp &&
    decide (a.lba = 512 ∨ a.lba = 4096) && !a.metadata &&
    (!a.direct || (inHbm a.base a.bytes && (!s.confidential || s.clearRange a.base a.bytes)))

/-- NVME_ATTACH (R353, R354). -/
def execNvmeAttach (h : MboxHdr) (a : NvmeArgs) (s : State) : Host.Outcome State Fault Refusal :=
  .next (s.mbox h 9 1 false false fun s =>
    if s.qpOk a then .done { s with svc := { s.svc with qps := s.svc.qps ++ [a] } } 0#16 [] else .done s 0x0605#16 [])

/-- NVME_DETACH: the queue pair is released; commands in flight on it still complete or time out. -/
def execNvmeDetach (h : MboxHdr) (qp : Half) (s : State) : Host.Outcome State Fault Refusal :=
  .next (s.mbox h 0xA 1 false false fun s =>
    if (s.qp qp).isNone then .done s 0x0605#16 []
    else .done { s with svc := { s.svc with qps := s.svc.qps.filter (fun q => decide (q.qp ≠ qp)) } } 0#16 [])

/-- NOTIFY_RING (R348): what the queue holds goes to the host ring first. -/
def execNotifyRing (h : MboxHdr) (q : BitVec 4) (base : BitVec 64) (entries : Nat) (s : State) :
    Host.Outcome State Fault Refusal :=
  .next (s.mbox h 0xB 1 false false fun s =>
    if entries = 0 then .done s 0x0605#16 []
    else
      let l := s.svc.queues.getD q.toNat []
      let s := { s with svc := { s.svc with
        queues := setAt s.svc.queues q.toNat [], rings := setAt s.svc.rings q.toNat (some (base.toNat, entries, 0)) } }
      .done (l.foldl (fun s e => s.hold q.toNat e) s) 0#16 [])

end Sys2Proof.Machine
end

