-- ==== Sys2Proof/Machine/Checkpoint.lean ====
section
/-! DEFINITION. The checkpoint writer (R356–R358, R383–R385, R421), the outcomes of NVMe commands (R355) and RESTORE (R386,
R387). -/

namespace Sys2Proof.Machine

/-! ## What the compiler has placed -/

/-- The number under which the loaded image's unnamed places are free. -/
def State.mapKey (s : State) : Nat :=
  match s.image with
  | some i => i.map
  | none => 0

/-- The digest of the loaded schedule table: 256 KiB in HBM, where the image put it (R203, log entry 24). -/
def State.schedDigest (s : State) : List Byte :=
  sha256 (s.hbmBounded none (Config.imageMap s.mapKey "schedule table" 0) 0x40000).1

/-- An entry of the epoch list (R383). -/
structure EpochEntry where
  hoff : Nat
  tensor : Nat
  brow : Nat
  bcol : Nat
  epoch : Nat
deriving DecidableEq, Repr

/-- An entry's 16 bytes. -/
def EpochEntry.bytes (e : EpochEntry) : List Byte :=
  leBytes 4 e.hoff ++ leBytes 4 e.tensor ++ leBytes 2 e.brow ++ leBytes 2 e.bcol ++ leBytes 4 e.epoch

/-- An entry from its bytes. -/
def epochEntry (b : List Byte) : EpochEntry := ⟨natAt b 0 4, natAt b 4 4, natAt b 8 2, natAt b 0xA 2, natAt b 0xC 4⟩

/-- The entry of the tile whose header lies at an offset of a plate, in 64-byte units. -/
def State.epochAt (s : State) (plate hoff : Nat) : EpochEntry :=
  let h := tileHeader (s.hbmBounded none (plate + 64 * hoff) 64).1
  ⟨hoff, h.tensor, h.brow, h.bcol, h.epoch⟩

/-- (TENSOR, BROW, BCOL) as one number. -/
def EpochEntry.key (e : EpochEntry) : Nat := (e.tensor * 2 ^ 16 + e.brow) * 2 ^ 16 + e.bcol

/-- An entry at its place in a rising list. -/
def insertEpoch (e : EpochEntry) : List EpochEntry → List EpochEntry
  | [] => [e]
  | a :: t => if e.key ≤ a.key then e :: a :: t else a :: insertEpoch e t

/-- The epoch list of a plate: an entry for each grain tile of the model, in ascending (TENSOR, BROW, BCOL). -/
def State.epochList (s : State) (plate : Nat) : List EpochEntry :=
  ((List.range (Config.imageMap s.mapKey "grain tiles" 0)).map fun i =>
    s.epochAt plate (Config.imageMap s.mapKey "tile header" i)).foldl (fun l e => insertEpoch e l) []

/-! ## The manifest (R383) -/

/-- Bytes of a chunk: 4 MiB. -/
def chunkSize : Nat := 0x400000

/-- Body length of a checkpoint: the negative and 144 core state records. -/
def Ckpt.body (k : Ckpt) : Nat := k.len + 144 * 2048

/-- Chunks of a body. -/
def chunkCount (n : Nat) : Nat := (n + chunkSize - 1) / chunkSize

/-- The identifier of the job key that seals the body; 0 if the job is not confidential. -/
def State.sealKeyId (s : State) : Word :=
  if s.confidential then (match s.sec.jobKey with
    | some k => k.keyId
    | none => 0#32) else 0#32

/-- The ingest stream that a manifest names, and its block size; without a stream both are free. -/
def State.streamNamed (s : State) : Nat × Nat :=
  match s.svc.streams with
  | t :: _ => (t.args.stream.toNat, t.args.nbLog2)
  | [] => (Config.freeNat s.freeCtr "stream of no job" % 2 ^ 32, 10 + Config.freeNat s.freeCtr "block of no stream" % 7)

/-- IMAGE_ID of the loaded image. -/
def State.imageId (s : State) : List Byte := (List.range 4).flatMap fun i => leBytes 4 (s.greg (0x50010 + 4 * i)).toNat

/-- The manifest without its signature block. -/
def State.manifestBody (s : State) (k : Ckpt) : List Byte :=
  let es := (s.epochList k.neg).flatMap EpochEntry.bytes
  let len := 0x100 + es.length + 32 * k.leaves.length + 128
  let (st, nb) := s.streamNamed
  leBytes 4 0x464D4458 ++ leBytes 2 1 ++ leBytes 2 (bit s.confidential) ++ leBytes 4 len ++ leBytes 4 (s.greg 0x60800).toNat ++
    s.imageId ++ leBytes 8 k.step ++ leBytes 8 k.cursor ++ leBytes 4 st ++ leBytes 1 nb ++ List.replicate 3 0#8 ++ s.seed ++
    leBytes 4 s.sealKeyId.toNat ++ leBytes 4 k.repoch.toNat ++ leBytes 6 k.fnFreeze.toNat ++ List.replicate 2 0#8 ++
    leBytes 8 k.body ++ s.schedDigest ++ sha256 es ++ merkleRoot k.leaves ++ leBytes 4 k.leaves.length ++
    leBytes 4 (es.length / 16) ++ leBytes 4 0x100 ++ leBytes 4 (0x100 + es.length) ++ List.replicate 48 0#8 ++ es ++
    k.leaves.flatten

/-- The signature block: AK's identifier and its signature, which the part's secrets determine (R385). -/
def State.signBlock (s : State) (m : List Byte) : List Byte :=
  leBytes 4 (s.greg 0x10008).toNat ++ List.replicate 28 0#8 ++ bytesAt (Config.secret s.freeCtr "AK signature" (sha384 m)) 0 96

/-! ## Taking a checkpoint (R356) -/

/-- The current global step. -/
def State.gstep (s : State) : Nat := s.cores.foldl (fun a c => if a < c.gstep then c.gstep else a) 0

/-- A checkpoint begins: FREEZE_AT = t + 2 goes to every core of every member; behind one under way it waits. -/
def State.beginCkpt (s : State) (t : Target) (h : Option MboxHdr) : State :=
  if s.svc.ckpt.isSome then { s with svc := { s.svc with ckptNext := s.svc.ckptNext ++ [(t, h)] } }
  else
    let step := (s.gstep + 2) % 2 ^ 40
    State.propose { s with svc := { s.svc with ckpt := some (newCkpt step t h) } } (.freeze (BitVec.ofNat 40 step)) none

/-- The next request that waits begins, unless the module is shutting down. -/
def State.nextCkpt (s : State) : State :=
  match s.power.phase, s.svc.ckptNext with
  | .shutdown _, _ => s
  | _, [] => s
  | _, (t, h) :: r => State.beginCkpt { s with svc := { s.svc with ckptNext := r } } t h

/-- CHECKPOINT (R346, R356). -/
def execCheckpoint (h : MboxHdr) (t : Target) (s : State) : Host.Outcome State Fault Refusal :=
  .next (s.mbox h 5 1 false false fun s =>
    if s.loaded && s.targetOk t then .waits (s.beginCkpt t (some h)) else .done s 0x0605#16 [])

/-- CHECKPOINT_INTERVAL (R356): the interval has run out since it last did or, first, since the image's load (log entry 24). -/
def execCheckpointInterval (t : Target) (s : State) : Host.Outcome State Fault Refusal :=
  .next (if s.loaded && s.targetOk t && decide (s.svc.ckptAt + s.svc.interval ≤ s.nowSec) then
      State.beginCkpt { s with svc := { s.svc with ckptAt := s.nowSec } } t none
    else s)

/-- SET_INTERVAL (R346). -/
def execSetInterval (h : MboxHdr) (seconds : Word) (s : State) : Host.Outcome State Fault Refusal :=
  .next (s.mbox h 6 2 false false fun s =>
    if 60 ≤ seconds.toNat && seconds.toNat ≤ 86400 then
      .done { s with svc := { s.svc with interval := seconds.toNat } } 0#16 []
    else .done s 0x0605#16 [])

/-- A checkpoint is abandoned unsealed; the one sealed last stays valid (R355, R375). -/
def State.abandonCkpt (s : State) (code : Half) : State :=
  match s.svc.ckpt with
  | none => s
  | some k =>
    let s := { s with svc := { s.svc with
      ckpt := none, cmds := s.svc.cmds.filter (fun (c : NvmeCmd) => decide (c.use ≠ NvmeUse.checkpoint) && decide (c.use ≠ NvmeUse.manifest)) } }
    (s.finishOpt k.hdr 5 code []).nextCkpt.shutdownOn

/-- The plain bytes of chunk `i`. -/
def State.chunkBytes (s : State) (k : Ckpt) (i : Nat) : List Byte × State :=
  let a := i * chunkSize
  let n := if k.len ≤ a then 0 else if k.len - a < chunkSize then k.len - a else chunkSize
  let (bs, s) := s.serviceRead (k.neg + a) n
  (bs ++ ((k.cores.flatten).drop (a + n - k.len)).take (chunkSize - n), s)

/-- A chunk as stored: for a confidential job ciphertext and tag, the nonce MEMBER and the chunk's number (R421). -/
def sealChunk (key : List Byte) (member : Word) (i : Nat) (bs : List Byte) : List Byte :=
  let (ct, tag) := gcmSeal key (leBytes 4 member.toNat ++ leBytes 8 i) [] bs
  ct ++ tag

/-- The key of a confidential job for a purpose (R412). -/
def State.derivedKey (s : State) (info : List Byte) : List Byte :=
  match s.sec.jobKey with
  | some k => hkdf k.key info 32
  | none => []

/-- The checkpoint key of a global step. -/
def State.ckptKey (s : State) (step : Nat) : List Byte := s.derivedKey (ascii "XD checkpoint" ++ leBytes 8 step)

/-- A chunk of the negative is read, digested and written; a bad granule abandons the checkpoint (R356, R375, R385). A freeze
that was missed is asked for again. -/
def State.checkpointChunk (s : State) (hbmBad : Bool) : State :=
  match s.svc.ckpt with
  | none => s
  | some k =>
    if !k.frozen then
      if k.step ≤ s.gstep then State.beginCkpt { s with svc := { s.svc with ckpt := none } } k.target k.hdr else s
    else if k.manifest.isSome || decide (chunkCount k.body ≤ k.leaves.length) then s
    else if hbmBad then s.abandonCkpt 0x040A#16
    else if !s.targetOk k.target then s.abandonCkpt 0x0607#16
    else
      let i := k.leaves.length
      let (bs, s) := s.chunkBytes k i
      let bs := if s.confidential then sealChunk (s.ckptKey k.step) (s.greg 0x60800) i bs else bs
      let k' := { k with leaves := k.leaves ++ [merkleLeaf bs], stored := k.stored + bs.length }
      State.store { s with svc := { s.svc with ckpt := some k' } } k.target k.stored .checkpoint false bs

/-- CHECKPOINT_CHUNK. -/
def execCheckpointChunk (hbmBad : Bool) (s : State) : Host.Outcome State Fault Refusal := .next (s.checkpointChunk hbmBad)

/-- What PUBLISH copies: the master weights and tile bodies of the negative, where the image put them, with the manifest's
root and its signature (R358, log entry 24). -/
def State.publishBytes (s : State) (k : Ckpt) : List Byte × State :=
  let (plain, s) := (List.range (Config.imageMap s.mapKey "published parts" 0)).foldl (fun (r : List Byte × State) i =>
    let (bs, t) := r.2.serviceRead (k.neg + Config.imageMap s.mapKey "published part" i)
      (Config.imageMap s.mapKey "published length" i)
    (r.1 ++ bs, t)) ([], s)
  let body := if s.confidential then
      ((pieces chunkSize plain).mapIdx fun i c => sealChunk (s.derivedKey (ascii "XD publish")) (s.greg 0x60800) i c).flatten
    else plain
  let root := merkleRoot k.leaves
  (body ++ root ++ s.signBlock root, s)

/-- The copy of a PUBLISH that waits for this seal is written, unless its read is uncorrectable (R358, R375). -/
def State.publishNow (s : State) (k : Ckpt) : State :=
  match s.svc.publish with
  | none => s
  | some (h, t) =>
    if h.hbmBad then State.finish { s with svc := { s.svc with publish := none } } h 0xF 0x040A#16 []
    else
    let (bs, s) := s.publishBytes k
    let s := s.store t 0 .publish false bs
    if s.svc.cmds.any fun c => decide (c.use = .publish) then s
    else State.finish { s with svc := { s.svc with publish := none } } h 0xF 0#16 []

/-- The checkpoint is sealed: its signature block is on storage (R356, steps 3 and 4). -/
def State.sealNow (s : State) : State :=
  match s.svc.ckpt with
  | some k =>
    match k.manifest with
    | some m =>
      let s := (s.vector 35).publishNow k
      let step := (s.gstep + 1) % 2 ^ 40
      let s := { s with svc := { s.svc with ckpt := none, sealed := some m } }
      let s := (s.setGreg 0x70200 (BitVec.ofNat 32 k.cursor)).setGreg 0x70204 (BitVec.ofNat 32 (k.cursor / 2 ^ 32))
      let s := s.armCores 0x602C step
      let s := if s.master then s.propose (.fix (BitVec.ofNat 40 step)) none else s
      (s.finishOpt k.hdr 5 0#16 []).nextCkpt.shutdownOn
    | none => s
  | none => s

/-- What a seal reads through the service queue beside the body: the schedule table and the tile headers (R362, R383). -/
def State.manifestReads (s : State) (k : Ckpt) : List (Nat × Nat) :=
  (Config.imageMap s.mapKey "schedule table" 0, 0x40000) ::
    (List.range (Config.imageMap s.mapKey "grain tiles" 0)).map fun i =>
      (k.neg + 64 * Config.imageMap s.mapKey "tile header" i, 64)

/-- The reads among some that KV regions bound are counted (R362). -/
def State.countClips (s : State) (l : List (Nat × Nat)) : State :=
  s.bumpG 0x7020C (l.filter fun r => !(s.kvBounds none r.1 r.2).isEmpty).length

/-- The signature block is written once the rest of the manifest is on storage, with Force Unit Access (R353, R385). -/
def State.signNow (s : State) : State :=
  match s.svc.ckpt with
  | some k =>
    match k.manifest with
    | some m =>
      if s.svc.cmds.any fun c => decide (c.use = .manifest) then s
      else if k.signed then s.sealNow
      else
        let n := m.length - 128
        let s := { s with svc := { s.svc with ckpt := some { k with signed := true } } }
        let s := s.store k.target (k.stored + n) .manifest true (m.drop n)
        if s.svc.cmds.any fun c => decide (c.use = .manifest) then s else s.sealNow
    | none => s
  | none => s

/-- What the manifest reads of the HBM is uncorrectable (R375): the command does not tell it, and it is free (log entry 43). -/
def State.sealUnread (s : State) : Bool := decide (Config.freeNat s.freeCtr "uncorrectable read of a seal" % 2 = 1)

/-- The manifest is written once every chunk is on storage, the signature block last (R385); an uncorrectable read abandons the
checkpoint (R375). -/
def State.checkpointSeal (s : State) : State :=
  match s.svc.ckpt with
  | none => s
  | some k =>
    if !k.frozen || k.manifest.isSome || decide (k.leaves.length < chunkCount k.body) ||
      s.svc.cmds.any (fun c => decide (c.use = .checkpoint)) then s
    else if s.sealUnread then s.tick1.abandonCkpt 0x040A#16
    else if !s.targetOk k.target then s.abandonCkpt 0x0607#16
    else
      let s := s.tick1.countClips (s.manifestReads k)
      let body := s.manifestBody k
      let m := body ++ s.signBlock body
      let s := { s with svc := { s.svc with ckpt := some { k with manifest := some m } } }
      (s.store k.target k.stored .manifest true body).signNow

/-- CHECKPOINT_SEAL. -/
def execCheckpointSeal (s : State) : Host.Outcome State Fault Refusal := .next s.checkpointSeal

/-- PUBLISH (R358). -/
def execPublish (h : MboxHdr) (t : Target) (s : State) : Host.Outcome State Fault Refusal :=
  .next (s.mbox h 0xF 1 false false fun s =>
    if !s.loaded || !s.targetOk t || s.svc.publish.isSome then .done s 0x0605#16 []
    else .waits { s with svc := { s.svc with publish := some (h, t) } })

/-! ## NVMe outcomes (R355) -/

/-- The operation that needed a command that failed three times fails. -/
def State.useFailed (s : State) (u : NvmeUse) : State :=
  match u with
  | .ingest id =>
    match s.stream id with
    | some t => s.setStream { t with stopped := true }
    | none => s
  | .publish =>
    match s.svc.publish with
    | some (h, _) =>
      State.finish { s with svc := { s.svc with
        publish := none, cmds := s.svc.cmds.filter (fun (c : NvmeCmd) => decide (c.use ≠ NvmeUse.publish)) } } h 0xF 0x0607#16 []
    | none => s
  | _ => s.abandonCkpt 0x0607#16

/-- What follows when a command of a service has completed with success. -/
def State.useDone (s : State) (u : NvmeUse) : State :=
  match u with
  | .ingest id =>
    match s.stream id with
    | some t => s.wantRead t
    | none => s
  | .manifest => s.signNow
  | .publish =>
    match s.svc.publish with
    | some (h, _) =>
      if s.svc.cmds.any fun c => decide (c.use = .publish) then s
      else State.finish { s with svc := { s.svc with publish := none } } h 0xF 0#16 []
    | none => s
  | .checkpoint => s

/-- The command in flight with an identifier on a queue pair. -/
def State.nvmeCmd (s : State) (qp cid : Half) : Option NvmeCmd := s.svc.cmds.find? fun c => c.qp = qp && c.cid = cid

/-- A command has failed: it is retried twice, and at the third failure NVME_FAILED is raised. -/
def State.nvmeFail (s : State) (c : NvmeCmd) (status : Nat) : State :=
  if c.failures < 2 then
    State.submit { s with svc := { s.svc with
      cmds := s.svc.cmds.map fun x => if x = c then { c with failures := c.failures + 1, rungAt := s.nowNs } else x } } c.qp c.cid c.req
  else
    let s := { s with svc := { s.svc with cmds := s.svc.cmds.erase c } }
    ((s.setGreg 0x70214 (BitVec.ofNat 32 (status % 2 ^ 16 + c.qp.toNat * 2 ^ 16))).logEvent 0x0607#16).useFailed c.use

/-- A command has completed with success; the last of a tagged request adds an event of source 0x41 (R347). -/
def State.nvmeDone (s : State) (c : NvmeCmd) : State :=
  let s := { s with svc := { s.svc with cmds := s.svc.cmds.erase c } }
  let s := if c.notify && !(s.svc.cmds.any fun x => decide (x.use = c.use)) then s.event 0x41 else s
  s.useDone c.use

/-- NVME_COMPLETION. -/
def execNvmeCompletion (qp cid : Half) (status : BitVec 15) (s : State) : Host.Outcome State Fault Refusal :=
  .next (match s.nvmeCmd qp cid with
    | none => s
    | some c => if status = 0#15 then s.nvmeDone c else s.nvmeFail c status.toNat)

/-- NVME_TIMEOUT (R355): 5 s after its doorbell; there is no status to show, and what HIF_NVME_ERR then holds of it is free. -/
def execNvmeTimeout (qp cid : Half) (s : State) : Host.Outcome State Fault Refusal :=
  .next (match s.nvmeCmd qp cid with
    | none => s
    | some c => if c.rungAt + 5000000000 ≤ s.nowNs then s.tick1.nvmeFail c (Config.freeNat s.freeCtr "NVMe status of a timeout") else s)

/-! ## Restore (R386, R387) -/

/-- What a failing check answers: the code, its reason, and the index that goes with it. -/
structure RestoreFail where
  code : Half
  reason : Nat
  index : Nat

/-- Field of `n` bytes at an offset of a manifest. -/
def mf (m : List Byte) (o n : Nat) : Nat := natAt m o n

/-- The manifest is well formed (check 1). -/
def manifestFormed (m : List Byte) : Bool :=
  decide (mf m 0 4 = 0x464D4458) && decide (mf m 4 2 = 1) && decide (mf m 6 2 < 2) && decide (mf m 8 4 = m.length) &&
    decide (mf m 0xC8 4 = 0x100) && decide (mf m 0xCC 4 = 0x100 + 16 * mf m 0xC4 4) && decide (0 < mf m 0xC0 4) &&
    decide (m.length = 0x100 + 16 * mf m 0xC4 4 + 32 * mf m 0xC0 4 + 128)

/-- The signature verifies under an attestation key that the job's roster holds: of the manifest this module sealed last it
does; of another's key the part has only the identifier, so whether it verifies is free (log entry 27). -/
def State.manifestSigned (s : State) (m : List Byte) : Bool :=
  let id := BitVec.ofNat 32 (natAt m (m.length - 128) 4)
  let held := decide (id = s.greg 0x10008) || s.knownMembers.any fun x => decide (x.keyId = id)
  held && (decide (s.svc.sealed = some m) || decide (Config.freeNat s.freeCtr "manifest signature" % 2 = 1))

/-- Checks 1 to 4. -/
def State.restoreEarly (s : State) (r : RestoreArgs) : Option RestoreFail :=
  let m := r.manifest
  if !manifestFormed m then some ⟨0x0602#16, 1, 0⟩
  else if !s.manifestSigned m then some ⟨0x0602#16, 2, 0⟩
  else if mf m 0xC 4 ≠ (s.greg 0x60800).toNat then some ⟨0x0603#16, 3, 0⟩
  else if bytesAt m 0x10 16 ≠ s.imageId then some ⟨0x0603#16, 4, 0⟩
  else if mf m 0x48 4 ≠ s.sealKeyId.toNat then some ⟨0x0603#16, 5, 0⟩
  else if bytesAt m 0x60 32 ≠ s.schedDigest then some ⟨0x0603#16, 6, 0⟩
  else if mf m 0x28 8 ≠ r.cursor.toNat then some ⟨0x0603#16, 7, 0⟩
  else none

/-- Plate 0's address. -/
def State.plate0 (s : State) : Nat := ((s.core 0).reg 0x6040).toNat / 4096 * 4096 + (s.core 0).rf 0x6044 6 0 * 2 ^ 32

/-- The plain bytes of a stored chunk, if it digests to its leaf and, for a confidential job, its tag verifies (check 5,
R421). -/
def State.restoredChunk (s : State) (m : List Byte) (i : Nat) (bs : List Byte) : Option (List Byte) :=
  if merkleLeaf bs ≠ bytesAt m (mf m 0xCC 4 + 32 * i) 32 then none
  else if s.confidential then
    let n := bs.length - 16
    gcmOpen (s.ckptKey (mf m 0x20 8)) (leBytes 4 (mf m 0xC 4) ++ leBytes 8 i) [] (bs.take n) (bs.drop n)
  else some bs

/-- The plain body of the chunks, or the index of the first that fails. -/
def State.restoredBody (s : State) (r : RestoreArgs) : Except Nat (List Byte) :=
  (List.range (mf r.manifest 0xC0 4)).foldl (fun acc i =>
    match acc with
    | .error e => .error e
    | .ok l =>
      match s.restoredChunk r.manifest i (r.chunks.getD i []) with
      | some b => .ok (l ++ b)
      | none => .error i) (.ok [])

/-- The root over the manifest's leaves. -/
def manifestRoot (m : List Byte) : List Byte :=
  merkleRoot ((List.range (mf m 0xC0 4)).map fun i => bytesAt m (mf m 0xCC 4 + 32 * i) 32)

/-- Check 6 on the state with the body in plate 0: the first entry whose header differs, if any. -/
def State.restoreEpochs (s : State) (m : List Byte) : Option RestoreFail :=
  let n := mf m 0xC4 4
  if bytesAt m 0x80 32 ≠ sha256 (bytesAt m 0x100 (16 * n)) then some ⟨0x0603#16, 9, 0⟩
  else ((List.range n).find? fun i =>
    let e := epochEntry (bytesAt m (0x100 + 16 * i) 16)
    decide (s.epochAt s.plate0 e.hoff ≠ e)).map fun i => ⟨0x0603#16, 9, i⟩

/-- Plate 0 is undefined, and START is refused until a restore succeeds or an image is loaded (R387). -/
def State.spoilPlate (s : State) : State :=
  let s := s.tick1
  let n := ((s.core 0).reg 0x6064).toNat * 4096
  let s := s.hbmWrite s.plate0 ((List.range n).map fun i => Config.freeByte s.freeCtr i)
  { s with svc := { s.svc with restoreFailed := true } }

/-- A core takes its state record, t, the seed and the plate state (R217, R383, R386); it holds no frame of the job before, and
its schedule is in line with the ring. -/
def Core.restoreFrom (m rec table : List Byte) (c : Core) : Core :=
  let t := mf m 0x20 5
  let c := { c with frame := Frame.none, seq := Seq.reset, lateStarts := [], workEnd := 0, behind := 0 }
  let c := (c.setReg 0x6004 (BitVec.ofNat 32 t)).setReg 0x6008 (BitVec.ofNat 32 (t / 2 ^ 32))
  let c := (List.range 4).foldl (fun c i => c.setReg (0x6010 + 4 * i) (BitVec.ofNat 32 (mf m (0x38 + 4 * i) 4))) c
  let c := ((c.setReg 0x6020 8#32).setRf 0x6028 31 31 0).setRf 0x6030 31 31 0
  let c := (c.setReg 0x6034 (BitVec.ofNat 32 t)).setReg 0x6038 (BitVec.ofNat 32 (t / 2 ^ 32))
  let c := (List.range 8).foldl (fun c i =>
    let w := BitVec.ofNat 32 (natAt rec (4 + 4 * i) 4)
    (c.setReg (0x2040 + 4 * i) w).setShadow (0x2040 + 4 * i) w) c
  let c := (List.range 16).foldl (fun c j =>
    (c.setRf (0x7C10 + 32 * j) 0 0 (natAt rec 0x24 2 / 2 ^ j % 2)).setRf (0x7C10 + 32 * j) 1 1 (natAt rec 0x26 2 / 2 ^ j % 2)) c
  let c := (List.range 64).foldl (fun c i => c.setReg (0x4100 + 4 * i) (BitVec.ofNat 32 (natAt rec (0x40 + 4 * i) 4))) c
  let c := (List.range 256).foldl (fun c i => c.setReg (0x4400 + 4 * i) (BitVec.ofNat 32 (natAt rec (0x140 + 4 * i) 4))) c
  if bitAt (c.reg 0x4000) 15 then c.store (c.scaleAddr 0) table else c

/-- After check 6: the steps, the cores, the scale tables from the plate, the ingest position and HIF_RETAIN; a halted module may
start a job again (R28). -/
def State.restoreInto (s : State) (m body : List Byte) : State :=
  let len := body.length - 144 * 2048
  let s := s.mapCores fun i c => c.restoreFrom m (bytesAt body (len + 2048 * i.val) 2048)
    (s.hbmRead (s.plate0 + Config.imageMap s.mapKey "scale table" i.val) 0x8000)
  let cur := mf m 0x28 8
  let id := BitVec.ofNat 32 (mf m 0x30 4)
  let s := { s with svc := { s.svc with
    streams := s.svc.streams.map fun (t : Stream) => if t.args.stream = id then streamAt t.args cur else t
    ingestAt := some (id, cur), cursors := [], restored := some (mf m 0x20 8), restoreFailed := false } }
  let s := match s.stream id with
    | some t => s.wantRead t
    | none => s
  let s := State.setGf { s with shutter := { s.shutter with started := false, ringPos := 0, stopNext := false } } 0x40020 3 3 0
  (s.setGreg 0x70200 (BitVec.ofNat 32 cur)).setGreg 0x70204 (BitVec.ofNat 32 (cur / 2 ^ 32))

/-- The answer to a RESTORE that fails: reason and index. -/
def RestoreFail.resp (f : RestoreFail) : List Byte := leBytes 2 f.reason ++ leBytes 4 f.index

/-- The slack check of a job that a derate beyond its slack has stopped (R289, R290): at the derate steps in force and at SLK more every
frame must fit. -/
def State.slackCheck (s : State) (i : Image) : Option Half :=
  let d := s.gf 0x20024 8 6
  let fits (k : Nat) : Bool := i.worst.all fun w => decide (w.2.2 + 512 ≤ cyclesOf (s.greg 0x40000).toNat (derated k))
  if d ≤ i.steps + i.slack then none
  else if !fits d then some 0x0101#16
  else if i.slack = 0 || !fits (d + i.slack) then some 0x0107#16
  else none

/-- The slack of a restored job counts from the derate steps in force, if it had been used up (R290). -/
def State.slackAgain (s : State) : State :=
  match s.image with
  | none => s
  | some i =>
    let d := s.gf 0x20024 8 6
    if d ≤ i.steps + i.slack then s else State.setGf { s with image := some { i with steps := d } } 0x50020 23 16 i.slack

/-- Checks 5 and 6, and the restore; an uncorrectable read of the HBM fails it (R375, R386). -/
def State.restoreLate (s : State) (r : RestoreArgs) : MboxEnd :=
  match s.restoredBody r with
  | .error i => .done s.spoilPlate 0x0602#16 (RestoreFail.resp ⟨0x0602#16, 8, i⟩)
  | .ok body =>
    if r.hbmBad then .done s.spoilPlate 0x040A#16 []
    else if manifestRoot r.manifest ≠ bytesAt r.manifest 0xA0 32 || decide (body.length ≠ mf r.manifest 0x58 8) then
      .done s.spoilPlate 0x0602#16 (RestoreFail.resp ⟨0x0602#16, 8, 0⟩)
    else
      let s := s.hbmWrite s.plate0 (body.take (body.length - 144 * 2048))
      let s := s.countClips ((List.range (mf r.manifest 0xC4 4)).map fun i => (s.plate0 + 64 * mf r.manifest (0x100 + 16 * i) 4, 64))
      match s.restoreEpochs r.manifest with
      | some f => .done s.spoilPlate f.code f.resp
      | none => .done (s.restoreInto r.manifest body).slackAgain 0#16 []

/-- RESTORE (R290, R386): with an image loaded and none running. -/
def execRestore (h : MboxHdr) (r : RestoreArgs) (s : State) : Host.Outcome State Fault Refusal :=
  .next (s.mbox h 4 1 false false fun s =>
    if !s.loaded || (s.running && !s.halted && s.shutter.started) then .done s 0x0605#16 []
    else
      match s.image.bind s.slackCheck, s.restoreEarly r with
      | some code, _ => .done s code []
      | none, some f => .done s.tick1 f.code f.resp
      | none, none => s.tick1.restoreLate r)

end Sys2Proof.Machine
end

