-- ==== Sys2Proof/Machine/Collective.lean ====
section
/-! DEFINITION. The collective engine (R324–R335): start records, buckets and their records with compression, reductions in
position order, gathers, the parameter gather, and completions in start order. -/

namespace Sys2Proof.Machine

/-! ## Shards and buckets (R324, R330) -/

/-- Elements of the full tensor. -/
def Coll.elems (d : Coll) : Nat := if d.sparse then d.nelem * d.q * 1024 else d.nelem

/-- Bytes of an input element. -/
def Coll.esize (d : Coll) : Nat := if d.bf16 then 2 else 4

/-- Format code of the input elements. -/
def Coll.fmt (d : Coll) : Nat := if d.bf16 then 1 else 0

/-- Buckets of one sparse tile. -/
def Coll.perTile (d : Coll) : Nat := ceilDiv (d.q * 1024) 4096

/-- Buckets of the tensor. -/
def Coll.buckets (d : Coll) : Nat := if d.sparse then d.nelem * d.perTile else ceilDiv d.nelem 4096

/-- First element of a bucket. -/
def Coll.bucketAt (d : Coll) (b : Nat) : Nat :=
  if d.sparse then b / d.perTile * (d.q * 1024) + b % d.perTile * 4096 else 4096 * b

/-- Elements of a bucket. -/
def Coll.bucketLen (d : Coll) (b : Nat) : Nat :=
  let left := if d.sparse then d.q * 1024 - b % d.perTile * 4096 else d.nelem - 4096 * b
  if left < 4096 then left else 4096

/-- The first bucket of the member at position `j` of `m`; that of position j + 1 ends its shard. -/
def Coll.shardAt (d : Coll) (m j : Nat) : Nat :=
  if d.sparse then j * d.nelem / m * d.perTile else j * d.buckets / m

/-- The buckets of the member at position `j`. -/
def Coll.owned (d : Coll) (m j : Nat) : List Nat :=
  (List.range (d.shardAt m (j + 1) - d.shardAt m j)).map (d.shardAt m j + ·)

/-- Elements of the shard of position `j`. -/
def Coll.shardLen (d : Coll) (m j : Nat) : Nat := (d.owned m j).foldl (fun a b => a + d.bucketLen b) 0

/-- F_j, the index of the shard's first element. -/
def Coll.firstElem (d : Coll) (m j : Nat) : Nat := d.bucketAt (d.shardAt m j)

/-! ## Bucket records (R330, R331) -/

/-- The list padded with zeros to a multiple of `n` bytes. -/
def padTo (n : Nat) (l : List Byte) : List Byte := l ++ List.replicate (ceilDiv l.length n * n - l.length) 0#8

/-- A bucket record's header. -/
def bucketHead (d : Coll) (b : Nat) (epoch : Word) (k mode : Nat) : List Byte :=
  leBytes 4 b ++ leBytes 4 d.tensor.toNat ++ leBytes 4 epoch.toNat ++ leBytes 2 k ++ leBytes 1 mode ++ leBytes 1 d.fmt

/-- Element `i` comes before element `j` in the top-k order: NaN first, then by falling magnitude, then by index. -/
def topBefore (acc : List Word) (i j : Nat) : Bool :=
  let a := f32 (acc.getD i 0#32)
  let b := f32 (acc.getD j 0#32)
  if a.isNan then !b.isNan || decide (i < j)
  else if b.isNan then false
  else FVal.lt b.abs a.abs || (!FVal.lt a.abs b.abs && decide (i < j))

/-- The first `k` indices of the top-k order, ascending. -/
def topK (acc : List Word) (k : Nat) : List Nat :=
  (List.range acc.length).filter fun i => decide (((List.range acc.length).filter fun j => topBefore acc j i).length < k)

/-- A bucket's record and its new residual, formed from the gradient's codes and the old residual (R331), with the events. -/
def formRecord (d : Coll) (b : Nat) (epoch : Word) (g : List Nat) (r : List Word) : List Byte × List Word × NumEv :=
  let n := g.length
  if d.comp = 0 then (padTo 16 (bucketHead d b epoch 0 0 ++ g.flatMap (leBytes d.esize)), r, {})
  else
    let sums := List.zipWith (fun x y => f32Add false ((toF32 false (codeVal d.fmt x)).1) y) g r
    let acc := sums.map (·.1)
    let ev := NumEv.joins (sums.map (·.2))
    if d.comp = 1 then
      let s := topK acc (if d.k < n then d.k else n)
      let val (i : Nat) : Nat := (narrow d.fmt false (f32 (acc.getD i 0#32))).1
      let rest := acc.mapIdx fun i a =>
        if s.contains i then (f32Sub false a (toF32 false (codeVal d.fmt (val i))).1).1 else a
      (padTo 16 (bucketHead d b epoch s.length 1 ++ padTo 4 (s.flatMap (leBytes 2)) ++
        s.flatMap fun i => leBytes d.esize (val i)), rest, ev)
    else
      let tot := acc.foldl (fun (t : Word × NumEv) a =>
        let (w, e) := f32Add false t.1 (a &&& 0x7FFFFFFF#32)
        (w, t.2.join e)) (0#32, ev)
      let (scale, e2) := f32Div false tot.1 (i32ToF32 (BitVec.ofNat 32 n)).1
      let bitmap := (List.range 512).map fun i =>
        BitVec.ofNat 8 ((List.range 8).foldl (fun a t =>
          a + (if ((acc.getD (8 * i + t) 0#32)).getLsbD 31 then 2 ^ t else 0)) 0)
      let rest := acc.map fun a => (f32Sub false a (if a.getLsbD 31 then scale ^^^ 0x80000000#32 else scale)).1
      (bucketHead d b epoch 0 2 ++ leBytes 4 scale.toNat ++ List.replicate 12 0#8 ++ bitmap, rest, tot.2.join e2)

/-- Length of a record from its header. -/
def recordLen (d : Coll) (h : List Byte) : Nat :=
  let e := if natAt h 15 1 = 1 then 2 else 4
  match natAt h 14 1 with
  | 0 => ceilDiv (16 + d.bucketLen (natAt h 0 4) * e) 16 * 16
  | 1 => ceilDiv (ceilDiv (16 + 2 * natAt h 12 2) 4 * 4 + natAt h 12 2 * e) 16 * 16
  | _ => 544

/-- The records of a message body. -/
def recordsOf (d : Coll) : Nat → List Byte → List (List Byte)
  | 0, _ => []
  | n + 1, l =>
    if l.length < 16 then []
    else l.take (recordLen d l) :: recordsOf d n (l.drop (recordLen d l))

/-- The value that a record gives element `i` of its bucket, if it sends it (R328, R331). -/
def recordVal (rec : List Byte) (i : Nat) : Option FVal :=
  let fmt := natAt rec 15 1
  let e := if fmt = 1 then 2 else 4
  match natAt rec 14 1 with
  | 0 => some (codeVal fmt (natAt rec (16 + i * e) e))
  | 1 =>
    let k := natAt rec 12 2
    match (List.range k).find? fun p => natAt rec (16 + 2 * p) 2 = i with
    | some p => some (codeVal fmt (natAt rec (ceilDiv (16 + 2 * k) 4 * 4 + p * e) e))
    | none => none
  | _ =>
    let v := f32 (BitVec.ofNat 32 (natAt rec 16 4))
    some (if (natAt rec (32 + i / 8) 1).testBit (i % 8) then v.neg else v)

/-- The sum of the values sent for one element, in position order (R328). -/
def reduceElem (vs : List FVal) : Word × NumEv :=
  match vs with
  | [] => (0#32, {})
  | v :: t => t.foldl (fun (a : Word × NumEv) x =>
      let (y, i) := FVal.add (f32 a.1) x
      let (w, e) := toF32 false y
      (w, (a.2.join e).join { inv := i })) (toF32 false v)

/-- The sums of a shard's buckets from the records of every position, in FP32. -/
def reduceShard (d : Coll) (owned : List Nat) (recs : List (List (List Byte))) : List Byte × NumEv :=
  let l := owned.flatMap fun b =>
    let rs := recs.filterMap fun r => r.find? fun x => natAt x 0 4 = b
    (List.range (d.bucketLen b)).map fun i => reduceElem (rs.filterMap fun r => recordVal r i)
  (l.flatMap fun w => leBytes 4 w.1.toNat,
    (NumEv.joins (l.map (·.2))).join { inv := l.any fun w => (f32 w.1).isNan })

/-! ## The engine's state -/

/-- A collective descriptor of the loaded image. -/
def State.collDesc (s : State) (i : Nat) : Option Coll :=
  match s.image with
  | some g => g.plan.colls[i]?
  | none => none

/-- A started run. -/
def CollRun.live (r : CollRun) : Bool := r.started

/-- COL_STATUS shows what is in progress. -/
def State.showColl (s : State) : State :=
  let n := (s.coll.runs.filter (·.live)).length
  (s.setGf 0x60C00 0 0 (bit (decide (0 < n)))).setGf 0x60C00 9 1 n

/-- The events of a reduction or compression (R328). -/
def State.collEvents (s : State) (ev : NumEv) (nan : Bool) : State :=
  let s := if ev.inv || nan then s.setGf 0x60C00 10 10 1 else s
  if ev.ovf then s.setGf 0x60C00 11 11 1 else s

/-- The run at place `i` of the engine replaced. -/
def State.setRun (s : State) (i : Nat) (r : CollRun) : State :=
  { s with coll := { s.coll with runs := setAt s.coll.runs i r } }

/-- A message of the run at place `i` to the member at a position, over the first-hop port of the run's roster (R310, R320, R324). -/
def State.sendColl (s : State) (i : Nat) (r : CollRun) (j : Nat) (h : Word → MsgHead) (body : List Byte) : State :=
  match r.members[j]? with
  | none => s
  | some m =>
    if 16 ≤ m.port then s
    else
      let s := s.sendMessage m.port ((h m.id).bytes ++ body)
      match s.coll.runs[i]? with
      | some x => s.setRun i { x with sends := x.sends ++ [(m.port, (s.port m.port).given)] }
      | none => s

/-- A CDATA message to the member at a position (R310). -/
def State.sendCdata (s : State) (i : Nat) (r : CollRun) (j : Nat) (body : List Byte) : State :=
  s.sendColl i r j (fun id => { s.headTo 4 id body.length with coll := r.coll }) body

/-- The positions of a run's other members. -/
def CollRun.peers (r : CollRun) : List Nat := (List.range r.members.length).filter (· ≠ r.me)

/-- The run fails, for the first reason that comes up. -/
def CollRun.fail (r : CollRun) (code : Half) : CollRun :=
  { r with failed := match r.failed with
      | some c => some c
      | none => some code }

/-- Every result block that a member awaits has come: GATHER and PGATHER from every position, BROADCAST from the root,
ALL_REDUCE the sums of every shard that is not empty. -/
def CollRun.gathered (d : Coll) (r : CollRun) : Bool :=
  let m := r.members.length
  match d.op with
  | 2 => r.blocks.contains d.root
  | 3 => (List.range m).all fun j => r.blocks.contains j || (d.owned m j).isEmpty
  | _ => (List.range m).all r.blocks.contains

/-- The run is complete at this module (R327): it has failed, or its result is there and its messages have left. -/
def State.runComplete (s : State) (d : Coll) (r : CollRun) : Bool :=
  r.started && (r.failed.isSome ||
    (r.sends.all (fun x => s.flitsLeft x.1 x.2) &&
      match d.op with
      | 1 => r.summed
      | 3 => r.summed && r.gathered d
      | _ => r.gathered d))

/-! ## Ready slots (R335) -/

/-- Ready gather slots are signalled in the order of the starts; a failed gather has none. -/
def readyPrefix (ready : CollRun → Option Bool) : List CollRun → List CollRun × Nat
  | [] => ([], 0)
  | r :: t =>
    match ready r with
    | none =>
      let (l, n) := readyPrefix ready t
      (r :: l, n)
    | some true =>
      let (l, n) := readyPrefix ready t
      ({ r with signalled := true } :: l, n + 1)
    | some false => (r :: t, 0)

/-- Whether a run holds back or gives a ready-slot event: nothing for a run that is no gather in progress. -/
def State.slotReady (s : State) (r : CollRun) : Option Bool :=
  match s.collDesc r.coll with
  | some d => if d.op ≠ 4 || !r.started || r.signalled || r.failed.isSome then none else some (r.gathered d)
  | none => none

/-- Every slot that has become ready is signalled on source 0x21. -/
def State.signalReady (s : State) : State :=
  let (l, n) := readyPrefix s.slotReady s.coll.runs
  (List.range n).foldl (fun s _ => s.event 0x21) { s with coll := { s.coll with runs := l } }

/-! ## Reductions -/

/-- EPOCH of the header of tile `t` of a run's tensor, in its SRC plate; where in the plate the header lies no section of the image says
(R96, R329, log entry 24). -/
def State.tileEpoch (s : State) (r : CollRun) (t : Nat) : Word × State :=
  let (bs, s) := s.serviceRead (r.src + Config.imageMap s.loadNumber "tile header of a reduction" (r.coll * 2 ^ 32 + t)) 4
  (BitVec.ofNat 32 (natAt bs 0 4), s)

/-- The owner's sums, once a contribution of every position is there (R328, R329): records against another epoch are
discarded, and ALL_REDUCE sends the sums on. -/
def State.sumShard (s : State) (i : Nat) (d : Coll) (r : CollRun) : State :=
  let m := r.members.length
  let owned := d.owned m r.me
  if r.summed || r.failed.isSome || !(owned.isEmpty || (List.range m).all fun j => (r.parts.map (·.1)).contains j) then s
  else
    let epochs := if d.sparse then (owned.map fun b => b / d.perTile).eraseDups else []
    let (tags, s) := epochs.foldl (fun (st : List (Nat × Word) × State) t =>
      let (e, s) := st.2.tileEpoch r t
      (st.1 ++ [(t, e)], s)) (([] : List (Nat × Word)), s)
    let recs := (List.range m).map fun j =>
      match r.parts.find? fun p => p.1 = j with
      | some p => recordsOf d (p.2.length / 16 + 1) p.2
      | none => []
    let stale (x : List Byte) : Bool :=
      d.sparse && !tags.contains (natAt x 0 4 / d.perTile, BitVec.ofNat 32 (natAt x 8 4))
    let drops := (recs.flatten.filter stale).length
    let (sums, ev) := reduceShard d owned (recs.map fun l => l.filter fun x => !stale x)
    let at_ := if d.op = 3 then r.dst + 4 * d.firstElem m r.me else r.dst
    let s := if owned.isEmpty then s else (s.hbmWrite at_ sums).collEvents ev false
    let r := { r with summed := true, blocks := r.blocks ++ [r.me] }
    if drops ≠ 0 then ((s.bumpG 0x60C0C drops).setRun i (r.fail 0x0205#16))
    else if d.op = 3 && !owned.isEmpty then r.peers.foldl (fun s j => s.sendCdata i r j sums) (s.setRun i r)
    else s.setRun i r

/-- A CDATA body from position `j` reaches a run: a contribution to this module's shard, else a result block. -/
def State.giveBlock (s : State) (i : Nat) (d : Coll) (r : CollRun) (j : Nat) (body : List Byte) : State :=
  let m := r.members.length
  let reduces := d.op = 1 || d.op = 3
  if reduces && !(d.owned m r.me).isEmpty && !(r.parts.map (·.1)).contains j then
    let r := { r with parts := r.parts ++ [(j, body)] }
    (s.setRun i r).sumShard i d r
  else
    let at_ := match d.op with
      | 2 => r.dst
      | 3 => r.dst + 4 * d.firstElem m j
      | _ => r.dst + j * d.bytes
    (s.hbmWrite at_ body).setRun i { r with blocks := r.blocks ++ [j] }

/-- The run awaits a CDATA body from position `j`. -/
def CollRun.awaits (d : Coll) (r : CollRun) (j : Nat) : Bool :=
  let m := r.members.length
  r.started && r.failed.isNone &&
    (match d.op with
      | 1 => !(d.owned m r.me).isEmpty && !(r.parts.map (·.1)).contains j
      | 2 => decide (j = d.root) && !r.blocks.contains j
      | 3 => (!(d.owned m r.me).isEmpty && !(r.parts.map (·.1)).contains j) ||
          (!(d.owned m j).isEmpty && !r.blocks.contains j)
      | _ => !r.blocks.contains j)

/-- The place and the position at which a CDATA message is awaited: the oldest such run of its descriptor. -/
def State.cdataFor (s : State) (m : List Byte) : Option (Nat × Coll × CollRun × Nat) :=
  let h := msgHead m
  match s.collDesc h.coll with
  | none => none
  | some d =>
    (List.range s.coll.runs.length).findSome? fun i =>
      match s.coll.runs[i]? with
      | none => none
      | some r =>
        if r.coll ≠ h.coll then none
        else match (List.range r.members.length).find? fun j => (r.members[j]?.map (·.id)) = some h.src with
          | none => none
          | some j => if r.awaits d j then some (i, d, r, j) else none

/-- A CDATA message is taken by its run, or kept for one that has not started here. -/
def State.takeCdata (s : State) (m : List Byte) : State :=
  match s.cdataFor m with
  | some (i, d, r, j) => s.giveBlock i d r j (msgBody m)
  | none => { s with coll := { s.coll with early := s.coll.early ++ [m] } }

/-! ## Starts (R326) -/

/-- The base of a plate role: 0 absolute, 1 SRC, 2 DST, 3 STABLE (R215, R245). -/
def Core.plateBase (c : Core) (role : Nat) : Nat :=
  if role = 0 then 0
  else
    let p := c.rf 0x6020 (role + 1) (role + 1)
    (c.reg (0x6040 + 8 * p)).toNat / 4096 * 4096 + c.rf (0x6044 + 8 * p) 6 0 * 2 ^ 32

/-- A descriptor's HBM address under a plate role (R245). -/
def Core.plateAddr (c : Core) (role a : Nat) : Nat := (c.plateBase role + a) % 2 ^ 39

/-- A collective's address under a plate role, with its 64-bit override (R325, R326). -/
def Core.collAddr (c : Core) (role a ovr : Nat) : Nat := (c.plateBase role + a + ovr) % 2 ^ 64

/-- Bytes at SRC and at DST that a run touches. -/
def Coll.spans (d : Coll) (m me : Nat) : Nat × Nat :=
  match d.op with
  | 0 => (d.bytes, m * d.bytes)
  | 1 => (d.elems * d.esize, 4 * d.shardLen m me)
  | 2 => (d.bytes, d.bytes)
  | 3 => (d.elems * d.esize, 4 * d.elems)
  | _ => (d.bytes, 0)

/-- What every started run of a reduction sends: a message of bucket records to each owner, its own included; residuals are
read and written (R331). -/
def State.contribute (s : State) (i : Nat) (d : Coll) (r : CollRun) : State :=
  let m := r.members.length
  let one (st : State × List Byte) (b : Nat) : State × List Byte :=
    let (s, body) := st
    let n := d.bucketLen b
    let e0 := d.bucketAt b
    let (gb, s) := s.serviceRead (r.src + e0 * d.esize) (n * d.esize)
    let g := (List.range n).map fun x => natAt gb (x * d.esize) d.esize
    let (rb, s) := if d.comp = 0 then ([], s) else s.serviceRead (r.residIn + 4 * e0) (4 * n)
    let res := (List.range n).map fun x => BitVec.ofNat 32 (natAt rb (4 * x) 4)
    let (epoch, s) := if d.sparse then s.tileEpoch r (b / d.perTile) else (0#32, s)
    let (rec, res', ev) := formRecord d b epoch g res
    let nan := (g.any fun x => (codeVal d.fmt x).isNan) || decide (d.comp ≠ 0 ∧ res'.any (fun w => (f32 w).isNan) = true)
    let s := if d.comp = 0 then s else (s.hbmWrite (r.residOut + 4 * e0) (res'.flatMap fun w => leBytes 4 w.toNat)).collEvents ev nan
    (s, body ++ rec)
  let s := (List.range m).foldl (fun s j =>
    let owned := d.owned m j
    if owned.isEmpty then s
    else
      let (s, body) := owned.foldl one (s, [])
      if j = r.me then
        match s.coll.runs[i]? with
        | some x => s.setRun i { x with parts := (r.me, body) :: x.parts }
        | none => s
      else s.sendCdata i r j body) s
  match s.coll.runs[i]? with
  | some r => s.sumShard i d r
  | none => s

/-- A gather or broadcast: this module's own block goes to every other member and to its own place. -/
def State.spread (s : State) (i : Nat) (d : Coll) (r : CollRun) : State :=
  if d.op = 2 && decide (d.root ≠ r.me) then s
  else
    let (bs, s) := s.serviceRead r.src d.bytes
    let s := s.setRun i { r with blocks := r.blocks ++ [r.me] }
    let s := r.peers.foldl (fun s j => s.sendCdata i r j bs) s
    s.hbmWrite (if d.op = 2 then r.dst else r.dst + r.me * d.bytes) bs

/-- A parameter gather (R333): this module's own shard is copied, and every other owner asked. -/
def State.askShards (s : State) (i : Nat) (d : Coll) (r : CollRun) : State :=
  match s.window d.window with
  | none => s.setRun i (r.fail 0x0505#16)
  | some w =>
    let m := r.members.length
    let waiting := (s.coll.runs.filter fun x => x.coll = r.coll && x.started && !x.gathered d && x.failed.isNone).length
    if !w.gather || decide (w.slotSize < m * d.bytes) || decide (d.depth < waiting) then s.setRun i (r.fail 0x0505#16)
    else
      let slot := r.layer.toNat % w.slots
      let (bs, s) := s.serviceRead r.src d.bytes
      let s := s.hbmWrite (w.base + slot * w.slotSize + r.me * d.bytes) bs
      let step := (s.core 0).reg 0x6004
      let s := s.setRun i { r with blocks := r.blocks ++ [r.me], step := step }
      let s := r.peers.foldl (fun s j =>
        s.sendColl i r j (fun id => { s.headTo 2 id 32 with
            window := d.window, offset := (slot * w.slotSize + j * d.bytes) / 64, coll := r.coll, slot := slot, step := step })
          (leBytes 4 r.layer.toNat ++ leBytes 4 d.bytes ++ List.replicate 24 0#8)) s
      s.signalReady

/-- Messages that came before the start are given to the runs that now await them. -/
def State.giveEarly (s : State) : State :=
  let l := s.coll.early
  l.foldl State.takeCdata { s with coll := { s.coll with early := [] } }

/-- The members of a set in the roster in force at the tick of the starting frame (R319, R320). -/
def State.setMembers (s : State) (fn : BitVec 48) (set : Nat) : List Member :=
  match s.rosterAt fn with
  | some r => r.members.filter fun m => m.sets.getLsbD set
  | none => []

/-- The collective at place `i` starts. -/
def State.startRun (s : State) (i : Nat) (d : Coll) (r : CollRun) (hbmBad : Bool) : State :=
  let own := s.core ⟨r.cores.headD 0 % 144, Nat.mod_lt _ (by decide)⟩
  let ms := s.setMembers r.fn d.set
  let self : Member := ⟨s.greg 0x60800, 0#32, 0xFF, 0, 0#16⟩
  let ms := if ms.isEmpty then [self] else ms
  let me := ((List.range ms.length).find? fun j => (ms[j]?.map (·.id)) = some self.id).getD ms.length
  let layer := if d.op = 4 then r.layer.toNat * d.lstride else 0
  let src := own.collAddr d.srcRole d.src r.srcOvr.toNat + layer
  let dst := own.collAddr d.dstRole d.dst r.dstOvr.toNat
  let r := { r with
    started := true, members := ms, me := me, src := src, dst := dst
    residIn := own.plateAddr (if d.residRole = 0 then 0 else 1) d.resid
    residOut := own.plateAddr (if d.residRole = 0 then 0 else 2) d.resid }
  let key := (r.coll, r.fn, r.layer)
  let runs := (s.coll.runs.eraseIdx i) ++ [r]
  let i := runs.length - 1
  let s := { s with coll := { s.coll with runs := runs, begun := key :: s.coll.begun.filter fun k => decide (k.1 ≠ key.1) || decide (k.2.1 = key.2.1) } }
  let (a, b) := d.spans ms.length me
  let s :=
    if ms.length ≤ me then s.setRun i { r with summed := true, blocks := List.range ms.length }
    else if hbmBad then s.setRun i (r.fail 0x040A#16)
    else if !inHbm src a || !inHbm dst b then s.setRun i (r.fail 0x0505#16)
    else if d.op = 1 || d.op = 3 then s.contribute i d r
    else if d.op = 4 then s.askShards i d r
    else s.spread i d r
  s.signalReady.giveEarly.showColl

/-- A start record reaches the engine: a repeat is discarded; the last that a collective needs starts it (R326). -/
def State.takeStartRecord (s : State) (r : StartRecord) (hbmBad : Bool) : State :=
  let c := r.coll.toNat
  match s.collDesc c with
  | none => s
  | some d =>
    if s.coll.begun.contains (c, r.fn, r.layer) then s
    else
      let place := (List.range s.coll.runs.length).find? fun i =>
        match s.coll.runs[i]? with
        | some x => x.coll = c && x.fn = r.fn && x.layer = r.layer && !x.started
        | none => false
      let run : CollRun := match place.bind (s.coll.runs[·]?) with
        | some x => x
        | none => ⟨c, r.fn, r.layer, r.srcOvr, r.dstOvr, [], false, [], 0, 0, 0, 0, 0, [], [], false, false, 0#32, [], none⟩
      if run.cores.contains r.core.toNat then s
      else
        let run := { run with cores := run.cores ++ [r.core.toNat] }
        let (s, i) := match place with
          | some i => (s.setRun i run, i)
          | none => ({ s with coll := { s.coll with runs := s.coll.runs ++ [run] } }, s.coll.runs.length)
        if d.starts ≤ run.cores.length then s.startRun i d run hbmBad else s

/-- START_RECORD. -/
def execStartRecord (r : StartRecord) (hbmBad : Bool) (s : State) : Host.Outcome State Fault Refusal :=
  .next (s.takeStartRecord r hbmBad)

/-! ## Messages -/

/-- A message leaves for a member over the first-hop port of its entry in the roster of an epoch (R320, R324). -/
def State.sendIn (s : State) (epoch dst : Word) (m : List Byte) : State :=
  match (s.rosterOf epoch).bind (·.portOf dst) with
  | some p => s.sendMessage p m
  | none => s

/-- A message for another member is forwarded whole (R324). -/
def State.relay (s : State) (m : List Byte) : State := s.sendIn (msgHead m).repoch (msgHead m).dst m

/-- A message that arrives for the collective engine: taken from its port, checked for its epoch, forwarded or used. -/
def State.engineMsg (s : State) (port : BitVec 4) (m : List Byte) (f : State → State) : State :=
  s.takeMsg port.toNat m fun s =>
    if (msgHead m).dst ≠ s.greg 0x60800 then s.relay m
    else if !s.epochOk (msgHead m).repoch then s.rosterSkew true
    else f s

/-- CDATA (R324, R328). -/
def execCdata (port : BitVec 4) (msg : List Byte) (s : State) : Host.Outcome State Fault Refusal :=
  .next (s.engineMsg port msg fun s => s.takeCdata msg)

/-- An owner's reply to a GREQ (R333, R334). -/
def State.serveShard (s : State) (m : List Byte) (hbmBad : Bool) : State :=
  let h := msgHead m
  let b := msgBody m
  let own := s.core 0
  let step := own.reg 0x6004
  let head := { s.headTo 3 h.src 0 with
    failed := true, window := h.window, offset := h.offset, coll := h.coll, slot := h.slot, step := step }
  match s.collDesc h.coll with
  | none => s.sendIn h.repoch h.src head.bytes
  | some d =>
    if natAt b 4 4 ≠ d.bytes || h.step ≠ step || hbmBad then s.sendIn h.repoch h.src head.bytes
    else
      let (bs, s) := s.serviceRead (own.plateAddr d.srcRole d.src + natAt b 0 4 * d.lstride) d.bytes
      s.sendIn h.repoch h.src (MsgHead.bytes { head with failed := false, length := d.bytes } ++ bs)

/-- GREQ. -/
def execGreq (port : BitVec 4) (msg : List Byte) (hbmBad : Bool) (s : State) : Host.Outcome State Fault Refusal :=
  .next (s.engineMsg port msg fun s => s.serveShard msg hbmBad)

/-- The oldest gather that awaits the shard of a GDATA, with its place and the sender's position. -/
def State.gdataFor (s : State) (h : MsgHead) : Option (Nat × CollRun × Nat) :=
  (List.range s.coll.runs.length).findSome? fun i =>
    match s.coll.runs[i]?, s.window h.window with
    | some r, some w =>
      match (List.range r.members.length).find? fun j => (r.members[j]?.map (·.id)) = some h.src with
      | some j =>
        if r.coll = h.coll && r.started && r.failed.isNone && decide (r.layer.toNat % w.slots = h.slot) && !r.blocks.contains j then
          some (i, r, j)
        else none
      | none => none
    | _, _ => none

/-- A GDATA is written to its gather window, and its gather has one shard more, or fails (R311, R333–R335). -/
def State.takeShard (s : State) (p : Nat) (m : List Byte) : State :=
  let h := msgHead m
  match s.window h.window with
  | none => s.windowDrop p
  | some w =>
    if h.failed then
      match s.gdataFor h with
      | some (i, r, _) => State.signalReady (s.setRun i (r.fail (if h.step = r.step then 0x0505#16 else 0x0508#16)))
      | none => s
    else if !w.gather || decide (w.size < h.offset * 64 + h.length) then s.windowDrop p
    else
      let s := s.hbmWrite (w.base + h.offset * 64) (msgBody m)
      match s.gdataFor h with
      | some (i, r, j) => State.signalReady (s.setRun i { r with blocks := r.blocks ++ [j] })
      | none => s

/-- GDATA. -/
def execGdata (port : BitVec 4) (msg : List Byte) (s : State) : Host.Outcome State Fault Refusal :=
  .next (s.engineMsg port msg fun s => s.takeShard port.toNat msg)

/-! ## Completions (R327) -/

/-- The current frame of every core is aborted under SHT_POLICY.ABORT. -/
def State.abortAll (s : State) (code : Half) : State :=
  s.mapCores fun i c =>
    if c.frame.live && c.frame.retiredAt.isNone then
      Core.checkRetire (s.ctx i) (c.abort code (BitVec.ofNat 13 (c.rf 0x2004 12 0)))
    else c

/-- The oldest started collective, if it is complete, is delivered: event 0x20, and its failure if it has one. -/
def State.deliver (s : State) : State :=
  match s.coll.runs.find? (·.started) with
  | none => s
  | some r =>
    match s.collDesc r.coll with
    | none => s
    | some d =>
      if !s.runComplete d r then s
      else
        let s := { s with coll := { s.coll with runs := s.coll.runs.erase r } }
        let s := ((s.event 0x20).bumpG 0x60C08 1).showColl.signalReady
        match r.failed with
        | none => s
        | some code =>
          let s := (s.setGf 0x60C00 31 16 code.toNat).logEvent code
          let s := if s.gbit 0x60C04 31 then s
            else s.setGreg 0x60C04 (BitVec.ofNat 32 (2 ^ 31 + code.toNat * 256 + r.coll))
          s.abortAll code

/-- COLLECTIVE_COMPLETE. -/
def execCollectiveComplete (s : State) : Host.Outcome State Fault Refusal := .next s.deliver

end Sys2Proof.Machine
end

