-- ==== Sys2Proof/Machine/Settle.lean ====
section
/-! DEFINITION. What falls due in a core as its cycles pass (R58, R101, R132, R232, R251, R257): the words that SLD and SST take, what
instructions raise before their completion, their header checks and their contract completions, each in its cycle whether or not a
command names it. -/

namespace Sys2Proof.Machine

/-- Something that falls due in a core. -/
inductive Due
  /-- an SLD or SST takes its word (R232) -/
  | word (x : CacheWord)
  /-- an instruction raises something before its completion (R58, R132) -/
  | early (o : PendingOp) (e : Early)
  /-- the header checks of a TLOAD (R101) -/
  | header (o : PendingOp) (h : HdrCheck)
  /-- the trap of a frame whose header lines miss their CRC (R251) -/
  | trap (lines : List Nat)
  /-- a contract completion (R257) -/
  | done (o : PendingOp)
deriving DecidableEq, Repr

/-- Whatever falls due in a core, with its cycle; of one cycle in the order listed. -/
def Core.dues (c : Core) : List (Nat × Due) :=
  c.seq.words.map (fun x => (x.cycle, Due.word x)) ++
    c.inflight.flatMap (fun o => o.early.map fun e => (e.cycle, Due.early o e)) ++
    c.inflight.filterMap (fun o => o.header.map fun h => (h.due, Due.header o h)) ++
    (if c.atEntry then
      let bad := c.missing (linesRead [(bundleAddr (c.seq.prev - 3), 128)]) []
      if bad.isEmpty then [] else [(c.seq.nextAt, Due.trap bad)]
    else []) ++
    c.inflight.map fun o => (o.dueNow, Due.done o)

/-- The first by cycle, the earlier of equals. -/
def earliest {α : Type} : List (Nat × α) → Option (Nat × α)
  | [] => none
  | x :: t =>
    match earliest t with
    | none => some x
    | some y => if y.1 < x.1 then some y else some x

/-- The instruction in flight changed. -/
def Core.setOp (c : Core) (o : PendingOp) : Core :=
  { c with inflight := c.inflight.map fun p => if p.id = o.id then o else p }

/-- What falls due happens. -/
def Core.doDue (k : Ctx) (c : Core) (d : Due) : Core :=
  match d with
  | .word x => Core.takeWord k { c with seq := { c.seq with words := c.seq.words.erase x } } x
  | .early o e => (c.setOp { o with early := o.early.erase e }).fire k o e
  | .header o h => (c.setOp { o with header := none }).checkHeader h o.bundle
  | .trap lines => c.fetchTrap k (c.seq.prev + 1) lines
  | .done o => c.complete k o o.fate

/-- What falls due in a core at a cycle happens, with a free value for it. -/
def State.fall (s : State) (c : CoreId) (t : Nat) (d : Due) : State :=
  let s := (s.atCycle t).tick1
  (s.setCore c ((s.core c).doDue { s.ctx c with clock := t } d)).drainReports c

end Sys2Proof.Machine
end

