-- ==== Sys2Proof/Machine/Dma.lean ====
section
/-! DEFINITION. The DMA channels (R244–R249, R252, R280, R312, R349): descriptors, their start with overrides and plate roles,
and their contract completion, which moves their bytes and gives their completion status. -/

namespace Sys2Proof.Machine

/-! ## Descriptors (R245) -/

/-- A DMA descriptor. -/
structure Desc where
  kind : Nat
  role : Nat
  ovrL : Bool
  ovrR : Bool
  peer : Nat
  rows : Nat
  loc : Nat
  remote : Nat
  rowLen : Nat
  lstride : Int
  rstride : Int
  lspan : Nat
  rspan : Nat

/-- The descriptor in 32 bytes. -/
def descOf (b : List Byte) : Desc :=
  let w (i : Nat) : Word := BitVec.ofNat 32 (natAt b (4 * i) 4)
  { kind := fld (w 0) 3 0, role := fld (w 0) 5 4, ovrL := bitAt (w 0) 6, ovrR := bitAt (w 0) 7, peer := fld (w 0) 15 8
    rows := fld (w 0) 31 16 + 1, loc := fld (w 1) 22 0, remote := (w 2).toNat + fld (w 3) 6 0 * 2 ^ 32
    rowLen := 64 * fld (w 4) 15 0, lstride := (w 5).toInt, rstride := (w 6).toInt, lspan := 64 * fld (w 7) 15 0
    rspan := 4096 * fld (w 7) 31 16 }

/-- B, the bytes of a transfer. -/
def Desc.bytes (d : Desc) : Nat := d.rows * d.rowLen

/-- Transfer time of a descriptor, which is its channel's issue interval (R246). -/
def Desc.moves (d : Desc) : Nat := d.bytes / 32

/-- The fixed term of a kind's contract latency (R245, R312, R349); a reserved kind, which the loader refuses, has none. -/
def Desc.fixed (tc1 : Bool) (d : Desc) : Nat :=
  let pick (a b : Nat) : Nat := if tc1 then a else b
  match d.kind with
  | 0 | 1 | 2 | 3 => pick 1200 1280
  | 4 => pick 400 440
  | 5 | 6 => pick 40 48
  | 8 | 9 =>
    if 0x30 ≤ d.peer && decide (d.peer < 0x38) then pick 500 550 else pick 400 440
  | _ => 0

/-- A signed offset from an address, wrapped to `bits` bits. -/
def addrPlus (bits a : Nat) (o : Int) : Nat := twosOf bits ((a : Int) + o)

/-- The two sides of the byte at offset `o` of row `r` (R245, R246): source and destination. `lo` and `re` are the local and
the remote address of row 0. -/
def Desc.sides (d : Desc) (lo re r o : Nat) : Place × Place :=
  let l := addrPlus 23 lo (d.lstride * r + o)
  let h := addrPlus 39 re (d.rstride * r + o)
  let x := addrPlus 23 re (d.rstride * r + o)
  match d.kind with
  | 0 | 2 | 3 => (.hbm h, .here l)
  | 1 => (.here l, .hbm h)
  | 4 => (.here l, .peer ⟨d.peer % 144, Nat.mod_lt _ (by decide)⟩ x)
  | 5 | 6 => (.here l, .here x)
  | 8 => (.edge d.peer (addrPlus 18 re (d.rstride * r + o)), .here l)
  | _ => (.here l, .edge d.peer (if d.peer < 0x30 then re else addrPlus 18 re (d.rstride * r + o)))

/-- The pieces of a transfer: rows ascending, 64 bytes at a time. -/
def Desc.pieces (d : Desc) (lo re : Nat) : List (Place × Place) :=
  (List.range d.rows).flatMap fun r => (List.range (d.rowLen / 64)).map fun i => d.sides lo re r (64 * i)

/-- The scratchpad banks of rows of a transfer: `base` of row 0, with anything below `span` added to it. -/
def banksOf (base span rows rowLen : Nat) (stride : Int) : List Nat :=
  let last : Int := stride * ((rows - 1 : Nat) : Int)
  let lo : Int := base + if last < 0 then last else 0
  let hi : Int := base + (if 0 < last then last else 0) + rowLen + span
  (List.range 8).filter fun b => decide (lo < (b + 1) * 0x80000) && decide ((b : Int) * 0x80000 < hi)

/-- The scratchpad banks that a descriptor reaches on its local side (R247). -/
def Desc.localBanks (d : Desc) : List Nat := banksOf d.loc (if d.ovrL then d.lspan else 0) d.rows d.rowLen d.lstride

/-- The banks of its peer that a core-to-core transfer reaches (R246). -/
def Desc.peerBanks (d : Desc) : List Nat :=
  banksOf (d.remote % 2 ^ 23) (if d.ovrR then d.rspan else 0) d.rows d.rowLen d.rstride

/-- The descriptor writes the scratchpad of its own core as DMA-in, or reads it as DMA-out (R245). -/
def Desc.entersPad (d : Desc) : Bool := d.kind = 0 || d.kind = 8
def Desc.leavesPad (d : Desc) : Bool := d.kind = 1 || d.kind = 4 || d.kind = 5 || d.kind = 6 || d.kind = 9

/-- The operand cache that a descriptor fills: VE0's or VE1's (R245). -/
def Desc.fills (d : Desc) : Option Bool :=
  if d.kind = 2 || d.kind = 5 then some false else if d.kind = 3 || d.kind = 6 then some true else none

/-- The shared ports of its own core that a descriptor of a channel uses, in the order in which channels of one direction and fills
of one cache are served (R49, R162). -/
def Desc.ports (d : Desc) (ch : Nat) : List PortUse :=
  (if d.entersPad then d.localBanks.map fun b => ⟨b, ch⟩ else []) ++
    (if d.leavesPad then d.localBanks.map fun b => ⟨b, 16 * 8 + ch⟩ else []) ++
    match d.fills with
    | some ve => [⟨cachePort ve, 0x200 + ch⟩]
    | none => []

/-! ## Bytes of a source -/

/-- The schedule entry of a core's frame. -/
def State.entryOf (s : State) (c : CoreId) : Option Nat := if (s.core c).frame.live then some (s.core c).frame.entry else none

/-- 64 bytes at a source, for a descriptor of a core's frame: HBM reads are bounded (R362); with whether one was clipped. -/
def State.readPlace (s : State) (c : CoreId) (p : Place) : List Byte × Bool :=
  match p with
  | .here a => ((s.core c).read (s.ctx c) a 64, false)
  | .peer q a => ((s.core q).read (s.ctx q) a 64, false)
  | .hbm a => s.hbmBounded (s.entryOf c) a 64
  | .edge ep a => (Memory.read s.svc.cpBuf (ep % 8 * 0x40000 + a) 64, false)

/-! ## Issue -/

/-- DMAn_STATUS.BUSY and INFLIGHT. -/
def Core.showDma (c : Core) (ch : Nat) : Core :=
  let n := ((c.dma.getD ch DmaCh.reset).inflight).length
  (c.setRf (0x2200 + 32 * ch) 0 0 (bit (decide (0 < n)))).setRf (0x2200 + 32 * ch) 4 1 n

/-- The descriptor as the image holds it: the loader's staged copy of the frame store (R249). -/
def State.stagedDesc (s : State) (c : CoreId) (i : Nat) : Option (List Byte) :=
  match s.image with
  | some g => (g.fstores.find? fun r => r.1 = c.val).map fun r => bytesAt r.2 (32 * i) 32
  | none => none

/-- The remote address of a START, its plate role resolved and its override applied (R215, R247, R312). -/
def remoteOf (c : Core) (d : Desc) (ctr ovr : Nat) : Nat :=
  if d.kind < 4 then c.plateAddr d.role (d.remote + ovr)
  else if d.kind = 9 && decide (d.peer < 0x20) then
    let o := if ovr % 64 = 0 then ovr / 64 else Config.freeNat ctr "offset of a send"
    (d.remote % 2 ^ 32 + 256 * o) % 2 ^ 32
  else d.remote + ovr

/-- The wait cycles of a core-to-core transfer at its peer (R246): none where DMA-in owns its banks in the frame and no other transfer
enters them, else as many as the image fixes. -/
def State.peerWaits (s : State) (k : Ctx) (a : At) (ch : Nat) (d : Desc) : Nat :=
  let x := s.core a.core
  let p := s.core ⟨d.peer % 144, Nat.mod_lt _ (by decide)⟩
  let e := x.frame.entry
  if d.kind ≠ 4 || d.peerBanks.all (fun b => decide (p.ownerIn e b = 0) &&
      decide ((p.entering.filter fun r => r.1 = e && r.2.1 = b).length ≤ 1)) then 0
  else x.waitsOf k a.bundle (16 + ch)

/-- What a descriptor is about to write into a core's memory is on its way there (R464). -/
def State.disturbBy (s : State) (own : CoreId) (rows : List DmaRow) : State :=
  rows.foldl (fun s r => match r.dst with
    | .here a => s.setCore own ((s.core own).disturb s.freeCtr [(a, r.bytes)])
    | .peer p a => s.setCore p ((s.core p).disturb s.freeCtr [(a, r.bytes)])
    | _ => s) s

/-- A START that issues (R244–R251): the descriptor is read from the frame store, its pieces take the bytes of their source, and
it joins its channel. `use` says whether the channel's override values apply. A descriptor whose own line misses its CRC has the
figures that the image holds. -/
def State.startDma (s : State) (k : Ctx) (a : At) (ch : BitVec 2) (di : BitVec 12) (use miss : Bool) : State :=
  let c := a.core
  let x := s.core c
  let i := x.rf 0x2010 12 0 + di.toNat
  let line := lineOf (bundleAddr i)
  let bad := !(x.missing [line] (if miss then [line] else [])).isEmpty
  let raw := Memory.read x.mem (bundleAddr i) 32
  let d := descOf (if bad then (s.stagedDesc c i).getD raw else raw)
  let halted := bitAt (x.reg (0x2200 + 32 * ch.toNat)) 5
  let ovl := if use && d.ovrL then (x.override k ch false).toNat else 0
  let ovr := if use && d.ovrR then (x.override k ch true).toNat else 0
  let range := use && !a.supp && !bad && !halted && ((d.ovrL && decide (d.lspan ≤ ovl)) || (d.ovrR && decide (d.rspan ≤ ovr)))
  let quiet := a.supp || bad || halted || range
  let places := if quiet then [] else d.pieces (addrPlus 23 d.loc ovl) (remoteOf x d s.freeCtr ovr)
  let reads := places.map fun p => (p, s.readPlace c p.1)
  let clipped := reads.any fun r => r.2.2
  let code : Half := if a.supp || halted then 0#16 else if bad then 0x0403#16 else if range then 0x0211#16 else 0#16
  let op : DmaOp :=
    { desc := di.toNat, bundle := a.bundle, supp := a.supp, issue := k.clock, due := k.clock + d.fixed k.tc1 + d.moves
      rows := reads.map fun r => ⟨r.1.1, r.1.2, r.2.1⟩, code := code
      peer := if d.kind = 4 then some ⟨d.peer % 144, Nat.mod_lt _ (by decide)⟩ else none
      ports := d.ports ch.toNat, contended := false, waits := x.waitsOf k a.bundle (8 + ch.toNat)
      peerWaits := s.peerWaits k a ch.toNat d, fate := Config.fate k.ctr }
  let old := x.dma.getD ch.toNat DmaCh.reset
  let x := Core.showDma { x with dma := setAt x.dma ch.toNat ⟨old.inflight ++ [op], k.clock + d.moves⟩ } ch.toNat
  let x := if bad && !a.supp && !halted then (x.setRf (0x2200 + 32 * ch.toNat) 5 5 1).missFrame k 0x0403#16 a.bundle [line] else x
  let x := if range then x.abort 0x0211#16 a.bundle else x
  let s := ((s.setCore c x).disturbBy c op.rows).drainReports c
  if clipped then s.bumpG 0x7020C 1 else s

/-! ## Completion (R249) -/

/-- A transfer under way: the state, the codes raised in order, and the bytes sent to an edge endpoint. -/
structure DmaRun where
  s : State
  codes : List Half
  sent : List Byte

/-- A run with a further code. -/
def DmaRun.code (r : DmaRun) (c : Half) : DmaRun := { r with codes := r.codes ++ [c] }

/-- A fence violation of a descriptor (R58): recorded at the core whose memory it met if it is the first of that core's frame, the
issuing core's frame aborted. -/
def State.dmaViolation (s : State) (own at_ : CoreId) (bundle : BitVec 13) (a master : Nat) (wr : Bool) : State :=
  let s := s.setCore at_ ((s.core at_).noteViolation (lineOf a) master wr)
  s.setCore own ((s.core own).abort 0x0203#16 bundle)

/-- The bytes a piece carries: each the value captured at issue or the one its source holds now (R246); zeros where a fence
denies the read. -/
def DmaRun.take (own : CoreId) (o : DmaOp) (r : DmaRun) (row : DmaRow) : DmaRun × List Byte :=
  let s := r.s
  match row.src with
  | .here a =>
    if (s.core own).denies 8 false a then
      ({ r with s := s.dmaViolation own own o.bundle a 8 false }.code 0x0203#16, List.replicate row.bytes.length 0#8)
    else (r, pick s (s.readPlace own row.src).1)
  | _ => (r, pick s (s.readPlace own row.src).1)
where
  /-- Old or new, byte by byte. -/
  pick (s : State) (now : List Byte) : List Byte :=
    row.bytes.mapIdx fun i b => if Config.landed s.freeCtr i % 2 = 0 then b else now.getD i b

/-- Bytes arrive in a core's memory as its DMA-in master, by channel `ch`, under its fences and the write rule of R53. -/
def DmaRun.land (own at_ : CoreId) (ch : Nat) (o : DmaOp) (f : Fate) (r : DmaRun) (a : Nat) (bs : List Byte) : DmaRun :=
  let x := r.s.core at_
  if x.denies 0 true a then { r with s := r.s.dmaViolation own at_ o.bundle a 0 true }.code 0x0203#16
  else
    let lost := x.lost 0 (some ch) [(a, bs)] f
    let x := lost.foldl (fun x l => x.collide l.line 0 l.winner) x
    let left := lost.foldl (fun ws l => ws.flatMap l.cut) [(a, bs)]
    let r := { r with s := r.s.setCore at_ (left.foldl (fun x w => x.store w.1 w.2) x) }
    if lost.isEmpty then r else r.code 0x0407#16

/-- One piece of a transfer. -/
def DmaRun.piece (own : CoreId) (ch : Nat) (o : DmaOp) (f : Fate) (r : DmaRun) (row : DmaRow) : DmaRun :=
  let (r, bs) := r.take own o row
  match row.dst with
  | .here a => r.land own own ch o f a bs
  | .peer p a => r.land own p ch o f a bs
  | .hbm a => { r with s := r.s.hbmWrite a bs }
  | .edge ep a =>
    if ep < 0x30 || ep = 0x38 then { r with sent := r.sent ++ bs }
    else { r with s := { r.s with svc := { r.s.svc with cpBuf := Memory.write r.s.svc.cpBuf (ep % 8 * 0x40000 + a) bs } } }

/-- A KV commit record in its place by issue order (R361). -/
def KvCommit.place (k : KvCommit) : List KvCommit → List KvCommit
  | [] => [k]
  | x :: t => if k.issue < x.issue then k :: x :: t else x :: KvCommit.place k t

/-- What reaches an edge endpoint: a SEND message, a start record, or a KV commit record. -/
def State.edgeSend (s : State) (own : CoreId) (o : DmaOp) (hbmBad : Bool) (ep a : Nat) (bs : List Byte) : State :=
  if ep < 0x20 then
    let p := ep - 0x10
    let h := { s.headTo 1 (s.greg (portOff p + 8)) bs.length with window := a % 256, offset := a / 256 }
    s.sendMessage p (h.bytes ++ bs)
  else if ep = 0x20 then
    s.takeStartRecord
      { coll := BitVec.ofNat 16 (natAt bs 0 2), core := BitVec.ofNat 16 own.val, fn := (s.core own).frame.fn
        layer := BitVec.ofNat 32 (natAt bs 12 4), srcOvr := BitVec.ofNat 64 (natAt bs 16 8)
        dstOvr := BitVec.ofNat 64 (natAt bs 24 8) } hbmBad
  else if ep = 0x38 then
    let x := s.core own
    s.setCore own { x with frame := { x.frame with
      kvCommits := KvCommit.place ⟨o.issue, natAt bs 0 2, BitVec.ofNat 32 (natAt bs 4 4)⟩ x.frame.kvCommits } }
  else s

/-- The endpoint of a transfer that sends one message or record. -/
def DmaOp.endpoint (o : DmaOp) : Option (Nat × Nat) :=
  o.rows.findSome? fun r => match r.dst with
    | .edge ep a => if ep < 0x30 || ep = 0x38 then some (ep, a) else none
    | _ => none

/-- The lines of the core's own memory that a descriptor reads. -/
def DmaOp.readsHere (o : DmaOp) : List Nat :=
  o.rows.filterMap fun r => match r.src with
    | .here a => some (lineOf a)
    | _ => none

/-- The pieces that a descriptor moves: all, or, where it met a miss, those before it that had moved by then (R249, R246). -/
def DmaOp.moved (o : DmaOp) (ctr : Nat) (bad : List Nat) : List DmaRow :=
  if bad.isEmpty then o.rows
  else
    let before := o.rows.takeWhile fun r => match r.src with
      | .here a => !bad.contains (lineOf a)
      | _ => true
    before.take (Config.freeNat ctr "pieces moved before a halt")

/-- The stalls of a transfer, counted at its own core and, for those of a core-to-core transfer at its peer, there (R51, R246). -/
def State.dmaStalls (s : State) (own : CoreId) (o : DmaOp) : State :=
  let s := s.setCore own ((s.core own).stalled o.stalls)
  match o.peer with
  | none => s
  | some p => s.setCore p ((s.core p).stalled o.peerWaits)

/-- A descriptor's completion status (R249, R252): DMAn_DONE, DMAn_LAST, LAST_CODE and ENG_CODE; the frame may retire. -/
def State.dmaStatus (s : State) (own : CoreId) (ch t : Nat) (o : DmaOp) (code : Half) : State :=
  let x := s.core own
  let x := ((x.bump (0x2210 + 32 * ch) 1).setRf (0x2204 + 32 * ch) 11 0 o.desc)
  let x := if code = 0#16 then x else x.raise (7 + ch) code
  s.setCore own ((x.showDma ch).checkRetire { s.ctx own with clock := t })

/-- The channel halts (R249). -/
def State.haltChannel (s : State) (own : CoreId) (ch : Nat) : State :=
  s.setCore own ((s.core own).setRf (0x2200 + 32 * ch) 5 5 1)

/-- The bytes of a descriptor move. -/
def State.transfer (s : State) (own : CoreId) (ch : Nat) (o : DmaOp) (f : Fate) : State × Half :=
  let x := s.core own
  let k := s.ctx own
  let bad := x.missing o.readsHere (f.misses.map fun l => lineOf l.toNat)
  let hbm := o.rows.any fun r => match r.src, r.dst with
    | .hbm _, _ => true
    | _, .hbm _ => true
    | _, _ => false
  if hbm && f.hbmBad then
    let s := s.setCore own ((x.raiseInt 0x040A#16).abort 0x040A#16 o.bundle)
    (s.haltChannel own ch, 0x040A#16)
  else
    let r := (o.moved s.freeCtr bad).foldl (DmaRun.piece own ch o f) ⟨s, [], []⟩
    let r := if bad.isEmpty then r
      else { r with s := (r.s.setCore own ((r.s.core own).missFrame k 0x0403#16 o.bundle bad)).haltChannel own ch }.code 0x0403#16
    let s := match o.endpoint with
      | some (ep, a) => if bad.isEmpty then r.s.edgeSend own o f.hbmBad ep a r.sent else r.s
      | none => r.s
    (s, r.codes.headD 0#16)

/-- Contract completion of the oldest descriptor of a channel, at a cycle. -/
def State.dmaComplete (s : State) (own : CoreId) (ch t : Nat) : State :=
  let q := (s.core own).dma.getD ch DmaCh.reset
  match q.inflight with
  | [] => s
  | o :: rest =>
    let s := (s.atCycle t).tick1
    let x := s.core own
    let halted := bitAt (x.reg (0x2200 + 32 * ch)) 5
    let s := s.setCore own { x with dma := setAt x.dma ch { q with inflight := rest } }
    let s := s.dmaStalls own o
    let (s, code) := if o.supp || halted || decide (o.code ≠ 0#16) then (s, o.code) else s.transfer own ch o o.fate
    (s.dmaStatus own ch t o code).drainReports own

end Sys2Proof.Machine
end

