-- ==== Sys2Proof/Machine/Issue.lean ====
section
/-! DEFINITION. When the instructions of a frame program issue (R21, R91, R171, R222, R223, R237, R239, R246, R257): a bundle issues in
its place in line, once every engine and channel it names can take an instruction; what falls due before it happens first; and what
issues meets other masters at the ports they share (R49–R51, R162). -/

namespace Sys2Proof.Machine

/-! ## What falls due (R246, R257) -/

/-- Something that falls due in a core: in its engines and sequencer, or on a DMA channel. -/
inductive DueOf
  | engine (d : Due) | dma (ch : Nat)
deriving DecidableEq, Repr

/-- Whatever falls due in a core and on its channels, with its cycle. -/
def Core.allDues (c : Core) : List (Nat × DueOf) :=
  c.dues.map (fun d => (d.1, DueOf.engine d.2)) ++
    (List.range 4).filterMap fun ch => (c.dma.getD ch DmaCh.reset).inflight.head?.map fun o => (o.dueNow, DueOf.dma ch)

/-- The same of some cores. -/
def State.duesOf (s : State) (cs : List CoreId) : List (Nat × CoreId × DueOf) :=
  cs.flatMap fun c => (s.core c).allDues.map fun d => (d.1, c, d.2)

/-- What falls due on a core happens, in its cycle. -/
def State.happen (s : State) (c : CoreId) (t : Nat) (d : DueOf) : State :=
  match d with
  | .engine d => s.fall c t d
  | .dma ch => s.dmaComplete c ch t

/-- Everything on some cores that falls due by a cycle has happened, in the order of the cycles. -/
def State.settleUpTo (cs : List CoreId) (t : Nat) : Nat → State → State
  | 0, s => s
  | n + 1, s =>
    match earliest (s.duesOf cs) with
    | some (u, c, d) => if u ≤ t then State.settleUpTo cs t n (s.happen c u d) else s
    | none => s

/-- How many things may fall due in a core. -/
def Core.dueCount (c : Core) : Nat := c.dues.length + c.dma.foldl (fun n q => n + q.inflight.length) 0

/-- Everything on some cores that falls due by a cycle has happened. -/
def State.settle (s : State) (cs : List CoreId) (t : Nat) : State :=
  State.settleUpTo cs t (cs.foldl (fun n c => n + (s.core c).dueCount) 0) s

/-- Everything on the module that falls due by a cycle has happened. -/
def State.settleAll (s : State) (t : Nat) : State := s.settle (List.finRange 144) t

/-! ## Slots and units (R222, R254) -/

/-- The VE that an instruction is for. -/
def veOf (i : Instr) : Option Bool :=
  match i with
  | .vadd _ o | .vsub _ o | .vmul _ o | .vfma _ o | .vmin _ o | .vmax _ o | .vabs _ o | .vneg _ o | .vmov _ o | .vrcp _ o | .vrsq _ o
  | .vexp2 _ o | .vlog2 _ o | .vdiv _ o | .vsqrt _ o | .vshl _ o | .vshr _ o | .vsra _ o | .vand _ o | .vor _ o | .vxor _ o
  | .vnot _ o | .vpopc _ o | .vcvti _ o | .vcvtf _ o => some o.ve
  | .vcmp _ o => some o.ve
  | .vmlog _ o => some o.ve
  | .vmlane _ ve _ _ _ => some ve
  | .vmsr _ ve _ _ _ => some ve
  | .vspl _ ve _ _ _ _ => some ve
  | .vscl _ ve _ _ _ _ => some ve
  | .vcvtw _ o | .vcvtn _ o => some o.ve
  | .vacc _ o => some o.ve
  | .vred _ o | .vrax _ o => some o.ve
  | .vld _ o | .vst _ o => some o.ve
  | .vldv _ o | .vstv _ o => some o.ve
  | _ => none

/-- The unit that an engine instruction runs on. -/
def unitOf (i : Instr) : Option EngUnit :=
  match i with
  | .tload _ _ => some .teLoad
  | .tmul _ _ _ | .tmulr _ _ _ _ => some .teArray
  | .tprint _ _ => some .tePrint
  | .xeCopy _ _ | .xeTranspose _ _ | .xeGather _ _ | .xeScatter _ _ | .xeScatterAdd _ _ => some .xe
  | .uupd _ _ _ | .urow _ _ _ _ | .ugfac _ _ _ _ _ | .ufilt _ _ _ _ _ _ _ | .uflist _ _ _ _ | .uadv _ => some .ue
  | .mdodge _ _ | .mburn _ _ | .mrefresh _ _ | .mscore _ _ | .msload _ _ | .msstore _ _ | .mremap _ _ _ | .ppred _ _ | .pctl _ _ _ =>
    some .me
  | i => (veOf i).map veUnit

/-- The DMA channel that a START names. -/
def channelOf (i : Instr) : Option Nat :=
  match i with
  | .dmaStart _ ch _ _ | .dmaStartOvr _ ch _ _ => some ch.toNat
  | _ => none

/-- The slot of an instruction: 0 the SQ's, 1 the TE's, 2 and 3 the VEs', 4 the XE's, 5 the AUX slot, 6 the DMA slot. -/
def slotNo (i : Instr) : Nat :=
  match unitOf i with
  | some .teLoad | some .teArray | some .tePrint => 1
  | some .ve0 => 2
  | some .ve1 => 3
  | some .xe => 4
  | some .ue | some .me => 5
  | none => if (channelOf i).isSome then 6 else 0

/-! ## The hold (R91, R171, R223, R246, R257) -/

/-- What an instruction waits for: its unit, the array of a product of another state, the divider of its VE, a channel. -/
inductive Need
  | unit (u : EngUnit) | array (a : ArrayState) | divide (ve : Bool) | channel (ch : Nat)
deriving DecidableEq, Repr

/-- What an instruction waits for. -/
def Core.needsOf (c : Core) (i : Instr) : List Need :=
  ((unitOf i).map Need.unit).toList ++ ((channelOf i).map Need.channel).toList ++
    match i with
    | .tmul _ o q => [.array (tmulProduct o q).array]
    | .tmulr _ o kmode rs => [.array (c.tmulrProduct o kmode rs).array]
    | .vdiv _ o | .vsqrt _ o => [.divide o.ve]
    | _ => []

/-- When the oldest `n` descriptors of a channel have completed, in issue order (R246). -/
def DmaCh.doneBy (q : DmaCh) (n : Nat) : Nat := maxOf ((q.inflight.take n).map DmaOp.dueNow)

/-- The first cycle in which a need is met. -/
def Core.freeFor (c : Core) (n : Need) : Nat :=
  match n with
  | .unit u => maxOf (c.unitFree.getD (unitIdx u) 0 :: (c.inflight.filter fun o => o.unit = u).map PendingOp.freeNow)
  | .array a =>
    match c.te.last with
    | some l => if l.arr = a then 0 else maxOf (l.due :: (c.inflight.filter fun o => o.id = l.id).map PendingOp.dueNow)
    | none => 0
  | .divide ve => c.unitFree.getD (8 + bit ve) 0
  | .channel ch =>
    let q := c.dma.getD ch DmaCh.reset
    max q.freeAt (q.doneBy (q.inflight.length - 7))

/-- The instructions of a bundle of the frame store, as far as it decodes. -/
def Core.bundleAt (c : Core) (core : CoreId) (b : BitVec 13) : List Instr :=
  match bundleOf (fun n => (c.xdesc n).op) ⟨core, b, none⟩ (Memory.read c.mem (bundleAddr b.toNat) 32) with
  | some x => x.instrs
  | none => []

/-- The cycle in which an instruction issues: that of its bundle's slots before it, or, if its bundle is in line, the first in which
nothing that the bundle names is busy (R223, R237); none where it cannot issue. -/
def Core.issueCycle (c : Core) (a : Site) (i : Instr) : Option Nat :=
  if c.sameIssue a.bundle (slotNo i) then if c.frame.live then some c.seq.issued else none
  else if !c.running then none
  else (c.inLine a.bundle.toNat).map fun r =>
    maxOf (r.2 :: ((i :: c.bundleAt a.core a.bundle).flatMap c.needsOf).map c.freeFor)

/-! ## Shared ports (R49–R51, R162, R258) -/

/-- A user of a port with rank `x` may wait for one with rank `y` (R49, R50): the owner of a bank waits for no other master, and of two
others the lower code is served first. -/
def waitsFor (own x y : Nat) : Bool :=
  if x / 16 = y / 16 then decide (y % 16 < x % 16)
  else if x / 16 = own then false
  else decide (y / 16 = own) || decide (y < x)

/-- Some of the port uses `ps` wait for some of `qs`. -/
def Core.contends (c : Core) (ps qs : List PortUse) : Bool :=
  ps.any fun p => qs.any fun q => decide (p.place = q.place) && waitsFor (if p.place < 8 then c.bankOwner p.place else 0x30) p.rank q.rank

/-- The ports that transfers from other cores use in the frame (R246). -/
def Core.visitors (c : Core) : List PortUse :=
  c.entering.filterMap fun r => if decide (r.1 = c.frame.entry) && r.2.2 then some ⟨r.2.1, 0⟩ else none

/-- The ports in use by what is in flight. -/
def Core.portsInUse (c : Core) : List PortUse := c.inflight.flatMap (·.ports) ++ c.dma.flatMap fun q => q.inflight.flatMap (·.ports)

/-- What is in flight waits for new users of some ports. -/
def Core.crowd (c : Core) (ps : List PortUse) : Core :=
  { c with
    inflight := c.inflight.map fun o => if c.contends o.ports ps then { o with contended := true } else o
    dma := c.dma.map fun q =>
      let l := q.inflight.map fun o => if c.contends o.ports ps then { o with contended := true } else o
      { q with inflight := l } }

/-- The scratchpad banks of some runs of bytes. -/
def runBanks (l : List (Nat × Nat)) : List Nat :=
  ((l.filter fun r => decide (r.2 ≠ 0) && decide (r.1 < 0x400000)).map fun r => bankOf r.1).eraseDups

/-- The scratchpad banks that an instruction's counted accesses reach: those of the bases it names (R255). -/
def Core.banksFor (c : Core) (i : Instr) : List Nat :=
  match i with
  | .tload _ o => [bankOf (o.abase.toNat * 128)]
  | .tmul _ o _ => [bankOf (o.xbase.toNat * 128)]
  | .tmulr _ o _ _ => [bankOf (o.xbase.toNat * 128)]
  | .tprint _ o => [bankOf (o.dbase.toNat * 128)]
  | .vld _ o | .vst _ o => [o.bank.toNat]
  | .vldv _ o | .vstv _ o => [o.bank.toNat]
  | .xeCopy _ o | .xeTranspose _ o | .xeGather _ o | .xeScatter _ o | .xeScatterAdd _ o =>
    let n := (c.xdesc o.desc.toNat).bankCounts
    (List.range 8).filter fun b => n.getD b 0 ≠ 0
  | .uupd _ d pass =>
    let x := c.udesc d.toNat
    match c.factors.getD x.fs none with
    | some f => runBanks (x.passReads f pass.toNat ++ x.passWrites f pass.toNat)
    | none => []
  | .urow _ d _ _ =>
    let x := c.udesc d.toNat
    (([x.w, x.grad] ++ match c.factors.getD x.fs none with
      | some f => if f.flags.testBit 2 then [x.norms] else []
      | none => []).map bankOf).eraseDups
  | .ugfac _ _ bank _ _ => [bank.toNat]
  | .ufilt _ _ bank _ _ _ _ => [bank.toNat]
  | .uflist _ _ bank _ => [bank.toNat]
  | .mdodge _ o | .mburn _ o | .mrefresh _ o =>
    let d := c.mdesc o.d.toNat
    runBanks (d.tileRuns ++ (if d.sclr then [(d.sbuf, d.sbLen)] else []) ++ if d.repEn then [(d.report, 16)] else [])
  | .mscore _ o =>
    let d := c.mdesc o.d.toNat
    runBanks ((d.body, 64) :: (if o.src || o.acc then [(d.sbuf, d.sbLen)] else []) ++
      if o.src then [] else [(o.bank.toNat * 0x80000, 1)])
  | .msload _ o | .msstore _ o => runBanks [((c.mdesc o.d.toNat).body, 64), (o.bank.toNat * 0x80000, 1)]
  | .mremap _ d _ => let x := c.mdesc d.toNat; runBanks ((x.body, 64) :: x.planes.map fun p => (p.addr, x.planeLen p))
  | .ppred _ o => [o.bank.toNat]
  | _ => []

/-- The rank of an instruction at the banks it reaches: its master's code, a print write before a TLOAD's read (R49, R258). -/
def rankOf (i : Instr) : Nat :=
  match i with
  | .tload _ _ => 16 * 2 + 1
  | .tprint _ _ => 16 * 2
  | .tmul _ _ _ | .tmulr _ _ _ _ => 16 * 3
  | _ => match unitOf i with
    | some .xe => 16
    | some .ve0 => 16 * 4
    | some .ve1 => 16 * 5
    | some .ue => 16 * 6
    | _ => 16 * 7

/-- The operand cache that an instruction takes, and its rank there: a VE before an SLD or SST, and both before a fill (R162). -/
def cacheOf (i : Instr) : Option PortUse :=
  match i with
  | .vmlog _ _ | .vmlane _ _ _ _ _ | .vmsr _ _ _ _ _ | .vscl _ _ _ _ _ _ => none
  | .sld _ _ o _ => some ⟨cachePort o.ve, 0x180⟩
  | .sst _ _ o => some ⟨cachePort o.ve, 0x180⟩
  | i => (veOf i).map fun ve => ⟨cachePort ve, 0x100⟩

/-- The shared ports that an engine instruction uses, suppressed or not (R53, R225), or an SLD or SST. -/
def Core.portsOf (c : Core) (i : Instr) : List PortUse := (c.banksFor i).map (fun b => ⟨b, rankOf i⟩) ++ (cacheOf i).toList

/-- An instruction joins those in flight at the ports it shares with them; `n` engine instructions were in flight before it. -/
def Core.joinPorts (c : Core) (i : Instr) (n : Nat) : Core :=
  match channelOf i with
  | some ch =>
    let q := c.dma.getD ch DmaCh.reset
    match q.inflight.getLast? with
    | none => c
    | some o =>
      let others := { c with dma := setAt c.dma ch { q with inflight := q.inflight.dropLast } }
      let o := { o with contended := c.contends o.ports (others.portsInUse ++ c.visitors) }
      let d := others.crowd o.ports
      { d with dma := setAt d.dma ch { q with inflight := (d.dma.getD ch DmaCh.reset).inflight ++ [o] } }
  | none =>
    let ps := c.portsOf i
    let others := { c with inflight := c.inflight.take n }
    let hit := c.contends ps (others.portsInUse ++ c.visitors)
    let d := others.crowd ps
    { d with inflight := d.inflight ++ (c.inflight.drop n).map fun o => { o with ports := ps, contended := hit } }

/-! ## Issue -/

/-- An instruction issues on its core at a cycle, doing `g` there; a frame that it stops with nothing in flight retires. The token
meter follows (R288). -/
def State.perform (s : State) (a : Site) (i : Instr) (t : Nat) (g : Ctx → At → State → State) : State :=
  let s := (s.atCycle t).tick1
  let k := { s.ctx a.core with clock := t }
  let slot := slotNo i
  let x := s.core a.core
  let y := (x.reopen a.bundle slot).arrive k a.bundle slot
  let s := g k (y.siteOf k a) (s.setCore a.core y)
  let y := (s.core a.core).joinPorts i x.inflight.length
  let y := if decide (slot ≠ 0) || y.seq.stopped then y.checkRetire k else y
  ((s.setCore a.core y).drainReports a.core).meter t

/-- An instruction of a bundle comes to issue: in its cycle, after what falls due by then, and unless its bundle cannot issue (R27,
R237, R370); a bundle whose line misses its CRC traps instead (R251). One that is not in line changes nothing (log entry 7). -/
def State.issueWith (s : State) (a : Site) (i : Instr) (g : Ctx → At → State → State) : State :=
  match (s.core a.core).issueCycle a i with
  | none => s
  | some t =>
    let s := s.settle [a.core] t
    let x := s.core a.core
    if !x.mayIssue a.bundle (slotNo i) then s
    else
      let bad := if x.sameIssue a.bundle (slotNo i) then [] else x.missing (x.fetchLines a.bundle.toNat) []
      if bad.isEmpty then s.perform a i t g else s.onCoreAt a.core t fun k c => c.fetchTrap k a.bundle.toNat bad

/-- The same of an instruction that changes its core alone. -/
def State.issue (s : State) (a : Site) (i : Instr) (f : Ctx → Core → At → Core) : State :=
  s.issueWith a i fun k at_ s => s.setCore a.core (f k (s.core a.core) at_)

/-- An instruction of the sequencer's own, whose contract completion the retirement of the frame waits for, were it suppressed or not
(R12, R225, R228). -/
def State.issueSq (s : State) (a : Site) (i : Instr) (lat : Ctx → Nat) (f : Ctx → Core → At → Core) : State :=
  s.issue a i fun k c at_ => f k (c.sqBusy (k.clock + lat k)) at_

end Sys2Proof.Machine
end

