-- ==== Sys2Proof/Machine/SqRows.lean ====
section
/-! DEFINITION. The meanings of the sequencer's instructions (R228–R243), the release of a WAITX and the instruction-fetch trap. -/

namespace Sys2Proof.Machine

/-- END (R228). -/
def execEnd (at_ : Site) (s : State) : Host.Outcome State Fault Refusal :=
  .next (s.issue at_ (.end_ at_) fun k c _ => Core.endFrame k c)

/-- LOOPI (R233). -/
def execLoopi (at_ : Site) (lc : BitVec 2) (lenm1 : BitVec 9) (count : BitVec 12) (s : State) : Host.Outcome State Fault Refusal :=
  .next (s.issueSq at_ (.loopi at_ lc lenm1 count) (fun _ => 1) fun _ c a => c.loop a lc lenm1 count.toNat count.toNat)

/-- LOOPR (R235). -/
def execLoopr (at_ : Site) (lc : BitVec 2) (lenm1 : BitVec 9) (rs rm : BitVec 5) (s : State) : Host.Outcome State Fault Refusal :=
  .next (s.issueSq at_ (.loopr at_ lc lenm1 rs rm) (fun _ => 1) fun k c a => c.loopR k a lc lenm1 rs rm)

/-- WAITX (R239). -/
def execWaitx (at_ : Site) (ec : BitVec 4) (n : WaitCount) (s : State) : Host.Outcome State Fault Refusal :=
  .next (s.issue at_ (.waitx at_ ec n) fun k c a => c.waitX k a ec (match n with
    | .reg rs => c.sreg k rs
    | .imm n => n.setWidth 32))

/-- WAITX_RELEASE: the counter of the WAITX that holds issue has reached its count (R239). -/
def execWaitxRelease (c : CoreId) (s : State) : Host.Outcome State Fault Refusal :=
  .next ((s.settle [c] s.clock).onCore c fun k x => x.waitRelease k)

/-- COMMIT (R240). -/
def execCommit (at_ : Site) (s : State) : Host.Outcome State Fault Refusal :=
  .next (s.issueSq at_ (.commit at_) (fun _ => 4) fun _ c a => c.commitCarry a)

/-- STOP (R242). -/
def execSqStop (at_ : Site) (code : Half) (s : State) : Host.Outcome State Fault Refusal :=
  .next (s.issueSq at_ (.sqStop at_ code) (fun _ => 4) fun _ c a => c.stop a code)

/-- SIGNAL (R243). -/
def execSignal (at_ : Site) (q : BitVec 4) (rs : BitVec 5) (s : State) : Host.Outcome State Fault Refusal :=
  .next (s.issueSq at_ (.signal at_ q rs) (fun _ => 4) fun k c a => c.post k a q rs)

/-- SCARRY (R240). -/
def execScarry (at_ : Site) (n : BitVec 3) (rs : BitVec 5) (s : State) : Host.Outcome State Fault Refusal :=
  .next (s.issueSq at_ (.scarry at_ n rs) (fun _ => scalarLat) fun k c a => c.carry k a n rs)

/-- DOVR (R247). -/
def execDovr (at_ : Site) (ch : BitVec 2) (sel : Bool) (rs : BitVec 5) (s : State) : Host.Outcome State Fault Refusal :=
  .next (s.issueSq at_ (.dovr at_ ch sel rs) (fun _ => scalarLat) fun k c a => c.setOverride k a ch sel rs)

/-- SLD (R232). -/
def execSld (at_ : Site) (rd : BitVec 5) (o : SqOc) (miss : Bool) (s : State) : Host.Outcome State Fault Refusal :=
  .next (s.issue at_ (.sld at_ rd o miss) fun k c a => (c.cacheBusy k a o.ve).loadOc k a rd o miss)

/-- SST (R232). -/
def execSst (at_ : Site) (rs : BitVec 5) (o : SqOc) (s : State) : Host.Outcome State Fault Refusal :=
  .next (s.issue at_ (.sst at_ rs o) fun k c a => (c.cacheBusy k a o.ve).storeOc k a rs o)

/-- MOVLC (R228). -/
def execMovlc (at_ : Site) (rd : BitVec 5) (lc : BitVec 2) (s : State) : Host.Outcome State Fault Refusal :=
  .next (s.issueSq at_ (.movlc at_ rd lc) (fun _ => scalarLat) fun k c a => c.scalar k a rd (c.seq.lc.getD lc.toNat 0#32) scalarLat)

/-- MOVFN (R232). -/
def execMovfn (at_ : Site) (rd : BitVec 5) (hi : Bool) (s : State) : Host.Outcome State Fault Refusal :=
  .next (s.issueSq at_ (.movfn at_ rd hi) (fun _ => scalarLat) fun k c a => c.scalar k a rd (c.frameNumber hi) scalarLat)

/-- ADD (R230). -/
def execAdd (at_ : Site) (o : SqR3) (s : State) : Host.Outcome State Fault Refusal :=
  .next (s.issueSq at_ (.add at_ o) (fun _ => scalarLat) fun k c a => c.alu3 k a o (· + ·) scalarLat)

/-- SUB (R230). -/
def execSub (at_ : Site) (o : SqR3) (s : State) : Host.Outcome State Fault Refusal :=
  .next (s.issueSq at_ (.sub at_ o) (fun _ => scalarLat) fun k c a => c.alu3 k a o (· - ·) scalarLat)

/-- AND (R230). -/
def execAnd (at_ : Site) (o : SqR3) (s : State) : Host.Outcome State Fault Refusal :=
  .next (s.issueSq at_ (.and at_ o) (fun _ => scalarLat) fun k c a => c.alu3 k a o (· &&& ·) scalarLat)

/-- OR (R230). -/
def execOr (at_ : Site) (o : SqR3) (s : State) : Host.Outcome State Fault Refusal :=
  .next (s.issueSq at_ (.or at_ o) (fun _ => scalarLat) fun k c a => c.alu3 k a o (· ||| ·) scalarLat)

/-- XOR (R230). -/
def execXor (at_ : Site) (o : SqR3) (s : State) : Host.Outcome State Fault Refusal :=
  .next (s.issueSq at_ (.xor at_ o) (fun _ => scalarLat) fun k c a => c.alu3 k a o (· ^^^ ·) scalarLat)

/-- SHL (R230). -/
def execShl (at_ : Site) (o : SqR3) (s : State) : Host.Outcome State Fault Refusal :=
  .next (s.issueSq at_ (.shl at_ o) (fun _ => scalarLat) fun k c a => c.alu3 k a o shlW scalarLat)

/-- SHR (R230). -/
def execShr (at_ : Site) (o : SqR3) (s : State) : Host.Outcome State Fault Refusal :=
  .next (s.issueSq at_ (.shr at_ o) (fun _ => scalarLat) fun k c a => c.alu3 k a o shrW scalarLat)

/-- SRA (R230). -/
def execSra (at_ : Site) (o : SqR3) (s : State) : Host.Outcome State Fault Refusal :=
  .next (s.issueSq at_ (.sra at_ o) (fun _ => scalarLat) fun k c a => c.alu3 k a o sraW scalarLat)

/-- MIN (R230). -/
def execMin (at_ : Site) (o : SqR3) (s : State) : Host.Outcome State Fault Refusal :=
  .next (s.issueSq at_ (.min at_ o) (fun _ => scalarLat) fun k c a => c.alu3 k a o minS scalarLat)

/-- MAX (R230). -/
def execMax (at_ : Site) (o : SqR3) (s : State) : Host.Outcome State Fault Refusal :=
  .next (s.issueSq at_ (.max at_ o) (fun _ => scalarLat) fun k c a => c.alu3 k a o maxS scalarLat)

/-- MINU (R230). -/
def execMinu (at_ : Site) (o : SqR3) (s : State) : Host.Outcome State Fault Refusal :=
  .next (s.issueSq at_ (.minu at_ o) (fun _ => scalarLat) fun k c a => c.alu3 k a o minU scalarLat)

/-- MAXU (R230). -/
def execMaxu (at_ : Site) (o : SqR3) (s : State) : Host.Outcome State Fault Refusal :=
  .next (s.issueSq at_ (.maxu at_ o) (fun _ => scalarLat) fun k c a => c.alu3 k a o maxU scalarLat)

/-- MUL: the low 32 bits (R230). -/
def execMul (at_ : Site) (o : SqR3) (s : State) : Host.Outcome State Fault Refusal :=
  .next (s.issueSq at_ (.mul at_ o) mulLat fun k c a => c.alu3 k a o (· * ·) (mulLat k))

/-- ADDI (R230). -/
def execAddi (at_ : Site) (o : SqI13) (s : State) : Host.Outcome State Fault Refusal :=
  .next (s.issueSq at_ (.addi at_ o) (fun _ => scalarLat) fun k c a => c.aluI k a o (immS o) (· + ·))

/-- ANDI (R230). -/
def execAndi (at_ : Site) (o : SqI13) (s : State) : Host.Outcome State Fault Refusal :=
  .next (s.issueSq at_ (.andi at_ o) (fun _ => scalarLat) fun k c a => c.aluI k a o (immZ o) (· &&& ·))

/-- ORI (R230). -/
def execOri (at_ : Site) (o : SqI13) (s : State) : Host.Outcome State Fault Refusal :=
  .next (s.issueSq at_ (.ori at_ o) (fun _ => scalarLat) fun k c a => c.aluI k a o (immZ o) (· ||| ·))

/-- XORI (R230). -/
def execXori (at_ : Site) (o : SqI13) (s : State) : Host.Outcome State Fault Refusal :=
  .next (s.issueSq at_ (.xori at_ o) (fun _ => scalarLat) fun k c a => c.aluI k a o (immZ o) (· ^^^ ·))

/-- SHLI (R230). -/
def execShli (at_ : Site) (o : SqI13) (s : State) : Host.Outcome State Fault Refusal :=
  .next (s.issueSq at_ (.shli at_ o) (fun _ => scalarLat) fun k c a => c.aluI k a o (immS o) shlW)

/-- SHRI (R230). -/
def execShri (at_ : Site) (o : SqI13) (s : State) : Host.Outcome State Fault Refusal :=
  .next (s.issueSq at_ (.shri at_ o) (fun _ => scalarLat) fun k c a => c.aluI k a o (immS o) shrW)

/-- SRAI (R230). -/
def execSrai (at_ : Site) (o : SqI13) (s : State) : Host.Outcome State Fault Refusal :=
  .next (s.issueSq at_ (.srai at_ o) (fun _ => scalarLat) fun k c a => c.aluI k a o (immS o) sraW)

/-- LIL: the sign-extended immediate (R228). -/
def execLil (at_ : Site) (rd : BitVec 5) (imm : Half) (s : State) : Host.Outcome State Fault Refusal :=
  .next (s.issueSq at_ (.lil at_ rd imm) (fun _ => scalarLat) fun k c a => c.scalar k a rd (imm.signExtend 32) scalarLat)

/-- LIH: the upper half replaced (R228). -/
def execLih (at_ : Site) (rd : BitVec 5) (imm : Half) (s : State) : Host.Outcome State Fault Refusal :=
  .next (s.issueSq at_ (.lih at_ rd imm) (fun _ => scalarLat) fun k c a => c.scalar k a rd (imm ++ (c.sreg k rd).setWidth 16) scalarLat)

/-- PCMP (R231). -/
def execPcmp (at_ : Site) (pd cond : BitVec 3) (rs rt : BitVec 5) (s : State) : Host.Outcome State Fault Refusal :=
  .next (s.issueSq at_ (.pcmp at_ pd cond rs rt) (fun _ => scalarLat) fun k c a => c.predicate k a pd (scalarCond cond (c.sreg k rs) (c.sreg k rt)))

/-- PCMPI: the immediate sign-extended (R231). -/
def execPcmpi (at_ : Site) (pd cond : BitVec 3) (rs : BitVec 5) (imm : BitVec 12) (s : State) : Host.Outcome State Fault Refusal :=
  .next (s.issueSq at_ (.pcmpi at_ pd cond rs imm) (fun _ => scalarLat) fun k c a =>
    c.predicate k a pd (scalarCond cond (c.sreg k rs) (imm.signExtend 32)))

/-- PLOG (R231). -/
def execPlog (at_ : Site) (pd pa pb : BitVec 3) (fn : BitVec 2) (s : State) : Host.Outcome State Fault Refusal :=
  .next (s.issueSq at_ (.plog at_ pd pa pb fn) (fun _ => scalarLat) fun k c a => c.predicate k a pd (logicFn fn (c.pred k pa) (c.pred k pb)))

/-- CRC_IFETCH_TRAP: issue reaches a bundle, or a frame header, whose line missed its CRC (R251); one that is not in line changes
nothing. -/
def execCrcIfetchTrap (c : CoreId) (bundle : BitVec 13) (s : State) : Host.Outcome State Fault Refusal :=
  .next (match (s.core c).trapCycle bundle.toNat with
    | none => s
    | some t =>
      let s := s.settle [c] t
      if (s.core c).running then s.onCoreAt c t fun k x => x.fetchTrap k bundle.toNat [lineOf (bundleAddr bundle.toNat)] else s)

end Sys2Proof.Machine
end

