-- ==== Sys2Proof/Machine/EngRows.lean ====
section
/-! DEFINITION. The meanings of the tensor, transform, update and mask engines' instructions (R258–R262, R271–R273), of the
DMA slot (R244), and of the contract completion of an engine instruction and of a descriptor. -/

namespace Sys2Proof.Machine

/-- TLOAD (R259). -/
def execTload (at_ : Site) (o : TLoadOp) (s : State) : Host.Outcome State Fault Refusal :=
  .next (s.issue at_ (.tload at_ o) fun k c a => c.tload k a o)

/-- TMUL (R260). -/
def execTmul (at_ : Site) (o : TMulOp) (qm1 : BitVec 4) (s : State) : Host.Outcome State Fault Refusal :=
  .next (s.issue at_ (.tmul at_ o qm1) fun k c a => c.tmul k a o qm1)

/-- TMULR (R260, R152). -/
def execTmulr (at_ : Site) (o : TMulOp) (kmode : Bool) (rs : BitVec 3) (s : State) : Host.Outcome State Fault Refusal :=
  .next (s.issue at_ (.tmulr at_ o kmode rs) fun k c a => c.tmulr k a o kmode rs)

/-- TPRINT (R262). -/
def execTprint (at_ : Site) (o : TPrintOp) (s : State) : Host.Outcome State Fault Refusal :=
  .next (s.issue at_ (.tprint at_ o) fun k c a => c.tprint k a o)

/-- XRUN of a COPY descriptor (R271). -/
def execXeCopy (at_ : Site) (o : XrunOp) (s : State) : Host.Outcome State Fault Refusal :=
  .next (s.issue at_ (.xeCopy at_ o) fun k c a => c.xrun k a o 0)

/-- XRUN of a TRANSPOSE descriptor (R271). -/
def execXeTranspose (at_ : Site) (o : XrunOp) (s : State) : Host.Outcome State Fault Refusal :=
  .next (s.issue at_ (.xeTranspose at_ o) fun k c a => c.xrun k a o 1)

/-- XRUN of a GATHER descriptor (R271). -/
def execXeGather (at_ : Site) (o : XrunOp) (s : State) : Host.Outcome State Fault Refusal :=
  .next (s.issue at_ (.xeGather at_ o) fun k c a => c.xrun k a o 2)

/-- XRUN of a SCATTER descriptor (R271). -/
def execXeScatter (at_ : Site) (o : XrunOp) (s : State) : Host.Outcome State Fault Refusal :=
  .next (s.issue at_ (.xeScatter at_ o) fun k c a => c.xrun k a o 3)

/-- XRUN of a SCATTER_ADD descriptor (R271). -/
def execXeScatterAdd (at_ : Site) (o : XrunOp) (s : State) : Host.Outcome State Fault Refusal :=
  .next (s.issue at_ (.xeScatterAdd at_ o) fun k c a => c.xrun k a o 4)

/-- UUPD (R272). -/
def execUupd (at_ : Site) (d : BitVec 4) (pass : BitVec 3) (s : State) : Host.Outcome State Fault Refusal :=
  .next (s.issue at_ (.uupd at_ d pass) fun k c a => c.uupd k a d pass)

/-- UROW (R272). -/
def execUrow (at_ : Site) (d : BitVec 4) (rj : BitVec 5) (nrows : BitVec 12) (s : State) : Host.Outcome State Fault Refusal :=
  .next (s.issue at_ (.urow at_ d rj nrows) fun k c a => c.urow k a d rj nrows)

/-- UGFAC (R272). -/
def execUgfac (at_ : Site) (f : BitVec 4) (bank : BitVec 3) (ra : BitVec 5) (ofs : BitVec 12) (s : State) : Host.Outcome State Fault Refusal :=
  .next (s.issue at_ (.ugfac at_ f bank ra ofs) fun k c a => c.ugfac k a f bank ra ofs)

/-- UFILT (R272). -/
def execUfilt (at_ : Site) (d : BitVec 4) (bank : BitVec 3) (ra rb rn nmx : BitVec 5) (s : State) : Host.Outcome State Fault Refusal :=
  .next (s.issue at_ (.ufilt at_ d bank ra rb rn nmx) fun k c a => c.ufilt k a d bank ra rb rn nmx)

/-- UFLIST (R272). -/
def execUflist (at_ : Site) (d : BitVec 4) (bank : BitVec 3) (ra : BitVec 5) (s : State) : Host.Outcome State Fault Refusal :=
  .next (s.issue at_ (.uflist at_ d bank ra) fun k c a => c.uflist k a d bank ra)

/-- UADV (R200). -/
def execUadv (at_ : Site) (s : State) : Host.Outcome State Fault Refusal :=
  .next (s.issue at_ (.uadv at_) fun k c a => c.uadv k a)

/-- MDODGE (R273). -/
def execMdodge (at_ : Site) (o : MEditOp) (s : State) : Host.Outcome State Fault Refusal :=
  .next (s.issue at_ (.mdodge at_ o) fun k c a => c.meEdit k a o 1 true false)

/-- MBURN (R273). -/
def execMburn (at_ : Site) (o : MEditOp) (s : State) : Host.Outcome State Fault Refusal :=
  .next (s.issue at_ (.mburn at_ o) fun k c a => c.meEdit k a o 2 false true)

/-- MREFRESH (R273). -/
def execMrefresh (at_ : Site) (o : MEditOp) (s : State) : Host.Outcome State Fault Refusal :=
  .next (s.issue at_ (.mrefresh at_ o) fun k c a => c.meEdit k a o 3 true true)

/-- MSCORE (R273). -/
def execMscore (at_ : Site) (o : MScoreOp) (s : State) : Host.Outcome State Fault Refusal :=
  .next (s.issue at_ (.mscore at_ o) fun k c a => c.mscore k a o)

/-- MSLOAD (R273). -/
def execMsload (at_ : Site) (o : MSheetOp) (s : State) : Host.Outcome State Fault Refusal :=
  .next (s.issue at_ (.msload at_ o) fun k c a => c.msload k a o)

/-- MSSTORE (R273). -/
def execMsstore (at_ : Site) (o : MSheetOp) (s : State) : Host.Outcome State Fault Refusal :=
  .next (s.issue at_ (.msstore at_ o) fun k c a => c.msstore k a o)

/-- MREMAP (R273). -/
def execMremap (at_ : Site) (d : BitVec 5) (slot : BitVec 6) (s : State) : Host.Outcome State Fault Refusal :=
  .next (s.issue at_ (.mremap at_ d slot) fun k c a => c.mremap k a d slot)

/-- PPRED (R273). -/
def execPpred (at_ : Site) (o : PPredOp) (s : State) : Host.Outcome State Fault Refusal :=
  .next (s.issue at_ (.ppred at_ o) fun k c a => c.ppred k a o)

/-- PCTL (R273). -/
def execPctl (at_ : Site) (j : BitVec 4) (en : Bool) (s : State) : Host.Outcome State Fault Refusal :=
  .next (s.issue at_ (.pctl at_ j en) fun k c a => c.pctl k a j en)

/-- The instruction of a unit that reaches its contract completion first. -/
def Core.nextDone (c : Core) (u : EngUnit) : Option PendingOp :=
  (earliest ((c.inflight.filter fun o => o.unit = u).map fun o => (o.dueNow, o))).map (·.2)

/-- INSTRUCTION_COMPLETE: the first instruction in flight on a unit to reach its contract completion reaches it (R257), after what falls
due on its core before; with none in flight nothing is due. -/
def execInstructionComplete (c : CoreId) (u : EngUnit) (fate : Fate) (s : State) : Host.Outcome State Fault Refusal :=
  .next (match (s.core c).nextDone u with
    | none => s
    | some o => (s.setCore c ((s.core c).setOp { o with fate := fate })).settle [c] o.dueNow)

/-! ## DMA (R244–R249) -/

/-- DMA_START. -/
def execDmaStart (at_ : Site) (ch : BitVec 2) (d : BitVec 12) (descMiss : Bool) (s : State) :
    Host.Outcome State Fault Refusal :=
  .next (s.issueWith at_ (.dmaStart at_ ch d descMiss) fun k a s => s.startDma k a ch d false descMiss)

/-- DMA_START_OVR (R247). -/
def execDmaStartOvr (at_ : Site) (ch : BitVec 2) (d : BitVec 12) (descMiss : Bool) (s : State) :
    Host.Outcome State Fault Refusal :=
  .next (s.issueWith at_ (.dmaStartOvr at_ ch d descMiss) fun k a s => s.startDma k a ch d true descMiss)

/-- The oldest descriptor of a channel with what the outside does to it. -/
def Core.setFate (c : Core) (ch : Nat) (f : Fate) : Core :=
  let q := c.dma.getD ch DmaCh.reset
  match q.inflight with
  | [] => c
  | o :: t => { c with dma := setAt c.dma ch { q with inflight := { o with fate := f } :: t } }

/-- DMA_COMPLETE: the oldest descriptor of a channel reaches its contract completion (R246, R249), after what falls due on its core
before. -/
def execDmaComplete (c : CoreId) (ch : BitVec 2) (fate : Fate) (s : State) : Host.Outcome State Fault Refusal :=
  .next (match ((s.core c).dma.getD ch.toNat DmaCh.reset).inflight.head? with
    | none => s
    | some o => (s.setCore c ((s.core c).setFate ch.toNat fate)).settle [c] o.dueNow)

end Sys2Proof.Machine
end

