-- ==== Sys2Proof/Machine/FrameRows.lean ====
section
/-! DEFINITION. The tick, the guard band and the start of a job (R11–R28, R60, R126, R136, R151, R200): each in its cycle, after what
falls due by then. -/

namespace Sys2Proof.Machine

/-! ## The guard band (R12) -/

/-- The guard band of the frames of this tick begins: what has not retired is an overrun, the rest have their guard-band work; the
frame set's empty slots go with the others to the ring (R12, R24, R126). -/
def State.guardBand (s : State) : State :=
  if s.shutter.guarded then s
  else
    let t := min s.shutter.guardAt s.shutter.nextTick
    let s := (s.settleAll t).atCycle t
    let s := { s with shutter := { s.shutter with guarded := true } }
    let any_ := s.cores.any fun c => c.frame.live
    let s := s.eachCore (fun s c =>
      let f := (s.core c).frame
      f.live && !f.overrun && f.overruns f.guardAt) State.markOverrun
    let halt := s.haltComing
    let s := s.eachCore (fun s c => (s.core c).frame.live && !(s.core c).frame.overrun) (State.guardCore halt)
    (if any_ then s.emptySlots s.shutter.fn else s).showBehind

/-- The guard-band work of a late frame after it retires, the step of its UADV if its tick has passed (R200), and the starts that
waited for it (R24): none before a stop bath that the frame brings (R27), nor before its own replay (R19). -/
def State.guardLate (s : State) (c : CoreId) : State :=
  let s := if (s.core c).seq.stopped then s.settle [c] s.shutter.nextTick else s
  let f := (s.core c).frame
  if f.live && f.overrun && f.retiredAt.isSome then
    let late := f.retiredAt.getD 0 - f.guardAt
    let s := if (s.greg 0x4003C).toNat < late then s.setGreg 0x4003C (BitVec.ofNat 32 (sat32 late)) else s
    let s := s.guardCore s.haltComing c
    let s := if f.ownTick < s.shutter.lastTick then s.stepCore c else s
    let x := s.core c
    let waits := s.coreHalts x || match x.lateStarts with
      | [] => true
      | l :: _ => x.replays && !l.replay
    (if waits then s else s.startNext c x.lateStarts).showBehind
  else s

/-! ## The tick (R11, R14, R17, R26, R28) -/

/-- A shutter tick: on every core the row sets are cleared and the score stage is invalid (R136, R151); TICK_OUT is high for 64 ns
(R34). -/
def State.raiseTick (s : State) : State :=
  let s := (s.settleAll s.shutter.nextTick).guardBand
  let s := s.eachCore (fun s c => (s.core c).frame.live) State.guardLate
  let s := s.atCycle s.shutter.nextTick
  let prev := s.shutter.lastTick
  let out := if s.gbit 0x40004 4 then s.nsAt s.shutter.nextTick + 64 else s.shutter.tickOutNs
  let s := { s with shutter := { s.shutter.advance (s.greg 0x40000).toNat with tickOutNs := out } }
  let s := s.mapCores fun _ c =>
    ({ c with rowSets := List.replicate 8 RowSet.reset, stage := ScoreStage.reset }).setRf 0x7000 5 5 0
  let s := s.eachCore (State.abandonDue prev) State.abandon
  let s := if s.halted then { s with shutter := { s.shutter with
      stopNext := false, sync := { s.shutter.sync with haltSeen := false } } }
    else if s.haltComing then s.halt else s
  let s := s.sendTicks
  if s.halted || !s.loaded || !s.shutter.started || !s.locked then s else s.runFrames

/-- A tick, where ticks are raised. -/
def State.tick (s : State) : State := if s.ticking then s.raiseTick else s

/-- The tick at which the job starts (R17): entry 0 on every core. -/
def State.jobStart (s : State) : State :=
  let off := match s.power.phase with
    | .shutdown _ => true
    | _ => false
  if !off && s.ticking && s.loaded && !s.shutter.started && !s.halted && !s.shutter.noStart && s.locked &&
      decide (s.shutter.fn.toNat = s.startFn) then
    let s := { s with shutter := { s.shutter with started := true, ringPos := 1 % s.ring } }
    let s := s.eachCore (fun s c => (s.core c).scheduled) fun s c =>
      s.startCore (s.shutter.startAt 0 s.shutter.fn false) s.shutter.lastTick c
    s.showSlot
  else s

/-! ## Meanings -/

/-- SHUTTER_TICK (R11, R14, R17). -/
def execShutterTick (s : State) : Host.Outcome State Fault Refusal := .next s.tick.shutdownOn

/-- GUARD_BAND (R12): of the frames of this tick, or of a late frame. -/
def execGuardBand (late : Option CoreId) (s : State) : Host.Outcome State Fault Refusal :=
  .next (match late with
    | none => if s.ticking then s.guardBand else s
    | some c => s.guardLate c)

/-- JOB_START (R17). -/
def execJobStart (s : State) : Host.Outcome State Fault Refusal := .next s.jobStart

end Sys2Proof.Machine
end

