-- ==== Sys2Proof/Machine/Serving.lean ====
section
/-! DEFINITION. Job start and stop (R17, R28, R346, R387), roster changes (R359), the serving endpoint and its KV regions (R360,
R362), and HEALTH_READ (R346, R433). -/

namespace Sys2Proof.Machine

/-! ## Start, stop and roster -/

/-- START (R346, R387): at least 64 frames ahead, with an image loaded, and not after a restore that failed or that other
members did not make too. Whether they did is theirs to say (log entry 27). -/
def execStart (h : MboxHdr) (fn : BitVec 48) (s : State) : Host.Outcome State Fault Refusal :=
  .next (s.mbox h 2 1 false false fun s =>
    let s := s.tick1
    if !s.loaded || decide (fn.toNat < s.shutter.fn.toNat + 64) then .done s 0x0605#16 []
    else if s.svc.restoreFailed then .done s 0x0603#16 (RestoreFail.resp ⟨0x0603#16, 0xA, 0⟩)
    else if s.svc.restored.isSome && !s.others.isEmpty && decide (Config.freeNat s.freeCtr "members restored" % 2 = 0) then
      .done s 0x0603#16 (RestoreFail.resp ⟨0x0603#16, 0xB, 0⟩)
    else if s.others.isEmpty then .done (s.propose (.start fn) none) 0#16 []
    else .waits (s.propose (.start fn) (some h)))

/-- STOP (R28, R346): it ends when the module has halted. -/
def execStop (h : MboxHdr) (s : State) : Host.Outcome State Fault Refusal :=
  .next (s.mbox h 3 1 false false fun s =>
    if s.halted then .done s 0#16 []
    else .waits (State.stopBath { s with svc := { s.svc with stops := s.svc.stops ++ [h] } }))

/-- ROSTER_CHANGE (R320, R359): BOUNDARY at least 64 frames ahead. -/
def execRosterChange (h : MboxHdr) (rec : List Byte) (s : State) : Host.Outcome State Fault Refusal :=
  .next (s.mbox h 0x10 2 false false fun s =>
    let r := rosterRec rec
    if r.boundary.toNat < s.shutter.fn.toNat + 64 then .done s 0x0605#16 []
    else if !s.rosterOk r then .done (s.logEvent 0x0507#16) 0x0507#16 []
    else
      let t := s.propose (.epoch r) (some h)
      if t.others.isEmpty then .done t 0#16 [] else .waits t)

/-! ## KV regions (R360, R362) -/

/-- The bytes of HBM that a region takes. -/
def kvSpan (k : KvArgs) : Nat × Nat := (k.base.toNat / 64 * 64, k.cap.toNat * (k.esize.toNat * 64))

/-- Two ranges of bytes overlap. -/
def rangesMeet (a b : Nat × Nat) : Bool := decide (a.1 < b.1 + b.2) && decide (b.1 < a.1 + a.2)

/-- The region is in HBM, and, of a confidential job, in no clear range; it overlaps no other open region (R360, R419). -/
def State.kvOk (s : State) (l : List KvArgs) (k : KvArgs) : Bool :=
  decide (k.esize ≠ 0#16) && inHbm (kvSpan k).1 (kvSpan k).2 &&
    (!s.confidential || !s.touchesClear (kvSpan k).1 (kvSpan k).2) &&
    (l.all fun o => decide (o = k) || (decide (o.region ≠ k.region) && !rangesMeet (kvSpan o) (kvSpan k))) &&
    (List.range 256).all fun r =>
      let (base, es, cap, _) := s.kvRegion r
      decide (es = 0) || decide (r = k.region.toNat) || !rangesMeet (base, cap * es) (kvSpan k)

/-- A region is set up: CLEN is 0. -/
def State.openRegion (s : State) (k : KvArgs) : State :=
  let a := 0xA0000 + 32 * k.region.toNat
  let s := (s.setGreg a (BitVec.ofNat 32 ((kvSpan k).1 % 2 ^ 32))).setGreg (a + 4) (BitVec.ofNat 32 k.esize.toNat)
  let s := ((s.setGreg (a + 8) k.cap).setGreg (a + 12) 0#32).setGreg (a + 16) (k.vmask.setWidth 32)
  (s.setGreg (a + 20) (BitVec.ofNat 32 (k.vmask.toNat / 2 ^ 32))).setGreg (a + 24) (BitVec.ofNat 32 ((kvSpan k).1 / 2 ^ 32))

/-- A region is closed: every word of its entry is 0. -/
def State.closeRegion (s : State) (k : KvArgs) : State :=
  (List.range 8).foldl (fun s i => s.setGreg (0xA0000 + 32 * k.region.toNat + 4 * i) 0#32) s

/-- SERVE_OPEN (R360). -/
def execServeOpen (h : MboxHdr) (a : ServeArgs) (s : State) : Host.Outcome State Fault Refusal :=
  .next (s.mbox h 0xC 1 false false fun s =>
    if !(a.regions.all (s.kvOk a.regions)) then .done s 0x0605#16 []
    else .done { a.regions.foldl State.openRegion s with svc := { s.svc with
      serving := some ⟨a, List.replicate a.regions.length 0, []⟩ } } 0#16 [])

/-- SERVE_CLOSE (R360). -/
def execServeClose (h : MboxHdr) (s : State) : Host.Outcome State Fault Refusal :=
  .next (s.mbox h 0xD 1 false false fun s =>
    match s.svc.serving with
    | none => .done s 0x0605#16 []
    | some v => .done { v.args.regions.foldl State.closeRegion s with svc := { s.svc with serving := none } } 0#16 [])

/-- SERVE_REQUEST (R360): the stream index and the prompt tokens go into CP5's service buffer, at a place the manual does not
name (log entry 25), and the serving doorbell rings. -/
def execServeRequest (stream : Nat) (tokens : List Word) (s : State) : Host.Outcome State Fault Refusal :=
  .next (match s.svc.serving with
    | none => s
    | some v =>
      if v.args.regions.length ≤ stream then s
      else
        let s := s.tick1
        let bs := leBytes 4 stream ++ leBytes 4 tokens.length ++ tokens.flatMap fun w => leBytes 4 w.toNat
        let at_ := 5 * 0x40000 + Config.freeNat s.freeCtr "place in CP5's buffer" % 0x40000
        State.event { s with svc := { s.svc with cpBuf := Memory.write s.svc.cpBuf at_ (bs.take (6 * 0x40000 - at_)) } }
          (0x30 + v.args.doorbell.toNat))

/-- KV_READ (R362, R375): entries of an open region, within its capacity; an uncorrectable read fails it. -/
def execKvRead (h : MboxHdr) (region : Byte) (first count : Word) (s : State) : Host.Outcome State Fault Refusal :=
  .next (s.mbox h 0xE 1 false false fun s =>
    let (base, es, cap, _) := s.kvRegion region.toNat
    if es = 0 || decide (cap < first.toNat + count.toNat) then .done s 0x0605#16 []
    else if h.hbmBad then .done s 0x040A#16 []
    else
      let (bs, s) := s.serviceRead (base + first.toNat * es) (count.toNat * es)
      .done s 0#16 bs)

/-! ## Health -/

/-- An entry's 16 bytes (R433). -/
def Health.bytes (e : Health) : List Byte :=
  leBytes 1 e.state ++ leBytes 1 e.flags ++ leBytes 2 e.code.toNat ++ leBytes 4 e.gen.toNat ++ leBytes 4 e.since ++
    leBytes 4 e.events

/-- HEALTH_READ (R346, R433). -/
def execHealthRead (h : MboxHdr) (s : State) : Host.Outcome State Fault Refusal :=
  .next (s.mbox h 0x11 0 false true fun s =>
    if 256 ≤ h.unit.toNat then .done s 0x0605#16 [] else .done s 0#16 (s.unitHealth h.unit.toNat).bytes)

end Sys2Proof.Machine
end

