-- ==== Sys2Proof/Machine/Security.lean ====
section
/-! DEFINITION. The security commands (R411–R429, R432): sessions, keys, credentials, the life cycle, the audit log and unit
fences. -/

namespace Sys2Proof.Machine

/-! ## Measurements (R414) -/

/-- A measurement register written. -/
def State.setMr (s : State) (n : Nat) (bs : List Byte) : State :=
  (List.range 12).foldl (fun s w => s.setGreg (0x10100 + 48 * n + 4 * w) (BitVec.ofNat 32 (natAt bs (4 * w) 4))) s

/-- A measurement register extended by a digest: SHA-384 of its value and the digest (log entry 28). -/
def State.extendMr (s : State) (n : Nat) (digest : List Byte) : State := s.setMr n (sha384 (s.mr n ++ digest))

/-- The member key table's digest. -/
def State.memberDigest (s : State) : List Byte := sha384 (s.sec.members.flatMap fun m => leBytes 4 m.1.toNat ++ m.2)

/-- A key change: MR6 is extended, and SEC_STATUS shows the keys. -/
def State.keysChanged (s : State) : State :=
  let job := match s.sec.jobKey with
    | some k => k.keyId.toNat
    | none => 0
  let ids := leBytes 4 job ++ s.sec.tenantIds.flatMap (fun i => leBytes 4 i.toNat)
  (s.extendMr 6 (sha384 (ids ++ s.memberDigest))).showSec

/-! ## Sessions (R424, R425) -/

/-- SESSION_CHALLENGE (R425): a nonce from the TRNG, valid for 30 s for the path that asked. -/
def State.challenge (s : State) (src : Nat) : State × List Byte :=
  let s := s.tick1
  let n := bytesAt (Config.secret s.freeCtr "TRNG" []) 0 32
  ({ s with sec := { s.sec with
    nonces := (s.sec.nonces.filter fun (x : Nonce) => decide (s.nowSec < x.at_ + 30)) ++ [(⟨src, n, s.nowSec⟩ : Nonce)] } }, n)

/-- SESSION_CHALLENGE. -/
def execSessionChallenge (h : MboxHdr) (s : State) : Host.Outcome State Fault Refusal :=
  .next (s.mbox h 0x20 0 false false fun s =>
    let (s, n) := s.challenge h.src.toNat
    .done s 0#16 n)

/-- The credential of a role. -/
def State.credential (s : State) (role : Nat) : Option (List Byte) :=
  if role = 1 then s.sec.operator else if role = 2 then s.sec.installer else if role = 3 then s.sec.maker else none

/-- A role is locked (R425). -/
def State.roleLocked (s : State) (role : Nat) : Bool :=
  s.sec.locked.any fun l => decide (l.1 = role) && decide (s.nowSec < l.2 + 300)

/-- The message that SESSION_OPEN signs (R425). -/
def State.openMessage (s : State) (nonce : List Byte) (role : Nat) : List Byte :=
  nonce ++ leBytes 1 role ++ leBytes 4 (s.greg 0).toNat ++ leBytes 4 (s.greg 4).toNat

/-- The signature verifies over a nonce that is still valid on the path. -/
def State.authOk (s : State) (src role : Nat) (keyId : Word) (sig : List Byte) : Bool :=
  match s.credential role with
  | none => false
  | some k => decide (keyIdOf k = keyId) && s.sec.nonces.any fun n =>
      decide (n.src = src) && decide (s.nowSec < n.at_ + 30) && ecdsaOk k (sha384 (s.openMessage n.bytes role)) sig

/-- A failed open: five within 60 s lock the role. -/
def State.authFailed (s : State) (role : Nat) : State :=
  let l := (s.sec.failures.filter fun (f : Nat × Nat) => decide (s.nowSec < f.2 + 60)) ++ [(role, s.nowSec)]
  let n := (l.filter fun f => f.1 = role).length
  if 5 ≤ n then
    { s with sec := { s.sec with
      failures := l.filter (fun f => decide (f.1 ≠ role)), locked := s.sec.locked ++ [(role, s.nowSec)] } }
  else { s with sec := { s.sec with failures := l } }

/-- What an open answers (R425): the state, the code and, on success, the handle. -/
def State.openSession (s : State) (src role : Nat) (keyId : Word) (sig : List Byte) : State × Half × Word :=
  if s.roleLocked role then (s, 0x060C#16, 0#32)
  else if !s.authOk src role keyId sig then (s.authFailed role, 0x0609#16, 0#32)
  else if 16 ≤ s.sec.sessions.length then (s, 0x0606#16, 0#32)
  else
    let s := s.tick1
    let h := BitVec.ofNat 32 (1 + Config.freeNat s.freeCtr "session handle" % (2 ^ 32 - 1))
    let s := { s with sec := { s.sec with
      sessions := s.sec.sessions ++ [(⟨h, role, src, keyId, s.nowSec⟩ : Session)]
      nonces := s.sec.nonces.filter (fun (n : Nonce) => decide (n.src ≠ src)) } }
    (s.showSec, 0#16, h)

/-- SESSION_OPEN (R425, R428). -/
def execSessionOpen (h : MboxHdr) (role : Byte) (keyId : Word) (sig : List Byte) (s : State) :
    Host.Outcome State Fault Refusal :=
  .next (s.mbox h 0x21 0 false false fun s =>
    if role.toNat = 0 || 3 < role.toNat then .done s 0x0605#16 []
    else
      let (s, code, hd) := s.openSession h.src.toNat role.toNat keyId sig
      if code ≠ 0#16 then .done s code []
      else .done (s.audit (s.noteOf { h with session := hd } 0x21 0#16)) 0#16 (leBytes 4 hd.toNat))

/-- SESSION_CLOSE (R425, R428). -/
def execSessionClose (h : MboxHdr) (s : State) : Host.Outcome State Fault Refusal :=
  .next (s.mbox h 0x22 0 false false fun s =>
    if (s.session h.session).isNone then .done s 0x0601#16 []
    else .done ((s.audit (s.noteOf h 0x22 0#16)).endSessions fun x => x.handle = h.session) 0#16 [])

/-- SESSION_IDLE_TIMEOUT (R425): 3,600 s without use. -/
def execSessionIdleTimeout (handle : Word) (s : State) : Host.Outcome State Fault Refusal :=
  .next (s.endSessions fun x => x.handle = handle && decide (x.used + 3600 ≤ s.nowSec))

/-- ROLE_LOCK_EXPIRY (R425). -/
def execRoleLockExpiry (role : Byte) (s : State) : Host.Outcome State Fault Refusal :=
  .next { s with sec := { s.sec with
    locked := s.sec.locked.filter fun l => decide (l.1 ≠ role.toNat) || decide (s.nowSec < l.2 + 300) } }

/-! ## Keys (R418, R412) -/

/-- CHIP_LCS.STATE. -/
def State.lcs (s : State) : Nat := s.gf 0x14 2 0

/-- The key that a blob wraps, if the blob is well formed and its tag verifies (R418). What ECDH with the part's DWK gives is
its secret, and depends on the life-cycle state and the passages through RMA. -/
def State.unwrap (s : State) (b : List Byte) : Option (List Byte) :=
  let kind := natAt b 6 1
  let eph := bytesAt b 0x10 97
  if b.length ≠ 164 || natAt b 0 4 ≠ 0x4B4A4458 || natAt b 4 2 ≠ 1 || 1 < kind || 15 < natAt b 7 1 ||
      (kind = 0 && natAt b 7 1 ≠ 0) || natAt b 0x71 3 ≠ 0 || (sec1Point eph).isNone then none
  else
    let z := bytesAt (Config.secret 0 "ECDH with DWK" (leBytes 1 s.lcs ++ leBytes 1 (s.gf 0x14 7 6) ++ eph)) 0 48
    let kek := hkdf z (ascii "XD job wrap" ++ bytesAt b 8 4) 32
    gcmOpen kek (List.replicate 12 0#8) (b.take 0x74) (bytesAt b 0x74 32) (bytesAt b 0x94 16)

/-- JOB_KEY (R418). -/
def execJobKey (h : MboxHdr) (blob : List Byte) (s : State) : Host.Outcome State Fault Refusal :=
  .next (s.mbox h 0x23 1 false false fun s =>
    match s.unwrap blob with
    | none => .done s 0x060B#16 []
    | some k =>
      let id := BitVec.ofNat 32 (natAt blob 8 4)
      if natAt blob 6 1 = 1 then
        let i := natAt blob 7 1
        .done (State.keysChanged { s with sec := { s.sec with
          tenants := setAt s.sec.tenants i (some k), tenantIds := setAt s.sec.tenantIds i id } }) 0#16 []
      else if s.loaded then .done s 0x0601#16 []
      else .done (State.keysChanged { s with sec := { s.sec with
        jobKey := some ⟨k, id, BitVec.ofNat 32 (natAt blob 0xC 4)⟩ } }) 0#16 [])

/-- Job and tenant keys are erased. -/
def State.eraseJobKeys (s : State) : State :=
  State.keysChanged { s with sec := { s.sec with
    jobKey := none, tenants := List.replicate 16 none, tenantIds := List.replicate 16 0#32 } }

/-- JOB_KEY_CLEAR (R426, R436). -/
def execJobKeyClear (h : MboxHdr) (s : State) : Host.Outcome State Fault Refusal :=
  .next (s.mbox h 0x24 1 false false fun s => if s.loaded then .done s 0x0601#16 [] else .done s.eraseJobKeys 0#16 [])

/-- The role that sets a credential: the installer the operator's, the maker the installer's (R424). -/
def credSetter (role : Byte) : Nat := if role = 2#8 then 3 else 2

/-- CRED_SET (R424): every session of the role is closed. -/
def execCredSet (h : MboxHdr) (role : Byte) (key : List Byte) (s : State) : Host.Outcome State Fault Refusal :=
  .next (s.mbox h 0x25 (credSetter role) false false fun s =>
    if (role ≠ 1#8 && role ≠ 2#8) || decide (key.length ≠ 97) || (sec1Point key).isNone then .done s 0x0605#16 []
    else
      let t := if role = 1#8 then { s with sec := { s.sec with operator := some key } }
        else { s with sec := { s.sec with installer := some key } }
      .done (t.endSessions fun x => decide (x.role = role.toNat)) 0#16 [])

/-- One entry of MEMBER_KEYS. -/
def memberKeySet (l : List (Word × List Byte)) (e : MemberKey) : List (Word × List Byte) :=
  let l := l.filter fun m => decide (m.1 ≠ e.member)
  if e.remove then l else l ++ [(e.member, bytesAt e.digest 0 48)]

/-- MEMBER_KEYS (R426): up to 64 entries; the table holds up to 8,192. -/
def execMemberKeys (h : MboxHdr) (entries : List MemberKey) (s : State) : Host.Outcome State Fault Refusal :=
  .next (s.mbox h 0x26 2 false false fun s =>
    let l := entries.foldl memberKeySet s.sec.members
    if 64 < entries.length || 8192 < l.length then .done s 0x0605#16 []
    else .done (State.keysChanged { s with sec := { s.sec with members := l } }) 0#16 [])

/-- SIGNER_SET (R420): a public key, or zeros to clear the place. -/
def execSignerSet (h : MboxHdr) (index : BitVec 4) (key : List Byte) (s : State) : Host.Outcome State Fault Refusal :=
  .next (s.mbox h 0x27 2 false false fun s =>
    let put (v : Option (List Byte)) : State := { s with sec := { s.sec with signers := setAt s.sec.signers index.toNat v } }
    if key.length ≠ 97 then .done s 0x0605#16 []
    else if key.all (· = 0#8) then .done (put none) 0#16 []
    else if (sec1Point key).isNone then .done s 0x0605#16 []
    else .done (put (some key)) 0#16 [])

/-! ## Life cycle (R423) -/

/-- The roles that may ask for a transition; empty if the table has none. -/
def lifecycleRoles (from_ to_ : Nat) : List Nat :=
  if from_ = 0 && to_ = 1 || from_ = 1 && to_ = 2 || from_ = 3 && to_ = 4 || from_ = 4 && to_ = 2 || from_ = 4 && to_ = 5 then [3]
  else if from_ = 2 && to_ = 3 then [2]
  else if from_ = 3 && to_ = 5 then [2, 3]
  else []

/-- What a transition needs besides its role: the operator credential for FIELD, the installer's for PROVISIONED (log entry 28), and a
fourth return from RMA is refused. -/
def State.lifecycleOk (s : State) (to_ : Nat) : Bool :=
  !(lifecycleRoles s.lcs to_).isEmpty && (decide (to_ ≠ 3) || s.sec.operator.isSome) &&
    (decide (to_ ≠ 2) || s.sec.installer.isSome) &&
    (decide (s.lcs ≠ 4) || decide (to_ ≠ 2) || decide (s.gf 0x14 7 6 < 3))

/-- The role under which a caller asks for a transition: that of its session if the table gives the transition to it. -/
def State.lifecycleRole (s : State) (h : MboxHdr) (to_ : Nat) : Nat :=
  match lifecycleRoles s.lcs to_ with
  | [] => if s.holds h.session 3 then 3 else 2
  | r :: l => if l.any fun x => s.holds h.session x then l.headD r else r

/-- LIFECYCLE (R423): the transition waits for the next cold start, where the device's own entry follows (R428). -/
def execLifecycle (h : MboxHdr) (target : BitVec 3) (s : State) : Host.Outcome State Fault Refusal :=
  .next (s.mbox h 0x28 (s.lifecycleRole h target.toNat) false false fun s =>
    if !s.lifecycleOk target.toNat then .done s 0x060A#16 []
    else .done (s.setGf 0x14 5 3 target.toNat) 0#16 [])

/-! ## Audit (R429) -/

/-- The entry with a SEQ, if the ring still holds it. -/
def State.auditEntryAt (s : State) (seq : Nat) : Option (List Byte) :=
  let first := s.sec.auditNext - s.sec.audit.length
  if seq < first then none else s.sec.audit[seq - first]?

/-- The head statement: the newest SEQ, the SHA-256 of the newest entry and the caller's nonce, signed with the AK. -/
def State.headStatement (s : State) (nonce : List Byte) : List Byte :=
  let b := leBytes 8 (s.sec.auditNext - 1) ++ s.sec.auditHead ++ bytesAt nonce 0 32
  b ++ bytesAt (Config.secret s.freeCtr "AK signature" (sha384 b)) 0 96

/-- AUDIT_READ (R426, R429). -/
def execAuditRead (h : MboxHdr) (first : BitVec 64) (count : Nat) (nonce : List Byte) (s : State) :
    Host.Outcome State Fault Refusal :=
  .next (s.mbox h 0x29 0 false false fun s =>
    if count = 0 || 31 < count || nonce.length ≠ 32 then .done s 0x0605#16 []
    else
      let s := s.tick1
      .done s 0#16 (((List.range count).filterMap fun i => s.auditEntryAt (first.toNat + i)).flatten ++ s.headStatement nonce))

/-! ## Fences (R432) -/

/-- The loaded image schedules the unit: a core of its mask, a port of its link plan, or what every frame uses. -/
def State.schedules (s : State) (u : Nat) : Bool :=
  match s.image with
  | none => false
  | some i => s.loaded &&
      if u < 156 then (List.finRange 144).any fun c => i.coreMask.testBit c.val && decide (s.physical c = u)
      else if u < 164 then true
      else if u < 180 then decide ((i.plan.ports.getD (u - 164) ⟨0, 0, 0#32⟩).use ≠ 0)
      else decide (u = 181) || decide (u = 191)

/-- UNIT_FENCE (R404, R432): a unit that the image schedules is taken out with a stop bath; a failed one stays failed. -/
def execUnitFence (h : MboxHdr) (s : State) : Host.Outcome State Fault Refusal :=
  .next (s.mbox h 0x2A 2 true false fun s =>
    let u := h.unit.toNat
    if 192 ≤ u then .done s 0x0605#16 []
    else if (s.unitHealth u).state = 4 then .done s 0#16 []
    else
      let t := s.setHealth u 3 (s.unitHealth u).flags 0#16
      .done (if s.schedules u && s.shutter.started then t.stopBath else t) 0#16 [])

/-- UNIT_UNFENCE (R432). -/
def execUnitUnfence (h : MboxHdr) (s : State) : Host.Outcome State Fault Refusal :=
  .next (s.mbox h 0x2B 2 true false fun s =>
    let u := h.unit.toNat
    if 192 ≤ u then .done s 0x0605#16 []
    else if (s.unitHealth u).state = 3 then .done (s.setHealth u 0 (s.unitHealth u).flags 0#16) 0#16 []
    else .done s 0#16 [])

end Sys2Proof.Machine
end

