-- ==== Sys2Proof/Machine/SelfTest.lean ====
section
/-! DEFINITION. In-service test (R398–R403), tests on request (R404, R405), the canaries and the margin planner (R406–R408). -/

namespace Sys2Proof.Machine

/-! ## Segments (R398) -/

/-- Segments of a core under a tail unit code; code 0xF stands for the sequencer's and core control's own. -/
def segmentsOf (unit : Nat) : Nat :=
  match unit with
  | 1 => 512 | 2 => 128 | 3 => 128 | 4 => 96 | 5 => 160 | 6 => 64 | 7 => 720 | 15 => 64 | _ => 0

/-- Segments of a core. -/
def coreSegments : Nat := 1872

/-- A dark tail's unit code, or a whole dark frame's, allows a segment. -/
def tailAllows (code unit : Nat) : Bool := decide (code = 15) || decide (code = unit)

/-- The unit whose test holds a register of the core's window (R401). -/
def unitOfRegister (off : Nat) : Nat :=
  if off < 0x1000 then 15 else if off < 0x2000 then 7 else if off < 0x2200 then 15 else if off < 0x3000 then 6
  else if off < 0x5000 then 1
  else if off = 0x5000 || (0x5100 ≤ off && off < 0x5140) then 2 else if off < 0x5200 then 3
  else if off < 0x6000 then 4 else if off < 0x8000 then 5 else if off < 0x9000 then 7 else 15

/-! ## Slices (R399–R402) -/

/-- The cycle at which the guard band of the frame in progress starts. -/
def State.guardStart (s : State) : Nat := s.shutter.guardAt

/-- Cycles of `n` µs at the core clock. -/
def State.microCycles (s : State) (n : Nat) : Nat := ceilDiv (n * s.shutter.freq2) 2

/-- The cycle at which a slice that tests a unit may start on a core, if its dark slot still holds one (R18, R399): after the slice
before it, with 17 µs left before the guard band. -/
def State.sliceAt (s : State) (c : CoreId) (unit : Nat) : Option Nat :=
  let x := s.core c
  let slot : Option Nat :=
    if x.frame.kind = 4 then some x.frame.ownTick
    else match x.sched[x.frame.entry]? with
      | some e => (e.tails.find? fun t => tailAllows t.1 unit).map fun t => x.frame.ownTick + t.2
      | none => none
  if !x.frame.live then none
  else slot.bind fun t =>
    let a := max (max s.clock (Sparse.get (fun _ => 0) s.htu.sliceFrom c.val)) t
    if a + s.microCycles 17 ≤ s.guardStart then some a else none

/-- The units whose segments a core has (R398). -/
def segmentUnits : List Nat := [1, 2, 3, 4, 5, 6, 7, 15]

/-- A request asks for the segments of a unit (R404, R409): logic, memory or all that apply. -/
def TestReq.wants (r : TestReq) (unit : Nat) : Bool :=
  match r.test with
  | 0 => decide (unit ≠ 7)
  | 1 => decide (unit = 7)
  | 3 => true
  | _ => false

/-- Segments of a unit that a request asks for are still to be tested. -/
def TestReq.left (r : TestReq) (unit : Nat) : Bool :=
  r.wants unit && decide ((r.done.filter fun d => d.1 = unit).length < segmentsOf unit)

/-- The segments of a requested unit come first in its dark slots (R404). -/
def State.requestFirst (s : State) (c : CoreId) (seg : Segment) : Bool :=
  match s.htu.request with
  | none => true
  | some r =>
    r.full || decide (r.unit ≠ s.physical c) || (r.wants seg.unit.toNat && !r.done.contains (seg.unit.toNat, seg.index)) ||
      !(segmentUnits.any fun u => r.left u && (s.sliceAt c u).isSome)

/-- SLICING follows the slices in progress. -/
def State.showSlicing (s : State) : State := s.setGf 0x20000 1 1 (bit !s.htu.slices.isEmpty)

/-- The cycle at which a slice of a segment starts, if it may (R398, R399, R405): the life-cycle state allows it, slices are enabled, the
core is in use and in a dark slot, and the token meter has room. -/
def State.sliceStart (s : State) (c : CoreId) (seg : Segment) : Option Nat :=
  if decide (s.lcs ≠ 0) && decide (s.lcs ≠ 5) && s.gbit 0x20018 0 && s.available c && decide (seg.index < segmentsOf seg.unit.toNat) &&
    !(s.htu.slices.any fun x => decide (x.core = c)) && s.requestFirst c seg then
    (s.sliceAt c seg.unit.toNat).bind fun a =>
      if s.tokensHeld a + sliceTokens seg.unit.toNat ≤ s.gf 0x3000C 25 16 then some a else none
  else none

/-- IN_SERVICE_SLICE (R399): a slice that cannot start is skipped; the core's next comes 17 µs after its start. -/
def execInServiceSlice (c : CoreId) (seg : Segment) (r : SliceResult) (s : State) : Host.Outcome State Fault Refusal :=
  .next (match s.sliceStart c seg with
    | none => s
    | some a =>
      let s := s.atCycle a
      State.showSlicing { s with htu := { s.htu with
        slices := s.htu.slices ++ [⟨c, seg, r, []⟩]
        sliceFrom := Sparse.set (fun _ => 0) s.htu.sliceFrom c.val (a + s.microCycles 17) } })

/-- A line that the March test fails (R400): lasting at once, its spare filled from the holding buffer, unless that copy had
missed its CRC. -/
def Core.marchFail (ctr : Nat) (missed : Bool) (line : Nat) (c : Core) : Core :=
  let held := Memory.read c.mem line 64
  let c := (c.raiseInt 0x040C#16).remapLine ctr line
  match c.remapOf line with
  | none => c
  | some r =>
    let c := { c with integ := { c.integ with
      fillOpen := if c.integ.fillOpen.map Fill.entry = some r.entry then none else c.integ.fillOpen
      fillQueued := if c.integ.fillQueued.map Fill.entry = some r.entry then none else c.integ.fillQueued } }
    if missed then c.showFills else ((c.write line held).setSpare r.entry .valid).showFills

/-- A memory slice on its core (R400): misses as the patrol's, then the March test's lines. -/
def Core.memorySlice (k : Ctx) (seg : Segment) (r : SliceResult) (c : Core) : Core :=
  let range := segmentLines seg.index
  let missed := c.missing range (r.misses.map fun l => lineOf l.toNat)
  let c := missed.foldl (fun c l => c.miss k l true) c
  (((r.march.map fun l => lineOf l.toNat).eraseDups).filter range.contains).foldl
    (fun c l => c.marchFail k.ctr (missed.contains l) l) c

/-- A segment counts for the request that asks for it (R404). -/
def TestReq.note (r : TestReq) (seg : Segment) : TestReq :=
  let d := (seg.unit.toNat, seg.index)
  if r.wants d.1 && !r.done.contains d then { r with done := d :: r.done } else r

/-- A segment of a core has been tested: it counts for a request of that core (R404). -/
def State.requestNote (s : State) (c : CoreId) (seg : Segment) : State :=
  let note (r : TestReq) : TestReq := if r.full || r.unit ≠ s.physical c then r else r.note seg
  { s with htu := { s.htu with request := s.htu.request.map note } }

/-- The rotation's progress (R398, R409): HTU_COV, and a new rotation when the last segment is done. -/
def State.segmentDone (s : State) (c : CoreId) (seg : Segment) : State :=
  let s := s.requestNote c seg
  let key := (c.val, seg.unit.toNat, seg.index)
  let l := if s.htu.tested.contains key then s.htu.tested else key :: s.htu.tested
  let on := (List.finRange 144).filter s.available
  let done := (l.filter fun t => on.any fun i => decide (i.val = t.1)).length
  let all := on.length * coreSegments
  if all ≤ done then
    let n := s.gf 0x20020 31 14
    State.setGreg { s with htu := { s.htu with tested := [], rotatedAt := s.nowSec } } 0x20020
      (BitVec.ofNat 32 ((if 2 ^ 18 - 1 ≤ n then n else n + 1) * 2 ^ 14))
  else State.setGf { s with htu := { s.htu with tested := l } } 0x20020 13 0 (done * 10000 / all)

/-- What a slice found takes effect (R400, R402). -/
def State.sliceResult (s : State) (x : Slice) : State :=
  if x.seg.unit.toNat = 7 then s.onCore x.core fun k c => c.memorySlice k x.seg x.result
  else if x.result.logicFail then
    let s := (s.raiseHtu 0x0702#16).failUnit (s.physical x.core) 0x0702#16
    match s.image with
    | some i => if s.loaded && i.coreMask.testBit x.core.val then s.stopBath else s
    | none => s
  else s

/-! ## Coverage (R403) -/

/-- The coverage interval in seconds. -/
def State.covInterval (s : State) : Nat :=
  let h := s.gf 0x2001C 7 0
  3600 * (if h = 0 then 1 else if 168 < h then 168 else h)

/-- COVERAGE_EXPIRED (R403): more than one interval since the later of the last passing test and the last rotation. -/
def execCoverageExpired (s : State) : Host.Outcome State Fault Refusal :=
  .next (let last := if s.htu.passedAt < s.htu.rotatedAt then s.htu.rotatedAt else s.htu.passedAt
    if last + s.covInterval < s.nowSec then (s.raiseHtu 0x0703#16).setGf 0x20000 2 2 1 else s)

/-! ## Tests on request (R404, R405) -/

/-- HTU_TRES and HTU_TDUR (R409). -/
def State.testResult (s : State) (code : Half) (cov micros : Nat) : State :=
  (s.setGreg 0x20010 (BitVec.ofNat 32 (code.toNat + cov % 2 ^ 14 * 2 ^ 16 + 2 ^ 31))).setGreg 0x20014 (BitVec.ofNat 32 micros)

/-- A request that is refused. -/
def State.refuseTest (s : State) (code : Half) : State := (s.raiseHtu code).testResult code 0 0

/-- The role that may request a test (R405): the installer, or the maker in MAKER_TEST and RMA. -/
def State.testRole (s : State) : Nat := if s.lcs = 1 || s.lcs = 4 then 3 else 2

/-- A request for a test (R404, R405) and what it is answered: the checks are the life-cycle state, a request in progress and the
generation. -/
def State.testAsk (s : State) (gen : Word) (unit : Half) (test : BitVec 2) (full : Bool) : State × Half :=
  let u := unit.toNat
  let no (code : Half) : State × Half := (s.refuseTest code, code)
  if s.lcs = 0 || s.lcs = 5 then no 0x0601#16
  else if s.htu.request.isSome then no 0x0606#16
  else if 256 ≤ u || (s.unitHealth u).gen ≠ gen then no 0x0604#16
  else
    let r : TestReq := ⟨u, full, test.toNat, false, (s.unitHealth u).state, []⟩
    let s := State.setGf { s with htu := { s.htu with request := some r } } 0x20000 0 0 1
    (if full && s.schedules u && !s.halted then s.stopBath else s, 0#16)

/-- A write of HTU_TREQ (R404, R409): without the key it is ignored. -/
def State.testRequest (s : State) (unit : Half) (test : BitVec 2) (full : Bool) : State :=
  if s.gbit 0x2000C 0 then (s.testAsk (s.greg 0x20008) unit test full).1 else s.raiseHtu 0x0601#16

/-- A running frame uses the unit. -/
def State.inUse (s : State) (u : Nat) : Bool :=
  (List.finRange 144).any fun c => (s.core c).frame.live && (decide (156 ≤ u) || decide (s.physical c = u))

/-- FULL_TEST_START (R404): the unit is free, and HALTED is 1 if the image schedules it. -/
def execFullTestStart (s : State) : Host.Outcome State Fault Refusal :=
  .next (match s.htu.request with
    | none => s
    | some r =>
      if !r.full || r.running || s.inUse r.unit || (s.schedules r.unit && !s.halted) then s
      else
        let s := State.setHealth { s with htu := { s.htu with request := some { r with running := true } } } r.unit 2
          (s.unitHealth r.unit).flags 0#16
        s)

/-- The memories of a physical core after the shutdown memory test: March C− keeps no content, and what it leaves is not
stated (R394, log entry 30). -/
def State.spoilMemories (s : State) (u : Nat) : State :=
  s.mapCores fun c x =>
    if s.physical c = u then
      { x with mem := (List.range 0x5A0000).foldl (fun m a => Memory.setByte m a (Config.freeByte s.freeCtr a)) x.mem }
    else x

/-- A requested test can end (R404): a full one that has started, or one in service whose segments have all been tested. -/
def TestReq.over (r : TestReq) : Bool := if r.full then r.running else segmentUnits.all fun u => !r.left u

/-- A requested test ends (R404): HTU_TRES, HTU_TDUR, and the unit's state. -/
def State.testDone (s : State) (r : TestReq) (t : TestResult) : State :=
  let s := State.setGf { s with htu := { s.htu with request := none } } 0x20000 0 0 0
  let s := s.testResult (if t.passed then 0#16 else 0x0702#16) t.coverage.toNat t.micros.toNat
  let s := if r.full && (r.test = 1 || r.test = 3) then (s.tick1).spoilMemories r.unit else s
  if t.passed then (if r.full then s.setHealth r.unit r.was (s.unitHealth r.unit).flags 0#16 else s)
  else
    let s := (s.raiseHtu 0x0702#16).failUnit r.unit 0x0702#16
    if s.schedules r.unit then s.stopBath else s

/-! ## The margin planner (R406, R407) -/

/-- A measurement's margins and its time. -/
def State.measured (s : State) (l : List Int) : State :=
  State.setGf { s with htu := { s.htu with canaries := l, measuredUtc := s.utc } } 0x20024 31 16
    (twosOf 16 (s.leastMargin l).1)

/-- MARGIN_EXHAUSTED (R408). -/
def State.exhausted (s : State) : State :=
  ((s.raiseHtu 0x0704#16).setGf 0x20000 3 3 1).stopBath.failUnit 191 0x0704#16

/-- A planner pass over the sweeps that were measured: each is judged under the offset and the steps in force then. A derate
applies at the next tick, and the pass goes on with the measurement after that tick (R407); before the first tick, at a
start, it applies at once (log entry 29). -/
def State.planner (start : Bool) : List (List Int) → State → State
  | [], s => s
  | l :: t, s =>
    let s := s.measured l
    if 20 ≤ (s.leastMargin l).1 then s
    else
      let v := s.gf 0x20024 5 0
      let k := s.gf 0x20024 8 6
      if v < 60 then
        State.planner start t (State.setGf { s with htu := { s.htu with ageingDue := true } } 0x20024 5 0 (v + 5))
      else if k + s.shutter.derates < 4 then
        let s := State.raiseHtu { s with htu := { s.htu with ageingDue := true } } 0x0701#16
        if start then State.planner start t ((s.setGf 0x20024 8 6 (k + 1)).setFreq (derated (k + 1)))
        else { s with shutter := { s.shutter with derates := s.shutter.derates + 1 } }
      else if s.shutter.derates = 0 then s.exhausted else s

end Sys2Proof.Machine
end

