-- ==== Sys2Proof/Machine/Power.lean ====
section
/-! DEFINITION. Power and start-up (R437–R453): what each reset clears, power-up with the choice of the start-up test (R395–R397,
R414), the orderly and the emergency power-off (R388, R449, R450), forced power classes (R439, R443), the reference clock
(R446), and the function level resets (R341, R453). -/

namespace Sys2Proof.Machine

/-! ## What resets keep (R453) -/

/-- The powered hours so far, as far as the flash knows them (R408). -/
def State.hoursKept (s : State) : Nat :=
  match s.htu.ageingRec.body with
  | some b => natAt b 4 4
  | none => 0

/-- What lies in flash or in fuses, or outside the module: the log and the credentials, the records of the HTU, the firmware slots, the
training cache, and the checkpoint sealed last (R217, R453). -/
def State.kept (s : State) : State :=
  let sec := { Security.reset with
    maker := s.sec.maker, installer := s.sec.installer, operator := s.sec.operator, members := s.sec.members
    signers := s.sec.signers, audit := s.sec.audit, auditNext := s.sec.auditNext, logBad := s.sec.logBad }
  let htu := { Htu.reset with
    shutdownRec := s.htu.shutdownRec, ageingRec := s.htu.ageingRec, remapRec := s.htu.remapRec, boots := s.htu.boots
    hours := s.hoursKept, events := s.htu.flushed, flushed := s.htu.flushed }
  let mgmt := { Mgmt.reset with slots := s.mgmt.slots, running := s.mgmt.running, next := s.mgmt.next, rollback := s.mgmt.rollback }
  let t := { State.reset with
    pending := s.pending, freeCtr := s.freeCtr, sent := s.sent, sec := sec, htu := htu, mgmt := mgmt
    power := { Power.reset with latched := s.power.latched, trainCache := s.power.trainCache }
    svc := { Services.reset with sealed := s.svc.sealed } }
  let t := [0, 4, 8, 0xC, 0x10, 0x14].foldl (fun t a => t.setGreg a (s.greg a)) t
  ((t.setGreg 0x10010 (s.greg 0x10010)).setGreg 0x10014 (s.greg 0x10014)).setGreg 0x30018 (s.greg 0x30018)

/-- Safelight, which a module reset leaves running, with the time it holds. -/
def State.withSafelight (s t : State) : State :=
  { t with mgmt := { s.mgmt with
      utc := match s.mgmt.utc with
        | some _ => some (s.utc, 0)
        | none => none
      loupe := none, baud := 115200 } }

/-- The release of the internal reset (R447): the straps are sampled, shown and measured into MR0. -/
def State.release (s : State) (p : Straps) : State :=
  let w := BitVec.ofNat 32 (p.boot.toNat + p.pclass.toNat * 4 + bit p.tickRole * 16 + p.mgmtAddr.toNat * 32 + bit p.dbgen * 512)
  let s := ((s.setGreg 0x30014 w).setGf 0x30000 1 0 p.pclass.toNat).setGf 0x40004 3 3 (bit p.tickRole)
  let s := (s.setGshadow 0x30000 (s.greg 0x30000)).setGshadow 0x40004 (s.greg 0x40004)
  let rom := Config.secret 0 "boot ROM and fuses" (leBytes 4 (s.greg 0).toNat ++ leBytes 4 (s.greg 4).toNat)
  s.extendMr 0 (sha384 (rom ++ leBytes 4 w.toNat))

/-- The identity is fused on the test floor (R423): what it is, is the maker's. -/
def State.fuseIdentity (s : State) : State :=
  let s := s.tick1
  [0, 4, 8, 0xC, 0x10].foldl (fun t a => t.setGreg a (BitVec.ofNat 32 (Config.freeNat (s.freeCtr + a) "fused identity"))) s

/-- A life-cycle transition that was pending takes effect, with an entry of the device's (R423, R428); the return from RMA leaves the
flash log region repaired (log entry 28). -/
def State.lifecycleNow (s : State) : State :=
  let a := s.lcs
  let b := s.gf 0x14 5 3
  if a = b then s
  else
    let s := s.setGf 0x14 2 0 b
    let s := if b = 4 then
        { s with sec := { s.sec with
          operator := none, members := [], signers := List.replicate 16 none, jobKey := none
          tenants := List.replicate 16 none, tenantIds := List.replicate 16 0#32 } }
      else s
    let s := if a = 4 && b = 2 then State.setGf { s with sec := { s.sec with logBad := false } } 0x14 7 6 (s.gf 0x14 7 6 + 1) else s
    let s := if a = 0 then s.fuseIdentity else s
    s.audit { role := 4, src := 0x13, action := 0x28, result := 0#16, unit := 0xFFFFFFFF#32, session := 0#32, cred := 0#32
              arg := leBytes 1 b }

/-- Power-up from an input that had been off (R451), up to the release of reset. -/
def State.coldStart (s : State) (p : Straps) : State :=
  let t := s.kept
  (State.lifecycleNow { t with power := { t.power with latched := false } }).release p

/-- COLD_START. -/
def execColdStart (straps : Straps) (s : State) : Host.Outcome State Fault Refusal := .next (s.coldStart straps)

/-- A module reset (R452, R453): job and tenant keys, the substitution and Safelight stay. -/
def State.resetModule (s : State) (p : Straps) : State :=
  let t := s.withSafelight s.kept
  let t := { t with
    sec := { t.sec with jobKey := s.sec.jobKey, tenants := s.sec.tenants, tenantIds := s.sec.tenantIds }
    htu := { t.htu with hours := s.htu.hours + s.nowSec / 3600 }
    power := { t.power with cold := false }
    cores := Vector.ofFn fun i => Core.reset.setReg 0 ((s.cores.get i).reg 0) }
  (t.release p).showSec

/-- The rails are up. -/
def State.powered (s : State) : Bool := decide (s.power.phase ≠ .off) && decide (s.power.phase ≠ .standby)

/-- MODULE_RESET (R452): the reset has begun, and lasts while RST_N is held low. -/
def execModuleReset (straps : Straps) (s : State) : Host.Outcome State Fault Refusal :=
  .next (if s.powered then
      let t := s.resetModule straps
      { t with power := { t.power with phase := .held } }
    else s)

/-- RST_N_RELEASE (R448). -/
def execRstNRelease (straps : Straps) (s : State) : Host.Outcome State Fault Refusal :=
  .next (if s.power.phase = .held then
      let t := s.resetModule straps
      { t with power := { t.power with cold := s.power.cold } }
    else s)

/-! ## Start-up (R395–R397, R414, R448) -/

/-- The firmware slot that boots: at a cold start the one marked next, else the strap's, then the other; at a module reset the one that
has been running first. A slot must verify and be no older than the anti-rollback counter (R414, R415). -/
def State.bootSlot (s : State) (f : StartFindings) : Option Nat :=
  let good (i : Nat) : Bool := f.slotOk.getD i false && decide (s.mgmt.rollback ≤ (s.mgmt.slots.getD i ⟨[], 0⟩).version)
  if s.gf 0x30014 1 0 = 2 then none
  else
    let a := if !s.power.cold then s.mgmt.running
      else match s.mgmt.next with
        | some n => n
        | none => if s.gf 0x30014 1 0 = 1 then 1 else 0
    [a, 1 - a].find? good

/-- The firmware in a slot starts: MR1 to MR4, MR7 and the AK (R412, R414, R415). -/
def State.bootWith (s : State) (f : StartFindings) (slot : Nat) : State :=
  let fresh := s.power.cold && decide (s.mgmt.next = some slot)
  let s := { s with mgmt := { s.mgmt with running := slot, next := if s.power.cold then none else s.mgmt.next } }
  let s := (List.range 4).foldl (fun s i => s.extendMr (i + 1) (f.digests.getD i [])) s
  let s := s.extendMr 7 (sha384 (leBytes 1 s.lcs ++ leBytes 1 (s.gf 0x14 7 6)))
  let s := s.setGreg 0x10008 f.akKeyId
  if fresh then
    let s := s.tick1
    s.audit { role := 4, src := 0x11, action := 0x8000 + Config.freeNat s.freeCtr "PLDM action code" % 0x8000, result := 0#16
              unit := 0xFFFFFFFF#32, session := 0#32, cred := 0#32, arg := leBytes 1 slot }
  else s

/-- The shutdown record in force permits a quick start (R395); in BLANK none is run (R405). -/
def State.quickStart (s : State) : Bool :=
  decide (s.lcs ≠ 0) && match s.htu.shutdownRec.body, s.mgmt.utc with
  | some b, some _ => decide (natAt b 0 1 = 1) && decide (natAt b 1 1 = 1) && decide (s.utc < natAt b 8 8 + 2592000)
  | _, _ => false

/-- Physical core k is listed as failed in the shutdown record in force. -/
def State.recordFails (s : State) (k : Nat) : Bool :=
  match s.htu.shutdownRec.body with
  | some b => (natAt b 0x28 20).testBit k
  | none => false

/-- The units that count as failed at this start (R397): what the tests found, and after a quick start what the record lists; in VOID no
test runs (R405). -/
def State.failedUnits (s : State) (f : StartFindings) : List Nat :=
  if s.lcs = 5 then []
  else if s.quickStart then (f.failed ++ (List.range 156).filter s.recordFails).eraseDups else f.failed.eraseDups

/-- The spare column of a row (R38). -/
def State.spareCol (s : State) (row : Nat) : Nat :=
  if row < 8 then s.gf 0xC (4 * row + 3) (4 * row) else s.gf 0x10 (4 * row - 29) (4 * row - 32)

/-- The health table as a start builds it (R433, R434): GEN is BOOTS × 65,536, and the failed units are marked. -/
def State.buildHealth (s : State) (failed : List Nat) : State :=
  let boots := (s.htu.boots + 1) % 2 ^ 16
  let gen := BitVec.ofNat 32 (boots * 2 ^ 16)
  let one (u : Nat) : Health :=
    if 192 ≤ u then ⟨0xFF, 0, 0#16, gen, 0, 0⟩
    else if u < 156 && decide (u % 13 = s.spareCol (u / 13)) then ⟨5, 0, 0#16, gen, 0, 0⟩
    else ⟨0, 0, 0#16, gen, 0, 0⟩
  let s := { s with health := (List.range 256).map one, htu := { s.htu with boots := boots } }
  failed.foldl (fun s u => if u < 192 then s.failUnit u 0x0702#16 else s) s

/-- The physical core of logical core n by the fuse map alone (R39). -/
def State.fusedPlace (s : State) (n : Nat) : Nat :=
  let row := n / 12
  13 * row + (if n % 12 < s.spareCol row then n % 12 else n % 12 + 1)

/-- CORE_ID of a logical core: its number, place and whether a spare carries it (R40). -/
def coreId (n place : Nat) (sub : Bool) : Word := BitVec.ofNat 32 (n + place % 13 * 2 ^ 8 + place / 13 * 2 ^ 12 + bit sub * 2 ^ 16)

/-- Spare substitution at a cold start (R40): the spare that passed carries the first failed core of its row. -/
def State.substitute (s : State) : State :=
  let bad (u : Nat) : Bool := decide ((s.unitHealth u).state = 4)
  let first (row : Nat) : Option Nat := (List.range 12).find? fun k => bad (s.fusedPlace (12 * row + k))
  let spare (row : Nat) : Nat := 13 * row + s.spareCol row
  let sub (n : Nat) : Bool := decide (first (n / 12) = some (n % 12)) && !bad (spare (n / 12))
  let t := s.mapCores fun i c => c.setReg 0 (coreId i.val (if sub i.val then spare (i.val / 12) else s.fusedPlace i.val) (sub i.val))
  (List.range 12).foldl (fun t row =>
    if (first row).isSome && !bad (spare row) then
      { t with health := setAt t.health (spare row) { t.unitHealth (spare row) with state := 0, flags := 1 } }
    else t) t

/-- A spare that carries a core since the last cold start is in use (R433, R453). -/
def State.markSubstituted (s : State) : State :=
  (List.finRange 144).foldl (fun s c =>
    let u := s.physical c
    if bitAt ((s.core c).reg 0) 16 && decide ((s.unitHealth u).state ≠ 4) then
      { s with health := setAt s.health u { s.unitHealth u with state := 0, flags := 1 } }
    else s) s

/-- A line of the remap record taken up by a core (R382): a spare, or a remap-full unit where none is left. -/
def Core.takeRemap (line : Nat) (c : Core) : Core :=
  let (first, n) := remapUnit line
  let used := c.integ.remaps.map (·.entry)
  match (List.range n).find? fun i => !used.contains (first + i) with
  | some i => { c with integ := { c.integ with
      remaps := (c.integ.remaps.map fun (r : Remap) => if r.line = line then { r with retired := true } else r) ++
        [(⟨first + i, line, .valid, false⟩ : Remap)] } }
  | none => { c with integ := c.integ.fill first line }

/-- The remap record is loaded into the cores that carry its physical cores (R382). -/
def State.loadRemaps (s : State) : State :=
  s.mapCores fun i c =>
    ((s.htu.remapped.filter fun r => decide (r.1 = s.physical i)).foldl (fun c r => Core.takeRemap r.2.2 c) c).showRemaps

/-- The offset and the derate steps of the ageing record are in force before the first measurement (R407). -/
def State.loadAgeing (s : State) : State :=
  let (v, k) := match s.htu.ageingRec.body with
    | some b => (natAt b 0 1, natAt b 1 1)
    | none => (0, 0)
  ((s.setGf 0x20024 5 0 v).setGf 0x20024 8 6 k).setFreq (derated k)

/-- The start marker (R390): the failed-unit lists carry forward. -/
def State.startMarker (s : State) : State :=
  let old := match s.htu.shutdownRec.body with
    | some b => b
    | none => []
  let body := List.replicate 0x28 0#8 ++ bytesAt old 0x28 20 ++ List.replicate 4 0#8 ++ bytesAt old 0x40 8 ++
    bytesAt old 0x48 2 ++ List.replicate 6 0#8
  { s with htu := { s.htu with shutdownRec := s.htu.shutdownRec.write 1 body } }

/-- READY (R448): class and pool are in force, and the anti-rollback counter has caught up (R415). -/
def State.becomeReady (s : State) : State :=
  let v := (s.mgmt.slots.getD s.mgmt.running ⟨[], 0⟩).version
  let s := { s with
    power := { s.power with phase := .ready, pwrgood := true }
    mgmt := { s.mgmt with rollback := if s.mgmt.rollback < v then v else s.mgmt.rollback } }
  ((s.setGf 0x3000C 3 2 s.forceLimit).setClass).setGf 0x3000C 5 5 1

/-- The start-up tests have ended and the module goes on to READY, unless it is VOID or its margin is exhausted (R395, R407,
R408). -/
def State.startupTested (s : State) (f : StartFindings) : State :=
  let s := s.loadAgeing
  let failed := s.failedUnits f
  let quick := s.quickStart
  let s := s.buildHealth failed
  let s := if s.power.cold then s.substitute else s.markSubstituted
  let s := s.loadRemaps.planner true (if s.lcs = 5 then [] else f.sweeps)
  let s := if !quick && failed.isEmpty then { s with htu := { s.htu with passedAt := s.nowSec } } else s
  let s := s.startMarker
  let s := if s.htu.ageingDue then s.writeAgeing else s
  if s.gbit 0x20000 3 || decide (s.lcs = 5) then s else s.becomeReady

/-- STARTUP_READY (R414, R448): boot, tests and what follows them; without a slot to boot the module stays in recovery. -/
def execStartupReady (f : StartFindings) (s : State) : Host.Outcome State Fault Refusal :=
  .next (if s.power.phase ≠ .starting then s
    else match s.bootSlot f with
      | none => s.setGf 0x10000 22 22 1
      | some slot => (s.bootWith f slot).startupTested f)

/-! ## Power-off (R388, R449, R450) -/

/-- The rails go off: what the flash holds stays; the cause is CPM_LASTOFF's. -/
def State.railsOff (s : State) (phase : PowerPhase) (cause : Nat) : State :=
  let t := s.kept
  State.setGreg { t with power := { t.power with phase := phase, pwrgood := false } } 0x30018 (BitVec.ofNat 32 cause)

/-- The power-fail path (R450): no shutdown stage runs; the code is read after the next start (R460). -/
def State.emergencyOff (s : State) (cause : Nat) (code : Half) : State :=
  let s := { s with htu := { s.htu with flushed := s.htu.flushed ++ [(code, s.shutter.fn)] } }
  s.railsOff .off cause

/-- INPUT_POWER_FAIL (R439). -/
def execInputPowerFail (s : State) : Host.Outcome State Fault Refusal :=
  .next (if s.power.phase = .off then s else s.emergencyOff 2 0x0706#16)

/-- INPUT_OVERVOLTAGE (R440): the trip latches. -/
def execInputOvervoltage (s : State) : Host.Outcome State Fault Refusal :=
  .next (let t := if s.power.phase = .off then s else s.emergencyOff 3 0x0707#16
    { t with power := { t.power with latched := true } })

/-- THERMAL_TRIP (R443). -/
def execThermalTrip (s : State) : Host.Outcome State Fault Refusal :=
  .next (if s.powered then s.emergencyOff 4 0x0708#16 else s)

/-- An action over Safelight that needs the rights of a role: checked, audited, and answered (R426, R428). The manual gives no
PLDM action codes, so ACTION's low bits are free. -/
def State.pldm (s : State) (role : Nat) (session : Word) (f : State → State × Half) : State :=
  let s := s.tick1
  let note (s : State) (code : Half) : AuditNote :=
    { role := (match s.session session with
        | some x => x.role
        | none => 0)
      src := 0x11, action := 0x8000 + Config.freeNat s.freeCtr "PLDM action code" % 0x8000, result := code
      unit := 0xFFFFFFFF#32, session := session
      cred := (match s.session session with
        | some x => x.cred
        | none => 0#32)
      arg := [] }
  if !s.holds session role then (s.audit (note s 0x0601#16)).emit (.reply 0x11 0x0601#16 [])
  else if s.sec.logBad then
    (s.setGf 0x10000 23 23 1).emit (.reply 0x11 (freeCode s.freeCtr "log fault result") [])
  else
    let s := (s.audit (note s 0#16)).useSession session
    let (t, code) := f s
    (if code = 0#16 then t else t.audit (note t code)).emit (.reply 0x11 code [])

/-- A test request by a write of HTU_TREQ or over PLDM, with the generation it expects (R404). -/
def State.testVia (s : State) (ask : TestAsk) (test : BitVec 2) (full : Bool) : State :=
  match ask.via with
  | none => s.testRequest ask.unit test full
  | some (session, gen) => if s.powered then s.pldm s.testRole session fun s => s.testAsk gen ask.unit test full else s

/-- TEST_REQUEST_IN_SERVICE (R404, R405). -/
def execTestRequestInService (ask : TestAsk) (test : BitVec 2) (s : State) : Host.Outcome State Fault Refusal :=
  .next (s.testVia ask test false)

/-- TEST_REQUEST_FULL (R404, R405). -/
def execTestRequestFull (ask : TestAsk) (test : BitVec 2) (s : State) : Host.Outcome State Fault Refusal :=
  .next (s.testVia ask test true)

/-- MODULE_POWER_OFF (R449): no job may start, a stop bath follows, and the shutdown stages begin. -/
def execModulePowerOff (session : Word) (s : State) : Host.Outcome State Fault Refusal :=
  .next (if s.power.phase ≠ .ready then s
    else s.pldm 2 session fun s =>
      let s := { s with
        power := { s.power with phase := .shutdown 1, sdtDone := false }, shutter := { s.shutter with noStart := true } }
      ((if s.halted then s else s.stopBath).shutdownOn, 0#16))

/-- Stage 4 and what follows (R388, R448, R449): the event log is flushed, the training cache written if stage 2 passed, and the rails go
off in order; Safelight stays on. -/
def State.shutdownEnd (s : State) : State :=
  let s := if s.power.sdtDone then
      let s := s.tick1
      { s with power := { s.power with trainCache := some (Config.freeNat s.freeCtr "training parameters") } }
    else s
  let s := { s with htu := { s.htu with flushed := s.htu.events } }
  s.withSafelight (s.railsOff .standby 1)

/-- Something failed that the shutdown record in force does not list (R396). -/
def State.failsAnew (s : State) (f : ShutdownFound) : Bool :=
  let old (at_ n : Nat) : Nat := match s.htu.shutdownRec.body with
    | some b => natAt b at_ n
    | none => 0
  f.cores.any (fun k => !(old 0x28 20).testBit k) || decide (f.lanes &&& ~~~(BitVec.ofNat 64 (old 0x40 8)) ≠ 0#64) ||
    decide (f.pcie &&& ~~~(BitVec.ofNat 16 (old 0x48 2)) ≠ 0#16) || decide (f.plls &&& ~~~(BitVec.ofNat 6 (old 0x4A 1)) ≠ 0#6) ||
    decide (old 0x4B 1 < f.sensors)

/-- The shutdown test record's body (R396). -/
def State.shutdownBody (s : State) (result : Nat) (f : ShutdownFound) : List Byte :=
  leBytes 1 result ++ leBytes 1 1 ++ List.replicate 6 0#8 ++ leBytes 8 s.utc ++
    ((List.range 3).flatMap fun i =>
      let t := f.tests.getD i (0#14, 0#32)
      leBytes 2 t.1.toNat ++ leBytes 2 0 ++ leBytes 4 t.2.toNat) ++
    leBytes 20 (f.cores.foldl (fun a k => a ||| 2 ^ k) 0) ++ List.replicate 4 0#8 ++ leBytes 8 f.lanes.toNat ++
    leBytes 2 f.pcie.toNat ++ leBytes 1 f.plls.toNat ++ leBytes 1 f.sensors ++ List.replicate 4 0#8

/-- The units of the health table that the shutdown test found failed (R397, R433). -/
def failedIn (f : ShutdownFound) : List Nat :=
  f.cores.eraseDups ++ ((List.range 16).filter fun p => f.lanes.extractLsb' (4 * p) 4 ≠ 0#4).map (164 + ·) ++
    (if f.pcie = 0#16 then [] else [180])

/-- The end of shutdown stage 2: the record is committed, and units that failed are marked (R396, R397). -/
def State.shutdownRecord (s : State) (result : Nat) (f : ShutdownFound) : State :=
  let s := (failedIn f).foldl (fun s u => if (s.unitHealth u).state = 4 then s else s.failUnit u 0x0702#16) s
  { s with
    htu := { s.htu with shutdownRec := s.htu.shutdownRec.write 1 (s.shutdownBody result f)
                        passedAt := if result = 1 then s.nowSec else s.htu.passedAt }
    power := { s.power with phase := .shutdown 3, sdtDone := decide (result = 1) } }

/-- What a shutdown test that is ended by its limit has found by then: the manual does not say, so it is free (R396, log entry 31). -/
def State.foundSoFar (s : State) : ShutdownFound :=
  let n (w : String) : Nat := Config.freeNat s.freeCtr w
  { tests := (List.range 3).map fun i => (BitVec.ofNat 14 (Config.freeNat (s.freeCtr + i) "coverage so far"),
      BitVec.ofNat 32 (Config.freeNat (s.freeCtr + i) "duration so far"))
    cores := (List.range 156).filter fun k => (n "cores that failed").testBit k
    lanes := BitVec.ofNat 64 (n "link lanes that failed"), pcie := BitVec.ofNat 16 (n "PCIe lanes that failed")
    plls := BitVec.ofNat 6 (n "PLLs that failed"), sensors := n "sensors out of limit" % 53 }

/-- TEST_DONE (R404): the end of the requested test or, in shutdown stage 2, of the shutdown test (R396, log entry 31). -/
def execTestDone (e : TestEnd) (s : State) : Host.Outcome State Fault Refusal :=
  .next (match s.power.phase, s.htu.request with
    | .shutdown 2, _ => s.shutdownRecord (if s.failsAnew e.found then 2 else 1) e.found
    | _, none => s
    | _, some q => if q.over then s.testDone q e.result else s)

/-- CANARY_MEASUREMENT (R407); in shutdown stage 3 it is the ageing measurement, and the shutdown goes on to its end. -/
def execCanaryMeasurement (sweeps : List (List Int)) (s : State) : Host.Outcome State Fault Refusal :=
  .next (if sweeps.isEmpty then s
    else
      let t := s.planner false sweeps
      if s.power.phase = .shutdown 3 then t.writeAgeing.shutdownEnd else t)

/-- SHUTDOWN_STAGE_LIMIT (R388, R396): the stage in progress is ended. -/
def execShutdownStageLimit (s : State) : Host.Outcome State Fault Refusal :=
  .next (match s.power.phase with
    | .shutdown 1 =>
      let t := { s with svc := { s.svc with ckpt := none, ckptNext := [] } }
      { t with power := { t.power with phase := .shutdown (if s.gbit 0x20018 1 && !s.gbit 0x20000 2 then 3 else 2) } }
    | .shutdown 2 => s.tick1.shutdownRecord 3 s.tick1.foundSoFar
    | .shutdown 3 => s.shutdownEnd
    | _ => s)

/-- MODULE_POWER_ON (R449): power-up starts again, with the straps as they stand. -/
def execModulePowerOn (s : State) : Host.Outcome State Fault Refusal :=
  .next (if s.power.phase = .standby then
      let w := s.greg 0x30014
      s.withSafelight (s.coldStart ⟨BitVec.ofNat 2 (fld w 1 0), BitVec.ofNat 2 (fld w 3 2), bitAt w 4, BitVec.ofNat 4 (fld w 8 5),
        bitAt w 9⟩)
    else s)

/-- MODULE_RESET_REQUEST (R452). -/
def execModuleResetRequest (session : Word) (straps : Straps) (s : State) : Host.Outcome State Fault Refusal :=
  .next (if s.powered then s.pldm 2 session fun s => (s.resetModule straps, 0#16) else s)

/-! ## Forced classes (R439, R443, R444) -/

/-- The force has changed: CPM_STATUS shows it, POWER_CLASS_FORCED is raised for a lower limit, and the class changes at the
next tick. -/
def State.forceClass (s : State) : State :=
  let old := s.gf 0x3000C 3 2
  let s := (s.setGf 0x3000C 3 2 s.forceLimit).setGf 0x3000C 4 4 (bit (decide (s.forceLimit < s.strapClass)))
  (if s.forceLimit < old then s.logEvent 0x0705#16 else s).askClass

/-- INPUT_LOW (R439). -/
def execInputLow (s : State) : Host.Outcome State Fault Refusal :=
  .next (if s.powered then State.forceClass { s with power := { s.power with lowInput := true } } else s)

/-- INPUT_RECOVERED (R439). -/
def execInputRecovered (s : State) : Host.Outcome State Fault Refusal :=
  .next (if s.powered then State.forceClass { s with power := { s.power with lowInput := false } } else s)

/-- Heat forces the class in force one step down. -/
def State.heatStep (s : State) : State :=
  let n := s.strapClass - (s.gf 0x3000C 1 0 - 1)
  State.forceClass { s with power := { s.power with heatSteps := if s.power.heatSteps < n then n else s.power.heatSteps } }

/-- A reading that is a thermal trip (R443): 115 °C, or 110 °C at P20. -/
def State.trips (s : State) (celsius : Nat) : Bool :=
  decide (115 ≤ celsius) || (decide (110 ≤ celsius) && decide (s.gf 0x3000C 1 0 = 0))

/-- DIE_OVER_TEMPERATURE (R431, R443). -/
def execDieOverTemperature (sensor : BitVec 6) (celsius : Nat) (s : State) : Host.Outcome State Fault Refusal :=
  .next (if s.powered && decide (sensor.toNat < 48) then
      let s := { s with power := { s.power with dieTemp := setAt s.power.dieTemp sensor.toNat celsius } }
      if s.trips celsius then s.emergencyOff 4 0x0708#16
      else if 100 ≤ celsius then (s.alertFor 2).heatStep else s
    else s)

/-- DIE_TEMP_STEP (R443): a further second above 100 °C. -/
def execDieTempStep (s : State) : Host.Outcome State Fault Refusal :=
  .next (if s.powered && s.power.dieTemp.any fun t => decide (100 < t) then s.heatStep else s)

/-- COOLANT_INLET_HIGH (R443). -/
def execCoolantInletHigh (celsius : Nat) (s : State) : Host.Outcome State Fault Refusal :=
  .next (if s.powered then
      let s := { s with power := { s.power with inletTemp := celsius } }
      if 40 < celsius then
        State.forceClass (State.alertFor { s with power := { s.power with heatSteps := s.strapClass } } 2)
      else s
    else s)

/-- THERMAL_FORCE_LIFT (R443): 10 s with every die sensor below 95 °C and the inlet at or below 40 °C, so readings above these
limits no longer hold, and what they are now is free. -/
def execThermalForceLift (s : State) : Host.Outcome State Fault Refusal :=
  .next (if s.powered then
      let s := s.tick1
      let cool := Config.freeNat s.freeCtr "die temperature" % 95
      let p := s.power
      State.forceClass { s with power := { p with
        heatSteps := p.heatSteps - 1, dieTemp := p.dieTemp.map fun t => if 95 ≤ t then cool else t
        inletTemp := if 40 < p.inletTemp then Config.freeNat s.freeCtr "inlet temperature" % 41 else p.inletTemp } }
    else s)

/-! ## Reference clock (R446) -/

/-- REFCLK_LOST. -/
def execRefclkLost (s : State) : Host.Outcome State Fault Refusal :=
  .next (if s.powered && !s.power.refLost then
      State.stopBath (State.setGf (State.logEvent { s with power := { s.power with refLost := true } } 0x0709#16) 0x3000C 6 6 1)
    else s)

/-- REFCLK_TIMEOUT: the reference has been away for 10 ms. -/
def execRefclkTimeout (s : State) : Host.Outcome State Fault Refusal :=
  .next (if s.power.refLost then s.emergencyOff 5 0x0709#16 else s)

/-- REFCLK_RETURN: the PLLs relock; a halted module stays halted. -/
def execRefclkReturn (s : State) : Host.Outcome State Fault Refusal :=
  .next { s with power := { s.power with refLost := false } }

/-! ## Function level resets (R341, R453) -/

/-- The registers of a mailbox. -/
def State.resetMailbox (s : State) (n : Nat) : State :=
  let s := ((s.setGreg (mboxStatus n) 0#32).setGreg (mboxStatus n + 4) 0#32)
  { s with svc := { s.svc with
    buffers := s.svc.buffers.filter (fun (r : Nat × Byte) => decide (r.1 / 0x2000 ≠ n))
    discard := match s.svc.running.getD n none with
      | some h => s.svc.discard ++ [h]
      | none => s.svc.discard
    running := setAt s.svc.running n none } }

/-- The configuration space and the MSI-X table of a function are reset (R341). -/
def State.resetFunction (s : State) (pf : Nat) : State := { s with svc := { s.svc with pcie := setAt s.svc.pcie pf ([], []) } }

/-- A Function Level Reset of PF0 (R341): its configuration space, MSI-X table, BAR2 segments, mailboxes, sessions and KEY registers. -/
def State.flr0 (s : State) : State :=
  let s := (List.range 16).foldl (fun s n => s.setGreg (0x70100 + 4 * n) (BitVec.ofNat 32 (2 ^ 31 + n))) s
  let s := (List.range 16).foldl State.resetMailbox s
  let s := s.endSessions fun x => decide (x.src < 16)
  let s := [0x40044, 0x60008, 0x3001C, 0x2000C, 0x70008].foldl (fun s a => s.setGreg a 0#32) s
  State.resetFunction { s with sec := { s.sec with keys := [] } } 0

/-- A Function Level Reset of PF1: its configuration space, MSI-X table, the management mailbox and its sessions. -/
def State.flr1 (s : State) : State := ((s.resetMailbox 16).resetFunction 1).endSessions fun x => decide (x.src = 16)

/-- FLR_PF0. -/
def execFlrPf0 (s : State) : Host.Outcome State Fault Refusal := .next s.flr0

/-- FLR_PF1. -/
def execFlrPf1 (s : State) : Host.Outcome State Fault Refusal := .next s.flr1

/-- PERST_N (R453): both functions are reset and the endpoint is down. -/
def execPerstN (s : State) : Host.Outcome State Fault Refusal :=
  .next (let t := s.flr0.flr1
    (State.setGreg { t with power := { t.power with perst := true, pcieTraining := false } } 0x70000 0#32).emit .resetPcie)

/-- PERST_N_DEASSERTION (R448): link training begins, and what it reaches is free: HIF_LINK shows a rate and a width it
allows. -/
def execPerstNDeassertion (s : State) : Host.Outcome State Fault Refusal :=
  .next (let s := s.tick1
    let t := { s with power := { s.power with perst := false, pcieTraining := true } }
    let rate := 1 + Config.freeNat s.freeCtr "PCIe rate" % 6
    if s.powered && decide (s.power.phase ≠ .held) then
      t.setGreg 0x70000 (BitVec.ofNat 32 (rate + Config.freeNat s.freeCtr "PCIe width" % 4 * 8 + bit (decide (rate = 6)) * 32))
    else t)

end Sys2Proof.Machine
end

