-- ==== Sys2Proof/Machine/Regs.lean ====
section
/-! DEFINITION. BAR0 and BAR2 (R5–R7, R64, R65, R342, R343, R419): reads and writes of every register by its access code, the
registers whose write is an action, requests held during a slice (R401), and the commands that are such writes. -/

namespace Sys2Proof.Machine

/-- The registers answer: the rails are up and the module is not held in reset. -/
def State.accessible (s : State) : Bool := s.powered && decide (s.power.phase ≠ .held)

/-! ## The core windows (R64) -/

/-- Where the window of a core starts in BAR0. -/
def winBase (c : CoreId) : Nat := 0x1000000 + c.val * 0x100000

/-- The core and the offset in its window of a BAR0 address. -/
def winOf (a : Nat) : Option (CoreId × Nat) :=
  if a < 0x1000000 then none
  else
    let n := (a - 0x1000000) / 0x100000
    if h : n < 144 then some (⟨n, h⟩, (a - 0x1000000) % 0x100000) else none

/-- A slice is testing the unit that a register of the core's window belongs to (R401). -/
def State.slicing (s : State) (c : CoreId) (off : Nat) : Bool :=
  s.htu.slices.any fun x => decide (x.core = c) && decide (x.seg.unit.toNat = unitOfRegister off)

/-! ## Reads -/

/-- What a read of a register gives: its value in force, a CMT field its shadow, a WO field 0 (R5, R6). -/
def readMasked (b : RegBlk) (force shadow : Word) : Word :=
  ((force &&& ~~~(b.mask .cmt)) ||| (shadow &&& b.mask .cmt)) &&& ~~~(b.mask .wo)

/-- A read in a core's window below the debug views. -/
def State.coreRead (s : State) (c : CoreId) (off : Nat) : Word :=
  let x := s.core c
  match findReg coreRegs off with
  | none => 0#32
  | some b =>
    if b.base = 0x2208 then x.override (s.ctx c) (BitVec.ofNat 2 ((off - 0x2208) / 32)) false
    else if b.base = 0x220C then x.override (s.ctx c) (BitVec.ofNat 2 ((off - 0x220C) / 32)) true
    else readMasked b (x.reg off) (x.shadowReg off)

/-- A read of the debug view: the value in force of a CMT register (R65). -/
def State.debugRead (s : State) (c : CoreId) (x : Nat) : Word :=
  if 0x9000 ≤ x then 0#32
  else match findReg coreRegs x with
    | none => 0#32
    | some b => (s.core c).reg x &&& b.mask .cmt

/-- A word of a command buffer (R345). -/
def State.readBuffer (s : State) (n o : Nat) : Word := BitVec.ofNat 32 (leNat (Memory.read s.svc.buffers (n * 0x2000 + o) 4))

/-- A read of the global area; the input's voltage and current are the outside's (R459), and so free. -/
def State.globRead (s : State) (a : Nat) : Word :=
  if 0x1000 ≤ a && a < 0x2000 then BitVec.ofNat 32 (natAt (Health.bytes (s.unitHealth ((a - 0x1000) / 16))) (a % 16) 4)
  else if 0x80000 ≤ a && a < 0xA0000 && (a - 0x80000) % 0x2000 < 0x1000 then
    s.readBuffer 0 (a - 0x80000)
  else if a = 0x40010 then s.shutter.fn.setWidth 32
  else if a = 0x2002C then
    let i := s.gf 0x20028 10 0
    BitVec.ofNat 32 (twosOf 16 (s.htu.canaries.getD (if 1279 < i then 1279 else i) 0))
  else if a = 0x30010 then
    BitVec.ofNat 32 (Config.freeNat s.freeCtr "input voltage" % 2 ^ 16 + Config.freeNat s.freeCtr "input current" % 2 ^ 16 * 2 ^ 16)
  else match findReg globRegs a with
    | none => 0#32
    | some b => readMasked b (s.greg a) (s.gshadowReg a)

/-- What a BAR0 read gives. An unavailable core's window reads all ones (R64). -/
def State.bar0Value (s : State) (a : Nat) : Word :=
  if a < 0x1000000 then s.globRead a
  else match winOf a with
    | none => 0#32
    | some (c, off) =>
      if !s.available c then 0xFFFFFFFF#32
      else if off < 0x10000 then s.coreRead c off
      else if off < 0x20000 then s.debugRead c (off - 0x10000)
      else 0#32

/-- What falls due by now has happened on the core whose window an address lies in. -/
def State.settleAt (s : State) (a : Nat) : State :=
  match winOf a with
  | some (c, _) => s.settle [c] s.clock
  | none => s

/-- A BAR0 read with what it does: a read of SHT_FN_LO latches FN[47:32] (R16). -/
def State.bar0Read (s : State) (a : Nat) : State × Word :=
  let s := (s.settleAt a).tick1
  let v := s.bar0Value a
  (if a = 0x40010 then s.setGreg 0x40014 (BitVec.ofNat 32 (s.shutter.fn.toNat / 2 ^ 32)) else s, v)

/-! ## Writes -/

/-- A register's value after a write, apart from its CMT fields (R5). -/
def mergeReg (b : RegBlk) (old w : Word) : Word :=
  let m := b.mask .rw ||| b.mask .rws
  let v := (old &&& ~~~m) ||| (w &&& m)
  (v &&& ~~~(w &&& b.mask .w1c)) ||| (w &&& b.mask .w1s)

/-- The role whose session sets OK in a KEY register (R35, R337, R347, R404, R442). -/
def keyRole (a : Nat) : Option Nat :=
  if a = 0x40044 || a = 0x60008 || a = 0x3001C || a = 0x2000C then some 2 else if a = 0x70008 then some 1 else none

/-- The chip-level block of a COMMIT register. -/
def commitOf (a : Nat) : Option Block :=
  if a = 0x40008 then some .shutter else if a = 0x60000 then some .link else if a = 0x30004 then some .cpm else none

/-- The chip-level block that a CMT register of the global area belongs to. -/
def blockAt (a : Nat) : Option Block :=
  if 0x40000 ≤ a && a < 0x50000 then some .shutter else if 0x60000 ≤ a && a < 0x70000 then some .link
  else if 0x30000 ≤ a && a < 0x40000 then some .cpm else none

/-- A write of a COMMIT register: GO in bit 0, IMMEDIATE in bit 1, CANCEL in bit 2, which wins (R60, R62). -/
def State.commitWrite (s : State) (b : Block) (w : Word) : State :=
  if bitAt w 2 then s.commitCancel b else if bitAt w 0 then s.commitGo b (bitAt w 1) else s

/-- A CMT write while a commit of the block is pending is discarded and noted (R62). -/
def State.shadowLocked (s : State) (b : Block) : State := s.setBlkStatus b (setFld (s.blkStatus b) 2 2 1)

/-- A write by its access codes in the global area. -/
def State.globPut (s : State) (a : Nat) (b : RegBlk) (w : Word) : State :=
  let s := s.setGreg a (mergeReg b (s.greg a) w)
  let m := b.mask .cmt
  if m = 0#32 then s
  else match blockAt a with
    | none => s
    | some blk =>
      if s.blkPending blk then s.shadowLocked blk else s.setGshadow a ((s.gshadowReg a &&& ~~~m) ||| (w &&& m))

/-- A guarded register of the HTU (R409). -/
def htuGuarded (a : Nat) : Bool := decide (a = 0x20004) || decide (a = 0x20008) || decide (a = 0x20018) || decide (a = 0x2001C)

/-- The doorbells of HIF_DOORBELL ring (R347). -/
def State.ringDoorbells (s : State) (w : Word) : State :=
  if !s.gbit 0x70008 0 then s
  else (List.range 16).foldl (fun s n => if bitAt w n then s.event (0x30 + n) else s) s

/-- A write of HIF_SEG (R343): CLEAR stays while an image is loaded, and what lies in a range that is now stored otherwise than
it was is undefined (log entry 33). -/
def State.writeSeg (s : State) (a : Nat) (b : RegBlk) (w : Word) : State :=
  let old := s.greg a
  let t := s.globPut a b w
  let t := if s.loaded then t.setGf a 30 30 (bit (bitAt old 30)) else t
  let t := t.tick1
  { t with hbm := t.hbm.foldl (fun m c =>
      if s.inClear c.1 = t.inClear c.1 then m else Memory.setByte m c.1 (Config.freeByte t.freeCtr c.1)) t.hbm }

/-- The header that a mailbox buffer holds (R345). -/
def State.bufferHdr (s : State) (n : Nat) : MboxHdr :=
  let f (o k : Nat) : Nat := leNat (Memory.read s.svc.buffers (n * 0x2000 + o) k)
  { src := BitVec.ofNat 8 n, notify := decide (f 2 2 % 2 = 1), seq := BitVec.ofNat 32 (f 4 4), session := BitVec.ofNat 32 (f 8 4)
    plen := BitVec.ofNat 32 (f 0xC 4), unit := BitVec.ofNat 32 (f 0x10 4), gen := BitVec.ofNat 32 (f 0x14 4)
    malformed := decide (1 < f 2 2), arg := Memory.read s.svc.buffers (n * 0x2000 + 0x18) 24, logFails := false, hbmBad := false }

/-- The opcodes of R346 and R426. -/
def opcodeKnown (op : Nat) : Bool := (1 ≤ op && op ≤ 0x11) || (0x20 ≤ op && op ≤ 0x2B)

/-- A doorbell of a mailbox. A command with a known opcode is a command of the table and arrives as that; this write stands for
the others: a doorbell while busy, and an unknown opcode (R345, R346, log entry 34). -/
def State.mboxDoorbell (s : State) (n : Nat) : State :=
  let op := leNat (Memory.read s.svc.buffers (n * 0x2000) 2)
  if (s.svc.running.getD n none).isSome then s.mboxBusy n
  else if opcodeKnown op then s
  else s.mbox (s.bufferHdr n) op 0 false false fun s => .done s 0x0605#16 []

/-- A write of a command buffer, discarded while its mailbox is busy (R345). -/
def State.writeBuffer (s : State) (n o : Nat) (w : Word) : State :=
  if (s.svc.running.getD n none).isSome then s
  else { s with svc := { s.svc with buffers := Memory.write s.svc.buffers (n * 0x2000 + o) (leBytes 4 w.toNat) } }

/-- A write of the global area. -/
def State.globWrite (s : State) (a : Nat) (w : Word) : State :=
  if 0x80000 ≤ a && a < 0xA0000 then
    let n := (a - 0x80000) / 0x2000
    let o := (a - 0x80000) % 0x2000
    if o < 0x1000 then s.writeBuffer n o w
    else if o = 0x1000 then s.mboxDoorbell n
    else match findReg globRegs a with
      | none => s
      | some b => s.globPut a b w
  else match keyRole a, commitOf a with
    | some r, _ => s.writeKey a (if a = 0x2000C then s.testRole else r) w
    | none, some b => s.commitWrite b w
    | none, none =>
      if htuGuarded a && !s.gbit 0x2000C 0 then s.raiseHtu 0x0601#16
      else if a = 0x20004 then s.testRequest (BitVec.ofNat 16 (fld w 31 16)) (BitVec.ofNat 2 (fld w 1 0)) (bitAt w 2)
      else if a = 0x70004 then s.ringDoorbells w
      else match findReg globRegs a with
        | none => s
        | some b => if b.base = 0x70100 then s.writeSeg a b w else s.globPut a b w

/-- Every SATCNT of a core is cleared. -/
def Core.clearSat (c : Core) : Core := (List.range 11).foldl (fun c f => c.setReg (0x4044 + 4 * f) 0#32) c

/-- The bank map, the fences and the carry words, which the loader alone writes while an image is loaded (R63, R241). -/
def loaderOnly (off : Nat) : Bool := (0x1000 ≤ off && off < 0x1200) || (0x2040 ≤ off && off < 0x2060)

/-- A write in a core's window, below the debug views. The carry words are the sequencer block's, whose commit is pending in
SQ_CMT_STATUS, and they, the bank map and the fences are not written while an image is loaded (R62, R63, R241). -/
def State.coreWrite (s : State) (c : CoreId) (off : Nat) (w : Word) : State :=
  let x := s.core c
  if off = 0x1200 then s.commitWrite (.core c) w
  else if off = 0x401C then if bitAt w 0 then s.setCore c x.clearSat else s
  else match findReg coreRegs off with
    | none => s
    | some b =>
      let m := b.mask .cmt
      if s.loaded && loaderOnly off then s
      else if b.base = 0x2040 then
        if bitAt (x.reg 0x2020) 0 then s.setCore c (x.setRf 0x2020 2 2 1)
        else s.setCore c (x.setShadow off w)
      else
        let x := x.setReg off (mergeReg b (x.reg off) w)
        if m = 0#32 then s.setCore c x
        else if s.blkPending (.core c) then (s.setCore c x).shadowLocked (.core c)
        else s.setCore c (x.setShadow off ((x.shadowReg off &&& ~~~m) ||| (w &&& m)))

/-- A BAR0 write. -/
def State.bar0Write (s : State) (a : Nat) (w : Word) : State :=
  if a < 0x1000000 then s.globWrite a w
  else match winOf a with
    | none => s
    | some (c, off) =>
      if !s.available c || decide (0x10000 ≤ off) then s
      else if s.slicing c off then s.holdRequest c (.access a (some w))
      else (s.settleAt a).coreWrite c off w

/-- A register with a field that a write can reach, or one that is reserved whole. -/
def RegBlk.writable (b : RegBlk) : Bool :=
  (b.fields.any fun f => decide (f.2.2 ≠ .ro) && decide (f.2.2 ≠ .rsv)) || b.fields.all fun f => decide (f.2.2 = .rsv)

/-- The write is one that the device ignores whatever it carries. -/
def State.ignoresWrite (s : State) (a : Nat) : Bool :=
  (htuGuarded a && !s.gbit 0x2000C 0) || (decide (a = 0x70004) && !s.gbit 0x70008 0) ||
    match winOf a with
    | none => false
    | some (c, off) => !s.available c || (s.loaded && loaderOnly off)

/-- The run of registers that a BAR0 address belongs to. -/
def regAt (a : Nat) : Option RegBlk :=
  if a < 0x1000000 then findReg globRegs a
  else match winOf a with
    | none => none
    | some (_, off) => findReg coreRegs off

/-- The write puts ones into a reserved field (R7). -/
def State.reservedOnes (s : State) (a : Nat) (w : Word) : Bool :=
  match regAt a with
  | none => false
  | some b => b.writable && decide (w &&& b.mask .rsv ≠ 0#32) && !s.ignoresWrite a

/-- A write of one of the registers whose command the table names, as that command makes it. -/
def State.regWrite (s : State) (a : Nat) (w : Word) : State := if s.accessible then s.bar0Write a w else s

/-! ## PF1 (R340, R435) -/

/-- A write of PF1's BAR0: the management mailbox's buffer, its doorbell and its STATUS; every other write is ignored. -/
def State.pf1Write (s : State) (a : Nat) (w : Word) : State :=
  if a < 0x1000 then s.writeBuffer 16 a w
  else if a = 0x1000 then s.mboxDoorbell 16
  else if a = 0x1004 then s.setGreg (mboxStatus 16) (s.greg (mboxStatus 16) &&& ~~~(w &&& 6#32))
  else s

/-- A read of PF1's BAR0: the mailbox, and the mirrors of the identity registers, the health table and the security
registers. -/
def State.pf1Read (s : State) (a : Nat) : Word :=
  if a < 0x1000 then s.readBuffer 16 a
  else if a = 0x1004 || a = 0x1008 then s.greg (mboxStatus 16 + (a - 0x1004))
  else if 0x2000 ≤ a && a < 0x2100 then s.globRead (a - 0x2000)
  else if 0x3000 ≤ a && a < 0x4000 then s.globRead (a - 0x2000)
  else if 0x4000 ≤ a && a < 0x4400 then s.globRead (a - 0x4000 + 0x10000)
  else 0#32

/-- The write puts ones into bits 15 to 3 of the management mailbox's STATUS, which are reserved (R7, R345). -/
def pf1Reserved (a : Nat) (w : Word) : Bool := decide (a = 0x1004) && decide (w &&& 0xFFF8#32 ≠ 0#32)

/-- REGISTER_WRITE (R5–R7, R62, R340, R345, R435), through PF0 or PF1: the behaviour after a write of ones to a reserved field is not
defined. -/
def execRegisterWrite (addr : RegAddr) (value : Word) (s : State) : Host.Outcome State Fault Refusal :=
  let a := addr.addr.toNat / 4 * 4
  if addr.pf1 then
    if !s.accessible then .next s
    else if pf1Reserved a value then .fault (.reservedFieldWrite a) else .next (s.pf1Write a value)
  else if s.accessible && s.reservedOnes a value then .fault (.reservedFieldWrite a) else .next (s.regWrite a value)

/-! ## Commits, keys, doorbells -/

/-- GO with or without IMMEDIATE. -/
def goWord (immediate : Bool) : Word := if immediate then 3#32 else 1#32

/-- SHT_COMMIT_GO (R36, R60). -/
def execShtCommitGo (immediate : Bool) (s : State) : Host.Outcome State Fault Refusal :=
  .next (s.regWrite 0x40008 (goWord immediate))

/-- SHT_COMMIT_CANCEL (R62). -/
def execShtCommitCancel (s : State) : Host.Outcome State Fault Refusal := .next (s.regWrite 0x40008 4#32)

/-- CORE_COMMIT_GO (R60). -/
def execCoreCommitGo (c : CoreId) (immediate : Bool) (s : State) : Host.Outcome State Fault Refusal :=
  .next (s.regWrite (winBase c + 0x1200) (goWord immediate))

/-- CORE_COMMIT_CANCEL (R62). -/
def execCoreCommitCancel (c : CoreId) (s : State) : Host.Outcome State Fault Refusal :=
  .next (s.regWrite (winBase c + 0x1200) 4#32)

/-- LNK_COMMIT_GO (R60, R337). -/
def execLnkCommitGo (immediate : Bool) (s : State) : Host.Outcome State Fault Refusal :=
  .next (s.regWrite 0x60000 (goWord immediate))

/-- LNK_COMMIT_CANCEL (R62). -/
def execLnkCommitCancel (s : State) : Host.Outcome State Fault Refusal := .next (s.regWrite 0x60000 4#32)

/-- CPM_COMMIT_GO (R60, R442). -/
def execCpmCommitGo (immediate : Bool) (s : State) : Host.Outcome State Fault Refusal :=
  .next (s.regWrite 0x30004 (goWord immediate))

/-- CPM_COMMIT_CANCEL (R62). -/
def execCpmCommitCancel (s : State) : Host.Outcome State Fault Refusal := .next (s.regWrite 0x30004 4#32)

/-- SHT_KEY_WRITE (R35). -/
def execShtKeyWrite (session : Word) (s : State) : Host.Outcome State Fault Refusal := .next (s.regWrite 0x40044 session)

/-- LNK_KEY_WRITE (R337). -/
def execLnkKeyWrite (session : Word) (s : State) : Host.Outcome State Fault Refusal := .next (s.regWrite 0x60008 session)

/-- CPM_KEY_WRITE (R442). -/
def execCpmKeyWrite (session : Word) (s : State) : Host.Outcome State Fault Refusal := .next (s.regWrite 0x3001C session)

/-- HTU_TKEY_WRITE (R404, R409). -/
def execHtuTkeyWrite (session : Word) (s : State) : Host.Outcome State Fault Refusal := .next (s.regWrite 0x2000C session)

/-- HIF_DBKEY_WRITE (R347). -/
def execHifDbkeyWrite (session : Word) (s : State) : Host.Outcome State Fault Refusal := .next (s.regWrite 0x70008 session)

/-- HIF_DOORBELL_WRITE (R347). -/
def execHifDoorbellWrite (bits : Half) (s : State) : Host.Outcome State Fault Refusal :=
  .next (s.regWrite 0x70004 (bits.setWidth 32))

/-- SATCNT_CLR (R89): a write of NUM_CLR. -/
def execSatcntClr (c : CoreId) (s : State) : Host.Outcome State Fault Refusal := .next (s.regWrite (winBase c + 0x401C) 1#32)

/-- SHT_FN_LO_READ (R16). -/
def execShtFnLoRead (s : State) : Host.Outcome State Fault Refusal :=
  .next (if s.accessible then
      let (t, w) := s.bar0Read 0x40010
      t.emit (.read (leBytes 4 w.toNat))
    else s)

/-! ## The end of a slice (R401) -/

/-- A held request is served; the reads among them are Loupe's, the only reads that are commands. -/
def State.serveHeld (c : CoreId) (s : State) (r : Held) : State :=
  match r with
  | .access a (some w) => s.regWrite a w
  | .access a none =>
    let (t, w) := s.bar0Read a
    t.emit (.reply 0x12 0#16 (leBytes 4 w.toNat))
  | .move m => s.hostMove m
  | .refetch line bad => s.refetchDone c line bad

/-- SLICE_END (R400–R402): what the slice found takes effect, the rotation advances, and held requests are served in arrival
order. -/
def execSliceEnd (c : CoreId) (s : State) : Host.Outcome State Fault Refusal :=
  .next (match s.htu.slices.find? fun x => x.core = c with
    | none => s
    | some x =>
      let s := (s.sliceResult x).segmentDone c x.seg
      let s := State.showSlicing { s with htu := { s.htu with slices := s.htu.slices.filter fun y => y.core ≠ c } }
      x.held.foldl (State.serveHeld c) s)

/-! ## BAR2 (R343, R419) -/

/-- The HBM address that a BAR2 offset maps to; none where its segment is disabled. -/
def State.bar2Addr (s : State) (off : Nat) : Option Nat :=
  let w := s.greg (0x70100 + 4 * (off / 2 ^ 32))
  if bitAt w 31 && decide (fld w 6 0 ≤ 95) then some (fld w 6 0 * 2 ^ 32 + off % 2 ^ 32) else none

/-- An address lies in the contact-sheet ring, which is stored in the clear (R126, R419). -/
def State.inRing (s : State) (a : Nat) : Bool :=
  let base := s.gf 0x40104 31 12 * 4096 + s.gf 0x40108 6 0 * 2 ^ 32
  s.gbit 0x40100 0 && decide (base ≤ a) && decide (a < base + s.gf 0x4010C 16 0 * 0x4800)

/-- The key under which a byte is stored that BAR2 neither decrypts nor stores readably: a confidential job's, outside what is
stored in the clear (R419). -/
def State.sealedAt (s : State) (a : Nat) : Option (List Byte) :=
  if s.inClear a || s.inRing a then none else s.sec.hbmKey

/-- A byte of HBM as BAR2 reads it: the plain byte, or the stored ciphertext of a confidential job (R412, R419). -/
def State.bar2Byte (s : State) (a : Nat) : Byte :=
  match s.sealedAt a with
  | none => (s.hbmRead a 1).getD 0 0#8
  | some k => (xtsBlock true (hkdf k (ascii "XD HBM") 64) (a / 16 * 16) (s.hbmRead (a / 16 * 16) 16)).getD (a % 16) 0#8

/-- A byte written through BAR2: into a confidential job's HBM it is stored scrambled, so that the device reads a byte that no key
gives. -/
def State.bar2Put (s : State) (a : Nat) (b : Byte) : State :=
  match s.sealedAt a with
  | none => s.hbmWrite a [b]
  | some _ => (List.range 16).foldl (fun s i => s.hbmWrite (a / 16 * 16 + i) [Config.freeByte s.freeCtr (a / 16 * 16 + i)]) s

/-- BAR2_ACCESS (R343, R375, R419, R448): before READY a read gives all ones and a write is discarded (log entry 35). -/
def execBar2Access (offset : BitVec 36) (write : Option (List Byte)) (len : Nat) (hbmBad : Bool) (s : State) :
    Host.Outcome State Fault Refusal :=
  .next (if !s.accessible || s.power.perst then s
    else
      let s := s.tick1
      let at_ (i : Nat) : Option Nat := if s.ready then s.bar2Addr ((offset.toNat + i) % 2 ^ 36) else none
      match write with
      | some bs => (bs.zipIdx).foldl (fun s b => match at_ b.2 with
        | some a => s.bar2Put a b.1
        | none => s) s
      | none =>
        if hbmBad && s.ready then s.emit .poisoned
        else s.emit (.read ((List.range len).map fun i => match at_ i with
          | some a => s.bar2Byte a
          | none => 0xFF#8)))

end Sys2Proof.Machine
end

