-- ==== Sys2Proof/Machine/Image.lean ====
section
/-! DEFINITION. The .gnx image (R291–R294, R322, R325, R420): its header, its section table, and what its sections say, parsed
from bytes. Where the manual names a section's contents but not their layout, the layout is the model's own (log entry 38). -/

namespace Sys2Proof.Machine

/-! ## Header and section table (R291, R292) -/

/-- The fields of an image header. -/
structure ImgHead where
  tclass : Nat
  slack : Nat
  period : Nat
  tokpeak : Nat
  conf : Bool
  nsect : Nat
  gstep : Nat
  mask : Nat
  ring : Nat
  sectOff : Nat
  id : List Byte
deriving DecidableEq, Repr

/-- The header of an image, if every field of it is valid (R291). -/
def headOf (b : List Byte) : Option ImgHead :=
  let n (o k : Nat) : Nat := natAt b o k
  let h : ImgHead := { tclass := n 6 1, slack := n 7 1, period := n 8 4, tokpeak := n 12 2, conf := n 14 1 = 1, nsect := n 15 1
                       gstep := n 0x10 8, mask := n 0x18 18, ring := n 0x2A 2, sectOff := n 0x2C 4, id := bytesAt b 0x30 16 }
  if decide (128 ≤ b.length) && n 0 4 = 0x31584E47 && n 4 2 = 1 && decide (h.tclass ≤ 1) && decide (h.slack ≤ 4) &&
      decide (20000 ≤ h.period) && decide (h.period ≤ 500000000) && decide (h.tokpeak ≤ 720) && decide (n 14 1 ≤ 1) &&
      decide (2 ≤ h.nsect) && decide (h.gstep < 2 ^ 40) && decide (1 ≤ h.ring) && decide (h.ring ≤ 64) &&
      h.sectOff % 64 = 0 && n 0x40 64 = 0 then some h
  else none

/-- A section: its place in the table, type, core, offset, length and bytes, in the clear once it has been decrypted. -/
structure Sect where
  index : Nat
  type : Nat
  core : Nat
  off : Nat
  len : Nat
  bytes : List Byte
deriving DecidableEq, Repr

/-- Section types that belong to one core, and those of the whole module (R292). -/
def coreTypes : List Nat := [1, 2, 3, 4, 6, 7, 8, 9]
def moduleTypes : List Nat := [5, 10, 11, 12, 0xFF]

/-- Section types that a confidential image holds encrypted (R420). -/
def sealedTypes : List Nat := [2, 7, 8, 9, 10]

/-- Entry `i` of the section table, if it is valid and its digest agrees (R292). DEDUCED: the entry of the signature, which
is signed, cannot hold the digest of the signature, and is not checked against it (log entry 38). -/
def sectOf (b : List Byte) (h : ImgHead) (i : Nat) : Option Sect :=
  let o := h.sectOff + 64 * i
  let n (k l : Nat) : Nat := natAt b (o + k) l
  let s : Sect := { index := i, type := n 0 2, core := n 2 2, off := n 8 8, len := n 16 8, bytes := bytesAt b (n 8 8) (n 16 8) }
  if decide (o + 64 ≤ b.length) && n 4 4 = 0 && n 0x38 8 = 0 && s.off % 64 = 0 && decide (s.off + s.len ≤ b.length) &&
      ((coreTypes.contains s.type && decide (s.core ≤ 143)) || (moduleTypes.contains s.type && s.core = 0xFFFF)) &&
      (s.type = 0xFF || bytesAt b (o + 0x18) 32 = sha256 s.bytes) then some s
  else none

/-- All of a list of options, or none. -/
def allSome {α : Type} : List (Option α) → Option (List α)
  | [] => some []
  | none :: _ => none
  | some x :: t => (allSome t).map (x :: ·)

/-- Two sections share no byte. -/
def Sect.apart (x y : Sect) : Bool := decide (x.off + x.len ≤ y.off) || decide (y.off + y.len ≤ x.off)

/-- No two of the sections overlap. -/
def apartAll : List Sect → Bool
  | [] => true
  | x :: t => t.all x.apart && apartAll t

/-- The sections of an image, if the table is valid: the signature, and only it, the last of table and file (R292). -/
def sectsOf (b : List Byte) (h : ImgHead) : Option (List Sect) :=
  match allSome ((List.range h.nsect).map (sectOf b h)) with
  | none => none
  | some l =>
    if apartAll l && l.all (fun s => decide (s.type = 0xFF ↔ s.index + 1 = h.nsect) &&
        (s.type ≠ 0xFF || (s.off + s.len = b.length && s.len = 100))) then some l
    else none

/-- The bytes of the sections of a type for a core (0xFFFF for the module), in the order of the table. -/
def sectBytes (l : List Sect) (type core : Nat) : List Byte :=
  (l.filter fun s => s.type = type && s.core = core).flatMap (·.bytes)

/-! ## Contents (R292–R294) -/

/-- The records of `n` bytes each. -/
def rowsOf (n : Nat) (b : List Byte) : List (List Byte) :=
  (List.range (b.length / n)).map fun i => bytesAt b (n * i) n

/-- Records of an address of `w` bytes, a length of `w` bytes, and bytes. -/
def addrRecords (w : Nat) : Nat → List Byte → Option (List (Nat × List Byte))
  | _, [] => some []
  | 0, _ => none
  | f + 1, b =>
    let n := natAt b w w
    if b.length < 2 * w + n then none
    else (addrRecords w f (b.drop (2 * w + n))).map ((natAt b 0 w, bytesAt b (2 * w) n) :: ·)

/-- A tail unit code is defined (R293). -/
def tailUnitOk (u : Nat) : Bool := decide (u ≤ 7) || u = 15

/-- The tails of a schedule entry: unit and offset in cycles. -/
def tailsOf (b : List Byte) : List (Nat × Nat) :=
  ((List.range 4).map fun i => (natAt b (8 + 4 * i) 1 % 16, natAt b (8 + 4 * i) 4 / 16 * 16)).filter fun t => t.1 ≠ 0

/-- A schedule entry (R293); the predictor entries that its program names are added by the loader. -/
def schedOf (b : List Byte) : SchedEntry :=
  { entry := natAt b 0 2, bypass := natAt b 2 2, kind := natAt b 4 1 % 16, bankMap := natAt b 4 1 / 16
    replayable := natAt b 5 1 % 2 = 1, tails := tailsOf b, preds := [] }

/-- A schedule entry's codes and reserved fields are valid (R293). -/
def schedOk (b : List Byte) : Bool :=
  decide (natAt b 4 1 % 16 ≤ 5) && decide (natAt b 5 1 ≤ 1) && natAt b 6 2 = 0 &&
    (List.range 4).all fun i => tailUnitOk (natAt b (8 + 4 * i) 1 % 16)

/-- A region entry (R294). -/
def regionOf (b : List Byte) : Region :=
  { base := natAt b 0 4, limit := natAt b 4 4, first := natAt b 8 1, last := natAt b 9 1, kind := natAt b 10 1
    backing := natAt b 12 4 }

/-- A declared range of a register: the program's index, the register, LO and HI (R284). -/
structure RegRange where
  prog : Nat
  reg : Nat
  lo : Nat
  hi : Nat

/-- A register range entry. -/
def rangeOf (b : List Byte) : RegRange := ⟨natAt b 0 2, natAt b 2 1, natAt b 4 4, natAt b 8 4⟩

/-- An initial sheet: its slot, its tile body's address and its 2,560 bytes. -/
structure SheetInit where
  slot : Nat
  body : Nat
  bytes : List Byte

/-- An initial sheet record. -/
def sheetOf (b : List Byte) : SheetInit := ⟨natAt b 0 1, natAt b 4 4, bytesAt b 8 2560⟩

/-- What an image holds for one core. -/
structure CoreImg where
  id : CoreId
  sched : List SchedEntry
  dbase : Nat
  dlen : Nat
  store : List Byte
  cmt : List (Nat × Word)
  regions : List Region
  ranges : List RegRange
  scale : List Byte
  sheets : List SheetInit
  spad : List (Nat × List Byte)

/-- What an image holds for core `c`. -/
def coreImg (h : ImgHead) (l : List Sect) (c : CoreId) : CoreImg :=
  let b (t : Nat) : List Byte := sectBytes l t c.val
  { id := c
    sched := if h.mask.testBit c.val then (rowsOf 24 (b 1)).map schedOf else []
    dbase := natAt (b 2) 0 4, dlen := natAt (b 2) 4 4, store := (b 2).drop 8
    cmt := (rowsOf 8 (b 3)).map fun r => (natAt r 0 4, BitVec.ofNat 32 (natAt r 4 4))
    regions := (rowsOf 16 (b 4)).map regionOf
    ranges := (rowsOf 12 (b 6)).map rangeOf
    scale := b 7
    sheets := (rowsOf 2568 (b 8)).map sheetOf
    spad := (addrRecords 4 (b 9).length (b 9)).getD [] }

/-- The CMT registers of a core's window, the carry words included, with their CMT bits. -/
def windowCmt : List (Nat × Word) := cmtOffsets coreRegs

/-- The value that the image gives a register of a core's window: CMTINIT's in its CMT bits, else the reset value (R295). -/
def CoreImg.word (c : CoreImg) (off : Nat) : Word :=
  match c.cmt.reverse.find? fun r => r.1 = off, windowCmt.find? fun r => r.1 = off with
  | some r, some m => (coreReset off &&& ~~~m.2) ||| (r.2 &&& m.2)
  | _, _ => coreReset off

/-- The contents of a section of a type, for a ring of a length, have the shape of R292. -/
def shapeOk (ring : Nat) (s : Sect) : Bool :=
  let b := s.bytes
  let n := b.length
  match s.type with
  | 1 => n = 24 * ring && (rowsOf 24 b).all schedOk
  | 2 => decide (8 ≤ n) && (n - 8) % 32 = 0 && decide (natAt b 0 4 < 8192) && decide (natAt b 4 4 ≤ 4096) &&
      decide (natAt b 0 4 + natAt b 4 4 ≤ (n - 8) / 32)
  | 3 => n % 8 = 0 && (rowsOf 8 b).all fun r => windowCmt.any fun m => m.1 = natAt r 0 4
  | 4 => n % 16 = 0 && (rowsOf 16 b).all fun r => natAt r 11 1 = 0
  | 5 => n = 264
  | 6 => n % 12 = 0 && (rowsOf 12 b).all fun r => decide (natAt r 2 1 ≤ 31) && natAt r 3 1 = 0
  | 7 => n = 0x8000
  | 8 => n % 2568 = 0 && (rowsOf 2568 b).all fun r => natAt r 1 3 = 0
  | 9 => (addrRecords 4 n b).isSome
  | 10 => (addrRecords 8 n b).isSome
  | 11 => n = 20
  | 12 => decide (0x140 ≤ n) && decide (natAt b 2 2 ≤ 256) && decide (natAt b 4 2 ≤ 256) && natAt b 6 58 = 0 &&
      n = 0x140 + 32 * natAt b 2 2 + 64 * natAt b 4 2
  | _ => true

/-! ## Link plan (R322, R325) -/

/-- A port entry. -/
def portPlanOf (b : List Byte) : PortPlan := ⟨natAt b 0 1, natAt b 1 1, BitVec.ofNat 32 (natAt b 4 4)⟩

/-- A port entry's codes are valid. -/
def portPlanOk (b : List Byte) : Bool :=
  let w := natAt b 1 1
  decide (natAt b 0 1 ≤ 2) && natAt b 2 2 = 0 && natAt b 8 8 = 0 && (natAt b 0 1 = 0 || w = 1 || w = 2 || w = 4)

/-- A window entry. -/
def windowOf (b : List Byte) : Window :=
  ⟨natAt b 0 8, natAt b 8 4, natAt b 12 1 = 1, natAt b 13 1, natAt b 14 1, natAt b 16 4⟩

/-- A window entry's fields are valid. -/
def windowOk (b : List Byte) : Bool :=
  decide (natAt b 0 8 < 2 ^ 39) && natAt b 0 8 % 64 = 0 && decide (natAt b 12 1 ≤ 1) && natAt b 15 1 = 0 && natAt b 20 12 = 0 &&
    (natAt b 12 1 = 0 || (decide (2 ≤ natAt b 14 1) && decide (natAt b 14 1 ≤ 9) && natAt b 16 4 % 64 = 0 &&
      natAt b 8 4 = natAt b 14 1 * natAt b 16 4))

/-- A collective descriptor. -/
def collOf (b : List Byte) : Coll :=
  let a (o : Nat) : Nat := natAt b o 8 % 2 ^ 39
  let r (o : Nat) : Nat := natAt b o 8 / 2 ^ 40 % 4
  { op := natAt b 0 1, set := natAt b 1 1, bf16 := natAt b 2 1 = 1, comp := natAt b 3 1, k := natAt b 4 2
    starts := natAt b 6 1, root := natAt b 7 1, src := a 8, srcRole := r 8, dst := a 0x10, dstRole := r 0x10
    resid := a 0x18, residRole := r 0x18, nelem := natAt b 0x20 4, tensor := BitVec.ofNat 32 (natAt b 0x24 4)
    sparse := (natAt b 0x28 1).testBit 7, q := natAt b 0x28 1 % 32, depth := natAt b 0x29 1, window := natAt b 0x2A 2
    bytes := natAt b 0x2C 4, lstride := natAt b 0x30 8 }

/-- A collective descriptor's codes are in the ranges of R325, reserved operations refused (R324); a PGATHER names a gather window of
more slots than DEPTH, and shards of whole 64-byte lines (R333, R335). -/
def collOk (wins : List Window) (b : List Byte) : Bool :=
  let c := collOf b
  decide (c.op ≤ 4) && decide (c.set ≤ 15) && decide (natAt b 2 1 ≤ 1) && decide (c.comp ≤ 2) &&
    (c.comp ≠ 1 || (decide (1 ≤ c.k) && decide (c.k ≤ 512))) && decide (1 ≤ c.starts) && decide (c.starts ≤ 144) &&
    (!c.sparse || (decide (1 ≤ c.q) && decide (c.q ≤ 16))) && natAt b 0x38 8 = 0 &&
    (c.op ≠ 4 || (decide (1 ≤ c.depth) && decide (c.depth ≤ 8) && c.bytes % 64 = 0 &&
      match wins[c.window]? with
      | some w => w.gather && decide (c.depth + 1 ≤ w.slots)
      | none => false))

/-- The link plan of an image; without a LINKPLAN section no port is used. -/
def linkPlanOf (b : List Byte) : LinkPlan :=
  let nwin := natAt b 2 2
  { rosterMax := natAt b 0 2, ports := (List.range 16).map fun i => portPlanOf (bytesAt b (0x40 + 16 * i) 16)
    windows := (List.range nwin).map fun i => windowOf (bytesAt b (0x140 + 32 * i) 32)
    colls := (List.range (natAt b 4 2)).map fun i => collOf (bytesAt b (0x140 + 32 * nwin + 64 * i) 64) }

/-- The port and window entries of a LINKPLAN section are valid. -/
def linkShapeOk (b : List Byte) : Bool :=
  b.isEmpty || (((List.range 16).all fun i => portPlanOk (bytesAt b (0x40 + 16 * i) 16)) &&
    (List.range (natAt b 2 2)).all fun i => windowOk (bytesAt b (0x140 + 32 * i) 32))

/-- The collective descriptors of a LINKPLAN section are valid. -/
def collsOk (b : List Byte) : Bool :=
  let wins := (linkPlanOf b).windows
  (List.range (natAt b 4 2)).all fun i => collOk wins (bytesAt b (0x140 + 32 * natAt b 2 2 + 64 * i) 64)

/-! ## The image as a whole -/

/-- An image: header, sections in the clear, the cores' parts, WAITX budgets, initial HBM contents, plates (both bases and the
size in pages), the link plan, and the signer's key identifier. -/
structure ImgFile where
  head : ImgHead
  sects : List Sect
  cores : List CoreImg
  budgets : List Nat
  hbm : List (Nat × List Byte)
  plate0 : Nat
  plate1 : Nat
  pages : Nat
  plan : LinkPlan
  signer : Word

/-- The image that a header and sections in the clear make. -/
def fileOf (h : ImgHead) (l : List Sect) : ImgFile :=
  let m (t : Nat) : List Byte := sectBytes l t 0xFFFF
  { head := h, sects := l, cores := (List.finRange 144).map (coreImg h l)
    budgets := (List.range 66).map fun i => natAt (m 5) (4 * i) 4
    hbm := (addrRecords 8 (m 10).length (m 10)).getD []
    plate0 := natAt (m 11) 0 8, plate1 := natAt (m 11) 8 8, pages := natAt (m 11) 16 4
    plan := linkPlanOf (m 12), signer := BitVec.ofNat 32 (natAt (m 0xFF) 0 4) }

/-- A section of a confidential image decrypted: its last 16 bytes are the tag, the header the additional data (R420). -/
def Sect.opened (key header : List Byte) (s : Sect) : Option Sect :=
  if sealedTypes.contains s.type then
    if s.len < 16 then none
    else
      (gcmOpen key (leBytes 4 s.index ++ List.replicate 8 0#8) header (s.bytes.take (s.len - 16)) (s.bytes.drop (s.len - 16))).map
        fun p => { s with bytes := p }
  else some s

end Sys2Proof.Machine
end

