-- ==== Sys2Proof/Machine/VeRows.lean ====
section
/-! DEFINITION. The meanings of the vector engines' instructions (R263–R270). -/

namespace Sys2Proof.Machine

/-- VADD (R264). -/
def execVadd (at_ : Site) (o : VaOp) (s : State) : Host.Outcome State Fault Refusal :=
  .next (s.issue at_ (.vadd at_ o) fun k c a => c.vArith k a o (bin f32Add (· + ·)) 6 2)

/-- VSUB (R264). -/
def execVsub (at_ : Site) (o : VaOp) (s : State) : Host.Outcome State Fault Refusal :=
  .next (s.issue at_ (.vsub at_ o) fun k c a => c.vArith k a o (bin f32Sub (· - ·)) 6 2)

/-- VMUL (R264). -/
def execVmul (at_ : Site) (o : VaOp) (s : State) : Host.Outcome State Fault Refusal :=
  .next (s.issue at_ (.vmul at_ o) fun k c a => c.vArith k a o (bin f32Mul (· * ·)) 6 2)

/-- VFMA: one rounding (R264). -/
def execVfma (at_ : Site) (o : VaOp) (s : State) : Host.Outcome State Fault Refusal :=
  .next (s.issue at_ (.vfma at_ o) fun k c a => c.vArith k a o ⟨f32Fma, noInt⟩ 6 3)

/-- VMIN (R169). -/
def execVmin (at_ : Site) (o : VaOp) (s : State) : Host.Outcome State Fault Refusal :=
  .next (s.issue at_ (.vmin at_ o) fun k c a => c.vArith k a o (bin (f32MinMax false) minS) 6 2)

/-- VMAX (R169). -/
def execVmax (at_ : Site) (o : VaOp) (s : State) : Host.Outcome State Fault Refusal :=
  .next (s.issue at_ (.vmax at_ o) fun k c a => c.vArith k a o (bin (f32MinMax true) maxS) 6 2)

/-- VABS (R264). -/
def execVabs (at_ : Site) (o : VaOp) (s : State) : Host.Outcome State Fault Refusal :=
  .next (s.issue at_ (.vabs at_ o) fun k c a => c.vArith k a o (un (signOp FVal.abs) absW) 6 1)

/-- VNEG (R264). -/
def execVneg (at_ : Site) (o : VaOp) (s : State) : Host.Outcome State Fault Refusal :=
  .next (s.issue at_ (.vneg at_ o) fun k c a => c.vArith k a o (un (signOp FVal.neg) fun x => 0#32 - x) 6 1)

/-- VMOV (R264). -/
def execVmov (at_ : Site) (o : VaOp) (s : State) : Host.Outcome State Fault Refusal :=
  .next (s.issue at_ (.vmov at_ o) fun k c a => c.vMov k a o)

/-- VRCP (R266). -/
def execVrcp (at_ : Site) (o : VaOp) (s : State) : Host.Outcome State Fault Refusal :=
  .next (s.issue at_ (.vrcp at_ o) fun k c a => c.vArith k a o (un f32Rcp fun x => x) 12 1)

/-- VRSQ (R266). -/
def execVrsq (at_ : Site) (o : VaOp) (s : State) : Host.Outcome State Fault Refusal :=
  .next (s.issue at_ (.vrsq at_ o) fun k c a => c.vArith k a o (un f32Rsq fun x => x) 12 1)

/-- VEXP2 (R266). -/
def execVexp2 (at_ : Site) (o : VaOp) (s : State) : Host.Outcome State Fault Refusal :=
  .next (s.issue at_ (.vexp2 at_ o) fun k c a => c.vArith k a o (un f32Exp2 fun x => x) 12 1)

/-- VLOG2 (R266). -/
def execVlog2 (at_ : Site) (o : VaOp) (s : State) : Host.Outcome State Fault Refusal :=
  .next (s.issue at_ (.vlog2 at_ o) fun k c a => c.vArith k a o (un f32Log2 fun x => x) 12 1)

/-- VDIV (R264, R171). -/
def execVdiv (at_ : Site) (o : VaOp) (s : State) : Host.Outcome State Fault Refusal :=
  .next (s.issue at_ (.vdiv at_ o) fun k c a => (c.vArith k a o (bin f32Div noInt) 18 2).holdDivide k o.ve)

/-- VSQRT (R264, R171). -/
def execVsqrt (at_ : Site) (o : VaOp) (s : State) : Host.Outcome State Fault Refusal :=
  .next (s.issue at_ (.vsqrt at_ o) fun k c a => (c.vArith k a o (un f32Sqrt fun x => x) 18 1).holdDivide k o.ve)

/-- VSHL (R264). -/
def execVshl (at_ : Site) (o : VaOp) (s : State) : Host.Outcome State Fault Refusal :=
  .next (s.issue at_ (.vshl at_ o) fun k c a => c.vArith k a o (bitwise shlW) 6 2)

/-- VSHR (R264). -/
def execVshr (at_ : Site) (o : VaOp) (s : State) : Host.Outcome State Fault Refusal :=
  .next (s.issue at_ (.vshr at_ o) fun k c a => c.vArith k a o (bitwise shrW) 6 2)

/-- VSRA (R264). -/
def execVsra (at_ : Site) (o : VaOp) (s : State) : Host.Outcome State Fault Refusal :=
  .next (s.issue at_ (.vsra at_ o) fun k c a => c.vArith k a o (bitwise sraW) 6 2)

/-- VAND (R264). -/
def execVand (at_ : Site) (o : VaOp) (s : State) : Host.Outcome State Fault Refusal :=
  .next (s.issue at_ (.vand at_ o) fun k c a => c.vArith k a o (bitwise (· &&& ·)) 6 2)

/-- VOR (R264). -/
def execVor (at_ : Site) (o : VaOp) (s : State) : Host.Outcome State Fault Refusal :=
  .next (s.issue at_ (.vor at_ o) fun k c a => c.vArith k a o (bitwise (· ||| ·)) 6 2)

/-- VXOR (R264). -/
def execVxor (at_ : Site) (o : VaOp) (s : State) : Host.Outcome State Fault Refusal :=
  .next (s.issue at_ (.vxor at_ o) fun k c a => c.vArith k a o (bitwise (· ^^^ ·)) 6 2)

/-- VNOT (R264). -/
def execVnot (at_ : Site) (o : VaOp) (s : State) : Host.Outcome State Fault Refusal :=
  .next (s.issue at_ (.vnot at_ o) fun k c a => c.vArith k a o (bitwise fun x _ => ~~~x) 6 1)

/-- VPOPC (R264). -/
def execVpopc (at_ : Site) (o : VaOp) (s : State) : Host.Outcome State Fault Refusal :=
  .next (s.issue at_ (.vpopc at_ o) fun k c a => c.vArith k a o (bitwise fun x _ => BitVec.ofNat 32 (popcount x)) 6 1)

/-- VCMP (R265). -/
def execVcmp (at_ : Site) (o : VcmpOp) (s : State) : Host.Outcome State Fault Refusal :=
  .next (s.issue at_ (.vcmp at_ o) fun k c a => c.vCmp k a o)

/-- VMLOG (R265). -/
def execVmlog (at_ : Site) (o : VmlogOp) (s : State) : Host.Outcome State Fault Refusal :=
  .next (s.issue at_ (.vmlog at_ o) fun k c a => c.vMask k a o.ve o.md (maskLogic o.fn (c.mask o.ve o.ma) (c.mask o.ve o.mb)))

/-- VMLANE (R264). -/
def execVmlane (at_ : Site) (ve : Bool) (lo hi : BitVec 6) (md : BitVec 3) (s : State) : Host.Outcome State Fault Refusal :=
  .next (s.issue at_ (.vmlane at_ ve lo hi md) fun k c a => c.vMask k a ve md (laneMask lo hi))

/-- VMSR (R264). -/
def execVmsr (at_ : Site) (ve : Bool) (rs : BitVec 5) (h : Bool) (md : BitVec 3) (s : State) : Host.Outcome State Fault Refusal :=
  .next (s.issue at_ (.vmsr at_ ve rs h md) fun k c a => c.vMask k a ve md (maskHalf (c.mask ve md) h (c.sreg k rs)))

/-- VSPL (R264). -/
def execVspl (at_ : Site) (ve : Bool) (msk : BitVec 3) (mz : Bool) (rs : BitVec 5) (vd : BitVec 9) (s : State) : Host.Outcome State Fault Refusal :=
  .next (s.issue at_ (.vspl at_ ve msk mz rs vd) fun k c a => c.vSpl k a ve msk mz rs vd)

/-- VSCL (R267). -/
def execVscl (at_ : Site) (ve ssrc cap : Bool) (sidx qexp : Byte) (s : State) : Host.Outcome State Fault Refusal :=
  .next (s.issue at_ (.vscl at_ ve ssrc cap sidx qexp) fun k c a => c.vScl k a ve ⟨ssrc, cap, sidx, qexp⟩)

/-- VCVTW (R268). -/
def execVcvtw (at_ : Site) (o : VcvOp) (s : State) : Host.Outcome State Fault Refusal :=
  .next (s.issue at_ (.vcvtw at_ o) fun k c a => c.vCvtW k a o)

/-- VCVTN (R268). -/
def execVcvtn (at_ : Site) (o : VcvOp) (s : State) : Host.Outcome State Fault Refusal :=
  .next (s.issue at_ (.vcvtn at_ o) fun k c a => c.vCvtN k a o)

/-- VCVTI: truncating, saturating (R170). -/
def execVcvti (at_ : Site) (o : VaOp) (s : State) : Host.Outcome State Fault Refusal :=
  .next (s.issue at_ (.vcvti at_ o) fun k c a => c.vArith k a o (un cvtI fun x => x) 8 1)

/-- VCVTF: INT32 to FP32 (R74). -/
def execVcvtf (at_ : Site) (o : VaOp) (s : State) : Host.Outcome State Fault Refusal :=
  .next (s.issue at_ (.vcvtf at_ o) fun k c a => c.vArith k a o (un (fun _ x => (x, {})) fun x => (i32ToF32 x).1) 8 1)

/-- VACC (R269). -/
def execVacc (at_ : Site) (o : VaccOp) (s : State) : Host.Outcome State Fault Refusal :=
  .next (s.issue at_ (.vacc at_ o) fun k c a => c.vAcc k a o)

/-- VRED (R172, R173). -/
def execVred (at_ : Site) (o : VrOp) (s : State) : Host.Outcome State Fault Refusal :=
  .next (s.issue at_ (.vred at_ o) fun k c a => c.vRed k a o)

/-- VRAX (R174). -/
def execVrax (at_ : Site) (o : VrOp) (s : State) : Host.Outcome State Fault Refusal :=
  .next (s.issue at_ (.vrax at_ o) fun k c a => c.vRax k a o)

/-- VLD (R270). -/
def execVld (at_ : Site) (o : VbOp) (s : State) : Host.Outcome State Fault Refusal :=
  .next (s.issue at_ (.vld at_ o) fun k c a => c.vBlock k a o true)

/-- VST (R270). -/
def execVst (at_ : Site) (o : VbOp) (s : State) : Host.Outcome State Fault Refusal :=
  .next (s.issue at_ (.vst at_ o) fun k c a => c.vBlock k a o false)

/-- VLDV (R270). -/
def execVldv (at_ : Site) (o : VvOp) (s : State) : Host.Outcome State Fault Refusal :=
  .next (s.issue at_ (.vldv at_ o) fun k c a => c.vVector k a o true)

/-- VSTV (R270). -/
def execVstv (at_ : Site) (o : VvOp) (s : State) : Host.Outcome State Fault Refusal :=
  .next (s.issue at_ (.vstv at_ o) fun k c a => c.vVector k a o false)

end Sys2Proof.Machine
end

