-- ==== Sys2Proof/Machine/Program.lean ====
section
/-! DEFINITION. Frame programs as the loader reads them (R144, R151, R156, R200, R211, R226–R228, R233–R236, R239, R244–R249, R267,
R312, R349): the bundles of a program, the counts of its loops, and the checks of steps 5 to 7 of R295. -/

namespace Sys2Proof.Machine

/-- Why and where an image is refused (R296): the code, LD_WHERE's core, entry and bundle, and LD_DETAIL. -/
structure Refused where
  code : Half
  core : Nat
  entry : Nat
  bundle : Nat
  detail : Nat
deriving DecidableEq, Repr

/-- A refusal for the module as a whole. -/
def Refused.whole (code : Half) : Refused := ⟨code, 0xFF, 0, 0, 0⟩

/-- A refusal where a check fails. -/
def failUnless (ok : Bool) (r : Refused) : Option Refused := if ok then none else some r

/-! ## A core's part of an image -/

/-- A core as the image initialises it: its registers, shadows and frame store, and its schedule (R295). -/
def CoreImg.core (c : CoreImg) : Core :=
  let x : Core := { Core.reset with sched := c.sched, regions := c.regions, mem := Memory.write [] 0x500000 c.store }
  let x := windowCmt.foldl (fun x r => (x.setReg r.1 (c.word r.1)).setShadow r.1 (c.word r.1)) x
  x.setReg 0x2010 (BitVec.ofNat 32 (c.dbase + c.dlen * 2 ^ 13))

/-- The bundles that a core's frame store holds. -/
def CoreImg.bundles (c : CoreImg) : Nat := c.store.length / 32

/-- The operation of a transform descriptor in the image. -/
def CoreImg.xop (c : CoreImg) (n : Nat) : Nat := (xdescOf fun w => c.word (0x5400 + 128 * n + 4 * w)).op

/-- Bundle `b` decoded, its slots under a guard that suppresses them on every run, as the walk counts them (R224, R225). -/
def CoreImg.bundle (c : CoreImg) (b : Nat) : Option Bundle :=
  if b < c.bundles && b < 8192 then bundleOf c.xop ⟨c.id, BitVec.ofNat 13 b, some ⟨0#3, true⟩⟩ (bytesAt c.store (32 * b) 32) else none

/-- The instruction is END. -/
def isEnd (i : Option Instr) : Bool :=
  match i with
  | some (.end_ _) => true
  | _ => false

/-- The bundles of a program from index `b` to its END; the last has no decoding where the program runs into one that the loader
refuses or out of the frame store. -/
def CoreImg.from_ (c : CoreImg) : Nat → Nat → List (Nat × Option Bundle)
  | 0, b => [(b, none)]
  | f + 1, b =>
    match c.bundle b with
    | none => [(b, none)]
    | some x => (b, some x) :: if isEnd x.sq then [] else c.from_ f (b + 1)

/-- The bundles of the program whose frame header lies at index `e` (R226, R227). -/
def CoreImg.program (c : CoreImg) (e : Nat) : List (Nat × Option Bundle) := c.from_ 8192 (e + 4)

/-- The bundles that decode, with their indices. -/
def CoreImg.decoded (c : CoreImg) (e : Nat) : List (Nat × Bundle) :=
  (c.program e).filterMap fun x => x.2.map fun b => (x.1, b)

/-- The instructions of a program with their bundle indices, in order. -/
def CoreImg.instrs (c : CoreImg) (e : Nat) : List (Nat × Instr) :=
  (c.decoded e).flatMap fun x => x.2.instrs.map fun i => (x.1, i)

/-- SPRE[r] of the frame header at index `e`; s0 has none (R235). -/
def CoreImg.spre (c : CoreImg) (e : Nat) (r : BitVec 5) : Nat :=
  if r = 0#5 then 0 else natAt (bytesAt c.store (32 * e) 128) (4 * r.toNat) 4

/-- The frame header's reserved fields are 0 and it lies in the frame store (R226). -/
def CoreImg.headerOk (c : CoreImg) (e : Nat) : Bool :=
  let h := bytesAt c.store (32 * e) 128
  decide (e + 4 ≤ c.bundles) && decide (natAt h 1 1 ≤ 1) && natAt h 2 2 = 0

/-- A loop bundle's counter, body length minus 1 and count of iterations, LOOPR at its declared maximum (R233–R235). -/
def CoreImg.loopOf (c : CoreImg) (e : Nat) (i : Option Instr) : Option (BitVec 2 × Nat × Nat) :=
  match i with
  | some (.loopi _ lc n count) => some (lc, n.toNat, count.toNat)
  | some (.loopr _ lc n _ rm) => some (lc, n.toNat, c.spre e rm)
  | _ => none

/-- The bundle at which a program breaks R236, with the loops open before it (their last bundles and counters), innermost
first. -/
def CoreImg.badLoop (c : CoreImg) (e : Nat) : List (Nat × Bundle) → List (Nat × BitVec 2) → Option Nat
  | [], _ => none
  | (b, x) :: t, open_ =>
    let st := open_.filter fun l => decide (b ≤ l.1)
    if isEnd x.sq then if st.isEmpty then none else some b
    else
      match c.loopOf e x.sq with
      | none => c.badLoop e t st
      | some (lc, n, _) =>
        let last := b + n + 1
        if decide (4 ≤ st.length) || st.any (fun l => l.2 = lc || decide (l.1 < last)) then some b
        else c.badLoop e t ((last, lc) :: st)

/-- The bundles of a program with how often each issues, given the loops open before (last bundle, iterations). -/
def CoreImg.counted (c : CoreImg) (e : Nat) : List (Nat × Bundle) → List (Nat × Nat) → List (Nat × Bundle × Nat)
  | [], _ => []
  | (b, x) :: t, open_ =>
    let st := open_.filter fun l => decide (b ≤ l.1)
    let here := (b, x, st.foldl (fun n l => n * l.2) 1)
    match c.loopOf e x.sq with
    | none => here :: c.counted e t st
    | some (_, n, all) => here :: c.counted e t ((b + n + 1, all) :: st)

/-! ## What an instruction names -/

/-- The instruction edits a mask in a way that a second run would repeat (R144). -/
def editsMask (i : Instr) : Bool :=
  match i with
  | .mdodge _ _ => true
  | .mburn _ _ => true
  | .mrefresh _ _ => true
  | .mremap _ _ _ => true
  | .mscore _ o => o.acc
  | _ => false

/-- The row set that an instruction names as an operand (R151). -/
def rowSetRead (i : Instr) : Option (BitVec 3) :=
  match i with
  | .tmulr _ _ _ rs => some rs
  | .tprint _ o => if o.rsen then some o.rs else none
  | _ => none

/-- The predictor entry and the row set of a PPRED. -/
def predOf (i : Instr) : Option (BitVec 4 × BitVec 3) :=
  match i with
  | .ppred _ o => some (o.j, o.rs)
  | _ => none

/-- The descriptor index of a DMA slot, and whether it applies the overrides. -/
def startOf (i : Instr) : Option (Nat × Bool) :=
  match i with
  | .dmaStart _ _ d _ => some (d.toNat, false)
  | .dmaStartOvr _ _ d _ => some (d.toNat, true)
  | _ => none

/-- The instruction is UADV. -/
def isUadv (i : Instr) : Bool :=
  match i with
  | .uadv _ => true
  | _ => false

/-- The update descriptor and the declared maximum of a UFILT (R272). -/
def filtOf (i : Instr) : Option (Nat × Nat) :=
  match i with
  | .ufilt _ d _ _ _ _ n => some (d.toNat, 1024 * (n.toNat + 1))
  | _ => none

/-- The predictor entries that a program names: those of its PPREDs (log entry 39). -/
def CoreImg.predsOf (c : CoreImg) (e : Nat) : List Nat := (c.instrs e).filterMap fun i => (predOf i.2).map fun p => p.1.toNat

/-- The programs that a schedule entry may run: its own and its bypass program (R156). -/
def SchedEntry.programs (s : SchedEntry) : List Nat :=
  if 4 ≤ s.kind then [] else s.entry :: if s.bypass = 0xFFFF then [] else [s.bypass]

/-- The entries of a core's ring with their numbers. -/
def CoreImg.ring (c : CoreImg) : List (Nat × SchedEntry) := c.sched.mapIdx fun i s => (i, s)

/-! ## Row sets, conversion controls and event counters -/

/-- The bundle at which an instruction names a row set that no earlier PPRED of the program writes (R151). -/
def badRowSet : List (Nat × Instr) → List (BitVec 3) → Option Nat
  | [], _ => none
  | (b, i) :: t, written =>
    match rowSetRead i with
    | some r => if written.contains r then badRowSet t written else some b
    | none => badRowSet t (match predOf i with
      | some p => p.2 :: written
      | none => written)

/-- The conversion controls that may capture, after a bundle: a guarded VSCL may not issue (R224, R267). -/
def capAfter (x : Bundle) (cap : Bool × Bool) : Bool × Bool :=
  let upd (ve : Bool) (old : Bool) : Bool :=
    x.instrs.foldl (fun o i => match i with
      | .vscl _ v _ cap _ _ => if v = ve then cap || (o && x.gmask.testBit (if ve then 3 else 4)) else o
      | _ => o) old
  (upd false cap.1, upd true cap.2)

/-- A bundle converts or reduces on a VE whose control may capture. -/
def captures (x : Bundle) (cap : Bool × Bool) : Bool :=
  let on (ve : Bool) : Bool := if ve then cap.2 else cap.1
  x.instrs.any fun i => match i with
    | .vcvtn _ o => on o.ve
    | .vred _ o => on o.ve
    | .vrax _ o => on o.ve
    | _ => false

/-- The bundle at which a program captures, the controls before it being `cap`; `again` holds the bundles of the loop bodies
that end at a bundle, which a second iteration enters with the controls that the first leaves. -/
def badCapture : List (Nat × Bundle) → Bool × Bool → Option Nat
  | [], _ => none
  | (b, x) :: t, cap => if captures x cap then some b else badCapture t (capAfter x cap)

/-- A program's bundles in issue order with every loop taken at most twice, which is enough for what may be in force at each:
`loops` holds the open loops' first and last bundles and whether the second pass is still to come. -/
def CoreImg.twice (c : CoreImg) (e : Nat) (l : List (Nat × Bundle)) : Nat → Nat → List (Nat × Nat × Bool) → List (Nat × Bundle)
  | 0, _, _ => []
  | f + 1, b, loops =>
    match l.find? fun x => x.1 = b with
    | none => []
    | some (_, x) =>
      let step := match c.loopOf e x.sq with
        | some (_, n, all) =>
          if all = 0 then (b + n + 2, loops) else (b + 1, (b + 1, b + n + 1, decide (2 ≤ all)) :: loops)
        | none => (b + 1, loops)
      let (next, loops) := step
      let (next, loops) := close next loops
      (b, x) :: c.twice e l f next loops
where
  /-- The next bundle after the loops whose bodies end before it are closed or repeated. -/
  close (next : Nat) : List (Nat × Nat × Bool) → Nat × List (Nat × Nat × Bool)
    | [] => (next, [])
    | (first, last, more) :: t =>
      if last + 1 = next then if more then (first, (first, last, false) :: t) else close next t
      else (next, (first, last, more) :: t)

/-! ## Descriptors (R244–R249, R312, R349) -/

/-- Descriptor `i` of a core's table. -/
def CoreImg.desc (c : CoreImg) (i : Nat) : List Byte := bytesAt c.store (32 * (c.dbase + i)) 32

/-- The reserved fields of a descriptor are 0. -/
def descClean (b : List Byte) : Bool :=
  natAt b 4 4 / 2 ^ 23 = 0 && natAt b 12 4 / 2 ^ 7 = 0 && natAt b 16 4 / 2 ^ 16 = 0

/-- A descriptor's kind, row length and endpoint are ones the loader accepts at step 6. -/
def descKindOk (p : LinkPlan) (d : Desc) : Bool :=
  let core (n : Nat) : Bool := match p.ports[n]? with
    | some q => q.use = 1
    | none => false
  d.rowLen ≠ 0 &&
    (decide (d.kind ≤ 3) || d.kind = 5 || d.kind = 6 || (d.kind = 4 && decide (d.peer ≤ 143)) ||
      ((d.kind = 8 || d.kind = 9) &&
        (if 0x30 ≤ d.peer && d.peer ≤ 0x37 then decide (d.bytes ≤ 65536)
         else if d.kind = 8 then false
         else if 0x10 ≤ d.peer && d.peer ≤ 0x1F then core (d.peer - 0x10) && decide (d.bytes ≤ 262144) && d.role = 0
         else (d.peer = 0x20 || d.peer = 0x38) && d.bytes = 64)))

/-! ## Steps 5 to 7 -/

/-- The filter entries, per update descriptor, that a program's UFILTs may add. -/
def CoreImg.filtered (c : CoreImg) (e : Nat) : List (Nat × Nat) :=
  (c.counted e (c.decoded e) []).flatMap fun x => (x.2.1.instrs.filterMap filtOf).map fun f => (f.1, f.2 * x.2.2)

/-- A program holds a UADV. -/
def CoreImg.advances (c : CoreImg) (e : Nat) : Bool := (c.instrs e).any fun i => isUadv i.2

/-- The largest of some numbers. -/
def most (l : List Nat) : Nat := l.foldl (fun a b => if a < b then b else a) 0

/-- A schedule entry's filter entries, for one descriptor or for all, and whether each of its programs empties the filter. -/
def CoreImg.filterLoad (c : CoreImg) (d : Option Nat) (s : SchedEntry) : Nat × Bool :=
  (most (s.programs.map fun e => ((c.filtered e).filter fun r => match d with
    | some d => r.1 = d
    | none => true).foldl (fun a r => a + r.2) 0), !s.programs.isEmpty && s.programs.all c.advances)

/-- The largest sum of filter entries between two UADVs, over two turns of the ring; `acc` is the sum so far. -/
def filterPeak : List (Nat × Bool) → Nat → Nat
  | [], acc => acc
  | (n, adv) :: t, acc => most [acc + n, filterPeak t (if adv then 0 else acc + n)]

/-- The filter never holds more than 32,768 entries: a ring that fills it and never empties it fails (R211). -/
def CoreImg.filterOk (c : CoreImg) : Bool :=
  let l := c.sched.map (c.filterLoad none)
  if l.any (·.2) then decide (filterPeak (l ++ l) 0 ≤ 32768) else l.all fun x => x.1 = 0

/-- The declared maximum of a UFLIST of descriptor `d`: what the UFILTs of `d` may add between two UADVs (R272). -/
def CoreImg.listMax (c : CoreImg) (d : Nat) : Nat :=
  let l := c.sched.map (c.filterLoad (some d))
  filterPeak (l ++ l) 0

/-- The remap units that a region lies in (R378, R381). -/
def Region.units (r : Region) : List Nat :=
  if r.base < 0x400000 then ((List.range 8).filter fun b => decide (bankOf r.base ≤ b) && decide (b ≤ bankOf r.limit)).map (4 * ·)
  else [(remapUnit r.base).1]

/-- An initial sheet passes the checks of R145 against the header of its tile body, taken from the initial scratchpad. -/
def SheetInit.ok (pad : List (Nat × Byte)) (s : SheetInit) : Bool :=
  let h := tileHeader (Memory.read pad s.body 64)
  let n := sheetCount s.bytes
  decide (s.slot ≤ 50) && decide (s.body + 64 ≤ 0x400000) && decide (1 ≤ h.cap) && decide (h.cap ≤ 16) && decide (1 ≤ h.fmt) &&
    decide (h.fmt ≤ 10) && h.slot = s.slot && decide (n ≤ h.cap * 1024) && n = h.nnz

/-- The initial scratchpad contents of a core. -/
def CoreImg.pad (c : CoreImg) : List (Nat × Byte) := c.spad.foldl (fun m r => Memory.write m r.1 r.2) []

/-- No value occurs twice. -/
def distinct : List Nat → Bool
  | [] => true
  | x :: t => !t.contains x && distinct t

/-- Step 5 for one core: capacities (R99, R145, R211, R381); two initial sheets in one slot do not fit either (log entry 39). -/
def CoreImg.capacity (live : Core) (c : CoreImg) : Option Refused :=
  failUnless (decide (c.bundles ≤ 8192) && decide (c.sheets.length ≤ 51) && distinct (c.sheets.map (·.slot)) &&
    c.sheets.all (SheetInit.ok c.pad) && c.filterOk && (c.sched.isEmpty || !live.integ.full.contains 36) &&
    c.regions.all fun r => r.units.all fun u => !live.integ.full.contains u) ⟨0x0106#16, c.id.val, 0, 0, 0⟩

/-- Step 6 for one program of schedule entry `n` (R151, R200, R226, R228, R236, R239, R244, R254, R260, R267, R312). -/
def CoreImg.programOk (p : LinkPlan) (c : CoreImg) (n e : Nat) : Option Refused :=
  let no (b : Nat) : Option Refused := some ⟨0x0109#16, c.id.val, n, b, 0⟩
  let bad := (c.program e).find? fun x => x.2.isNone
  match c.headerOk e, bad with
  | false, _ => no (e % 8192)
  | _, some x => no (x.1 % 8192)
  | true, none =>
    let l := c.decoded e
    let is := c.instrs e
    let at_ (f : Instr → Bool) : Option Nat := (is.find? fun x => f x.2).map (·.1)
    let found := c.badLoop e l []
      <|> badRowSet is []
      <|> (if bitAt (c.word 0x4000) 15 then none else badCapture (c.twice e l (16 * 8192) (e + 4) []) (false, false))
      <|> at_ (fun i => match i with
        | .waitx _ ec _ => fld (c.word (0x2080 + 4 * ec.toNat)) 7 0 = 0
        | _ => false)
      <|> at_ (fun i => match startOf i with
        | some (d, _) => decide (c.dlen ≤ d) || !descClean (c.desc d) || !descKindOk p (descOf (c.desc d))
        | none => false)
      <|> (if 1 < (is.filter fun x => isUadv x.2).length then (is.reverse.find? fun x => isUadv x.2).map (·.1) else none)
    found.bind no

/-- Step 6 for one schedule entry: both its programs, and the bypass rules of R156. -/
def CoreImg.entryOk (p : LinkPlan) (c : CoreImg) (x : Nat × SchedEntry) : Option Refused :=
  (x.2.programs.findSome? (c.programOk p x.1)) <|>
    failUnless (x.2.programs.isEmpty || (c.predsOf x.2.entry).isEmpty ||
      (x.2.bypass ≠ 0xFFFF && (c.predsOf x.2.bypass).isEmpty)) ⟨0x0109#16, c.id.val, x.1, x.2.entry % 8192, 0⟩

/-- Step 6 for one core: its programs, its whole descriptor table (R244, R245), the spare entry that a replayable one needs (R19), and
the checks of its CMT block, with the reason in LD_DETAIL (R61, R296). -/
def CoreImg.valid (p : LinkPlan) (c : CoreImg) : Option Refused :=
  c.ring.findSome? (c.entryOk p) <|>
    failUnless ((List.range c.dlen).all fun i => descClean (c.desc i) && descKindOk p (descOf (c.desc i))) ⟨0x0109#16, c.id.val, 0, 0, 0⟩ <|>
    failUnless (!(c.sched.any (·.replayable)) || c.sched.any fun s => s.kind = 5) ⟨0x0109#16, c.id.val, 0, 0, 0⟩ <|>
    (coreReason c.word).map fun r => ⟨0x0109#16, c.id.val, 0, 0, r⟩

/-- Step 7 for one core: no mask edit in a replayable frame (R144). -/
def CoreImg.replaySafe (c : CoreImg) : Option Refused :=
  c.ring.findSome? fun x =>
    if x.2.replayable then
      x.2.programs.findSome? fun e => ((c.instrs e).find? fun i => editsMask i.2).map fun i =>
        ⟨0x010B#16, c.id.val, x.1, i.1 % 8192, 0⟩
    else none

end Sys2Proof.Machine
end

