-- ==== Sys2Proof/Machine/Regions.lean ====
section
/-! DEFINITION. Step 8 of the loader's checks (R295): the region table (R282, R294), the statically known addresses of instructions
and descriptors, declared ranges of registers (R284), alignments (R161, R245), tile ranges (R109), plate offsets (R215), and
the clear ranges of a confidential image (R419). What the checks range over is log entry 39. -/

namespace Sys2Proof.Machine

/-! ## Regions (R282, R294) -/

/-- The memory or scratchpad bank of a core-local address (R42): banks 0 to 7, accumulator 8, frame store 9, index bank 10,
operand caches 11 and 12; 13 is reserved. -/
def spaceOf (a : Nat) : Nat :=
  if a < 0x400000 then bankOf a
  else if a < 0x500000 then 8 else if a < 0x540000 then 9 else if a < 0x55FE00 then 10
  else if a < 0x560000 then 13 else if a < 0x580000 then 11 else if a < 0x5A0000 then 12 else 13

/-- The memory of an address, the scratchpad as one. -/
def memoryOf (a : Nat) : Nat := if spaceOf a < 8 then 0 else spaceOf a

/-- A region is live in a schedule entry; the window wraps (R282). -/
def Region.liveIn (r : Region) (e : Nat) : Bool :=
  if r.first ≤ r.last then decide (r.first ≤ e) && decide (e ≤ r.last) else decide (r.first ≤ e) || decide (e ≤ r.last)

/-- A region is well formed in a ring of a length, the scale table being at `sct` if there is one. -/
def Region.ok (ring : Nat) (sct : Option Nat) (r : Region) : Bool :=
  r.base % 64 = 0 && r.limit % 64 = 0 && decide (r.base ≤ r.limit) && memoryOf r.base = memoryOf r.limit &&
    memoryOf r.base ≠ 9 && memoryOf r.base ≠ 13 && decide (r.first < ring) && decide (r.last < ring) && decide (r.kind ≤ 3) &&
    (r.kind ≠ 1 || inHbm (256 * r.backing) (r.limit + 64 - r.base)) &&
    (r.kind ≠ 2 || (match sct with
      | some a => decide (r.base ≤ a) && decide (a + 0x8000 ≤ r.limit + 64)
      | none => true)) &&
    (r.kind ≠ 3 || (memoryOf r.base = 10 && (r.base - 0x540000) % 2560 = 0 && (r.limit + 64 - 0x540000) % 2560 = 0))

/-- Two regions overlap in a line and are live in one entry. -/
def Region.clash (ring : Nat) (x y : Region) : Bool :=
  decide (x.base ≤ y.limit) && decide (y.base ≤ x.limit) && (List.range ring).any fun e => x.liveIn e && y.liveIn e

/-- No two regions of a list clash. -/
def regionsApart (ring : Nat) : List Region → Bool
  | [] => true
  | x :: t => t.all (fun y => !x.clash ring y) && regionsApart ring t

/-- Where the image's NUMCTL puts the scale table (R79). -/
def CoreImg.scaleAt (c : CoreImg) : Option Nat :=
  if bitAt (c.word 0x4000) 15 then some (fld (c.word 0x4000) 14 8 * 0x8000) else none

/-- The region table of a core is valid. -/
def CoreImg.regionsOk (ring : Nat) (c : CoreImg) : Bool :=
  c.regions.all (Region.ok ring c.scaleAt) && regionsApart ring c.regions &&
    (c.scaleAt.isNone || c.regions.any fun r => r.kind = 2)

/-! ## What an instruction reaches -/

/-- What a register that moves an address stands for: a byte offset, added modulo 2^32, or `width` of its bits from `low` on, that
number times `unit` bytes (R272, R273). -/
inductive Moves
  | offset
  | field (low width unit : Nat)

/-- Bytes that an instruction or descriptor may touch: their first address and number at register value 0, the register that
moves them (0: none) and how, whether they must lie in one bank (R255), and whether in live regions too (R282). -/
structure Reach where
  lo : Int
  len : Nat
  reg : BitVec 5
  one : Bool
  moves : Moves
  live : Bool

/-- A range in one bank or memory, moved by a register. -/
def movedBy (a len : Nat) (r : BitVec 5) : Reach := ⟨a, len, r, true, .offset, true⟩

/-- A fixed range. -/
def fixedAt (a len : Nat) : Reach := movedBy a len 0#5

/-- One element of a range that may cross banks. -/
def spotAt (a : Int) (len : Nat) (r : BitVec 5) : Reach := ⟨a, len, r, false, .offset, true⟩

/-- A range that a field of a register moves, in units of some bytes. -/
def stepped (a len : Nat) (r : BitVec 5) (low width unit : Nat) : Reach := ⟨a, len, r, true, .field low width unit, true⟩

/-- The whole of a range whose base a register replaces, which lies in one bank (R284). -/
def bankHull (l : List Reach) : List Reach :=
  match l.filter (·.reg ≠ 0#5) with
  | [] => []
  | x :: t =>
    let lo := t.foldl (fun m y => if y.lo < m then y.lo else m) x.lo
    let hi := t.foldl (fun (m : Int) y => if m < y.lo + y.len then y.lo + y.len else m) (x.lo + x.len)
    [⟨lo, (hi - lo).toNat, x.reg, true, .offset, false⟩]

/-- Vector `n` of a cache under a source type. -/
def vecReach (ve : Bool) (n : BitVec 9) (sty : Nat) : Reach := fixedAt (vecAddr ve n.toNat) (64 * styLines sty)

/-- A VA-form instruction with a number of vector sources. -/
def vaReach (o : VaOp) (arity : Nat) : List Reach :=
  vecReach o.ve o.vd 0 :: [vecReach o.ve o.va o.sty.toNat, vecReach o.ve o.vb o.sty.toNat].take arity

/-- A product's activations and its columns of the tiles it writes (R109). -/
def mulReach (o : TMulOp) : List Reach :=
  let n := o.nm1.toNat + 1
  movedBy (o.xbase.toNat * 128) (128 * ceilDiv (n * unitBytes o.afmt.toNat) 128) o.ar ::
    (List.range (ceilDiv n 128)).flatMap fun t => (List.range 128).map fun r =>
      fixedAt (tileAddr (o.t0.toNat + t) (128 * r)) (4 * if n < 128 * t + 128 then n - 128 * t else 128)

/-- The whole of accumulator tile `t`. -/
def tileReach (t : Nat) : Reach := fixedAt (tileAddr t 0) 65536

/-- A sheet slot of the index bank. -/
def sheetReach (slot : Nat) : Reach := fixedAt (sheetBase slot) 2560

/-- The source, destination and index ranges of a transform on its bases (R193, R196): each element, or for a GATHER's source
and a SCATTER's destination the whole indexed range. A base that a register replaces is that register's (R271). -/
def XDesc.reach (x : XDesc) (o : XrunOp) : List Reach × List Reach × List Reach :=
  let at_ (own : Nat) (r : BitVec 5) : Nat := if r = 0#5 then own else 0
  let src := at_ x.src o.rsrc
  let dst := at_ x.dst o.rdst
  let hull (r : BitVec 5) (p : Int × Int) : List Reach := [⟨p.1, (p.2 - p.1 + 1).toNat, r, true, .offset, true⟩]
  let (rs, ws) := x.statics src dst
  let srcs := if x.op = 2 then hull o.rsrc (spanOf src x.len x.bnd x.ss)
    else if x.op = 4 then
      (List.range x.count).map fun i =>
        let d := x.coords i
        spotAt ((src : Int) + (dim d 0 : Nat) * dim x.ss 0 + (dim d 1 : Nat) * dim x.ss 1) 4 o.rsrc
    else rs.filterMap fun e => e.src.map fun a => spotAt a x.len o.rsrc
  let dsts := if x.op = 3 then hull o.rdst (spanOf dst x.len (setAt x.e x.idxdim (dim x.bnd x.idxdim)) x.ds)
    else if x.op = 4 then []
    else ws.filterMap fun e => e.dst.map fun a => spotAt a x.len o.rdst
  (srcs ++ bankHull srcs, dsts ++ bankHull dsts, if x.idxLen = 0 then [] else [movedBy (at_ x.idx o.ridx) (4 * x.idxLen) o.ridx])

/-- The reach of an XRUN. -/
def xrunReach (x : Core) (o : XrunOp) : List Reach :=
  let d := x.xdesc o.desc.toNat
  let (s, t, i) := d.reach o
  s ++ t ++ i ++ if d.op = 4 then (tileRange d.at0 (d.atnm1 + 1)).map tileReach else []

/-- The arrays of an update pass that it reaches under every rule: whole where the descriptor gives their length, else the part that they
have under every format of the group, which is the one in BF16 (R205–R209). -/
def UDesc.reach (d : UDesc) (pass : Nat) : List Reach :=
  let hasG := pass = 0 || pass = 1 || pass = 3
  (if hasG then [fixedAt d.grad (d.n * stateBytes d.gfmt)] else []) ++
  (if pass = 2 then [] else [fixedAt d.m (2 * d.n)]) ++ (if pass ≤ 2 then [fixedAt d.w (2 * d.n)] else []) ++
  (if pass = 0 || pass = 2 then d.bodyRuns.map fun r => fixedAt r.1 r.2 else []) ++
  (if pass = 1 then [fixedAt d.psum 8] else if pass = 3 then [fixedAt (d.psum + 4) 4] else []) ++
  (if pass = 4 then [fixedAt d.norms 12, fixedAt d.xo (2 * d.n)] else [])

/-- The planes of a mask descriptor. -/
def MDesc.planeReach (d : MDesc) : List Reach := d.planes.map fun p => fixedAt p.addr (d.planeLen p)

/-- What a mask edit reaches; a burn also its score buffer if it clears it (R131–R142). -/
def MDesc.editReach (d : MDesc) (burn : Bool) : List Reach :=
  d.tileRuns.map (fun r => fixedAt r.1 r.2) ++ (if burn && d.sclr then [fixedAt d.sbuf d.sbLen] else []) ++
    if d.repEn then [fixedAt d.report 16] else []

/-- The ranges that an instruction of a core reaches; `x` is the core as the image initialises it. -/
def CoreImg.reach (c : CoreImg) (x : Core) (i : Instr) : List Reach :=
  match i with
  | .sld _ _ o _ => [fixedAt (ocAddr o) 4]
  | .sst _ _ o => [fixedAt (ocAddr o) 4]
  | .tload _ o =>
    movedBy (o.abase.toNat * 128) (bodyLen o.lay.toNat o.wfmt.toNat (o.qm1.toNat + 1)) o.ar ::
      if o.lay.toNat = 5 then [sheetReach o.slot.toNat] else []
  | .tmul _ o _ => mulReach o
  | .tmulr _ o _ _ => mulReach o
  | .tprint _ o =>
    let d := x.printDesc o.pd.toNat
    movedBy (o.dbase.toNat * 128) (printLen d.ofmt) o.ar :: tileReach o.tile.toNat ::
      if d.biasEn then [fixedAt d.bias 512] else []
  | .vadd _ o => vaReach o 2
  | .vsub _ o => vaReach o 2
  | .vmul _ o => vaReach o 2
  | .vfma _ o => vaReach o 2
  | .vmin _ o => vaReach o 2
  | .vmax _ o => vaReach o 2
  | .vabs _ o => vaReach o 1
  | .vneg _ o => vaReach o 1
  | .vmov _ o => vaReach o 1
  | .vrcp _ o => vaReach o 1
  | .vrsq _ o => vaReach o 1
  | .vexp2 _ o => vaReach o 1
  | .vlog2 _ o => vaReach o 1
  | .vdiv _ o => vaReach o 2
  | .vsqrt _ o => vaReach o 1
  | .vshl _ o => vaReach o 2
  | .vshr _ o => vaReach o 2
  | .vsra _ o => vaReach o 2
  | .vand _ o => vaReach o 2
  | .vor _ o => vaReach o 2
  | .vxor _ o => vaReach o 2
  | .vnot _ o => vaReach o 1
  | .vpopc _ o => vaReach o 1
  | .vcvti _ o => vaReach o 1
  | .vcvtf _ o => vaReach o 1
  | .vcmp _ o => [vecReach o.ve o.va o.sty.toNat, vecReach o.ve o.vb o.sty.toNat]
  | .vspl _ ve _ _ _ vd => [vecReach ve vd 0]
  | .vcvtw _ o => [fixedAt (cacheBase o.ve + 64 * o.line.toNat) (64 * fmtLines o.fmt.toNat), vecReach o.ve o.vec 0]
  | .vcvtn _ o => [fixedAt (cacheBase o.ve + 64 * o.line.toNat) (64 * fmtLines o.fmt.toNat), vecReach o.ve o.vec 0]
  | .vacc _ o =>
    vecReach o.ve o.vd 0 ::
      if o.rr = 0#5 then [fixedAt (tileAddr o.tile.toNat (128 * o.row.toNat + 64 * bit o.h)) 256] else []
  | .vred _ o => [vecReach o.ve o.va o.sty.toNat, fixedAt (vecAddr o.ve o.vd.toNat) 4]
  | .vrax _ o =>
    vecReach o.ve o.vd 0 :: (List.range (o.nm1.toNat + 1)).map fun i =>
      fixedAt (vecAddr o.ve (o.va.toNat + i)) (64 * styLines o.sty.toNat)
  | .vld _ o => blockReach o
  | .vst _ o => blockReach o
  | .vldv _ o => laneReach o
  | .vstv _ o => laneReach o
  | .xeCopy _ o => xrunReach x o
  | .xeTranspose _ o => xrunReach x o
  | .xeGather _ o => xrunReach x o
  | .xeScatter _ o => xrunReach x o
  | .xeScatterAdd _ o => xrunReach x o
  | .uupd _ d p => (x.udesc d.toNat).reach p.toNat
  | .urow _ d rj nr =>
    let u := x.udesc d.toNat
    (List.range nr.toNat).flatMap fun j =>
      [stepped (u.w + j * u.rstride) (64 + 4 * (u.n % 8192)) rj 0 32 u.rstride,
        stepped (u.grad + j * u.gstride) (u.n % 8192 * stateBytes u.gfmt) rj 0 32 u.gstride]
  | .ugfac _ _ bank ra ofs => [movedBy (bank.toNat * 0x80000 + ofs.toNat * 128) 1152 ra]
  | .ufilt _ _ bank ra rb _ nmx =>
    let n := 4096 * (nmx.toNat + 1)
    [movedBy (bank.toNat * 0x80000) n ra, movedBy (bank.toNat * 0x80000) n rb]
  | .uflist _ d bank ra => [movedBy (bank.toNat * 0x80000) (4 * c.listMax d.toNat) ra]
  | .mdodge _ o => (x.mdesc o.d.toNat).editReach false
  | .mburn _ o => (x.mdesc o.d.toNat).editReach true
  | .mrefresh _ o => (x.mdesc o.d.toNat).editReach true
  | .mscore _ o =>
    let d := x.mdesc o.d.toNat
    fixedAt d.body 64 :: (if o.src || o.acc then [fixedAt d.sbuf d.sbLen] else []) ++
      if o.src then [] else
        [movedBy (o.bank.toNat * 0x80000 + o.ofs.toNat * 1024) (if o.gf then 32768 else 65536) o.ra]
  | .msload _ o => sheetMove o
  | .msstore _ o => sheetMove o
  | .mremap _ d slot =>
    let d := x.mdesc d.toNat
    fixedAt d.body 64 :: sheetReach d.slot :: sheetReach slot.toNat :: d.planeReach
  | .ppred _ o =>
    [stepped (o.bank.toNat * 0x80000) 8192 o.rp 0 13 64, stepped (o.bank.toNat * 0x80000) (4096 * (o.nmx.toNat + 1)) o.rp 16 13 64]
  | _ => []
where
  /-- VLD and VST. -/
  blockReach (o : VbOp) : List Reach :=
    let n := 64 * (o.lnm1.toNat + 1)
    [movedBy (o.bank.toNat * 0x80000 + o.ofs.toNat * 128) n o.ar, fixedAt (cacheBase o.ve + 64 * o.vl.toNat) n]
  /-- VLDV and VSTV. -/
  laneReach (o : VvOp) : List Reach :=
    let n := 64 * eszBytes o.esz
    [movedBy (o.bank.toNat * 0x80000 + o.ofs.toNat * 64) n o.ar, fixedAt (cacheBase o.ve + 64 * o.vl.toNat) n]
  /-- MSLOAD and MSSTORE. -/
  sheetMove (o : MSheetOp) : List Reach :=
    let d := x.mdesc o.d.toNat
    [movedBy (o.bank.toNat * 0x80000 + o.ofs.toNat * 64) 2560 o.ra, fixedAt d.body 64, sheetReach d.slot]

/-- An instruction's operands are aligned (R161), its tiles exist (R109), and a transform's statically known element addresses
lie in the scratchpad and its static source and destination do not overlap (R196). -/
def CoreImg.shapeOf (x : Core) (i : Instr) : Bool :=
  let tiles (o : TMulOp) : Bool := decide (o.t0.toNat + ceilDiv (o.nm1.toNat + 1) 128 ≤ 16)
  let narrow (o : VcvOp) : Bool := o.line.toNat % fmtLines o.fmt.toNat = 0
  let lanes (o : VvOp) : Bool := o.vl.toNat % eszBytes o.esz = 0
  let apart (o : XrunOp) : Bool :=
    let (s, t, n) := (x.xdesc o.desc.toNat).reach o
    (s ++ t ++ n).all (fun u => u.reg ≠ 0#5 || decide (0 ≤ u.lo) && decide (u.lo + u.len ≤ 0x400000)) &&
    (o.rsrc ≠ 0#5 || o.rdst ≠ 0#5 || s.all fun u => t.all fun v => decide (u.lo + u.len ≤ v.lo) || decide (v.lo + v.len ≤ u.lo))
  match i with
  | .tmul _ o _ => tiles o
  | .tmulr _ o _ _ => tiles o
  | .vcvtw _ o => narrow o
  | .vcvtn _ o => narrow o
  | .vldv _ o => lanes o
  | .vstv _ o => lanes o
  | .xeCopy _ o => apart o
  | .xeTranspose _ o => apart o
  | .xeGather _ o => apart o
  | .xeScatter _ o => apart o
  | _ => true

/-! ## The checks -/

/-- The lines from `a` to `b` all lie in regions live in an entry. -/
def CoreImg.covered (c : CoreImg) (e a b : Nat) : Bool :=
  let live := c.regions.filter fun r => r.liveIn e
  (List.range (b / 64 + 1 - a / 64)).all fun i => live.any fun r =>
    decide (r.base / 64 ≤ a / 64 + i) && decide (a / 64 + i ≤ r.limit / 64)

/-- A range of bytes, first and last, is in one memory and live in an entry. -/
def CoreImg.rangeLive (c : CoreImg) (e : Nat) (one : Bool) (lo hi : Int) : Bool :=
  decide (0 ≤ lo) && decide (lo ≤ hi) &&
    (if one then spaceOf lo.toNat = spaceOf hi.toNat else memoryOf lo.toNat = memoryOf hi.toNat) &&
    c.covered e lo.toNat hi.toNat

/-- The least and the greatest value of a field of a register over a range of the register's value (R284, log entry 39). -/
def fieldRange (low width lo hi : Nat) : Nat × Nat :=
  if lo / 2 ^ (low + width) = hi / 2 ^ (low + width) then (lo / 2 ^ low % 2 ^ width, hi / 2 ^ low % 2 ^ width) else (0, 2 ^ width - 1)

/-- The first and the last byte of a reach over a declared range of the register that moves it. -/
def Reach.span (r : Reach) (lo hi : Nat) : Int × Int :=
  match r.moves with
  | .offset => ((r.lo + lo) % 2 ^ 32, (r.lo + r.len - 1 + hi) % 2 ^ 32)
  | .field low width unit =>
    let (x, y) := fieldRange low width lo hi
    (r.lo + (unit * x : Nat), r.lo + r.len - 1 + (unit * y : Nat))

/-- Bytes, first and last, lie where a reach must lie. -/
def CoreImg.lies (c : CoreImg) (e : Nat) (r : Reach) (p : Int × Int) : Bool :=
  if r.live then c.rangeLive e r.one p.1 p.2
  else decide (0 ≤ p.1) && decide (p.1 ≤ p.2) && spaceOf p.1.toNat = spaceOf p.2.toNat

/-- A reach of an instruction of the program at `prog`, in schedule entry `e`, is inside its memory, bank and regions; one that
a register moves, over the whole of every range declared for that register, of which there must be one (R282, R284). -/
def CoreImg.reachOk (c : CoreImg) (e prog : Nat) (r : Reach) : Bool :=
  r.len = 0 ||
    (if r.reg = 0#5 then c.lies e r (r.lo, r.lo + r.len - 1)
     else
       let l := c.ranges.filter fun d => d.prog = prog && d.reg = r.reg.toNat
       !l.isEmpty && l.all fun d => c.lies e r (r.span d.lo d.hi))

/-- The first and the last byte of a descriptor's rows on one side, over overrides below a span. -/
def rowHull (base rows len : Nat) (stride : Int) (span : Nat) : Int × Int :=
  let ends := stride * (rows - 1 : Nat)
  ((base : Int) + (if ends < 0 then ends else 0), (base : Int) + (if ends < 0 then 0 else ends) + len - 1 + (span - 1 : Nat))

/-- A descriptor's addresses are aligned and lie in the memories its kind names (R42, R55, R56, R215, R245, R247, R349); `use` says whether
the START applies overrides, `psize` is the size of a plate. -/
def Desc.placed (psize : Nat) (d : Desc) (use : Bool) : Bool :=
  let span (b : Bool) (n : Nat) : Nat := if use && b then n else 1
  let (lo, hi) := rowHull d.loc d.rows d.rowLen d.lstride (span d.ovrL d.lspan)
  let (rlo, rhi) := rowHull d.remote d.rows d.rowLen d.rstride (span d.ovrR d.rspan)
  let cache (ve : Bool) (a b : Int) : Bool := decide ((cacheBase ve : Int) ≤ a) && decide (b < (cacheBase ve : Int) + 0x20000)
  let localOk := if d.kind = 2 || d.kind = 3 then cache (d.kind = 3) lo hi else decide (0 ≤ lo) && decide (hi < 0x400000)
  let remoteOk :=
    if d.kind ≤ 3 then decide (0 ≤ rlo) && decide (rhi < if d.role = 0 then hbmSize else psize)
    else if d.kind = 4 then decide (0 ≤ rlo) && decide (rhi < 0x400000)
    else if d.kind = 5 || d.kind = 6 then cache (d.kind = 6) rlo rhi
    else d.peer < 0x30 || d.peer = 0x38 || (decide (0 ≤ rlo) && decide (rhi < 0x40000))
  d.loc % 64 = 0 && d.lstride % 64 = 0 && d.rstride % 64 = 0 && localOk && remoteOk &&
    (!(use && d.ovrL) || decide (spaceOf lo.toNat = spaceOf hi.toNat))

/-- The rows of one side of a descriptor lie in regions of a core live in an entry (R282). -/
def CoreImg.rowsLive (c : CoreImg) (e base : Nat) (stride : Int) (d : Desc) : Bool :=
  (List.range d.rows).all fun r =>
    let a := (base : Int) + stride * r
    c.rangeLive e false a (a + d.rowLen - 1)

/-- A descriptor that a program of entry `e` starts lies in the memories that its kind names, and its on-chip sides that no override moves
lie in live regions, those at a peer in the peer's (R245, R282, R297). -/
def CoreImg.descOk (cores : List CoreImg) (c : CoreImg) (e psize : Nat) (d : Desc) (use : Bool) : Bool :=
  d.placed psize use && ((use && d.ovrL) || c.rowsLive e d.loc d.lstride d) &&
    ((use && d.ovrR) ||
      if d.kind = 5 || d.kind = 6 then c.rowsLive e d.remote d.rstride d
      else if d.kind = 4 then match cores[d.peer]? with
        | some p => p.rowsLive e d.remote d.rstride d
        | none => false
      else true)

/-- Step 8 for one program of an entry: the first instruction that reaches out of bounds. -/
def CoreImg.reachesOk (cores : List CoreImg) (c : CoreImg) (psize e prog : Nat) : Option Refused :=
  let x := c.core
  let bad := (c.instrs prog).find? fun i =>
    !(CoreImg.shapeOf x i.2 && (c.reach x i.2).all (c.reachOk e prog) &&
      match startOf i.2 with
      | some (d, use) => CoreImg.descOk cores c e psize (descOf (c.desc d)) use
      | none => true)
  bad.map fun i => ⟨0x0102#16, c.id.val, e, i.1 % 8192, 0⟩

/-- Step 8 for one core: its regions, its whole descriptor table (R245), and its programs. -/
def CoreImg.placed (cores : List CoreImg) (ring psize : Nat) (c : CoreImg) : Option Refused :=
  failUnless (c.regionsOk ring && (List.range c.dlen).all fun i => (descOf (c.desc i)).placed psize false)
      ⟨0x0102#16, c.id.val, 0, 0, 0⟩ <|>
    c.ring.findSome? fun x => x.2.programs.findSome? fun p => CoreImg.reachesOk cores c psize x.1 p

/-- The ranges of HBM that an image names: initial contents, plates, windows and absolute residuals. -/
def ImgFile.hbmRanges (f : ImgFile) : List (Nat × Nat) :=
  f.hbm.map (fun r => (r.1, r.2.length)) ++ (if f.pages = 0 then [] else [(f.plate0, 4096 * f.pages), (f.plate1, 4096 * f.pages)]) ++
    f.plan.windows.map (fun w => (w.base, w.size)) ++
    f.plan.colls.filterMap fun d => if d.resid ≠ 0 && d.residRole = 0 then some (d.resid, 4 * d.nelem) else none

/-- Step 8 for the module: what it names exists, plate offsets lie below the plates' size, and a confidential image keeps out of
the clear ranges (R215, R419). -/
def ImgFile.hbmOk (f : ImgFile) (s : State) : Bool :=
  f.hbmRanges.all (fun r => inHbm r.1 r.2 && !(f.head.conf && s.touchesClear r.1 r.2)) &&
    f.plan.colls.all fun d =>
      let off (a role : Nat) : Bool := role = 0 || decide (a < 4096 * f.pages)
      off d.src d.srcRole && off d.dst d.dstRole && off d.resid d.residRole

/-- Step 8 (R295). -/
def ImgFile.placed (f : ImgFile) (s : State) : Option Refused :=
  failUnless (f.hbmOk s) (Refused.whole 0x0102#16) <|> f.cores.findSome? (CoreImg.placed f.cores f.head.ring (4096 * f.pages))

end Sys2Proof.Machine
end

