-- ==== Sys2Proof/Machine/Walk.lean ====
section
/-! DEFINITION. The loader's budget walk (R12, R18, R21, R22, R47, R81, R281, R285, R286, R289): every program of every schedule entry
in contract time, from which come the worst case W, dark tails, the fabric check, the link ports and the token peak. A program is
walked by issuing it, every instruction suppressed, on the cores as the image initialises them: the same rules hold a bundle, count an
interval and let a master wait as when it runs (R225, R237, R279). -/

namespace Sys2Proof.Machine

/-! ## Instructions in contract time -/

/-- The state after an outcome. -/
def outState (s : State) (o : Host.Outcome State Fault Refusal) : State :=
  match o with
  | .next t => t
  | _ => s

/-- What an instruction of an engine's slot, a descriptor, or an SLD or SST does to the state. -/
def engineOf (i : Instr) (s : State) : Host.Outcome State Fault Refusal :=
  match i with
  | .sld a rd o miss => execSld a rd o miss s
  | .sst a rs o => execSst a rs o s
  | .dmaStart a ch d descMiss => execDmaStart a ch d descMiss s
  | .dmaStartOvr a ch d descMiss => execDmaStartOvr a ch d descMiss s
  | .tload a o => execTload a o s
  | .tmul a o qm1 => execTmul a o qm1 s
  | .tmulr a o kmode rs => execTmulr a o kmode rs s
  | .tprint a o => execTprint a o s
  | .vadd a o => execVadd a o s
  | .vsub a o => execVsub a o s
  | .vmul a o => execVmul a o s
  | .vfma a o => execVfma a o s
  | .vmin a o => execVmin a o s
  | .vmax a o => execVmax a o s
  | .vabs a o => execVabs a o s
  | .vneg a o => execVneg a o s
  | .vmov a o => execVmov a o s
  | .vrcp a o => execVrcp a o s
  | .vrsq a o => execVrsq a o s
  | .vexp2 a o => execVexp2 a o s
  | .vlog2 a o => execVlog2 a o s
  | .vdiv a o => execVdiv a o s
  | .vsqrt a o => execVsqrt a o s
  | .vshl a o => execVshl a o s
  | .vshr a o => execVshr a o s
  | .vsra a o => execVsra a o s
  | .vand a o => execVand a o s
  | .vor a o => execVor a o s
  | .vxor a o => execVxor a o s
  | .vnot a o => execVnot a o s
  | .vpopc a o => execVpopc a o s
  | .vcmp a o => execVcmp a o s
  | .vmlog a o => execVmlog a o s
  | .vmlane a ve lo hi md => execVmlane a ve lo hi md s
  | .vmsr a ve rs h md => execVmsr a ve rs h md s
  | .vspl a ve msk mz rs vd => execVspl a ve msk mz rs vd s
  | .vscl a ve ssrc cap sidx qexp => execVscl a ve ssrc cap sidx qexp s
  | .vcvtw a o => execVcvtw a o s
  | .vcvtn a o => execVcvtn a o s
  | .vcvti a o => execVcvti a o s
  | .vcvtf a o => execVcvtf a o s
  | .vacc a o => execVacc a o s
  | .vred a o => execVred a o s
  | .vrax a o => execVrax a o s
  | .vld a o => execVld a o s
  | .vst a o => execVst a o s
  | .vldv a o => execVldv a o s
  | .vstv a o => execVstv a o s
  | .xeCopy a o => execXeCopy a o s
  | .xeTranspose a o => execXeTranspose a o s
  | .xeGather a o => execXeGather a o s
  | .xeScatter a o => execXeScatter a o s
  | .xeScatterAdd a o => execXeScatterAdd a o s
  | .uupd a d pass => execUupd a d pass s
  | .urow a d rj nrows => execUrow a d rj nrows s
  | .ugfac a f bank ra ofs => execUgfac a f bank ra ofs s
  | .ufilt a d bank ra rb rn nmx => execUfilt a d bank ra rb rn nmx s
  | .uflist a d bank ra => execUflist a d bank ra s
  | .uadv a => execUadv a s
  | .mdodge a o => execMdodge a o s
  | .mburn a o => execMburn a o s
  | .mrefresh a o => execMrefresh a o s
  | .mscore a o => execMscore a o s
  | .msload a o => execMsload a o s
  | .msstore a o => execMsstore a o s
  | .mremap a d slot => execMremap a d slot s
  | .ppred a o => execPpred a o s
  | .pctl a j en => execPctl a j en s
  | _ => .next s

/-- What one instruction or descriptor adds to the walk: its unit by tail code (R293), its issue and completion, the tokens it
holds and until when, and its descriptor. -/
structure Issued where
  unit : Nat
  issue : Nat
  due : Nat
  tokens : Nat
  tokenEnd : Nat
  move : Option Desc

/-- The tail unit code of an engine (R293). -/
def tailUnit (u : EngUnit) : Nat :=
  match u with
  | .teLoad | .teArray | .tePrint => 1
  | .ve0 => 2
  | .ve1 => 3
  | .xe => 4
  | .ue | .me => 5

/-- Contract latency of an SQ instruction (R228), that of an SLD or SST apart, which waits for its cache. -/
def sqLat (tc1 : Bool) (i : Option Instr) : Nat :=
  match i with
  | none => 0
  | some (.end_ _) => 0
  | some (.waitx _ _ _) => 0
  | some (.loopi _ _ _ _) => 1
  | some (.loopr _ _ _ _ _) => 1
  | some (.commit _) => 4
  | some (.sqStop _ _) => 4
  | some (.signal _ _ _) => 4
  | some (.mul _ _) => if tc1 then 4 else 5
  | some _ => 2

/-- The factor sets of the walk: the group records that a program will load are not the loader's to see, so rule, flags and
formats are free (R218, log entry 39). -/
def walkFactors (ctr : Nat) : List (Option FactorSet) :=
  (List.range 16).map fun i =>
    let n (k : String) : Nat := Config.freeNat (ctr + i) k
    some { rule := n "rule" % 4, flags := n "flags", mfmt := n "mfmt" % 2, sfmt := n "sfmt" % 2, lr := 0#32, lam := 0#32, keep := 0#32, b1 := 0#32
           b2 := 0#32, ob1 := 0#32, ob2 := 0#32, eps := 0#32, ic1 := 0#32, ic2 := 0#32, clip := 0#32, trmin := 0#32, trmax := 0#32
           rscale := 0#32, step := 0#40 }

/-- The transfers that the programs of an image start into the banks of core `q` as DMA-in (R246): entry, bank, and whether another
core starts them. -/
def ImgFile.entering (f : ImgFile) (q : CoreId) : List (Nat × Nat × Bool) :=
  f.cores.flatMap fun c => c.ring.flatMap fun x => x.2.programs.flatMap fun e => (c.instrs e).flatMap fun i =>
    match startOf i.2 with
    | none => []
    | some (n, _) =>
      let d := descOf (c.desc n)
      (if d.entersPad && c.id = q then d.localBanks.map fun b => (x.1, b, false) else []) ++
        if d.kind = 4 && decide (d.peer = q.val) then d.peerBanks.map fun b => (x.1, b, true) else []

/-- A core of the walk: as the image initialises it, in schedule entry `n`. -/
def CoreImg.walkCore (f : ImgFile) (ctr : Nat) (n : Nat) (c : CoreImg) : Core :=
  let x := c.core
  { x with
    factors := walkFactors ctr, filtMax := (List.range 16).map c.listMax, entering := f.entering c.id
    frame := { Frame.none with live := true, entry := n } }

/-- The walk of a program of schedule entry `n` begins: a machine in which only the cores and the image's class, budgets and number
stand, at the cycle of the first bundle (R21). -/
def CoreImg.walkStart (f : ImgFile) (ctr : Nat) (c : CoreImg) (n e : Nat) : State :=
  let s := f.cores.foldl (fun s x => s.setCore x.id (x.walkCore f ctr n)) { State.reset with freeCtr := ctr }
  let x := s.core c.id
  let s := s.setCore c.id { x with seq := x.entrySeq e 0 }
  { s with image := some { tclass := f.head.tclass, slack := 0, steps := 0, periodNs := 0, tokpeak := 0, confidential := false, coreMask := 0
                           ring := 0, budgets := f.budgets, plan := ⟨0, [], [], []⟩, worst := [], fstores := [], signer := 0#32
                           map := ctr } }

/-- The slots of a bundle issue in the walk, of the SQ slot an SLD or SST alone. -/
def issueSlots (b : Bundle) (s : State) : State :=
  b.instrs.foldl (fun s i => outState s (engineOf i s)) s

/-- What instructions and descriptors in flight in a core, those that end by a cycle or all, add to the walk. -/
def CoreImg.ended (c : CoreImg) (x : Core) (by_ : Option Nat) : List Issued :=
  let gone (t : Nat) : Bool := match by_ with
    | some u => decide (t ≤ u)
    | none => true
  ((x.inflight.filter fun o => gone o.dueNow).map fun o =>
    ⟨tailUnit o.unit, o.issue, o.dueNow, o.tokens, o.tokenEnd + o.stalls, none⟩) ++
    (x.dma.flatMap fun q => q.inflight.filter fun o => gone o.dueNow).map fun o =>
      ⟨6, o.issue, o.dueNow, 0, 0, some (descOf (c.desc o.desc))⟩

/-- The sequencer after a bundle of the walk, a LOOPR at its declared maximum (R21, R233–R235). -/
def CoreImg.advance (c : CoreImg) (e b : Nat) (i : Option Instr) (x : Core) : Core :=
  match c.loopOf e i with
  | some (_, n, 0) => { x with seq := x.seq.after (b + n + 1) x.seq.loops }
  | some (lc, n, all) => x.loop ⟨c.id, BitVec.ofNat 13 b, true⟩ lc (BitVec.ofNat 9 n) all all
  | none => { x with seq := x.seq.after b x.seq.loops }

/-- The cycle at which the bundle after this one can issue at the earliest (R21). -/
def nextCycle (t : Nat) (k : Ctx) (x : Core) (i : Option Instr) : Nat :=
  match i with
  | some (.waitx _ ec _) => t + x.waitCount k ec.toNat
  | _ => t + 1

/-- The walk of the program at index `e` from bundle `b`: what issues, each as it ends. -/
def CoreImg.walk (c : CoreImg) (e : Nat) : Nat → Nat → State → List Issued
  | 0, _, _ => []
  | f + 1, b, s =>
    match c.bundle b with
    | none => []
    | some w =>
      let x := s.core c.id
      let t := maxOf (x.seq.nextAt :: (w.instrs.flatMap x.needsOf).map x.freeFor)
      let s := s.settle [c.id] t
      let z := s.core c.id
      let q := { z.seq with prev := b - 1, slot := 7, loops := [], nextAt := t, busyUntil := 0 }
      let s := issueSlots w (s.setCore c.id { z with seq := q })
      let y := s.core c.id
      let sq : Issued := ⟨0, t, max y.seq.busyUntil (t + sqLat s.tc1 w.sq), 0, 0, none⟩
      let here := c.ended x (some t) ++ [sq]
      if isEnd w.sq then here ++ c.ended y none
      else
        let y := c.advance e b w.sq { y with seq := { y.seq with loops := x.seq.loops } }
        let y := { y with seq := { y.seq with nextAt := nextCycle t (s.ctx c.id) y w.sq } }
        here ++ c.walk e f (y.seq.prev + 1) (s.setCore c.id y)

/-- How many bundles a program issues. -/
def CoreImg.length (c : CoreImg) (e : Nat) : Nat :=
  (c.counted e (c.decoded e) []).foldl (fun n x => n + x.2.2) 0

/-- The walk of the program whose frame header lies at index `e`, in schedule entry `n`. -/
def ImgFile.walkOf (f : ImgFile) (ctr : Nat) (c : CoreImg) (n e : Nat) : List Issued :=
  c.walk e (c.length e) (e + 4) (c.walkStart f ctr n e)

/-- W: the latest completion of a walk (R21). -/
def worstOf (l : List Issued) : Nat := most (l.map (·.due))

/-! ## Step 9 -/

/-- B at a period and a number of derate steps (R11, R12). -/
def budgetOf (periodNs steps : Nat) : Nat := cyclesOf periodNs (derated steps) - 512

/-- The walks of one core: schedule entry, program and what issues. -/
abbrev Walks := List (Nat × Nat × List Issued)

/-- The walks of every program of a core. -/
def ImgFile.walks (f : ImgFile) (ctr : Nat) (c : CoreImg) : Walks :=
  c.ring.flatMap fun x => x.2.programs.map fun e => (x.1, e, f.walkOf ctr c x.1 e)

/-- A dark tail of an entry holds against a walk: its unit's last use is at or before its offset (R18). -/
def tailOk (l : List Issued) (t : Nat × Nat) : Bool :=
  decide (worstOf (if t.1 = 7 || t.1 = 15 then l else l.filter fun x => x.unit = t.1) ≤ t.2)

/-- The distinct scale entries that a program marks for a push (R81). -/
def CoreImg.pushes (c : CoreImg) (e : Nat) : List Nat :=
  let x := c.core
  ((c.instrs e).filterMap fun i => match i.2 with
    | .tprint _ o =>
      let d := x.printDesc o.pd.toNat
      if d.hpush then some d.sidx else none
    | _ => none).eraseDups

/-- Step 9 for one core's walks: W within B, dark tails and pushes (R18, R22, R81). -/
def CoreImg.fits (c : CoreImg) (budget : Nat) (w : Walks) : Option Refused :=
  w.findSome? fun r =>
    let worst := worstOf r.2.2
    let no (d : Nat) : Option Refused := some ⟨0x0101#16, c.id.val, r.1, 0, d⟩
    if budget < worst then no (worst - budget)
    else if (match c.sched[r.1]? with
        | some s => s.tails.all (tailOk r.2.2)
        | none => true) && decide ((c.pushes r.2.1).length ≤ 96) then none
    else no 0

/-- The largest W of some walks. -/
def Walks.worst (w : Walks) : Nat := most (w.map fun r => worstOf r.2.2)

/-! ## Fabric (R46, R47) -/

/-- A resource of the fabric: a core's memory port, HBM as a whole, or a mesh link by direction and place. -/
inductive Lane
  | port (core : Nat) | hbm | link (dir x y : Nat)
deriving DecidableEq, Repr

/-- How many transfers a resource carries at once (R47). -/
def Lane.limit (l : Lane) : Nat :=
  match l with
  | .port _ => 2
  | .hbm => 284
  | .link _ _ _ => 2

/-- The mesh links from one router to another: along the row, then along the column (R46). -/
def route (x0 y0 x1 y1 : Nat) : List Lane :=
  ((List.range (x1 - x0)).map fun i => .link 0 (x0 + i) y0) ++ ((List.range (x0 - x1)).map fun i => .link 1 (x0 - i) y0) ++
    ((List.range (y1 - y0)).map fun i => .link 2 x1 (y0 + i)) ++ ((List.range (y0 - y1)).map fun i => .link 3 x1 (y0 - i))

/-- The router of a core: column and row (R38). -/
def State.router (s : State) (c : CoreId) : Nat × Nat := (fld ((s.core c).reg 0) 11 8, fld ((s.core c).reg 0) 15 12)

/-- The router of an edge endpoint: in row 0 for the link and collective subsystem at the northern edge, in row 11 for the host
interface and the control cluster at the southern; the column is free (R46, R349, log entry 40). -/
def edgeRouter (ctr peer : Nat) : Nat × Nat :=
  (Config.freeNat (ctr + peer) "column of an edge endpoint" % 13, if peer < 0x30 then 0 else 11)

/-- What a descriptor of a core occupies (R46, R47). -/
def State.lanes (s : State) (c : CoreId) (d : Desc) : List Lane :=
  let (x, y) := s.router c
  if d.kind ≤ 3 then [.port c.val, .hbm]
  else if d.kind = 4 then
    let (u, v) := s.router ⟨d.peer % 144, Nat.mod_lt _ (by decide)⟩
    route x y u v
  else if d.kind = 8 then
    let (u, v) := edgeRouter s.freeCtr d.peer
    route u v x y
  else if d.kind = 9 then
    let (u, v) := edgeRouter s.freeCtr d.peer
    route x y u v
  else []

/-- What a core's transfers occupy at a cycle of an entry, each program of the entry by itself: a transfer counts from its issue
for its transfer time (R47). -/
def State.occupied (s : State) (c : CoreId) (w : Walks) (e t : Nat) : List (List Lane) :=
  (w.filter fun r => r.1 = e).map fun r => r.2.2.flatMap fun i => match i.move with
    | some d => if i.issue ≤ t && t < i.issue + d.moves then s.lanes c d else []
    | none => []

/-- Cycles of an entry at which something issues: the only ones at which an occupation or a token sum can rise. -/
def startsOf (all : List (CoreId × Walks)) (e : Nat) : List Nat :=
  (all.flatMap fun x => (x.2.filter fun r => r.1 = e).flatMap fun r => r.2.2.map (·.issue)).eraseDups

/-- The fabric carries every entry's transfers at every cycle (R47). -/
def State.fabricOk (s : State) (ring : Nat) (all : List (CoreId × Walks)) : Bool :=
  (List.range ring).all fun e => (startsOf all e).all fun t =>
    let load := all.map fun x => s.occupied x.1 x.2 e t
    ((load.flatten.flatten).eraseDups).all fun l =>
      decide ((load.map fun x => most (x.map fun y => y.count l)).foldl (· + ·) 0 ≤ l.limit)

/-! ## Link ports (R300, R313) -/

/-- The contract send rate of a planned width, in bytes a cycle (R300). -/
def sendRate (width : Nat) : Nat := if width = 4 then 28 else if width = 2 then 14 else 7

/-- A send's hold of its port: its core, entry and program, the port, and the cycles of its frame from which and until which it
lasts. -/
structure PortHold where
  core : CoreId
  entry : Nat
  prog : Nat
  port : Nat
  from_ : Nat
  until_ : Nat

/-- The holds of the sends of a core's walks (R313). -/
def LinkPlan.holds (p : LinkPlan) (x : CoreId × Walks) : List PortHold :=
  x.2.flatMap fun r => r.2.2.filterMap fun i => match i.move with
    | some d =>
      if d.kind = 9 && decide (0x10 ≤ d.peer) && decide (d.peer < 0x20) then
        let rate := match p.ports[d.peer - 0x10]? with
          | some q => sendRate q.width
          | none => 7
        some ⟨x.1, r.1, r.2.1, d.peer - 0x10, i.issue + 400, i.issue + 400 + ceilDiv (d.bytes + 32) rate⟩
      else none
    | none => none

/-- Two holds, the frame of the second `k` frames of `c` cycles after that of the first, meet. -/
def PortHold.meets (c k : Nat) (x y : PortHold) : Bool :=
  x.port = y.port && decide (x.from_ < y.until_ + k * c) && decide (y.from_ + k * c < x.until_)

/-- No two sends hold one port in one cycle (R313), in a ring of frames of `c` cycles: not in one frame, where the programs of one core
and entry exclude each other, nor in a later one, which a send may outlast. -/
def portsFree (ring c : Nat) (l : List PortHold) : Bool :=
  let later := ceilDiv (most (l.map (·.until_))) c + 1
  l.zipIdx.all fun (x, i) => l.zipIdx.all fun (y, j) => (List.range later).all fun k =>
    !((x.entry + k) % ring = y.entry && x.meets c k y) || (k = 0 && (i = j || (x.core = y.core && decide (x.prog ≠ y.prog))))

/-! ## Tokens (R285, R286) -/

/-- The tokens that a core holds at a cycle of an entry: those of the program that holds more. -/
def tokensAt (w : Walks) (e t : Nat) : Nat :=
  most ((w.filter fun r => r.1 = e).map fun r =>
    r.2.2.foldl (fun n i => if i.issue ≤ t && t < i.tokenEnd then n + i.tokens else n) 0)

/-- The token peak: the largest sum over all entries and cycles, with one for each port that the link plan enables. -/
def tokenPeak (ring ports : Nat) (all : List (CoreId × Walks)) : Nat :=
  most ((List.range ring).flatMap fun e => (startsOf all e).map fun t =>
    (all.map fun x => tokensAt x.2 e t).foldl (· + ·) 0) + ports

/-! ## Steps 9 to 11 -/

/-- The walks of every core. -/
def ImgFile.allWalks (f : ImgFile) (ctr : Nat) : List (CoreId × Walks) := f.cores.map fun c => (c.id, f.walks ctr c)

/-- The WAITX budgets of the bound event sources are at most B (R281). -/
def ImgFile.waitsOk (f : ImgFile) (budget : Nat) : Bool :=
  f.cores.all fun c => (List.range 16).all fun i =>
    let src := fld (c.word (0x2080 + 4 * i)) 7 0
    src = 0 || decide (f.budgets.getD src 0 ≤ budget)

/-- Steps 9 to 11: the budget walk at the derate steps in force, the token peak against the pool and the header, and the walk at
SLK further steps (R289). -/
def ImgFile.timed (f : ImgFile) (s : State) (periodNs steps pool : Nat) : Option Refused :=
  let all := f.allWalks s.freeCtr
  let fits (steps : Nat) : Option Refused :=
    (f.cores.zip all).findSome? fun x => x.1.fits (budgetOf periodNs steps) x.2.2
  let whole := fits steps <|> failUnless (f.waitsOk (budgetOf periodNs steps) && s.fabricOk f.head.ring all &&
      portsFree f.head.ring (cyclesOf periodNs (derated steps)) (all.flatMap f.plan.holds)) (Refused.whole 0x0101#16)
  let peak := tokenPeak f.head.ring (f.plan.ports.filter fun p => p.use ≠ 0).length all
  let slack := f.head.slack
  let most_ := most ((List.range 21).filter fun k => (fits k).isNone && f.waitsOk (budgetOf periodNs k))
  whole
    <|> failUnless (decide (peak ≤ pool) && decide (peak ≤ f.head.tokpeak)) { Refused.whole 0x0103#16 with detail := peak }
    <|> (if (decide (1 ≤ steps) && slack = 0) || (fits (steps + slack)).isSome || !f.waitsOk (budgetOf periodNs (steps + slack)) then
          some { (fits (steps + slack)).getD (Refused.whole 0x0107#16) with code := 0x0107#16, detail := most_ }
        else none)

end Sys2Proof.Machine
end

