-- ==== Sys2Proof/Machine/Loader.lean ====
section
/-! DEFINITION. Loading an image (R238, R281–R298, R343, R346, R412, R420): the request, the checks of R295 in their order, what a
refusal writes and what a load writes. Choices of the model are log entries 38 to 41. -/

namespace Sys2Proof.Machine

/-! ## The request (R295, R346) -/

/-- The loader may start: no core runs a frame, and it has no other load under way. -/
def State.loaderFree (s : State) : Bool := (!s.running || s.halted) && s.loading.isNone

/-- The bytes of an image behind BAR2, as the device sees them. -/
def State.bar2Image (s : State) (off len : Nat) : Option (List Byte) :=
  allSome ((List.range len).map fun i => (s.bar2Addr ((off + i) % 2 ^ 36)).map fun a => (s.hbmRead a 1).getD 0 0#8)

/-- The image that a source names: none where the source is not one the command takes (R343, R346). -/
def State.imageFrom (s : State) (src : ImageSource) : Option (List Byte) :=
  match src with
  | .host bs => some bs
  | .nvme qp bs => if (s.qp (BitVec.ofNat 16 qp)).isSome then some bs else none
  | .bar2 off len _ =>
    match s.bar2Image off.toNat len with
    | none => none
    | some bs =>
      let conf := natAt bs 14 1 % 2 = 1
      let clear := (List.range len).all fun i => match s.bar2Addr ((off.toNat + i) % 2 ^ 36) with
        | some a => s.inClear a
        | none => false
      if conf && !clear then none else some bs

/-- LOAD: the image is copied into the staging area, and the checks begin (R295); a copy that meets an uncorrectable read fails (R375). -/
def execLoad (h : MboxHdr) (img : ImageSource) (s : State) : Host.Outcome State Fault Refusal :=
  .next (s.mbox h 1 1 false false fun s =>
    if img.unreadable then .done s 0x040A#16 []
    else match s.imageFrom img with
    | none => .done s 0x0605#16 []
    | some bs =>
      if !s.loaderFree then .done s 0x0605#16 []
      else .waits (State.setGf { s with loading := some ⟨bs, h⟩ } 0x50000 0 0 1))

/-! ## Steps 1 to 4 -/

/-- A step's verdict: what it hands to the next, or a refusal. -/
abbrev Check (α : Type) := Except Refused α

/-- A step that fails where the value is absent. -/
def need {α : Type} (x : Option α) (code : Half) : Check α :=
  match x with
  | some v => .ok v
  | none => .error (Refused.whole code)

/-- A step made of a possible refusal. -/
def pass (x : Option Refused) : Check Unit :=
  match x with
  | some r => .error r
  | none => .ok ()

/-- Step 1: the container. What a confidential image holds encrypted is seen once it is decrypted (R286, R291–R294). -/
def checkFormat (b : List Byte) : Check (ImgHead × List Sect) := do
  let h ← need (headOf b) 0x0108#16
  let l ← need (sectsOf b h) 0x0108#16
  pass (failUnless (l.all fun s => (h.conf && sealedTypes.contains s.type) || shapeOk h.ring s) (Refused.whole 0x0108#16))
  pass (failUnless (linkShapeOk (sectBytes l 12 0xFFFF)) (Refused.whole 0x0108#16))
  pass ((List.finRange 144).findSome? fun c =>
    failUnless (!h.mask.testBit c.val || (sectBytes l 1 c.val).length = 24 * h.ring) ⟨0x0108#16, c.val, 0, 0, 0⟩)
  return (h, l)

/-- The signature over everything before the SIG section verifies under a key of the signer table (R292, R420). -/
def State.signatureOk (s : State) (b : List Byte) (l : List Sect) : Bool :=
  match l.getLast? with
  | none => false
  | some g =>
    s.sec.signers.any fun k => match k with
      | some k => keyIdOf k = BitVec.ofNat 32 (natAt g.bytes 0 4) && ecdsaOk k (sha384 (b.take g.off)) (bytesAt g.bytes 4 96)
      | none => false

/-- The sections in the clear, if the conditions of a confidential image hold (R420). -/
def State.openSections (s : State) (b : List Byte) (h : ImgHead) (l : List Sect) : Option (List Sect) :=
  if !h.conf then some l
  else
    match s.sec.jobKey, l.getLast? with
    | some j, some g =>
      if j.signer = 0#32 || j.signer = BitVec.ofNat 32 (natAt g.bytes 0 4) then
        allSome (l.map (Sect.opened (hkdf j.key (ascii "XD image") 32) (bytesAt b 0 128)))
      else none
    | _, _ => none

/-- Step 2, and the shapes of what it decrypts. -/
def State.checkSignature (s : State) (b : List Byte) (h : ImgHead) (l : List Sect) : Check ImgFile := do
  pass (failUnless (s.signatureOk b l) (Refused.whole 0x0105#16))
  let l ← need (s.openSections b h l) 0x0105#16
  pass (failUnless (l.all (shapeOk h.ring)) (Refused.whole 0x0108#16))
  return fileOf h l

/-- Step 4: every core of CORE_MASK is available (R40). -/
def State.checkCores (s : State) (f : ImgFile) : Option Refused :=
  (List.finRange 144).findSome? fun c =>
    failUnless (!f.head.mask.testBit c.val || s.available c) ⟨0x010A#16, c.val, 0, 0, 0⟩

/-- The checks of R295 in order: the image, or the first refusal. -/
def State.checkImage (s : State) (b : List Byte) : Check ImgFile := do
  let (h, l) ← checkFormat b
  let f ← s.checkSignature b h l
  pass (failUnless (s.gbit 8 f.head.tclass) (Refused.whole 0x0104#16))
  pass (s.checkCores f)
  pass (f.cores.findSome? fun c => c.capacity (s.core c.id))
  pass (failUnless (collsOk (sectBytes l 12 0xFFFF)) (Refused.whole 0x0109#16))
  pass (f.cores.findSome? (CoreImg.valid f.plan))
  pass (f.cores.findSome? CoreImg.replaySafe)
  pass (f.placed s)
  pass (f.timed s (s.greg 0x40000).toNat (s.gf 0x20024 8 6) (s.gf 0x3000C 25 16))
  return f

/-! ## What a load writes into a core (R295, R296) -/

/-- Counters and records of a core that are cleared at image load: collisions, clamps, event counters, completed descriptors,
tile flags and tags, the conflict-queue peak, products, saturations, gathers and scatters, skipped and refused rows, misses, the
contact-sheet window and the integrity counters. -/
def clearedAtLoad : List Nat :=
  [0x1210, 0x200C, 0x3008, 0x300C, 0x3024, 0x3028, 0x5204, 0x5208, 0x520C, 0x6050, 0x6054, 0x6058, 0x6060, 0x8008, 0x800C, 0x8010] ++
    ((List.range 16).map fun i => 0x20C0 + 4 * i) ++ ((List.range 4).map fun i => 0x2210 + 32 * i) ++
    ((List.range 12).map fun i => 0x4040 + 4 * i) ++ ((List.range 16).map fun j => 0x7C18 + 32 * j) ++
    (List.range 32).map fun i => 0x9000 + 4 * i

/-- The frame store of an image, the rest of it zeros. -/
def CoreImg.frameStore (c : CoreImg) : List Byte := bytesAt c.store 0 0x40000

/-- The registers in force and their shadows (R295): CMT bits as the image has them. ENABLED of each predictor entry follows
ENABLE (R155). -/
def CoreImg.installRegs (c : CoreImg) (x : Core) : Core :=
  let x := windowCmt.foldl (fun x r =>
    (x.setReg r.1 ((x.reg r.1 &&& ~~~r.2) ||| (c.word r.1 &&& r.2))).setShadow r.1 (c.word r.1)) x
  let x := (List.range 16).foldl (fun x j => x.setRf (0x7C10 + 32 * j) 0 0 (x.rf (0x7C00 + 32 * j) 0 0)) x
  clearedAtLoad.foldl (fun x off => x.setReg off (coreReset off)) (x.setReg 0x2010 (BitVec.ofNat 32 (c.dbase + c.dlen * 2 ^ 13)))

/-- The scale table and the latch: each entry's S, and no running amax (R79, R82). -/
def CoreImg.installScale (c : CoreImg) (x : Core) : Core :=
  let t := bytesAt c.scale 0 0x8000
  let x := match c.scaleAt with
    | some a => x.store a t
    | none => x
  (List.range 256).foldl (fun x e => (x.setLatch e (signedOf 8 (natAt t (128 * e + 0x44) 1))).setReg (0x4400 + 4 * e) 0#32) x

/-- An initial sheet, its counts recomputed, and its slot's tag (R99, R145). -/
def SheetInit.install (pad : List (Nat × Byte)) (i : SheetInit) (x : Core) : Core :=
  (x.store (sheetBase i.slot) (buildSheet (activeList i.bytes))).setReg (0x7100 + 4 * i.slot)
    (BitVec.ofNat 32 (tileHeader (Memory.read pad i.body 64)).epoch)

/-- The memories of a core: frame store, scale table, sheets, scratchpad, and zeros in the operand caches (R160, R295). -/
def CoreImg.installMem (c : CoreImg) (x : Core) : Core :=
  let x := c.installScale (x.store 0x500000 c.frameStore)
  let x := c.sheets.foldl (fun x i => i.install c.pad x) x
  let x := c.spad.foldl (fun x r => x.store r.1 r.2) x
  x.store 0x560000 (List.replicate 0x40000 0#8)

/-- The step, the seed and the plates in the UE's registers (R200, R214, R215). -/
def ImgFile.installUe (f : ImgFile) (seed : Nat) (x : Core) : Core :=
  let g := f.head.gstep
  let x := (x.setReg 0x6004 (BitVec.ofNat 32 g)).setReg 0x6008 (BitVec.ofNat 32 (g / 2 ^ 32))
  let x := (x.setReg 0x6034 (BitVec.ofNat 32 g)).setReg 0x6038 (BitVec.ofNat 32 (g / 2 ^ 32))
  let x := (List.range 4).foldl (fun x i => x.setReg (0x6010 + 4 * i) (BitVec.ofNat 32 (seed / 2 ^ (32 * i)))) x
  let base (x : Core) (off a : Nat) : Core :=
    (x.setReg off (BitVec.ofNat 32 (a / 4096 * 4096))).setReg (off + 4) (BitVec.ofNat 32 (a / 2 ^ 32 % 128))
  (((base (base x 0x6040 f.plate0) 0x6048 f.plate1).setReg 0x6064 (BitVec.ofNat 32 f.pages)).setReg 0x6020 8#32)

/-- A core's schedule, the predictor entries that each program names noted (R156). -/
def CoreImg.schedule (c : CoreImg) : List SchedEntry :=
  c.sched.map fun e => { e with preds := if 4 ≤ e.kind then [] else c.predsOf e.entry }

/-- A core after a load: no frame, no weights, no factor sets, nothing filtered (R100, R296). -/
def ImgFile.install (f : ImgFile) (seed : Nat) (c : CoreImg) (x : Core) : Core :=
  let x := f.installUe seed (c.installMem (c.installRegs x))
  { x with
    sched := c.schedule, regions := c.regions, frame := Frame.none, seq := Seq.reset, lateStarts := [], workEnd := 0, behind := 0
    te := { Te.reset with owners := x.te.owners }, factors := List.replicate 16 none, filter := []
    filtMax := (List.range 16).map c.listMax, entering := f.entering c.id, nextId := 0 }

/-! ## The outcome -/

/-- LD_STATUS after a load: BUSY 0, LOADED, CODE. -/
def ldStatus (loaded : Bool) (code : Half) : Word := BitVec.ofNat 32 (2 * bit loaded + code.toNat * 2 ^ 16)

/-- The request ends with the loader's code, and vector 1 is raised (R344, R346). -/
def State.loadEnds (s : State) (h : MboxHdr) (code : Half) : State := (s.vector 1).finish h 1 code []

/-- A refused image: LD_STATUS, LD_WHERE and LD_DETAIL are written and nothing else changes, but for LOADED, which becomes 0
(R295, R296, R298). -/
def State.loadRefused (s : State) (h : MboxHdr) (r : Refused) : State :=
  let s := s.setGreg 0x50000 (ldStatus false r.code)
  let s := s.setGreg 0x50004 (BitVec.ofNat 32 (r.core % 256 + r.entry % 64 * 2 ^ 8 + r.bundle % 8192 * 2 ^ 16))
  let s := s.setGreg 0x50008 (BitVec.ofNat 32 r.detail)
  State.loadEnds { s with image := none } h r.code

/-- Counters of the global area that are cleared at image load: overruns, the worst lateness, TOKEN_OVERDRAW, roster skews, collectives
and the ports' counters. -/
def globalCleared : List Nat :=
  [0x40024, 0x4003C, 0x50024, 0x50028, 0x60818, 0x60C08, 0x60C0C] ++
    (List.range 16).flatMap fun p => (List.range 7).map fun i => 0x61010 + 64 * p + 4 * i

/-- The record that the loader keeps of an image. -/
def ImgFile.record (f : ImgFile) (ctr steps : Nat) : Image :=
  { tclass := f.head.tclass, slack := f.head.slack, steps := steps, periodNs := f.head.period, tokpeak := f.head.tokpeak
    confidential := f.head.conf, coreMask := f.head.mask, ring := f.head.ring, budgets := f.budgets, plan := f.plan
    worst := (f.allWalks ctr).flatMap fun x => (x.2.map fun w => (x.1.val, w.1, worstOf w.2.2))
    fstores := f.cores.map fun c => (c.id.val, c.frameStore), signer := f.signer, map := ctr }

/-- The HBM takes the key of the job (R412, R419): contents stored under another key are undefined from now on. -/
def State.keyHbm (s : State) (conf : Bool) : State :=
  let new := if conf then s.sec.jobKey.map (·.key) else none
  let t := if conf && s.sec.hbmKey = new then s else s.rekeyHbm
  { t with sec := { t.sec with hbmKey := new } }

/-- LD_IMAGE_ID and LD_TOKPEAK (R290, R296). -/
def State.showImage (s : State) (h : ImgHead) : State :=
  let s := (List.range 4).foldl (fun s i => s.setGreg (0x50010 + 4 * i) (BitVec.ofNat 32 (natAt h.id (4 * i) 4))) s
  s.setGreg 0x50020 (BitVec.ofNat 32 (h.tokpeak + h.slack * 2 ^ 16))

/-- An accepted image is written, in the order of R295, and is loaded. A halted module may start again (R28);
collectives of the image before end with it (log entry 46, DESIGN CHOICE). -/
def State.loadAccepted (s : State) (h : MboxHdr) (b : List Byte) (f : ImgFile) : State :=
  let ctr := s.freeCtr
  let seed := Config.freeNat ctr "job seed"
  let s := (State.tick1 s).keyHbm f.head.conf
  let s := s.mapCores fun i x => match f.cores[i.val]? with
    | some c => f.install seed c x
    | none => x
  let s := f.hbm.foldl (fun s r => s.hbmWrite r.1 r.2) s
  let s := globalCleared.foldl (fun s a => s.setGreg a (globReset a)) s
  let s := s.showImage f.head
  let s := s.extendMr 5 (sha384 (bytesAt b 0 128 ++ bytesAt b f.head.sectOff (64 * f.head.nsect)) ++ leBytes 4 f.signer.toNat)
  let s := { s with
    image := some (f.record ctr (s.gf 0x20024 8 6))
    shutter := { s.shutter with started := false, ringPos := 0, stopNext := false }
    coll := Collectives.reset
    svc := { s.svc with restoreFailed := false, restored := none, cursors := [], ingestAt := none, ckptAt := s.nowSec } }
  let s := (((s.setGf 0x40020 3 3 0).setGf 0x60C00 0 0 0).setGf 0x60C00 9 1 0).setGreg 0x50008 0#32
  State.loadEnds (s.setGreg 0x50000 (ldStatus true 0#16)) h 0#16

/-- LOAD_FINISHED: the loader ends its checks, and refuses the image or writes it (R295). -/
def execLoadFinished (s : State) : Host.Outcome State Fault Refusal :=
  .next (match s.loading with
    | none => s
    | some j =>
      let s := { s with loading := none }
      match s.checkImage j.bytes with
      | .error r => s.loadRefused j.hdr r
      | .ok f => s.loadAccepted j.hdr j.bytes f)

end Sys2Proof.Machine
end

