-- ==== Sys2Proof/Machine/Management.lean ====
section
/-! DEFINITION. Safelight and Loupe (R415–R417, R430, R431, R457, R458): PLDM, the I3C address, SPDM, and the monitor's
commands. The codes and layouts that other standards give are those standards' (log entry 36). -/

namespace Sys2Proof.Machine

/-! ## Safelight's PLDM (R415, R430, R431) -/

/-- Safelight's static address on SMBus and I3C (R430). -/
def State.staticAddress (s : State) : BitVec 7 := BitVec.ofNat 7 (0x60 + s.gf 0x30014 8 5)

/-- Safelight runs; in recovery it accepts firmware updates alone (R414). -/
def State.safelight (s : State) : Bool := decide (s.power.phase ≠ .off) && !s.gbit 0x10000 22

/-- An answer on Safelight's path. -/
def State.slReply (s : State) (bytes : List Byte) : State := s.emit (.reply 0x11 0#16 bytes)

/-- What a bundle does (R415): it is written to the slot that is not running, and marked next if it verifies; the manual names no
code for one that does not (log entry 53). -/
def State.takeBundle (s : State) (b : FirmwareBundle) : State × Half :=
  let slot := 1 - s.mgmt.running
  let good := b.signed && decide (s.mgmt.rollback ≤ b.version)
  let t := { s with mgmt := { s.mgmt with
    slots := setAt s.mgmt.slots slot ⟨b.image, b.version⟩
    next := if good then some slot else if s.mgmt.next = some slot then none else s.mgmt.next } }
  (t, if good then 0#16 else freeCode s.freeCtr "firmware verification code")

/-- FIRMWARE_UPDATE (R415). -/
def execFirmwareUpdate (session : Word) (b : FirmwareBundle) (s : State) : Host.Outcome State Fault Refusal :=
  .next (if s.power.phase = .off then s else s.pldm 2 session fun s => s.takeBundle b)

/-- SET_DATE_TIME (R431). -/
def execSetDateTime (utc : BitVec 64) (s : State) : Host.Outcome State Fault Refusal :=
  .next (if s.safelight then
      State.slReply { s with mgmt := { s.mgmt with utc := some (utc.toNat, s.nowSec) } } []
    else s)

/-- The cause of ALERT_N that reading a sensor settles (R431): a unit's state, the stop bath, a sensor with a critical limit. -/
def sensorCause (n : Nat) : Option Nat :=
  if 512 ≤ n then some 0 else if n = 258 then some 1 else if n < 260 && n ≠ 256 && n ≠ 257 then some 2 else none

/-- What a sensor reads, under the model's numbering (log entry 36); a measurement the outside decides is free. -/
def State.sensor (s : State) (n : Nat) : Option Nat :=
  if n < 48 then some (s.power.dieTemp.getD n 0)
  else if n < 56 then some (Config.freeNat s.freeCtr "HBM temperature")
  else if n = 56 then some s.power.inletTemp
  else if n = 57 then some (Config.freeNat s.freeCtr "input voltage")
  else if n = 58 then some (Config.freeNat s.freeCtr "input current")
  else if n = 59 then some (Config.freeNat s.freeCtr "module power")
  else if n = 60 then some (s.gf 0x3000C 1 0)
  else if n = 61 then some (s.power.dieTemp.foldl (fun a t => if a < t then t else a) 0)
  else if n = 256 then some s.lcs
  else if n = 257 then some (bit s.ready)
  else if n = 258 then some (bit s.halted)
  else if 512 ≤ n && n < 704 then some (s.unitHealth (n - 512)).state
  else none

/-- PLDM_SENSOR_READ (R431): the reading, and the alert that is now read. -/
def execPldmSensorRead (sensor : Half) (s : State) : Host.Outcome State Fault Refusal :=
  .next (if s.safelight then
      let s := s.tick1
      match s.sensor sensor.toNat with
      | none => s.emit (.reply 0x11 (BitVec.ofNat 16 (1 + Config.freeNat s.freeCtr "PLDM completion code" % 255)) [])
      | some v =>
        let s := { s with power := { s.power with
          alerts := s.power.alerts.filter fun a => decide (some a ≠ sensorCause sensor.toNat) } }
        s.slReply (leBytes 4 v)
    else s)

/-- PLDM_FRU_READ (R430): the record's contents are the part's. -/
def execPldmFruRead (s : State) : Host.Outcome State Fault Refusal :=
  .next (if s.safelight then s.slReply (Config.secret 0 "FRU record" []) else s)

/-- ENTDAA (R430). -/
def execEntdaa (addr : BitVec 7) (s : State) : Host.Outcome State Fault Refusal :=
  .next (if s.power.phase = .off then s else { s with mgmt := { s.mgmt with i3c := some addr } })

/-! ## SPDM (R416, R417) -/

/-- Safelight answers SPDM: the CSB that signs must be powered. -/
def State.spdmOn (s : State) : Bool := s.safelight && s.powered

/-- An SPDM answer; the transcript that later answers are signed over grows by it. -/
def State.spdm (s : State) (fresh : Bool) (bytes : List Byte) : State :=
  State.slReply { s with mgmt := { s.mgmt with spdm := if fresh then bytes else s.mgmt.spdm ++ bytes } } bytes

/-- An SPDM ERROR answer. -/
def State.spdmError (s : State) (code : Byte) : State := s.slReply [0x12#8, 0x7F#8, code, 0#8]

/-- An answer's first four bytes: version 1.2, code and two parameters. -/
def spdmHead (code p1 p2 : Byte) : List Byte := [0x12#8, code, p1, p2]

/-- A signature of the AK over the transcript and an answer so far. -/
def State.akSign (s : State) (bytes : List Byte) : List Byte :=
  bytesAt (Config.secret s.freeCtr "AK signature" (sha384 (s.mgmt.spdm ++ bytes))) 0 96

/-- GET_VERSION: version 1.2 alone; a new transcript begins. -/
def execGetVersion (s : State) : Host.Outcome State Fault Refusal :=
  .next (if s.spdmOn then s.spdm true [0x10#8, 4#8, 0#8, 0#8, 0#8, 1#8, 0#8, 0x12#8] else s)

/-- GET_CAPABILITIES: certificates, challenge, and signed measurements; no secure session and no mutual authentication. The
timing exponent and the buffer sizes are not given, and free. -/
def execGetCapabilities (s : State) : Host.Outcome State Fault Refusal :=
  .next (if s.spdmOn then
      let s := s.tick1
      s.spdm false (spdmHead 0x61#8 0#8 0#8 ++ [0#8, BitVec.ofNat 8 (Config.freeNat s.freeCtr "CTExponent"), 0#8, 0#8] ++
        leBytes 4 0x16 ++ leBytes 4 (Config.freeNat s.freeCtr "DataTransferSize") ++
        leBytes 4 (Config.freeNat s.freeCtr "MaxSPDMmsgSize"))
    else s)

/-- NEGOTIATE_ALGORITHMS: ECDSA P-384 and SHA-384, as far as the requester offers them. -/
def execNegotiateAlgorithms (base hash : Word) (s : State) : Host.Outcome State Fault Refusal :=
  .next (if s.spdmOn then
      s.spdm false (spdmHead 0x63#8 0#8 0#8 ++ leBytes 2 36 ++ [1#8, 0#8] ++ leBytes 4 4 ++ leBytes 4 (base &&& 0x80#32).toNat ++
        leBytes 4 (hash &&& 2#32).toNat ++ List.replicate 16 0#8)
    else s)

/-- GET_DIGESTS: slot 0 alone. -/
def execGetDigests (s : State) : Host.Outcome State Fault Refusal :=
  .next (if s.spdmOn then s.spdm false (spdmHead 1#8 0#8 1#8 ++ sha384 s.certChain) else s)

/-- GET_CERTIFICATE: a part of the chain of slot 0. -/
def execGetCertificate (slot : Byte) (offset length : Half) (s : State) : Host.Outcome State Fault Refusal :=
  .next (if !s.spdmOn then s
    else if slot ≠ 0#8 then s.spdmError 1#8
    else
      let rest := s.certChain.drop offset.toNat
      let part := rest.take length.toNat
      s.spdm false (spdmHead 2#8 0#8 0#8 ++ leBytes 2 part.length ++ leBytes 2 (rest.length - part.length) ++ part))

/-- CHALLENGE: signed with the AK. -/
def execChallenge (slot : Byte) (nonce : List Byte) (s : State) : Host.Outcome State Fault Refusal :=
  .next (if !s.spdmOn then s
    else if slot ≠ 0#8 then s.spdmError 1#8
    else
      let s := s.tick1
      let b := spdmHead 3#8 0#8 1#8 ++ sha384 s.certChain ++ bytesAt (Config.secret s.freeCtr "TRNG" []) 0 32 ++ leBytes 2 0
      s.spdm false (b ++ s.akSign (bytesAt nonce 0 32 ++ b)))

/-- Measurement block `i`: 1 to 8 are MR0 to MR7, 9 the raw fused identity. -/
def State.measurement (s : State) (i : Nat) : List Byte :=
  let v := if i = 9 then s.identity else s.mr (i - 1)
  [BitVec.ofNat 8 i, 1#8] ++ leBytes 2 (v.length + 3) ++ [if i = 9 then 0x82#8 else 1#8] ++ leBytes 2 v.length ++ v

/-- GET_MEASUREMENTS: index 0 asks how many blocks there are, 0xFF for all of them. -/
def execGetMeasurements (index : Byte) (signed : Bool) (nonce : List Byte) (s : State) : Host.Outcome State Fault Refusal :=
  .next (if !s.spdmOn then s
    else
      let i := index.toNat
      if 9 < i && i ≠ 0xFF then s.spdmError 1#8
      else
        let s := s.tick1
        let ids := if i = 0 then [] else if i = 0xFF then (List.range 9).map (· + 1) else [i]
        let body := ids.flatMap s.measurement
        let b := spdmHead 0x60#8 (if i = 0 then 9#8 else 0#8) 0#8 ++ [BitVec.ofNat 8 ids.length] ++ leBytes 3 body.length ++ body ++
          bytesAt (Config.secret s.freeCtr "TRNG" []) 0 32 ++ leBytes 2 0
        s.spdm false (if signed then b ++ s.akSign (bytesAt nonce 0 32 ++ b) else b))

/-! ## Loupe (R457, R458) -/

/-- Loupe accepts commands: DBGEN is strapped and the module is powered. -/
def State.loupeOn (s : State) : Bool := s.powered && s.gbit 0x30014 9

/-- A Loupe answer: OK or ERR with its code, and what its lines say, here as bytes (log entry 36). -/
def State.loupeSays (s : State) (code : Half) (bytes : List Byte) : State := s.emit (.reply 0x12 code bytes)

/-- Loupe's session has had no input for 600 s (R457). -/
def State.loupeIdle (s : State) (h : Word) : Bool :=
  s.sec.sessions.any fun x => decide (x.handle = h) && decide (x.used + 600 ≤ s.nowSec)

/-- A Loupe command: ignored without DBGEN; it is input of the session, if there is one that has not ended (R457). -/
def State.loupe (s : State) (f : State → State) : State :=
  if s.loupeOn then
    f (match s.mgmt.loupe with
      | some h => if s.loupeIdle h then s.endSessions fun x => x.handle = h else s.useSession h
      | none => s)
  else s

/-- HELP. -/
def execHelp (s : State) : Host.Outcome State Fault Refusal :=
  .next (s.loupe fun s => s.loupeSays 0#16 (ascii "HELP ID STATUS SENSORS HEALTH LOG AUTH PEEK POKE BAUD LOGOUT"))

/-- ID: the fused identity and the firmware versions. -/
def execId (s : State) : Host.Outcome State Fault Refusal :=
  .next (s.loupe fun s => s.loupeSays 0#16 (s.identity ++ s.mgmt.slots.flatMap fun f => leBytes 4 f.version))

/-- What STATUS and SENSORS show: READY, stop bath, class, pool, input and temperatures. -/
def State.telemetry (s : State) : List Byte :=
  leBytes 1 (bit s.ready) ++ leBytes 1 (bit s.halted) ++ leBytes 1 (s.gf 0x3000C 1 0) ++ leBytes 2 (s.gf 0x3000C 25 16) ++
    leBytes 4 (s.globRead 0x30010).toNat ++ leBytes 2 s.power.inletTemp ++ s.power.dieTemp.flatMap (leBytes 2)

/-- STATUS. -/
def execStatus (s : State) : Host.Outcome State Fault Refusal :=
  .next (s.loupe fun s => let s := s.tick1; s.loupeSays 0#16 s.telemetry)

/-- SENSORS. -/
def execSensors (s : State) : Host.Outcome State Fault Refusal :=
  .next (s.loupe fun s => let s := s.tick1; s.loupeSays 0#16 s.telemetry)

/-- HEALTH: an entry of the table with its GEN. -/
def execHealth (unit : Byte) (s : State) : Host.Outcome State Fault Refusal :=
  .next (s.loupe fun s => s.loupeSays 0#16 (s.unitHealth unit.toNat).bytes)

/-- The last `n` of a list. -/
def lastOf {α : Type} (n : Nat) (l : List α) : List α := l.drop (l.length - n)

/-- LOG: the last n entries of the event log and of the audit log. -/
def execLog (n : Nat) (s : State) : Host.Outcome State Fault Refusal :=
  .next (s.loupe fun s =>
    s.loupeSays 0#16 ((lastOf n s.htu.events).flatMap (fun e => leBytes 2 e.1.toNat ++ leBytes 6 e.2.toNat) ++
      (lastOf n s.sec.audit).flatten))

/-- AUTH CHAL (R425); with a session open there is none to open. -/
def execAuthChal (s : State) : Host.Outcome State Fault Refusal :=
  .next (s.loupe fun s =>
    if s.mgmt.loupe.isSome then s.loupeSays 0x0601#16 []
    else
      let (s, n) := s.challenge 0x12
      s.loupeSays 0#16 n)

/-- The audit note of a Loupe command (R428, R458). -/
def State.loupeNote (s : State) (action : Nat) (code : Half) (arg : List Byte) : AuditNote :=
  let h := match s.mgmt.loupe with
    | some h => h
    | none => 0#32
  { role := (match s.session h with
      | some x => x.role
      | none => 0)
    src := 0x12, action := 0x8000 + action, result := code, unit := 0xFFFFFFFF#32, session := h
    cred := (match s.session h with
      | some x => x.cred
      | none => 0#32)
    arg := arg }

/-- AUTH OPEN (R425, R458): an installer session. -/
def execAuthOpen (keyId : Word) (sig : List Byte) (s : State) : Host.Outcome State Fault Refusal :=
  .next (s.loupe fun s =>
    if s.mgmt.loupe.isSome then (s.audit (s.loupeNote 0x112 0x0601#16 [])).loupeSays 0x0601#16 []
    else
      let (t, code, h) := s.openSession 0x12 2 keyId sig
      let t := if code = 0#16 then { t with mgmt := { t.mgmt with loupe := some h } } else t
      (t.audit (t.loupeNote 0x112 code [])).loupeSays code [])

/-- Peek and poke: an installer session, not before PROVISIONED; audited before the effect, with a second entry for a failure
(R428, R458); the code of a refusal on a faulty log is free (log entry 53). -/
def State.loupeGuarded (s : State) (action : Nat) (arg : List Byte) (ok : Half) (f : State → State) : State :=
  let held := match s.mgmt.loupe with
    | some h => s.holds h 2
    | none => false
  if !held || s.lcs < 2 then (s.audit (s.loupeNote action 0x0601#16 arg)).loupeSays 0x0601#16 []
  else if s.sec.logBad then
    let s := s.tick1
    (s.setGf 0x10000 23 23 1).loupeSays (freeCode s.freeCtr "log fault result") []
  else if ok ≠ 0#16 then (s.audit (s.loupeNote action ok arg)).loupeSays ok []
  else f (s.audit (s.loupeNote action 0#16 arg))

/-- A word of PEEK: read now, or held while a slice tests its unit (R401). -/
def State.peekWord (s : State) (a : Nat) : State × List Byte :=
  match winOf a with
  | some (c, off) =>
    if s.available c && off < 0x10000 && s.slicing c off then (s.holdRequest c (.access a none), [])
    else
      let (s, w) := s.bar0Read a
      (s, leBytes 4 w.toNat)
  | none =>
    let (s, w) := s.bar0Read a
    (s, leBytes 4 w.toNat)

/-- PEEK (R457, R458). -/
def execPeek (addr : BitVec 28) (n : Nat) (s : State) : Host.Outcome State Fault Refusal :=
  .next (s.loupe fun s =>
    s.loupeGuarded 0x111 (leBytes 4 addr.toNat) (if n = 0 || 64 < n then 0x0605#16 else 0#16) fun s =>
      let (s, bs) := (List.range n).foldl (fun (r : State × List Byte) i =>
        let (t, b) := r.1.peekWord (addr.toNat / 4 * 4 + 4 * i)
        (t, r.2 ++ b)) (s, [])
      s.loupeSays 0#16 bs)

/-- Where POKE is refused: identity, fuses and security (R458). -/
def pokeBarred (a : Nat) : Bool := decide (a < 0x1000) || (decide (0x10000 ≤ a) && decide (a < 0x20000))

/-- A POKE that is carried out. -/
def State.pokes (s : State) (a : Nat) : Bool :=
  s.loupeOn && s.accessible && !pokeBarred a && !s.sec.logBad && decide (2 ≤ s.lcs) &&
    match s.mgmt.loupe with
    | some h => s.holds h 2 && !s.loupeIdle h
    | none => false

/-- POKE (R7, R457, R458). -/
def execPoke (addr : BitVec 28) (value : Word) (s : State) : Host.Outcome State Fault Refusal :=
  let a := addr.toNat / 4 * 4
  if s.pokes a && s.reservedOnes a value then .fault (.reservedFieldWrite a)
  else .next (s.loupe fun s =>
    s.loupeGuarded 0x110 (leBytes 4 addr.toNat ++ leBytes 4 value.toNat) (if pokeBarred a then 0x0601#16 else 0#16) fun s =>
      (s.regWrite a value).loupeSays 0#16 [])

/-- BAUD (R457). -/
def execBaud (rate : Nat) (s : State) : Host.Outcome State Fault Refusal :=
  .next (s.loupe fun s =>
    if [115200, 921600, 1500000, 3000000].contains rate then
      State.loupeSays { s with mgmt := { s.mgmt with baud := rate } } 0#16 []
    else s.loupeSays 0x0605#16 [])

/-- LOGOUT (R428, R457). -/
def execLogout (s : State) : Host.Outcome State Fault Refusal :=
  .next (s.loupe fun s =>
    match s.mgmt.loupe with
    | none => s.loupeSays 0#16 []
    | some h =>
      let s := s.tick1
      let s := s.audit (s.loupeNote (Config.freeNat s.freeCtr "Loupe action code" % 0x8000) 0#16 [])
      let s := s.endSessions fun x => x.handle = h
      State.loupeSays { s with mgmt := { s.mgmt with loupe := none } } 0#16 [])

/-- LOUPE_IDLE_TIMEOUT (R457): 600 s without input. -/
def execLoupeIdleTimeout (s : State) : Host.Outcome State Fault Refusal :=
  .next (match s.mgmt.loupe with
    | none => s
    | some h => if s.loupeIdle h then s.endSessions fun x => x.handle = h else s)

end Sys2Proof.Machine
end

