-- ==== Sys2Proof/Machine/Dispatch.lean ====
section
/-! DEFINITION. One arm for each command of the block, in the opcode table's order. -/

namespace Sys2Proof.Machine

/-- A command's effect on everything but the queue. -/
def exec (i : Instr) (s : State) : Host.Outcome State Fault Refusal :=
  match i with
  | .shutterTick => Sys2Proof.Machine.execShutterTick s
  | .guardBand late => Sys2Proof.Machine.execGuardBand late s
  | .commitApply b => Sys2Proof.Machine.execCommitApply b s
  | .powerClassChange => Sys2Proof.Machine.execPowerClassChange s
  | .globalStepAdvance c => Sys2Proof.Machine.execGlobalStepAdvance c s
  | .predictorEnabledSet c j => Sys2Proof.Machine.execPredictorEnabledSet c j s
  | .derateAtTick => Sys2Proof.Machine.execDerateAtTick s
  | .jobStart => Sys2Proof.Machine.execJobStart s
  | .linkPlanCheck => Sys2Proof.Machine.execLinkPlanCheck s
  | .rosterEpochSwitch => Sys2Proof.Machine.execRosterEpochSwitch s
  | .tickFlit port block arriveNs intervalNs => Sys2Proof.Machine.execTickFlit port block arriveNs intervalNs s
  | .upstreamTickFlit port block => Sys2Proof.Machine.execUpstreamTickFlit port block s
  | .tickInEdge offsetNs intervalNs => Sys2Proof.Machine.execTickInEdge offsetNs intervalNs s
  | .lockTimeout => Sys2Proof.Machine.execLockTimeout s
  | .tickSyncLost => Sys2Proof.Machine.execTickSyncLost s
  | .echoMeasurement port => Sys2Proof.Machine.execEchoMeasurement port s
  | .echo port reply id residenceNs roundTripNs => Sys2Proof.Machine.execEcho port reply id residenceNs roundTripNs s
  | .shtCommitGo immediate => Sys2Proof.Machine.execShtCommitGo immediate s
  | .shtCommitCancel => Sys2Proof.Machine.execShtCommitCancel s
  | .shtKeyWrite session => Sys2Proof.Machine.execShtKeyWrite session s
  | .shtFnLoRead => Sys2Proof.Machine.execShtFnLoRead s
  | .coreCommitGo c immediate => Sys2Proof.Machine.execCoreCommitGo c immediate s
  | .coreCommitCancel c => Sys2Proof.Machine.execCoreCommitCancel c s
  | .lnkCommitGo immediate => Sys2Proof.Machine.execLnkCommitGo immediate s
  | .lnkCommitCancel => Sys2Proof.Machine.execLnkCommitCancel s
  | .lnkKeyWrite session => Sys2Proof.Machine.execLnkKeyWrite session s
  | .cpmCommitGo immediate => Sys2Proof.Machine.execCpmCommitGo immediate s
  | .cpmCommitCancel => Sys2Proof.Machine.execCpmCommitCancel s
  | .cpmKeyWrite session => Sys2Proof.Machine.execCpmKeyWrite session s
  | .hifDbkeyWrite session => Sys2Proof.Machine.execHifDbkeyWrite session s
  | .hifDoorbellWrite bits => Sys2Proof.Machine.execHifDoorbellWrite bits s
  | .htuTkeyWrite session => Sys2Proof.Machine.execHtuTkeyWrite session s
  | .satcntClr c => Sys2Proof.Machine.execSatcntClr c s
  | .registerWrite addr value => Sys2Proof.Machine.execRegisterWrite addr value s
  | .end_ at_ => Sys2Proof.Machine.execEnd at_ s
  | .loopi at_ lc lenm1 count => Sys2Proof.Machine.execLoopi at_ lc lenm1 count s
  | .loopr at_ lc lenm1 rs rm => Sys2Proof.Machine.execLoopr at_ lc lenm1 rs rm s
  | .waitx at_ ec n => Sys2Proof.Machine.execWaitx at_ ec n s
  | .waitxRelease c => Sys2Proof.Machine.execWaitxRelease c s
  | .commit at_ => Sys2Proof.Machine.execCommit at_ s
  | .sqStop at_ code => Sys2Proof.Machine.execSqStop at_ code s
  | .signal at_ q rs => Sys2Proof.Machine.execSignal at_ q rs s
  | .scarry at_ n rs => Sys2Proof.Machine.execScarry at_ n rs s
  | .dovr at_ ch sel rs => Sys2Proof.Machine.execDovr at_ ch sel rs s
  | .sld at_ rd o miss => Sys2Proof.Machine.execSld at_ rd o miss s
  | .sst at_ rs o => Sys2Proof.Machine.execSst at_ rs o s
  | .movlc at_ rd lc => Sys2Proof.Machine.execMovlc at_ rd lc s
  | .movfn at_ rd hi => Sys2Proof.Machine.execMovfn at_ rd hi s
  | .add at_ o => Sys2Proof.Machine.execAdd at_ o s
  | .sub at_ o => Sys2Proof.Machine.execSub at_ o s
  | .mul at_ o => Sys2Proof.Machine.execMul at_ o s
  | .and at_ o => Sys2Proof.Machine.execAnd at_ o s
  | .or at_ o => Sys2Proof.Machine.execOr at_ o s
  | .xor at_ o => Sys2Proof.Machine.execXor at_ o s
  | .shl at_ o => Sys2Proof.Machine.execShl at_ o s
  | .shr at_ o => Sys2Proof.Machine.execShr at_ o s
  | .sra at_ o => Sys2Proof.Machine.execSra at_ o s
  | .min at_ o => Sys2Proof.Machine.execMin at_ o s
  | .max at_ o => Sys2Proof.Machine.execMax at_ o s
  | .minu at_ o => Sys2Proof.Machine.execMinu at_ o s
  | .maxu at_ o => Sys2Proof.Machine.execMaxu at_ o s
  | .addi at_ o => Sys2Proof.Machine.execAddi at_ o s
  | .andi at_ o => Sys2Proof.Machine.execAndi at_ o s
  | .ori at_ o => Sys2Proof.Machine.execOri at_ o s
  | .xori at_ o => Sys2Proof.Machine.execXori at_ o s
  | .shli at_ o => Sys2Proof.Machine.execShli at_ o s
  | .shri at_ o => Sys2Proof.Machine.execShri at_ o s
  | .srai at_ o => Sys2Proof.Machine.execSrai at_ o s
  | .lil at_ rd imm => Sys2Proof.Machine.execLil at_ rd imm s
  | .lih at_ rd imm => Sys2Proof.Machine.execLih at_ rd imm s
  | .pcmp at_ pd cond rs rt => Sys2Proof.Machine.execPcmp at_ pd cond rs rt s
  | .pcmpi at_ pd cond rs imm => Sys2Proof.Machine.execPcmpi at_ pd cond rs imm s
  | .plog at_ pd pa pb fn => Sys2Proof.Machine.execPlog at_ pd pa pb fn s
  | .dmaStart at_ ch d descMiss => Sys2Proof.Machine.execDmaStart at_ ch d descMiss s
  | .dmaStartOvr at_ ch d descMiss => Sys2Proof.Machine.execDmaStartOvr at_ ch d descMiss s
  | .dmaComplete c ch fate => Sys2Proof.Machine.execDmaComplete c ch fate s
  | .crcIfetchTrap c bundle => Sys2Proof.Machine.execCrcIfetchTrap c bundle s
  | .instructionComplete c u fate => Sys2Proof.Machine.execInstructionComplete c u fate s
  | .tload at_ o => Sys2Proof.Machine.execTload at_ o s
  | .tmul at_ o qm1 => Sys2Proof.Machine.execTmul at_ o qm1 s
  | .tmulr at_ o kmode rs => Sys2Proof.Machine.execTmulr at_ o kmode rs s
  | .tprint at_ o => Sys2Proof.Machine.execTprint at_ o s
  | .vadd at_ o => Sys2Proof.Machine.execVadd at_ o s
  | .vsub at_ o => Sys2Proof.Machine.execVsub at_ o s
  | .vmul at_ o => Sys2Proof.Machine.execVmul at_ o s
  | .vfma at_ o => Sys2Proof.Machine.execVfma at_ o s
  | .vmin at_ o => Sys2Proof.Machine.execVmin at_ o s
  | .vmax at_ o => Sys2Proof.Machine.execVmax at_ o s
  | .vabs at_ o => Sys2Proof.Machine.execVabs at_ o s
  | .vneg at_ o => Sys2Proof.Machine.execVneg at_ o s
  | .vmov at_ o => Sys2Proof.Machine.execVmov at_ o s
  | .vrcp at_ o => Sys2Proof.Machine.execVrcp at_ o s
  | .vrsq at_ o => Sys2Proof.Machine.execVrsq at_ o s
  | .vexp2 at_ o => Sys2Proof.Machine.execVexp2 at_ o s
  | .vlog2 at_ o => Sys2Proof.Machine.execVlog2 at_ o s
  | .vdiv at_ o => Sys2Proof.Machine.execVdiv at_ o s
  | .vsqrt at_ o => Sys2Proof.Machine.execVsqrt at_ o s
  | .vshl at_ o => Sys2Proof.Machine.execVshl at_ o s
  | .vshr at_ o => Sys2Proof.Machine.execVshr at_ o s
  | .vsra at_ o => Sys2Proof.Machine.execVsra at_ o s
  | .vand at_ o => Sys2Proof.Machine.execVand at_ o s
  | .vor at_ o => Sys2Proof.Machine.execVor at_ o s
  | .vxor at_ o => Sys2Proof.Machine.execVxor at_ o s
  | .vnot at_ o => Sys2Proof.Machine.execVnot at_ o s
  | .vpopc at_ o => Sys2Proof.Machine.execVpopc at_ o s
  | .vcmp at_ o => Sys2Proof.Machine.execVcmp at_ o s
  | .vmlog at_ o => Sys2Proof.Machine.execVmlog at_ o s
  | .vmlane at_ ve lo hi md => Sys2Proof.Machine.execVmlane at_ ve lo hi md s
  | .vmsr at_ ve rs h md => Sys2Proof.Machine.execVmsr at_ ve rs h md s
  | .vspl at_ ve msk mz rs vd => Sys2Proof.Machine.execVspl at_ ve msk mz rs vd s
  | .vscl at_ ve ssrc cap sidx qexp => Sys2Proof.Machine.execVscl at_ ve ssrc cap sidx qexp s
  | .vcvtw at_ o => Sys2Proof.Machine.execVcvtw at_ o s
  | .vcvtn at_ o => Sys2Proof.Machine.execVcvtn at_ o s
  | .vcvti at_ o => Sys2Proof.Machine.execVcvti at_ o s
  | .vcvtf at_ o => Sys2Proof.Machine.execVcvtf at_ o s
  | .vacc at_ o => Sys2Proof.Machine.execVacc at_ o s
  | .vred at_ o => Sys2Proof.Machine.execVred at_ o s
  | .vrax at_ o => Sys2Proof.Machine.execVrax at_ o s
  | .vld at_ o => Sys2Proof.Machine.execVld at_ o s
  | .vst at_ o => Sys2Proof.Machine.execVst at_ o s
  | .vldv at_ o => Sys2Proof.Machine.execVldv at_ o s
  | .vstv at_ o => Sys2Proof.Machine.execVstv at_ o s
  | .xeCopy at_ o => Sys2Proof.Machine.execXeCopy at_ o s
  | .xeTranspose at_ o => Sys2Proof.Machine.execXeTranspose at_ o s
  | .xeGather at_ o => Sys2Proof.Machine.execXeGather at_ o s
  | .xeScatter at_ o => Sys2Proof.Machine.execXeScatter at_ o s
  | .xeScatterAdd at_ o => Sys2Proof.Machine.execXeScatterAdd at_ o s
  | .uupd at_ d pass => Sys2Proof.Machine.execUupd at_ d pass s
  | .urow at_ d rj nrows => Sys2Proof.Machine.execUrow at_ d rj nrows s
  | .ugfac at_ f bank ra ofs => Sys2Proof.Machine.execUgfac at_ f bank ra ofs s
  | .ufilt at_ d bank ra rb rn nmx => Sys2Proof.Machine.execUfilt at_ d bank ra rb rn nmx s
  | .uflist at_ d bank ra => Sys2Proof.Machine.execUflist at_ d bank ra s
  | .uadv at_ => Sys2Proof.Machine.execUadv at_ s
  | .mdodge at_ o => Sys2Proof.Machine.execMdodge at_ o s
  | .mburn at_ o => Sys2Proof.Machine.execMburn at_ o s
  | .mrefresh at_ o => Sys2Proof.Machine.execMrefresh at_ o s
  | .mscore at_ o => Sys2Proof.Machine.execMscore at_ o s
  | .msload at_ o => Sys2Proof.Machine.execMsload at_ o s
  | .msstore at_ o => Sys2Proof.Machine.execMsstore at_ o s
  | .mremap at_ d slot => Sys2Proof.Machine.execMremap at_ d slot s
  | .ppred at_ o => Sys2Proof.Machine.execPpred at_ o s
  | .pctl at_ j en => Sys2Proof.Machine.execPctl at_ j en s
  | .dataFlit port f => Sys2Proof.Machine.execDataFlit port f s
  | .ack port aseq => Sys2Proof.Machine.execAck port aseq s
  | .nak port eseq => Sys2Proof.Machine.execNak port eseq s
  | .ackTimer port => Sys2Proof.Machine.execAckTimer port s
  | .tagFlit port f => Sys2Proof.Machine.execTagFlit port f s
  | .keyFlit port k => Sys2Proof.Machine.execKeyFlit port k s
  | .linkTraining port t => Sys2Proof.Machine.execLinkTraining port t s
  | .handshakeTimeout port => Sys2Proof.Machine.execHandshakeTimeout port s
  | .keyGeneration port => Sys2Proof.Machine.execKeyGeneration port s
  | .send port msg => Sys2Proof.Machine.execSend port msg s
  | .startRecord r hbmBad => Sys2Proof.Machine.execStartRecord r hbmBad s
  | .cdata port msg => Sys2Proof.Machine.execCdata port msg s
  | .collectiveComplete => Sys2Proof.Machine.execCollectiveComplete s
  | .greq port msg hbmBad => Sys2Proof.Machine.execGreq port msg hbmBad s
  | .gdata port msg => Sys2Proof.Machine.execGdata port msg s
  | .announce src rec => Sys2Proof.Machine.execAnnounce src rec s
  | .staged src => Sys2Proof.Machine.execStaged src s
  | .refused src code => Sys2Proof.Machine.execRefused src code s
  | .cancel src => Sys2Proof.Machine.execCancel src s
  | .rosterStart src fn => Sys2Proof.Machine.execRosterStart src fn s
  | .freeze src step t => Sys2Proof.Machine.execFreeze src step t s
  | .fix src step => Sys2Proof.Machine.execFix src step s
  | .stagedDeadline => Sys2Proof.Machine.execStagedDeadline s
  | .load h img => Sys2Proof.Machine.execLoad h img s
  | .loadFinished => Sys2Proof.Machine.execLoadFinished s
  | .start h fn => Sys2Proof.Machine.execStart h fn s
  | .stop h => Sys2Proof.Machine.execStop h s
  | .restore h r => Sys2Proof.Machine.execRestore h r s
  | .checkpoint h t => Sys2Proof.Machine.execCheckpoint h t s
  | .checkpointInterval t => Sys2Proof.Machine.execCheckpointInterval t s
  | .checkpointChunk hbmBad => Sys2Proof.Machine.execCheckpointChunk hbmBad s
  | .checkpointSeal => Sys2Proof.Machine.execCheckpointSeal s
  | .setInterval h seconds => Sys2Proof.Machine.execSetInterval h seconds s
  | .ingestOpen h a => Sys2Proof.Machine.execIngestOpen h a s
  | .ingestClose h stream => Sys2Proof.Machine.execIngestClose h stream s
  | .ingestRecord stream source arrival bytes tag => Sys2Proof.Machine.execIngestRecord stream source arrival bytes tag s
  | .batchReady stream => Sys2Proof.Machine.execBatchReady stream s
  | .ingestStall stream => Sys2Proof.Machine.execIngestStall stream s
  | .nvmeAttach h a => Sys2Proof.Machine.execNvmeAttach h a s
  | .nvmeDetach h qp => Sys2Proof.Machine.execNvmeDetach h qp s
  | .nvmeCompletion qp cid status => Sys2Proof.Machine.execNvmeCompletion qp cid status s
  | .nvmeTimeout qp cid => Sys2Proof.Machine.execNvmeTimeout qp cid s
  | .hostDmaComplete d => Sys2Proof.Machine.execHostDmaComplete d s
  | .notifyRing h q base entries => Sys2Proof.Machine.execNotifyRing h q base entries s
  | .serveOpen h a => Sys2Proof.Machine.execServeOpen h a s
  | .serveClose h => Sys2Proof.Machine.execServeClose h s
  | .serveRequest stream tokens => Sys2Proof.Machine.execServeRequest stream tokens s
  | .kvRead h region first count => Sys2Proof.Machine.execKvRead h region first count s
  | .publish h t => Sys2Proof.Machine.execPublish h t s
  | .rosterChange h rec => Sys2Proof.Machine.execRosterChange h rec s
  | .healthRead h => Sys2Proof.Machine.execHealthRead h s
  | .sessionChallenge h => Sys2Proof.Machine.execSessionChallenge h s
  | .sessionOpen h role keyId sig => Sys2Proof.Machine.execSessionOpen h role keyId sig s
  | .sessionClose h => Sys2Proof.Machine.execSessionClose h s
  | .sessionIdleTimeout handle => Sys2Proof.Machine.execSessionIdleTimeout handle s
  | .roleLockExpiry role => Sys2Proof.Machine.execRoleLockExpiry role s
  | .jobKey h blob => Sys2Proof.Machine.execJobKey h blob s
  | .jobKeyClear h => Sys2Proof.Machine.execJobKeyClear h s
  | .credSet h role key => Sys2Proof.Machine.execCredSet h role key s
  | .memberKeys h entries => Sys2Proof.Machine.execMemberKeys h entries s
  | .signerSet h index key => Sys2Proof.Machine.execSignerSet h index key s
  | .lifecycle h target => Sys2Proof.Machine.execLifecycle h target s
  | .auditRead h first count nonce => Sys2Proof.Machine.execAuditRead h first count nonce s
  | .unitFence h => Sys2Proof.Machine.execUnitFence h s
  | .unitUnfence h => Sys2Proof.Machine.execUnitUnfence h s
  | .bar2Access offset write len hbmBad => Sys2Proof.Machine.execBar2Access offset write len hbmBad s
  | .contactSheetRingWrite c => Sys2Proof.Machine.execContactSheetRingWrite c s
  | .patrolRead c mem upset => Sys2Proof.Machine.execPatrolRead c mem upset s
  | .refetchComplete c line hbmBad => Sys2Proof.Machine.execRefetchComplete c line hbmBad s
  | .missEntryExpiry c line => Sys2Proof.Machine.execMissEntryExpiry c line s
  | .bucketLeak b => Sys2Proof.Machine.execBucketLeak b s
  | .inServiceSlice c seg r => Sys2Proof.Machine.execInServiceSlice c seg r s
  | .sliceEnd c => Sys2Proof.Machine.execSliceEnd c s
  | .coverageExpired => Sys2Proof.Machine.execCoverageExpired s
  | .canaryMeasurement sweeps => Sys2Proof.Machine.execCanaryMeasurement sweeps s
  | .testRequestInService ask test => Sys2Proof.Machine.execTestRequestInService ask test s
  | .testRequestFull ask test => Sys2Proof.Machine.execTestRequestFull ask test s
  | .fullTestStart => Sys2Proof.Machine.execFullTestStart s
  | .testDone e => Sys2Proof.Machine.execTestDone e s
  | .coldStart straps => Sys2Proof.Machine.execColdStart straps s
  | .startupReady f => Sys2Proof.Machine.execStartupReady f s
  | .moduleReset straps => Sys2Proof.Machine.execModuleReset straps s
  | .rstNRelease straps => Sys2Proof.Machine.execRstNRelease straps s
  | .perstN => Sys2Proof.Machine.execPerstN s
  | .flrPf0 => Sys2Proof.Machine.execFlrPf0 s
  | .flrPf1 => Sys2Proof.Machine.execFlrPf1 s
  | .inputLow => Sys2Proof.Machine.execInputLow s
  | .inputRecovered => Sys2Proof.Machine.execInputRecovered s
  | .inputPowerFail => Sys2Proof.Machine.execInputPowerFail s
  | .inputOvervoltage => Sys2Proof.Machine.execInputOvervoltage s
  | .dieOverTemperature sensor celsius => Sys2Proof.Machine.execDieOverTemperature sensor celsius s
  | .dieTempStep => Sys2Proof.Machine.execDieTempStep s
  | .coolantInletHigh celsius => Sys2Proof.Machine.execCoolantInletHigh celsius s
  | .thermalForceLift => Sys2Proof.Machine.execThermalForceLift s
  | .thermalTrip => Sys2Proof.Machine.execThermalTrip s
  | .refclkLost => Sys2Proof.Machine.execRefclkLost s
  | .refclkTimeout => Sys2Proof.Machine.execRefclkTimeout s
  | .refclkReturn => Sys2Proof.Machine.execRefclkReturn s
  | .modulePowerOff session => Sys2Proof.Machine.execModulePowerOff session s
  | .shutdownStageLimit => Sys2Proof.Machine.execShutdownStageLimit s
  | .modulePowerOn => Sys2Proof.Machine.execModulePowerOn s
  | .moduleResetRequest session straps => Sys2Proof.Machine.execModuleResetRequest session straps s
  | .firmwareUpdate session b => Sys2Proof.Machine.execFirmwareUpdate session b s
  | .setDateTime utc => Sys2Proof.Machine.execSetDateTime utc s
  | .pldmSensorRead sensor => Sys2Proof.Machine.execPldmSensorRead sensor s
  | .pldmFruRead => Sys2Proof.Machine.execPldmFruRead s
  | .entdaa addr => Sys2Proof.Machine.execEntdaa addr s
  | .getVersion => Sys2Proof.Machine.execGetVersion s
  | .getCapabilities => Sys2Proof.Machine.execGetCapabilities s
  | .negotiateAlgorithms base hash => Sys2Proof.Machine.execNegotiateAlgorithms base hash s
  | .getDigests => Sys2Proof.Machine.execGetDigests s
  | .getCertificate slot offset length => Sys2Proof.Machine.execGetCertificate slot offset length s
  | .challenge slot nonce => Sys2Proof.Machine.execChallenge slot nonce s
  | .getMeasurements index signed nonce => Sys2Proof.Machine.execGetMeasurements index signed nonce s
  | .help => Sys2Proof.Machine.execHelp s
  | .id => Sys2Proof.Machine.execId s
  | .status => Sys2Proof.Machine.execStatus s
  | .sensors => Sys2Proof.Machine.execSensors s
  | .health unit => Sys2Proof.Machine.execHealth unit s
  | .log n => Sys2Proof.Machine.execLog n s
  | .authChal => Sys2Proof.Machine.execAuthChal s
  | .authOpen keyId sig => Sys2Proof.Machine.execAuthOpen keyId sig s
  | .peek addr n => Sys2Proof.Machine.execPeek addr n s
  | .poke addr value => Sys2Proof.Machine.execPoke addr value s
  | .baud rate => Sys2Proof.Machine.execBaud rate s
  | .logout => Sys2Proof.Machine.execLogout s
  | .loupeIdleTimeout => Sys2Proof.Machine.execLoupeIdleTimeout s
  | .perstNDeassertion => Sys2Proof.Machine.execPerstNDeassertion s
  | .onDieErrorCheckAndScrub stack => Sys2Proof.Machine.execOnDieErrorCheckAndScrub stack s
  | .fecCodeword port word => Sys2Proof.Machine.execFecCodeword port word s
  | .pcieReplay => Sys2Proof.Machine.execPcieReplay s
  | .remapRecordWrite c => Sys2Proof.Machine.execRemapRecordWrite c s
  | .ageingRecordWrite => Sys2Proof.Machine.execAgeingRecordWrite s

end Sys2Proof.Machine
end

