-- ==== Sys2Proof/WellFormed.lean ====
section
/-! DEFINITION. Which commands the interfaces can carry: an instruction of a frame program holds no operand value that its
encoding reserves (R221–R273), and a flit, header, key or sweep has the length its format gives it. -/

namespace Sys2Proof

/-- The source types that operation classes F, I and B take (R263). -/
def styIsF (s : BitVec 2) : Bool := s = 0#2 || s = 2#2 || s = 3#2
def styIsI (s : BitVec 2) : Bool := s = 1#2
def styIsB (s : BitVec 2) : Bool := s = 0#2 || s = 1#2

/-- A format code of R67 that an encoding may name. -/
def fmtCode (f : BitVec 4) : Bool := decide (1 ≤ f.toNat) && decide (f.toNat ≤ 10)

/-- Layout and weight format of TLOAD agree (R259). -/
def TLoadOp.wf (o : TLoadOp) : Bool :=
  let f := o.wfmt.toNat
  (if o.lay = 2#4 || o.lay = 6#4 then (decide (1 ≤ f) && decide (f ≤ 4)) || decide (f = 10)
   else if o.lay = 4#4 then decide (5 ≤ f) && decide (f ≤ 9)
   else decide (o.lay = 5#4) && fmtCode o.wfmt) &&
    (if o.lay = 5#4 then decide (o.slot.toNat ≤ 50) else decide (o.qm1 = 15#4) && decide (o.slot = 0#6) && !o.echk) &&
    (o.echk || decide (o.er = 0#5))

/-- The fields of a product (R260): integer weights go with integer activations, and transposed dense weights are not MX. -/
def TMulOp.wf (o : TMulOp) : Bool :=
  fmtCode o.wfmt && fmtCode o.afmt && decide (o.wfmt = 10#4 ↔ o.afmt = 10#4) &&
    !(decide (o.cfg = 1#2) && decide (5 ≤ o.wfmt.toNat) && decide (o.wfmt.toNat ≤ 9))

/-- A reduction's operation and source type (R270). -/
def VrOp.typed (o : VrOp) : Bool :=
  if o.rop.toNat ≤ 2 then styIsF o.sty || styIsI o.sty
  else if o.rop = 3#3 then styIsF o.sty
  else styIsB o.sty

/-- A mask edit's count is a register or an immediate, the other field 0 (R273). -/
def MEditOp.wf (o : MEditOp) : Bool := if o.kr then decide (o.kimm = 0#16) else decide (o.rk = 0#5)

/-- A mailbox header's ARG is 24 bytes (R345). -/
def MboxHdr.wf (h : MboxHdr) : Bool := decide (h.arg.length = 24)

/-- A measurement sweep reads every canary: 1,280 margins (R406). -/
def sweepsWf (l : List (List Int)) : Bool := l.all fun s => decide (s.length = 1280)

/-- A finding of the shutdown test: three tests, physical cores, and at most 52 sensors and references (R396). -/
def ShutdownFound.wf (f : ShutdownFound) : Bool :=
  decide (f.tests.length = 3) && f.cores.all (fun k => decide (k < 156)) && decide (f.sensors ≤ 52)

/-- A unary operation of form VA holds VB = 0 (R264). -/
def VaOp.unary (o : VaOp) : Bool := decide (o.vb = 0#9)

/-- The mailbox header of a command that has one. -/
def Instr.hdr : Instr → Option MboxHdr
  | .load h _ | .start h _ | .stop h | .restore h _ | .checkpoint h _ | .setInterval h _ | .ingestOpen h _
  | .ingestClose h _ | .nvmeAttach h _ | .nvmeDetach h _ | .notifyRing h _ _ _ | .serveOpen h _ | .serveClose h
  | .kvRead h _ _ _ | .publish h _ | .rosterChange h _ | .healthRead h | .sessionChallenge h | .sessionOpen h _ _ _
  | .sessionClose h | .jobKey h _ | .jobKeyClear h | .credSet h _ _ | .memberKeys h _ | .signerSet h _ _
  | .lifecycle h _ | .auditRead h _ _ _ | .unitFence h | .unitUnfence h => some h
  | _ => none

/-- A status code other than "no error": of a class 1 to 7, with a low byte from 0x01 on (R8). -/
def statusCode (code : Half) : Bool :=
  decide (1 ≤ code.toNat / 256) && decide (code.toNat / 256 ≤ 7) && decide (code.toNat % 256 ≠ 0)

/-- The operands of a row other than its mailbox header hold values that the row's encoding or format allows. -/
def Instr.operandsWf : Instr → Bool
  | .loopi a _ _ _ | .loopr a _ _ _ _ | .waitx a _ _ | .end_ a => a.guard.isNone
  | .pcmp _ _ cond _ _ | .pcmpi _ _ cond _ _ => decide (cond.toNat ≤ 5)
  | .tload _ o => o.wf
  | .tmul _ o qm1 => o.wf && (decide (2 ≤ o.cfg.toNat) || decide (qm1 = 15#4))
  | .tmulr _ o _ _ => o.wf && decide (o.cfg = 0#2)
  | .tprint _ o => o.rsen || decide (o.rs = 0#3)
  | .vadd _ o | .vsub _ o | .vmul _ o | .vmin _ o | .vmax _ o => styIsF o.sty || styIsI o.sty
  | .vabs _ o | .vneg _ o | .vmov _ o => (styIsF o.sty || styIsI o.sty) && o.unary
  | .vfma _ o | .vdiv _ o => styIsF o.sty
  | .vrcp _ o | .vrsq _ o | .vexp2 _ o | .vlog2 _ o | .vsqrt _ o | .vcvti _ o => styIsF o.sty && o.unary
  | .vshl _ o | .vshr _ o | .vsra _ o => styIsI o.sty
  | .vcvtf _ o => styIsI o.sty && o.unary
  | .vand _ o | .vor _ o | .vxor _ o => styIsB o.sty
  | .vnot _ o | .vpopc _ o => styIsB o.sty && o.unary
  | .vcmp _ o => (styIsF o.sty || styIsI o.sty) && decide (o.cond.toNat ≤ 5)
  | .vcvtw _ o | .vcvtn _ o => fmtCode o.fmt
  | .vred _ o => o.typed && decide (o.nm1 = 0#6) && !o.mz
  | .vrax _ o => o.typed && decide (o.nm1 ≠ 0#6) && decide (o.va.toNat + o.nm1.toNat ≤ 511)
  | .vld _ o | .vst _ o => decide (o.vl.toNat + o.lnm1.toNat ≤ 2047)
  | .vldv _ o | .vstv _ o => decide (o.esz.toNat ≤ 2)
  | .xeCopy _ o | .xeTranspose _ o | .xeGather _ o | .xeScatter _ o | .xeScatterAdd _ o => decide (o.desc.toNat ≤ 23)
  | .uupd _ _ pass => decide (pass.toNat ≤ 4)
  | .urow _ _ _ n => decide (n ≠ 0#12)
  | .mdodge _ o | .mburn _ o | .mrefresh _ o => o.wf
  | .mscore _ o => !o.src || (!o.gf && !o.acc && decide (o.bank = 0#3) && decide (o.ra = 0#5) && decide (o.ofs = 0#9))
  | .mremap _ _ slot => decide (slot.toNat ≤ 50)
  | .dataFlit _ f | .tagFlit _ f => decide (f.bytes.length = 256)
  | .keyFlit _ (.handshake eph _ cert sig dik) =>
    decide (eph.length = 97) && decide (cert.length = 48) && decide (sig.length = 96) && decide (dik.length = 97)
  | .refused _ code => statusCode code
  | .canaryMeasurement sweeps => sweepsWf sweeps
  | .startupReady f => decide (f.slotOk.length = 2) && sweepsWf f.sweeps
  | .testDone e => e.found.wf
  | .challenge _ nonce | .getMeasurements _ _ nonce | .auditRead _ _ _ nonce => decide (nonce.length = 32)
  | _ => true

/-- A command that the block's interfaces can carry. -/
def Instr.wellFormed (i : Instr) : Bool :=
  i.operandsWf && (match i.hdr with
    | some h => h.wf
    | none => true)

end Sys2Proof
end

