-- ==== Sys2Proof/Safety.lean ====
section
/-! DEFINITION. What the statements about runs speak of: the canonical form of the state's memories and register maps,
the commands that wait being well formed, and a step that does not stop. -/

namespace Sys2Proof.Machine

/-- A core's on-chip memory and register maps are in canonical form: keys strictly rise and no entry holds what an
unlisted key reads as. -/
def Core.canonical (c : Core) : Prop :=
  Memory.wf c.mem = true ∧ Sparse.wf coreReset c.regs = true ∧ Sparse.wf coreReset c.shadow = true

/-- Every memory and register map of the state is in canonical form. -/
def State.canonical (s : State) : Prop :=
  (∀ c, (s.core c).canonical) ∧ Memory.wf s.hbm = true ∧ Sparse.wf globReset s.gregs = true ∧
    Sparse.wf globReset s.gshadow = true ∧ Memory.wf s.svc.buffers = true ∧ Memory.wf s.svc.cpBuf = true

/-- The shape of a sequencer: 32 scalar registers, two override values for each of four channels, and the results on
their way in the order in which they come. -/
def Seq.shaped (q : Seq) : Prop :=
  q.sregs.length = 32 ∧ q.ovr.length = 8 ∧ q.coming.Pairwise fun v w => v.due ≤ w.due

/-- The per-core tables have their sizes: the scalar registers, override values and results on their way, the preset
values, loop counters, row sets, factor sets, channels, tile owners, units, patrols and buckets of one core. -/
def Core.shaped (c : Core) : Prop :=
  c.seq.shaped ∧ c.seq.lc.length = 4 ∧ c.seq.spre.length = 32 ∧ c.te.owners.length = 16 ∧ c.rowSets.length = 8 ∧
    c.factors.length = 16 ∧ c.filtMax.length = 16 ∧ c.dma.length = 4 ∧ c.unitFree.length = 10 ∧ c.numAt.length = 12 ∧
    c.integ.patrol.length = 13 ∧ c.integ.leak.length = 6

/-- The tables of the chip have their sizes: ports, health entries, mailboxes, queues, rings, keys, buckets and sensors. -/
def State.shaped (s : State) : Prop :=
  (∀ c, (s.core c).shaped) ∧ s.ports.length = 16 ∧ s.health.length = 256 ∧ s.svc.running.length = 17 ∧
    s.svc.queues.length = 16 ∧ s.svc.rings.length = 16 ∧ s.sec.tenants.length = 16 ∧ s.sec.tenantIds.length = 16 ∧
    s.sec.signers.length = 16 ∧ s.htu.leaks.length = 26 ∧ s.power.dieTemp.length = 48

/-- Every waiting command is one that the interfaces can carry. -/
def State.pendingWf (s : State) : Bool := s.pending.all (·.wellFormed)

/-- A step from the state answers a next state. -/
def State.goesOn (s : State) : Prop := ∃ t, step s = .next t

/-! ## The issue of an instruction -/

/-- What an instruction of core `c` that issues in cycle `at_` sees of the chip. -/
def State.ctxAt (s : State) (c : CoreId) (at_ : Nat) : Ctx := { ((s.atCycle at_).tick1).ctx c with clock := at_ }

/-- The core as an instruction finds it that issues in cycle `at_`: the sequencer at its bundle (R233). -/
def State.arrived (s : State) (a : Site) (i : Instr) (at_ : Nat) : Core :=
  (s.core a.core).arrive (s.ctxAt a.core at_) a.bundle (slotNo i)

/-- An instruction is suppressed at its issue: by the bundle's guard (R224) or by a shadow iteration (R235). -/
def State.suppresses (s : State) (a : Site) (i : Instr) (at_ : Nat) : Bool :=
  ((s.arrived a i at_).siteOf (s.ctxAt a.core at_) a).supp

/-- Instruction `i` at `a` issues in cycle `at_`, suppressed or not: it is in line, whatever it waits for is free from that cycle on
(R223, R237), its bundle's line passes its CRC, the frame has not been stopped and has not retired, and nothing else on the core
falls due by then. -/
def State.reaches (s : State) (a : Site) (i : Instr) (at_ : Nat) : Prop :=
  let c := s.core a.core
  c.issueCycle a i = some at_ ∧ (∀ d ∈ c.allDues, at_ < d.1) ∧ c.seq.stopped = false ∧ c.frame.retiredAt = none ∧
    (c.sameIssue a.bundle (slotNo i) = false → c.missing (c.fetchLines a.bundle.toNat) [] = [])

/-- Instruction `i` at `a` issues in cycle `at_` and is not suppressed. -/
def State.issues (s : State) (a : Site) (i : Instr) (at_ : Nat) : Prop := s.reaches a i at_ ∧ s.suppresses a i at_ = false

/-- No result for the destination is still on its way. -/
def Seq.clearOf (q : Seq) (d : SeqDst) : Prop := ∀ w ∈ q.coming, w.dst ≠ d

/-- The value of scalar register `rd` of core `c` is `v` for a bundle that issues `lat` cycles after cycle `at_` or later, and
its previous value for one that issues earlier; s0 reads 0 (R225, R229). -/
def State.givesScalar (s t : State) (c : CoreId) (at_ : Nat) (rd : BitVec 5) (v : Word) (lat : Nat) : Prop :=
  (∀ k : Ctx, at_ + lat ≤ k.clock → (t.core c).sreg k rd = if rd = 0#5 then 0#32 else v) ∧
    ∀ k : Ctx, at_ ≤ k.clock → k.clock < at_ + lat → (t.core c).sreg k rd = (s.core c).sreg k rd

/-- The same of a predicate; p0 reads 1. -/
def State.givesPred (s t : State) (c : CoreId) (at_ : Nat) (pd : BitVec 3) (v : Bool) (lat : Nat) : Prop :=
  (∀ k : Ctx, at_ + lat ≤ k.clock → (t.core c).pred k pd = if pd = 0#3 then true else v) ∧
    ∀ k : Ctx, at_ ≤ k.clock → k.clock < at_ + lat → (t.core c).pred k pd = (s.core c).pred k pd

/-- What an instruction that issues on core `c` leaves of the module: the other cores, the HBM, the ports and
every register of the global area but the token meter's (R288). -/
def State.othersKept (s t : State) (c : CoreId) : Prop :=
  (∀ d, d ≠ c → t.core d = s.core d) ∧ t.hbm = s.hbm ∧ t.ports = s.ports ∧ ∀ r, r ≠ 0x50024 → r ≠ 0x50028 → t.greg r = s.greg r

/-- Of an instruction in flight, everything but what a later one can change of it: that it waits at a port (R51), and for an XRUN
the data that another master's write meets (R464). -/
def PendingOp.settled (o : PendingOp) : PendingOp := { o with contended := false, effs := if o.unit = .xe then [] else o.effs }

/-- Of a channel the same. -/
def DmaCh.settled (q : DmaCh) : DmaCh := { q with inflight := q.inflight.map fun o => { o with contended := false } }

/-- A core keeps its memories, its shadows and everything of its engines, channels and frame, and what is in flight but for waits at
ports; of its registers all but those in `l`. -/
def Core.keptBut (x y : Core) (l : List Nat) : Prop :=
  y.mem = x.mem ∧ y.shadow = x.shadow ∧ y.te = x.te ∧ y.rowSets = x.rowSets ∧ y.stage = x.stage ∧
    y.factors = x.factors ∧ y.filter = x.filter ∧ y.dma.map DmaCh.settled = x.dma.map DmaCh.settled ∧
    y.inflight.map PendingOp.settled = x.inflight.map PendingOp.settled ∧ y.ve0ctl = x.ve0ctl ∧
    y.ve1ctl = x.ve1ctl ∧ y.frame = x.frame ∧ ∀ r, r ∉ l → y.reg r = x.reg r

/-- By cycle `at_` nothing falls due on the core but `d`. -/
def Core.onlyDue (c : Core) (at_ : Nat) (d : DueOf) : Prop := ∀ x ∈ c.allDues, x.1 ≤ at_ → x.2 = d

/-! ## What an instruction of an engine starts -/

/-- What an instruction does at its contract completion, or, its violations of fences, before it (R58, R257). -/
def PendingOp.does (o : PendingOp) (effs : List Eff) : Prop :=
  o.effs = effs.filter (fun e => !e.isFence) ∧
    ∀ e ∈ effs, e.isFence = true → ∃ x ∈ o.early, x.effs = [e] ∧ o.issue ≤ x.cycle ∧ x.cycle ≤ o.due

/-- The instruction at `a` has issued in cycle `at_` and is in flight on unit `u` behind those that were: it completes `lat` cycles and
its waits at shared ports after its issue (R257), and `p` holds of it. -/
def State.startsOp (s t : State) (a : Site) (at_ : Nat) (u : EngUnit) (lat : Nat) (p : PendingOp → Prop) : Prop :=
  ∃ l op, (t.core a.core).inflight = l ++ [op] ∧ l.map PendingOp.settled = (s.core a.core).inflight.map PendingOp.settled ∧
    op.unit = u ∧ op.bundle = a.bundle ∧ op.supp = false ∧ op.issue = at_ ∧ op.due = at_ + lat ∧ p op

/-- Memory `m'` holds `bs` from address `a` on, and elsewhere what `m` holds. -/
def Memory.holds (m m' : List (Nat × Byte)) (a : Nat) (bs : List Byte) : Prop :=
  (∀ i, i < bs.length → Memory.byte m' (a + i) = bs.getD i 0#8) ∧
    ∀ i, (i < a ∨ a + bs.length ≤ i) → Memory.byte m' i = Memory.byte m i

/-! ## What a command answers -/

/-- The command answers a next state of which `p` holds. -/
def State.gives (s : State) (i : Instr) (p : State → Prop) : Prop := ∃ t, exec i s = .next t ∧ p t

/-- A mailbox command passes the checks that every command passes (R345, R346, R428): the module is powered, its mailbox
is not busy, its session, unit and header are in order, and the audit log takes its entry. -/
def State.admits (s : State) (h : MboxHdr) (role : Nat) (names free : Bool) : Prop :=
  s.power.phase ≠ .off ∧ s.power.phase ≠ .standby ∧
    (∀ n, mboxBox h = some n → s.svc.running.getD n none = none) ∧ s.mboxCheck h role names free = none ∧
    (role = 0 ∨ s.sec.logBad = false ∧ h.logFails = false)

/-- The last act that led to `t` was the completion of a mailbox command with a code; `p` holds of the state it completed in
and of the response it gave. -/
def State.completes (t : State) (h : MboxHdr) (code : Half) (p : State → List Byte → Prop) : Prop :=
  ∃ u resp, t = u.complete h code resp ∧ p u resp

end Sys2Proof.Machine
end

