-- ==== Sys2Proof/Certificates/Slice0/Obligations.lean ====
section
/-! DEFINITION. The statements for the provers. -/

open Sys2Proof Sys2Proof.Machine

/-! ## The queue -/

/-- A step takes the command at the front of the queue and answers its effect on the state with the queue's rest. With an
empty queue the block idles (the model's choice, log entry 1). -/
def Obligations.StepRunsFrontCommand : Prop :=
  (∀ (s : State) (i : Instr) (rest : List Instr), s.pending = i :: rest → step s = exec i { s with pending := rest }) ∧
    ∀ s : State, s.pending = [] → step s = .next s

/-! ## Reset and what every step keeps -/

/-- R27, R88 and the register tables: after reset a register of a core and of the global area reads its table's value, a
print descriptor is a plain copy to FP32, an aborted frame brings a stop bath, no image is loaded, no frame runs and the frame
number is 0. -/
def Obligations.ResetHoldsSpecValues : Prop :=
  let s := State.reset
  s.pending = [] ∧ s.shutter.fn = 0#48 ∧ s.loaded = false ∧ s.image = none ∧ s.running = false ∧ s.ready = false ∧
    (∀ r ∈ [(0x40000, 0xF4240#32), (0x40004, 0#32), (0x40020, 0#32), (0x40028, 0x14#32), (0x40038, 0x1B774#32),
      (0x4010C, 0x10#32), (0x50000, 0#32), (0x60804, 0#32)], s.greg r.1 = r.2) ∧
    s.gf 0x40028 8 8 = 0 ∧ (∀ n, n < 16 → s.greg (0x70100 + 4 * n) = BitVec.ofNat 32 (2 ^ 31 + n)) ∧
    ∀ c, (s.core c).frame.live = false ∧ (s.core c).inflight = [] ∧ (s.core c).reg 0x1210 = 0xFF000000#32 ∧
      (∀ n, n < 16 → (s.core c).reg (0x1000 + 4 * n) = 0xFFFFFFFF#32) ∧
      (∀ m wr a, a < 0x5A0000 → (s.core c).denies m wr a = false) ∧
      ∀ n, n < 64 → let d := (s.core c).printDesc n
        d.ofmt = 0 ∧ d.biasEn = false ∧ d.ssrc = false ∧ d.qexp = 0 ∧ d.cap = false ∧ d.hpush = false ∧
          d.oscale = 0x3F800000#32 ∧ d.clipLo = 0xFF800000#32 ∧ d.clipHi = 0x7F800000#32

/-- The invariants hold after reset: every memory and register map lists only what differs from its reset value, in rising
order, and every table has its size.
(Choices of the model in it: log entry 12.) -/
def Obligations.ResetMeetsInvariants : Prop := State.reset.canonical ∧ State.reset.shaped

/-- Every step keeps the canonical form of every memory and register map, whatever the command. -/
def Obligations.StepKeepsCanonical : Prop := ∀ s t : State, s.canonical → step s = .next t → t.canonical

/-- Every step keeps the sizes of the machine's tables and the order of the results on their way to the scalar registers. -/
def Obligations.StepKeepsShape : Prop := ∀ s t : State, s.shaped → step s = .next t → t.shaped

/-! ## Sequencer (R225–R243) -/

/-- R228–R230: a register-register scalar instruction gives rd = rs op rt, with the operands read at issue, from its
contract cycle on: 2 cycles, and for MUL 5 under TC0 and 4 under TC1.
R228, R230: a register-immediate scalar instruction, LIL, LIH, MOVLC and MOVFN give their results 2 cycles later; the
immediate is sign-extended, but for ANDI, ORI and XORI zero-extended. None raises a status code: the sequencer's status register
and the frame's codes stay as they are. Each completes: in a frame that runs, with its bundle in line and its slot not suppressed, it
answers a next state whatever its operands. -/
def Obligations.ScalarResults : Prop :=
  let noCode (s t : State) (a : Site) : Prop := (t.core a.core).reg 0x2000 = (s.core a.core).reg 0x2000 ∧
    (t.core a.core).frame.codes = (s.core a.core).frame.codes
  (∀ (s : State) (a : Site) (cyc : Nat) (o : SqR3), (s.core a.core).seq.shaped → (s.core a.core).seq.clearOf (.sreg o.rd) →
    let x := (s.core a.core).sreg (s.ctxAt a.core cyc) o.rs
    let y := (s.core a.core).sreg (s.ctxAt a.core cyc) o.rt
    ∀ r ∈ [(Instr.add a o, x + y, 2), (.sub a o, x - y, 2), (.mul a o, x * y, if s.tc1 then 4 else 5),
        (.and a o, x &&& y, 2), (.or a o, x ||| y, 2), (.xor a o, x ^^^ y, 2), (.shl a o, x <<< (y.toNat % 32), 2),
        (.shr a o, x >>> (y.toNat % 32), 2), (.sra a o, x.sshiftRight (y.toNat % 32), 2),
        (.min a o, if x.toInt ≤ y.toInt then x else y, 2), (.max a o, if x.toInt ≤ y.toInt then y else x, 2),
        (.minu a o, if x.toNat ≤ y.toNat then x else y, 2), (.maxu a o, if x.toNat ≤ y.toNat then y else x, 2)],
      s.issues a r.1 cyc → ∃ t, exec r.1 s = .next t ∧ s.givesScalar t a.core cyc o.rd r.2.1 r.2.2 ∧ noCode s t a) ∧
  (∀ (s : State) (a : Site) (cyc : Nat) (rd rs : BitVec 5) (imm : BitVec 13) (half : Half) (lc : BitVec 2) (hi : Bool),
    (s.core a.core).seq.shaped → (s.core a.core).seq.clearOf (.sreg rd) →
    let o : SqI13 := ⟨rd, rs, imm⟩
    let x := (s.core a.core).sreg (s.ctxAt a.core cyc) rs
    let old := (s.core a.core).sreg (s.ctxAt a.core cyc) rd
    let fn := (s.core a.core).frame.fn.toNat
    let n := imm.toNat % 32
    ∀ r ∈ [(Instr.addi a o, x + imm.signExtend 32), (.andi a o, x &&& imm.setWidth 32), (.ori a o, x ||| imm.setWidth 32),
        (.xori a o, x ^^^ imm.setWidth 32), (.shli a o, x <<< n), (.shri a o, x >>> n), (.srai a o, x.sshiftRight n),
        (.lil a rd half, half.signExtend 32), (.lih a rd half, BitVec.ofNat 32 (half.toNat * 65536 + old.toNat % 65536)),
        (.movlc a rd lc, (s.arrived a (.movlc a rd lc) cyc).seq.lc.getD lc.toNat 0#32),
        (.movfn a rd hi, BitVec.ofNat 32 (if hi then fn / 2 ^ 32 else fn % 2 ^ 32))],
      s.issues a r.1 cyc → ∃ t, exec r.1 s = .next t ∧ s.givesScalar t a.core cyc rd r.2 2 ∧ noCode s t a)

/-- R231: PCMP and PCMPI give the condition of their operands, PLOG the function of two predicates, 2 cycles later; a
write to p0 is ignored. The conditions 6 and 7 are reserved: no well-formed instruction names one. -/
def Obligations.PredicateResults : Prop :=
  ∀ (s : State) (a : Site) (cyc : Nat) (pd pa pb cond : BitVec 3) (rs rt : BitVec 5) (imm : BitVec 12) (fn : BitVec 2),
    ((Instr.pcmp a pd cond rs rt).wellFormed = true ∨ (Instr.pcmpi a pd cond rs imm).wellFormed = true → cond.toNat ≤ 5) ∧
    (cond.toNat ≤ 5 → (s.core a.core).seq.clearOf (.pred pd) →
      let c := s.core a.core
      let k := s.ctxAt a.core cyc
      let x := c.sreg k rs
      let p := c.pred k pa
      let q := c.pred k pb
      let holds (y : Word) : Bool := [decide (x = y), decide (x ≠ y), decide (x.toInt < y.toInt), decide (y.toInt ≤ x.toInt),
        decide (x.toNat < y.toNat), decide (y.toNat ≤ x.toNat)].getD cond.toNat false
      ∀ r ∈ [(Instr.pcmp a pd cond rs rt, holds (c.sreg k rt)), (.pcmpi a pd cond rs imm, holds (imm.signExtend 32)),
          (.plog a pd pa pb fn, [p && q, p || q, xor p q, p && !q].getD fn.toNat false)],
        s.issues a r.1 cyc → ∃ t, exec r.1 s = .next t ∧ s.givesPred t a.core cyc pd r.2 2)

/-- The frame of the scalar and predicate instructions, at their issue: every other core, the HBM, the ports and the global registers
but the token meter's stay as they are; of the core, every memory, engine, channel and register but SQ_PC, every scalar
register but rd, and every predicate but pd. The loops and their counters are what the sequencer's arrival at the bundle makes
them. One that cannot issue changes nothing at all (log entry 7). -/
def Obligations.ScalarFrame : Prop :=
  ∀ (s t : State) (a : Site) (cyc : Nat) (o : SqR3) (p : SqI13) (half : Half) (lc : BitVec 2) (hi : Bool) (pd pa pb cond : BitVec 3)
    (imm : BitVec 12) (fn : BitVec 2) (i : Instr), p.rd = o.rd →
    i ∈ [.add a o, .sub a o, .mul a o, .and a o, .or a o, .xor a o, .shl a o, .shr a o, .sra a o, .min a o, .max a o,
      .minu a o, .maxu a o, .addi a p, .andi a p, .ori a p, .xori a p, .shli a p, .shri a p, .srai a p, .lil a o.rd half,
      .lih a o.rd half, .movlc a o.rd lc, .movfn a o.rd hi, .pcmp a pd cond o.rs o.rt, .pcmpi a pd cond o.rs imm,
      .plog a pd pa pb fn] →
    (s.core a.core).seq.shaped → exec i s = .next t →
    ((s.core a.core).issueCycle a i = none → t = s) ∧
    (s.reaches a i cyc → s.othersKept t a.core ∧ (s.core a.core).keptBut (t.core a.core) [0x2004] ∧
      (t.core a.core).seq.lc = (s.arrived a i cyc).seq.lc ∧ (t.core a.core).seq.loops = (s.arrived a i cyc).seq.loops ∧
      (∀ (k : Ctx) (r : BitVec 5), cyc ≤ k.clock → r ≠ o.rd → (t.core a.core).sreg k r = (s.core a.core).sreg k r) ∧
      ∀ (k : Ctx) (q : BitVec 3), cyc ≤ k.clock → q ≠ pd → (t.core a.core).pred k q = (s.core a.core).pred k q)

/-- R233–R235: LOOPI opens a loop of `count` iterations over the next LENM1 + 1 bundles, or with count 0 goes on behind
them; LOOPR opens one of M iterations, M from the frame header, of which the first min(n, M) are active, and with n above M
raises SQ_LOOP_CLAMP. The loop's counter reads 0. The bundle issued after a body's last is the body's first, in the next iteration
and with the counter one higher, until all iterations have run; then it is the one behind the body, the counter as it was.
R239: WAITX subtracts n from its counter at once if the counter has reached n, and else holds issue and shows the
counter it waits on; with n = 0 it does neither. The release of a held WAITX whose counter has reached n subtracts n and
issue goes on in the following cycle. -/
def Obligations.LoopsAndWaits : Prop :=
  (∀ (s : State) (a : Site) (cyc : Nat) (lc : BitVec 2) (lenm1 : BitVec 9) (count : BitVec 12) (rs rm : BitVec 5),
    (s.core a.core).canonical → (s.core a.core).seq.lc.length = 4 →
    let c := s.core a.core
    let b := a.bundle.toNat
    let opens (i : Instr) (all active : Nat) (t : State) : Prop :=
      let loops := (s.arrived a i cyc).seq.loops
      if all = 0 then (t.core a.core).seq.loops = loops ∧ (t.core a.core).seq.prev = b + lenm1.toNat + 1
      else (t.core a.core).seq.loops = ⟨lc, b + 1, b + lenm1.toNat + 1, 0, all, active, s.suppresses a i cyc⟩ :: loops ∧
        (t.core a.core).seq.prev = b ∧ (t.core a.core).seq.lc.getD lc.toNat 0#32 = 0#32
    let i := Instr.loopi a lc lenm1 count
    let j := Instr.loopr a lc lenm1 rs rm
    let m := if rm = 0#5 then 0 else (c.seq.spre.getD rm.toNat 0#32).toNat
    let n := (c.sreg (s.ctxAt a.core cyc) rs).toNat
    (s.reaches a i cyc → s.gives i (opens i count.toNat count.toNat)) ∧
    (s.reaches a j cyc → s.gives j fun t => opens j m (min n m) t ∧
      if m < n ∧ s.suppresses a j cyc = false then
        (t.core a.core).rf 0x2000 31 16 = 0x020F ∧
          ((t.core a.core).reg 0x200C).toNat = min ((c.reg 0x200C).toNat + 1) 0xFFFFFFFF
      else (t.core a.core).reg 0x2000 = c.reg 0x2000 ∧ (t.core a.core).reg 0x200C = c.reg 0x200C)) ∧
  (∀ (s : State) (a : Site) (cyc : Nat) (rd : BitVec 5) (f : LoopFrame) (rest : List LoopFrame),
    let c := s.core a.core
    let i := Instr.movlc a rd f.lc
    c.seq.lc.length = 4 → c.seq.loops = f :: rest → c.seq.prev = f.last → 1 ≤ f.first → s.reaches a i cyc →
    (f.iter + 1 < f.all → c.inLine f.first ≠ none ∧
      (a.bundle.toNat = f.first → s.gives i fun t =>
        (t.core a.core).seq.loops = { f with iter := f.iter + 1 } :: rest ∧ (t.core a.core).seq.prev = f.first ∧
        (t.core a.core).seq.lc.getD f.lc.toNat 0#32 = BitVec.ofNat 32 (f.iter + 1))) ∧
    (f.all ≤ f.iter + 1 → rest = [] → c.inLine (f.last + 1) ≠ none ∧
      (a.bundle.toNat = f.last + 1 → s.gives i fun t =>
        (t.core a.core).seq.loops = [] ∧ (t.core a.core).seq.lc = c.seq.lc))) ∧
  (∀ (s : State) (a : Site) (cyc : Nat) (ec : BitVec 4) (w : WaitCount), s.issues a (.waitx a ec w) cyc → (s.core a.core).canonical →
    let c := s.core a.core
    let n := match w with
      | .reg rs => c.sreg (s.ctxAt a.core cyc) rs
      | .imm h => h.setWidth 32
    let off := 0x20C0 + 4 * ec.toNat
    s.gives (.waitx a ec w) fun t =>
      if n.toNat ≤ (c.reg off).toNat then
        (t.core a.core).reg off = c.reg off - n ∧ (t.core a.core).seq.waiting = c.seq.waiting
      else (t.core a.core).reg off = c.reg off ∧ (t.core a.core).rf 0x2000 1 1 = 1 ∧
        (t.core a.core).rf 0x2000 5 2 = ec.toNat ∧
        ∃ x, (t.core a.core).seq.waiting = some x ∧ x.ec = ec ∧ x.n = n ∧ x.since = cyc) ∧
  ∀ (s : State) (c : CoreId) (x : Waiting), (s.core c).canonical → (s.core c).seq.waiting = some x →
    (∀ d ∈ (s.core c).allDues, s.clock < d.1) →
    let off := 0x20C0 + 4 * x.ec.toNat
    x.n.toNat ≤ ((s.core c).reg off).toNat →
    s.gives (.waitxRelease c) fun t => (t.core c).reg off = (s.core c).reg off - x.n ∧
      (t.core c).seq.waiting = none ∧ (t.core c).seq.nextAt = s.clock + 1 ∧ (t.core c).rf 0x2000 1 1 = 0 ∧
      (t.core c).frame.waitLate = (s.core c).frame.waitLate + (s.clock + 1 - x.budgetEnd)

/-- R240, R62: SCARRY writes the shadow of its carry word, or, with a commit of the carry words pending, is discarded
and sets SHADOW_LOCKED; COMMIT makes a commit of the carry words pending. Neither changes a value in force.
R242, R243, R247: STOP raises SQ_STOP, records the code and the bundle in SQ_STOPINFO if it holds no earlier one, and
has the module halt at the next tick while the frame runs on; SIGNAL adds its scalar to the frame's posts; DOVR gives the
channel's override value 2 cycles later. -/
def Obligations.CarryStopSignalOverride : Prop :=
  (∀ (s : State) (a : Site) (cyc : Nat) (n : BitVec 3) (rs : BitVec 5), (s.core a.core).canonical →
    let c := s.core a.core
    let off := 0x2040 + 4 * n.toNat
    (s.issues a (.commit a) cyc → s.gives (.commit a) fun t => (t.core a.core).rf 0x2020 0 0 = 1 ∧
      (∀ r, r ≠ 0x2004 → r ≠ 0x2020 → (t.core a.core).reg r = c.reg r) ∧ (t.core a.core).shadow = c.shadow) ∧
    (s.issues a (.scarry a n rs) cyc → s.gives (.scarry a n rs) fun t =>
      (if c.rf 0x2020 0 0 = 1 then (t.core a.core).rf 0x2020 2 2 = 1 ∧ (t.core a.core).shadow = c.shadow
       else (t.core a.core).shadowReg off = c.sreg (s.ctxAt a.core cyc) rs ∧
        ∀ r, r ≠ off → (t.core a.core).shadowReg r = c.shadowReg r) ∧
      ∀ r, r ≠ 0x2004 → r ≠ 0x2020 → (t.core a.core).reg r = c.reg r)) ∧
  (∀ (s : State) (a : Site) (cyc : Nat) (code : Half) (q : BitVec 4) (rs : BitVec 5) (ch : BitVec 2) (sel : Bool),
    (s.core a.core).canonical → (s.core a.core).seq.shaped → (s.core a.core).seq.clearOf (.ovr ch sel) →
    let c := s.core a.core
    let v := c.sreg (s.ctxAt a.core cyc) rs
    (s.issues a (.sqStop a code) cyc → s.gives (.sqStop a code) fun t => (t.core a.core).rf 0x2000 31 16 = 0x0210 ∧
      (t.core a.core).frame.haltNext = true ∧ (t.core a.core).seq.stopped = false ∧
      (c.rf 0x2008 31 31 = 0 → (t.core a.core).rf 0x2008 15 0 = code.toNat ∧
        (t.core a.core).rf 0x2008 28 16 = a.bundle.toNat ∧ (t.core a.core).rf 0x2008 31 31 = 1) ∧
      (c.rf 0x2008 31 31 = 1 → (t.core a.core).reg 0x2008 = c.reg 0x2008)) ∧
    (s.issues a (.signal a q rs) cyc → s.gives (.signal a q rs) fun t =>
      (t.core a.core).frame.signals = c.frame.signals ++ [(q, v)] ∧ t.svc.queues = s.svc.queues) ∧
    (s.issues a (.dovr a ch sel rs) cyc → s.gives (.dovr a ch sel rs) fun t =>
      ∀ k : Ctx, cyc + 2 ≤ k.clock → (t.core a.core).override k ch sel = v))

/-- R232: SST writes its scalar, little-endian, into the word of the operand-cache line and no other byte of the core's
memories, and SLD gives the word that a read sees 6 cycles later under TC1 and 8 under TC0, both in their issue cycle where the cache
is free then; where it is not, the word is taken in the first free cycle, w cycles later, and the result comes as much later. Of a line
with no CRC miss.
(How long the wait is: log entry 41.) -/
def Obligations.OperandCacheWords : Prop :=
  ∀ (s : State) (a : Site) (cyc : Nat) (r : BitVec 5) (o : SqOc), (s.core a.core).canonical → (s.core a.core).seq.shaped →
    let c := s.core a.core
    let k := s.ctxAt a.core cyc
    let addr := (if o.ve then 0x580000 else 0x560000) + 64 * o.line.toNat + 4 * o.word.toNat
    let w := c.cacheWait k ⟨a.core, a.bundle, false⟩ o.ve
    let lat := if s.tc1 then 6 else 8
    let later (dst : Option (BitVec 5)) (v : Word) (t : State) : Prop := (t.core a.core).mem = c.mem ∧
      (t.core a.core).seq.words = c.seq.words ++ [⟨cyc + w, dst, addr, v, cyc + lat + w, a.bundle, false⟩]
    c.missing [addr / 64 * 64] [] = [] →
    (s.issues a (.sst a r o) cyc → s.gives (.sst a r o) fun t => (t.core a.core).frame.stalls = c.frame.stalls + w ∧
      if w = 0 then Memory.holds c.mem (t.core a.core).mem addr (leBytes 4 (c.sreg k r).toNat)
      else later none (c.sreg k r) t) ∧
    (s.issues a (.sld a r o false) cyc → c.seq.clearOf (.sreg r) → s.gives (.sld a r o false) fun t =>
      (t.core a.core).frame.stalls = c.frame.stalls + w ∧
      if w = 0 then (t.core a.core).mem = c.mem ∧
        s.givesScalar t a.core cyc r (BitVec.ofNat 32 (leNat (c.read k addr 4))) lat
      else later (some r) 0#32 t)

/-- R12, R228: END is the last bundle of its frame; with nothing in flight on the core the frame retires once the sequencer's own
instructions have reached their contract completion, and SQ_STATUS.RUN is 0.
R251, R370: a CRC miss on a bundle's line stops issue with CRC_IFETCH (0x0402) when issue reaches the bundle, or on a line of the frame
header before the first; a frame that may be replayed is due for replay, any other is aborted with the code and, recorded, the bundle, or
the header's place. -/
def Obligations.EndAndFetchTrap : Prop :=
  (∀ (s : State) (a : Site) (cyc : Nat), (s.core a.core).canonical → s.reaches a (.end_ a) cyc → s.gives (.end_ a) fun t =>
    (t.core a.core).seq.ended = true ∧
      ((s.core a.core).inflight = [] → (∀ ch ∈ (s.core a.core).dma, ch.inflight = []) →
        (t.core a.core).frame.retiredAt =
          some (if (s.core a.core).seq.busyUntil < cyc then cyc else (s.core a.core).seq.busyUntil) ∧
        (t.core a.core).rf 0x2000 0 0 = 0) ∧
      ((s.core a.core).inflight ≠ [] → (t.core a.core).frame = (s.core a.core).frame)) ∧
  (∀ (s : State) (c : CoreId) (b : BitVec 13) (cyc : Nat), (s.core c).canonical → (s.core c).frame.aborted = false →
    let head := (s.core c).atEntry && decide (lineOf (bundleAddr b.toNat) ≤ bundleAddr (s.core c).seq.prev)
    ((s.core c).trapCycle b.toNat = none → s.gives (.crcIfetchTrap c b) (· = s)) ∧
    ((s.core c).trapCycle b.toNat = some cyc → (∀ d ∈ (s.core c).allDues, cyc < d.1) → s.gives (.crcIfetchTrap c b) fun t =>
      (t.core c).seq.stopped = true ∧ (t.core c).rf 0x2000 31 16 = 0x0402 ∧
      if (s.core c).canReplay (s.ctxAt c cyc) then (t.core c).frame.replayDue = true ∧ (t.core c).frame.aborted = false
      else (t.core c).frame.aborted = true ∧ (t.core c).frame.faultCode = 0x0402#16 ∧
        (t.core c).frame.faultBundle = if head then BitVec.ofNat 13 ((s.core c).seq.prev - 3) else b))

/-- R224, R235: a guard suppresses the slots that it names when p[GP] XOR GINV is 0, and a shadow iteration every slot of its body;
a slot under neither issues.
R225: a suppressed instruction of the sequencer reads and writes no data and no register but SQ_PC: it changes no
memory, shadow, carry word, result, post, event counter or status code. -/
def Obligations.SuppressedSequencerDoesNothing : Prop :=
  (∀ (s : State) (a : Site) (i : Instr) (cyc : Nat),
    let body := (s.arrived a i cyc).seq.loops.find? fun f => decide (f.first ≤ a.bundle.toNat) && decide (a.bundle.toNat ≤ f.last)
    let off := ∃ g, a.guard = some g ∧ (s.core a.core).pred (s.ctxAt a.core cyc) g.gp = g.inv
    let shadow := ∃ f, body = some f ∧ (f.shadow = true ∨ f.active ≤ f.iter)
    s.suppresses a i cyc = true ↔ off ∨ shadow) ∧
  ∀ (s : State) (a : Site) (cyc : Nat) (o : SqR3) (p : SqI13) (oc : SqOc) (code : Half) (q : BitVec 4) (n : BitVec 3) (ch : BitVec 2)
    (sel hi miss : Bool) (pa pb cond : BitVec 3) (imm : BitVec 12) (fn : BitVec 2) (x : WaitCount) (i : Instr),
    s.reaches a i cyc → s.suppresses a i cyc = true →
    i ∈ [.add a o, .sub a o, .mul a o, .and a o, .or a o, .xor a o, .shl a o, .shr a o, .sra a o, .min a o, .max a o,
      .minu a o, .maxu a o, .addi a p, .andi a p, .ori a p, .xori a p, .shli a p, .shri a p, .srai a p,
      .lil a o.rd code, .lih a o.rd code, .movlc a o.rd ch, .movfn a o.rd hi, .pcmp a n cond o.rs o.rt,
      .pcmpi a n cond o.rs imm, .plog a n pa pb fn, .waitx a q x, .commit a, .sqStop a code, .signal a q o.rs,
      .scarry a n o.rs, .dovr a ch sel o.rs, .sld a o.rd oc miss, .sst a o.rs oc] →
    ∃ t, exec i s = .next t ∧ (t.core a.core).mem = (s.core a.core).mem ∧
      (t.core a.core).shadow = (s.core a.core).shadow ∧ (t.core a.core).seq.words = (s.core a.core).seq.words ∧
      (t.core a.core).seq.sregs = (s.core a.core).seq.sregs ∧ (t.core a.core).seq.preds = (s.core a.core).seq.preds ∧
      (t.core a.core).seq.coming = (s.core a.core).seq.coming ∧ (t.core a.core).seq.ovr = (s.core a.core).seq.ovr ∧
      (t.core a.core).seq.waiting = (s.core a.core).seq.waiting ∧
      (t.core a.core).frame.signals = (s.core a.core).frame.signals ∧
      (t.core a.core).frame.haltNext = (s.core a.core).frame.haltNext ∧
      (t.core a.core).frame.codes = (s.core a.core).frame.codes ∧
      ∀ r, r ≠ 0x2004 → (t.core a.core).reg r = (s.core a.core).reg r

/-! ## DMA (R244–R252) -/

/-- R244, R246, R247: a START whose descriptor's line has no CRC miss, on a channel that has not halted and with its
override values inside their spans, is in flight behind the channel's others: its contract completion comes the kind's
fixed term and B / 32 cycles after its issue, and its waits later, and DMAn_STATUS shows the channel busy.
R223, R246: a START is in line no sooner than its channel's issue interval is over and fewer than eight of its descriptors are in
flight. -/
def Obligations.StartJoinsChannel : Prop :=
  ∀ (s : State) (a : Site) (cyc : Nat) (ch : BitVec 2) (di : BitVec 12), (s.core a.core).canonical → (s.core a.core).dma.length = 4 →
    let c := s.core a.core
    let k := s.ctxAt a.core cyc
    let b := 0x500000 + 32 * (c.rf 0x2010 12 0 + di.toNat)
    let d := descOf (Memory.read c.mem b 32)
    let old := (c.dma.getD ch.toNat DmaCh.reset).inflight
    let i := Instr.dmaStart a ch di false
    let j := Instr.dmaStartOvr a ch di false
    let joins (t : State) : Prop := ∃ l op, ((t.core a.core).dma.getD ch.toNat DmaCh.reset).inflight = l ++ [op] ∧
      l.map (fun o => { o with contended := false }) = old.map (fun o => { o with contended := false }) ∧
      op.desc = di.toNat ∧ op.code = 0#16 ∧ op.supp = false ∧ op.issue = cyc ∧
      op.due = cyc + d.fixed s.tc1 + d.rows * d.rowLen / 32 ∧
      (t.core a.core).rf (0x2200 + 32 * ch.toNat) 0 0 = 1 ∧ (t.core a.core).mem = c.mem
    (∀ x ∈ [i, j], c.issueCycle a x = some cyc → c.sameIssue a.bundle 6 = false →
      (c.dma.getD ch.toNat DmaCh.reset).freeAt ≤ cyc ∧ (old.countP fun o => decide (cyc < o.dueNow)) ≤ 7) ∧
    (c.missing [b / 64 * 64] [] = [] → c.rf (0x2200 + 32 * ch.toNat) 5 5 = 0 →
      (s.issues a i cyc → s.gives i joins) ∧
      ((d.ovrL = true → (c.override k ch false).toNat < d.lspan) → (d.ovrR = true → (c.override k ch true).toNat < d.rspan) →
        s.issues a j cyc → s.gives j joins))

/-- R225, R246, R249, R252: the oldest descriptor of a channel, with nothing else due on its core before, completes in its cycle: it
leaves the channel, DMAn_LAST names it and DMAn_DONE counts it, saturating. A suppressed one moves no bytes. One 64-byte piece from HBM
into the core's memory, met by no fence, miss, collision or KV bound, lands whole and touches no other byte: each of its bytes is the
one captured at issue or the one the HBM holds at completion. -/
def Obligations.DescriptorCompletes : Prop :=
  ∀ (s : State) (c : CoreId) (ch : BitVec 2) (o : DmaOp) (rest : List DmaOp) (free : Nat) (f : Fate),
    (s.core c).canonical → (s.core c).dma.length = 4 → (s.core c).dma.getD ch.toNat DmaCh.reset = ⟨o :: rest, free⟩ →
    (s.core c).onlyDue o.dueNow (.dma ch.toNat) → (∀ p ∈ rest.head?, o.dueNow < p.dueNow) →
    let counted (t : State) : Prop := ((t.core c).dma.getD ch.toNat DmaCh.reset).inflight = rest ∧
      t.clock = max s.clock o.dueNow ∧ (t.core c).rf (0x2204 + 32 * ch.toNat) 11 0 = o.desc % 4096 ∧
      ((t.core c).reg (0x2210 + 32 * ch.toNat)).toNat = min (((s.core c).reg (0x2210 + 32 * ch.toNat)).toNat + 1) 0xFFFFFFFF
    (o.supp = true → s.gives (.dmaComplete c ch f) fun t => counted t ∧ t.hbm = s.hbm ∧
      ∀ d, (t.core d).mem = (s.core d).mem) ∧
    ∀ (a b : Nat) (bs : List Byte), o.supp = false → o.code = 0#16 → o.rows = [⟨.hbm a, .here b, bs⟩] → bs.length = 64 →
      (s.core c).rf (0x2200 + 32 * ch.toNat) 5 5 = 0 → (s.core c).denies 0 true b = false → f.collisions = [] →
      f.hbmBad = false → s.kvBounds (s.entryOf c) a 64 = [] → s.landingHbm a 64 = [] →
      s.gives (.dmaComplete c ch f) fun t => counted t ∧ t.hbm = s.hbm ∧
        (∀ i, i < 64 → Memory.byte (t.core c).mem (b + i) ∈ [bs.getD i 0#8, Memory.byte s.hbm (a + i)]) ∧
        ∀ i, (i < b ∨ b + 64 ≤ i) → Memory.byte (t.core c).mem i = Memory.byte (s.core c).mem i

/-! ## Tensor engine (R89–R128, R258–R263) -/

/-- R100, R259: a TLOAD whose body lies in its bank fills the standby weight buffer with the body as its master reads it
and the tag it asks for, and completes its load time and 14 cycles (TC0: 16) after its issue; the load time is the body's
length in 128-byte rows, at least 40 for a grain tile. -/
def Obligations.TloadFillsStandby : Prop :=
  ∀ (s : State) (a : Site) (cyc : Nat) (o : TLoadOp),
    let c := s.core a.core
    let k := s.ctxAt a.core cyc
    let base := o.abase.toNat * 128
    let addr := (base + (c.sreg k o.ar).toNat / 128 * 128) % 2 ^ 32
    let len := bodyLen o.lay.toNat o.wfmt.toNat (o.qm1.toNat + 1)
    let rows := (len + 127) / 128
    addr / 0x80000 = base / 0x80000 → (addr + len - 1) / 0x80000 = base / 0x80000 →
    s.issues a (.tload a o) cyc → ∃ t, exec (.tload a o) s = .next t ∧
      s.startsOp t a cyc .teLoad ((if o.lay = 5#4 ∧ rows < 40 then 40 else rows) + if s.tc1 then 14 else 16)
        (fun op => op.header.isSome = decide (o.lay = 5#4) ∧ (t.core a.core).te.standby.ready = op.due) ∧
      (t.core a.core).te.loaded = true ∧
      (t.core a.core).te.standby.tag = some ⟨o.lay.toNat, o.wfmt.toNat, o.qm1.toNat + 1⟩ ∧
      (t.core a.core).te.standby.body = (c.readE k 2 addr len).1 ∧ (t.core a.core).te.active = c.te.active ∧
      (t.core a.core).mem = c.mem

/-- R91, R100, R107, R115, R120, R261: a product whose tiles no other instruction owns, whose weight buffer's tag agrees and
whose activations lie in their bank swaps in the standby buffer if it is loaded, claims its tiles, counts in TE_PRODUCTS, and
completes its streaming time and fill after its issue, when it adds its sums. `p` is TMUL's product, or TMULR's. -/
def Obligations.ProductClaimsTiles : Prop :=
  ∀ (s : State) (a : Site) (cyc : Nat) (o : TMulOp) (qm1 : BitVec 4) (kmode : Bool) (rs : BitVec 3),
    (s.core a.core).canonical → (s.core a.core).te.owners.length = 16 →
    let c := s.core a.core
    let k := s.ctxAt a.core cyc
    let set := c.rowSets.getD rs.toNat RowSet.reset
    let cap := c.rf (0x7C00 + 32 * set.pent) 7 1
    let buf := if c.te.loaded then c.te.standby else c.te.active
    ∀ r ∈ [(Instr.tmul a o qm1, Product.mk o (qm1.toNat + 1) (qm1.toNat + 1) none none),
        (.tmulr a o kmode rs, if kmode then ⟨o, cap / 8, 16, none, some set⟩ else ⟨o, cap / 8 + 1, 16, some set, none⟩)],
      let p := r.2
      let base := o.xbase.toNat * 128
      let x := (base + (c.sreg k o.ar).toNat / 128 * 128) % 2 ^ 32
      let len := 128 * ((p.n * unitBytes o.afmt.toNat + 127) / 128)
      c.claimed p.tiles (c.chained p) = none → p.tagOk buf.tag = true → x / 0x80000 = base / 0x80000 →
      (x + len - 1) / 0x80000 = base / 0x80000 →
      s.issues a r.1 cyc → ∃ t, exec r.1 s = .next t ∧
        s.startsOp t a cyc .teArray (c.productTime k p).1 (fun op => op.claims = p.tiles ∧
          op.does (c.productEffs k p buf x).1 ∧ op.ev = (c.productEffs k p buf x).2 ∧
          ∀ i ∈ p.tiles, (t.core a.core).te.owners.getD i none = some (op.id, a.bundle)) ∧
        (t.core a.core).te.active = buf ∧ (t.core a.core).te.loaded = false ∧
        ((t.core a.core).reg 0x3028).toNat = min ((c.reg 0x3028).toNat + 1) 0xFFFFFFFF ∧ (t.core a.core).mem = c.mem

/-- R75–R81, R262: a TPRINT of a tile that no instruction owns, into a block in its bank, claims the tile and completes its
print time and 24 cycles (TC0: 28) after its issue; the print time is the block's length in 128-byte rows and at least 128,
and 128 and that length for an MX block along the columns. It contributes to the amax of its descriptor's entry if CAP is set
and marks the entry for a push if HPUSH is set. -/
def Obligations.TprintClaimsTile : Prop :=
  ∀ (s : State) (a : Site) (cyc : Nat) (o : TPrintOp), (s.core a.core).te.owners.length = 16 →
    let c := s.core a.core
    let k := s.ctxAt a.core cyc
    let d := c.printDesc o.pd.toNat
    let base := o.dbase.toNat * 128
    let addr := (base + (c.sreg k o.ar).toNat / 128 * 128) % 2 ^ 32
    let len := printLen d.ofmt
    let rows := len / 128
    c.te.owners.getD o.tile.toNat none = none → addr / 0x80000 = base / 0x80000 →
    (addr + len - 1) / 0x80000 = base / 0x80000 →
    s.issues a (.tprint a o) cyc → ∃ t, exec (.tprint a o) s = .next t ∧
      s.startsOp t a cyc .tePrint ((if isMx d.ofmt ∧ d.mxax = true then 128 + rows else max rows 128) + if s.tc1 then 24 else 28)
        (fun op => op.claims = [o.tile.toNat] ∧ op.raises = [] ∧
          ((∃ w, Eff.amax d.sidx w ∈ op.effs) ↔ d.cap = true) ∧ (Eff.push d.sidx ∈ op.effs ↔ d.hpush = true) ∧
          (t.core a.core).te.owners.getD o.tile.toNat none = some (op.id, a.bundle)) ∧
      (t.core a.core).mem = c.mem

/-- R122: an instruction that claims a tile another instruction owns (a product, TMUL's or TMULR's, a TPRINT, or a SCATTER_ADD)
does not issue, and the owner runs on: ACC_DOUBLE_CLAIM (0x0202) is raised and aborts the frame with the claimant's bundle, and
TE_CLAIM_FAULT, if it holds no earlier fault, records the tile and both bundles. -/
def Obligations.DoubleClaimAborts : Prop :=
  ∀ (s : State) (a : Site) (cyc : Nat) (o : TMulOp) (qm1 : BitVec 4) (kmode : Bool) (rs : BitVec 3) (q : TPrintOp) (x : XrunOp) (tile : Nat)
    (owner : BitVec 13), (s.core a.core).canonical → (s.core a.core).frame.aborted = false →
    let c := s.core a.core
    let set := c.rowSets.getD rs.toNat RowSet.reset
    let cap := c.rf (0x7C00 + 32 * set.pent) 7 1
    let p : Product := ⟨o, qm1.toNat + 1, qm1.toNat + 1, none, none⟩
    let pr : Product := if kmode then ⟨o, cap / 8, 16, none, some set⟩ else ⟨o, cap / 8 + 1, 16, some set, none⟩
    let d := c.xdesc x.desc.toNat
    let tiles := ((List.range (d.atnm1 + 1)).map (d.at0 + ·)).filter fun t => decide (t < 16)
    ∀ r ∈ [(Instr.tmul a o qm1, c.claimed p.tiles (c.chained p), 0x3000),
        (.tmulr a o kmode rs, c.claimed pr.tiles (c.chained pr), 0x3000),
        (.tprint a q, c.claimed [q.tile.toNat] none, 0x3000),
        (.xeScatterAdd a x, if d.op = 4 then c.claimed tiles none else none, 0x5200)],
      r.2.1 = some (tile, owner) →
      s.issues a r.1 cyc → ∃ t, exec r.1 s = .next t ∧ (t.core a.core).inflight.map PendingOp.settled = c.inflight.map PendingOp.settled ∧ (t.core a.core).te = c.te ∧
        (t.core a.core).frame.aborted = true ∧ (t.core a.core).frame.faultCode = 0x0202#16 ∧
        (t.core a.core).frame.faultBundle = a.bundle ∧ (t.core a.core).rf r.2.2 31 16 = 0x0202 ∧
        (c.rf 0x3010 31 31 = 0 → (t.core a.core).reg 0x3010 =
          BitVec.ofNat 32 (tile + a.bundle.toNat * 16 + owner.toNat * 0x20000 + 0x80000000))

/-! ## Vector engines (R160–R175, R263–R270) -/

/-- R170, R263–R266: an instruction of form VA on unsuppressed issue gives, lane by lane under its mask, the operation of its
sources at its contract completion: on INT32 lanes wrapping two's-complement arithmetic, on floating-point lanes the FP32
operation of the widened sources (VFMA with the old destination as addend). -/
def Obligations.LaneArithmetic : Prop :=
  ∀ (s : State) (a : Site) (cyc : Nat) (o : VaOp),
    let c := s.core a.core
    let k := s.ctxAt a.core cyc
    let lane (sty n i : Nat) : Nat := (c.laneCodes k o.ve sty n).getD i 0
    let x (i : Nat) : Word := BitVec.ofNat 32 (lane o.sty.toNat o.va.toNat i)
    let y (i : Nat) : Word := BitVec.ofNat 32 (lane o.sty.toNat o.vb.toNat i)
    let z (i : Nat) : Word := BitVec.ofNat 32 (lane 0 o.vd.toNat i)
    let fx (i : Nat) : Word := (sourceLane c.ftz o.sty.toNat (lane o.sty.toNat o.va.toNat i)).1
    let fy (i : Nat) : Word := (sourceLane c.ftz o.sty.toNat (lane o.sty.toNat o.vb.toNat i)).1
    let gives (i : Instr) (lat : Nat) (g : Nat → Word) : Prop := s.issues a i cyc → ∃ t, exec i s = .next t ∧
      s.startsOp t a cyc (if o.ve then .ve1 else .ve0) (lat + if s.tc1 then 0 else 2) (fun op =>
        op.does (c.vecEffs o.ve o.vd.toNat (c.mask o.ve o.msk) o.mz ((List.range 64).map g))) ∧
      (t.core a.core).mem = c.mem
    (o.sty = 1#2 → ∀ r ∈ [(Instr.vadd a o, 6, fun i => x i + y i), (.vsub a o, 6, fun i => x i - y i),
        (.vmul a o, 6, fun i => x i * y i), (.vmin a o, 6, fun i => if (x i).toInt ≤ (y i).toInt then x i else y i),
        (.vmax a o, 6, fun i => if (x i).toInt ≤ (y i).toInt then y i else x i),
        (.vabs a o, 6, fun i => if (x i).toInt < 0 then 0#32 - x i else x i), (.vneg a o, 6, fun i => 0#32 - x i),
        (.vshl a o, 6, fun i => x i <<< ((y i).toNat % 32)), (.vshr a o, 6, fun i => x i >>> ((y i).toNat % 32)),
        (.vsra a o, 6, fun i => (x i).sshiftRight ((y i).toNat % 32)), (.vcvtf a o, 8, fun i => (i32ToF32 (x i)).1)],
      gives r.1 r.2.1 r.2.2) ∧
    (o.sty = 0#2 ∨ o.sty = 1#2 → ∀ r ∈ [(Instr.vand a o, 6, fun i => x i &&& y i), (.vor a o, 6, fun i => x i ||| y i),
        (.vxor a o, 6, fun i => x i ^^^ y i), (.vnot a o, 6, fun i => ~~~(x i)),
        (.vpopc a o, 6, fun i => BitVec.ofNat 32 ((List.range 32).countP fun b => (x i).getLsbD b)), (.vmov a o, 6, x)],
      gives r.1 r.2.1 r.2.2) ∧
    (o.sty ≠ 1#2 → ∀ r ∈ [(Instr.vadd a o, 6, fun i => (f32Add c.ftz (fx i) (fy i)).1),
        (.vsub a o, 6, fun i => (f32Sub c.ftz (fx i) (fy i)).1), (.vmul a o, 6, fun i => (f32Mul c.ftz (fx i) (fy i)).1),
        (.vfma a o, 6, fun i => (f32Fma c.ftz (fx i) (fy i) (z i)).1),
        (.vmin a o, 6, fun i => (f32MinMax false c.ftz (fx i) (fy i)).1),
        (.vmax a o, 6, fun i => (f32MinMax true c.ftz (fx i) (fy i)).1),
        (.vrcp a o, 12, fun i => (f32Rcp c.ftz (fx i)).1), (.vrsq a o, 12, fun i => (f32Rsq c.ftz (fx i)).1),
        (.vexp2 a o, 12, fun i => (f32Exp2 c.ftz (fx i)).1), (.vlog2 a o, 12, fun i => (f32Log2 c.ftz (fx i)).1),
        (.vdiv a o, 18, fun i => (f32Div c.ftz (fx i) (fy i)).1), (.vsqrt a o, 18, fun i => (f32Sqrt c.ftz (fx i)).1),
        (.vcvti a o, 8, fun i => (cvtI c.ftz (fx i)).1)],
      gives r.1 r.2.1 r.2.2)

/-- R165, R264, R265, R267: VCMP gives mask md, lane by lane, the comparison of its sources, a masked lane keeping its bit or,
with MZ, taking 0; VMLOG, VMLANE and VMSR give it the function of two masks, the lanes lo to hi, and one half from a scalar;
VSPL gives every unmasked lane of vd the scalar; VSCL sets the VE's conversion control. -/
def Obligations.LaneMasksAndControls : Prop :=
  ∀ (s : State) (a : Site) (cyc : Nat) (o : VcmpOp) (l : VmlogOp) (ve h mz ssrc cap : Bool) (lo hi : BitVec 6) (msk md : BitVec 3)
    (rs : BitVec 5) (vd : BitVec 9) (sidx qexp : Byte),
    let c := s.core a.core
    let k := s.ctxAt a.core cyc
    let x (i : Nat) : Word := BitVec.ofNat 32 ((c.laneCodes k o.ve 1 o.va.toNat).getD i 0)
    let y (i : Nat) : Word := BitVec.ofNat 32 ((c.laneCodes k o.ve 1 o.vb.toNat).getD i 0)
    let rel (i : Nat) : Bool := [decide (x i = y i), decide (x i ≠ y i), decide ((x i).toInt < (y i).toInt),
      decide ((x i).toInt ≤ (y i).toInt), decide ((y i).toInt < (x i).toInt),
      decide ((y i).toInt ≤ (x i).toInt)].getD o.cond.toNat false
    let gives (i : Instr) (ve : Bool) (p : List Eff → Prop) : Prop := s.issues a i cyc → ∃ t, exec i s = .next t ∧
      s.startsOp t a cyc (if ve then .ve1 else .ve0) (6 + if s.tc1 then 0 else 2) (fun op => ∃ effs, op.does effs ∧ p effs)
    let masks (ve : Bool) (md : BitVec 3) (g : Nat → Bool) (effs : List Eff) : Prop :=
      ∃ v : BitVec 64, effs = maskEffs ve md v ∧ ∀ i, i < 64 → v.getLsbD i = g i
    let old (ve : Bool) (m : BitVec 3) (i : Nat) : Bool := (c.mask ve m).getLsbD i
    (o.sty = 1#2 → gives (.vcmp a o) o.ve (masks o.ve o.md fun i =>
      if old o.ve o.msk i then rel i else !o.mz && old o.ve o.md i)) ∧
    gives (.vmlog a l) l.ve (masks l.ve l.md fun i => [old l.ve l.ma i && old l.ve l.mb i, old l.ve l.ma i || old l.ve l.mb i,
      xor (old l.ve l.ma i) (old l.ve l.mb i), old l.ve l.ma i && !old l.ve l.mb i].getD l.fn.toNat false) ∧
    gives (.vmlane a ve lo hi md) ve (masks ve md fun i => decide (lo.toNat ≤ i) && decide (i ≤ hi.toNat)) ∧
    gives (.vmsr a ve rs h md) ve (masks ve md fun i =>
      if h then if i < 32 then old ve md i else (c.sreg k rs).getLsbD (i - 32)
      else if i < 32 then (c.sreg k rs).getLsbD i else old ve md i) ∧
    gives (.vspl a ve msk mz rs vd) ve (· = c.vecEffs ve vd.toNat (c.mask ve msk) mz (List.replicate 64 (c.sreg k rs))) ∧
    gives (.vscl a ve ssrc cap sidx qexp) ve (· = [.conv ve ⟨ssrc, cap, sidx, qexp⟩])

/-- R170, R172, R173, R269: VRED's sum of INT32 lanes is the sum of its unmasked lanes modulo 2^32, written to lane 0 of vd;
VRAX's is, in each unmasked lane, the sum over its vectors, issued over as many cycles; VACC gives the unmasked lanes the
64 words of half a tile row. -/
def Obligations.ReductionsAndTileReads : Prop :=
  ∀ (s : State) (a : Site) (cyc : Nat) (o : VrOp) (v : VaccOp),
    let c := s.core a.core
    let k := s.ctxAt a.core cyc
    let lane (n i : Nat) : Nat := (c.laneCodes k o.ve 1 n).getD i 0
    let m := c.mask o.ve o.msk
    let late (n : Nat) : Nat := n + if s.tc1 then 0 else 2
    let caps := c.capEffs o.ve m ((c.laneCodes k o.ve 1 o.va.toNat).map (laneValue 1))
    let row := v.row.toNat + (c.sreg k v.rr).toNat
    let addr := 0x400000 + v.tile.toNat * 0x10000 + 512 * row + if v.h then 256 else 0
    (o.sty = 1#2 → o.rop = 0#3 → s.issues a (.vred a o) cyc → ∃ t, exec (.vred a o) s = .next t ∧
      s.startsOp t a cyc (if o.ve then .ve1 else .ve0) (late 12) fun op =>
        op.does (c.writeE (if o.ve then 5 else 4) (vecAddr o.ve o.vd.toNat) (leBytes 4
          ((((List.range 64).filter fun i => m.getLsbD i).map (lane o.va.toNat)).sum % 2 ^ 32)) ++ caps)) ∧
    (o.sty = 1#2 → o.rop = 0#3 → s.issues a (.vrax a o) cyc → ∃ t, exec (.vrax a o) s = .next t ∧
      s.startsOp t a cyc (if o.ve then .ve1 else .ve0) (late (7 + o.nm1.toNat)) fun op =>
        op.free = cyc + o.nm1.toNat + 1 ∧
        ∃ vals caps, op.does (c.vecEffs o.ve o.vd.toNat m o.mz vals ++ caps) ∧ (∀ x ∈ caps, ∃ i w, x = Eff.amax i w) ∧ vals.length = 64 ∧
          ∀ i, i < 64 → m.getLsbD i = true → vals.getD i 0#32 = BitVec.ofNat 32
            ((List.range (o.nm1.toNat + 1)).map fun j => lane (o.va.toNat + j) i).sum) ∧
    (row < 128 → (∀ i, i < 4 → c.denies (if v.ve then 5 else 4) false (addr + 64 * i) = false) →
      s.issues a (.vacc a v) cyc → ∃ t, exec (.vacc a v) s = .next t ∧ s.startsOp t a cyc (if v.ve then .ve1 else .ve0) (late 8) fun op =>
        op.does (c.vecEffs v.ve v.vd.toNat (c.mask v.ve v.msk) v.mz ((List.range 64).map fun i =>
          BitVec.ofNat 32 (leNat (((c.read k addr 256).drop (4 * i)).take 4)))))

/-- R163, R170, R267, R268, R270: the moves and conversions of the VEs complete at their contract latencies: VCVTW 8 cycles
after issue; VCVTN 8, or 10 to an MX format; VLD and VST of n lines 12 and the rows they take; VLDV and VSTV 12 (each 2 later
under TC0). VLD's effects are the writes of the bytes it reads, VST's of its lines, VCVTW's the widened lanes. -/
def Obligations.MovesAndConversions : Prop :=
  ∀ (s : State) (a : Site) (cyc : Nat) (o : VcvOp) (b : VbOp) (v : VvOp),
    let c := s.core a.core
    let k := s.ctxAt a.core cyc
    let unit (ve : Bool) : EngUnit := if ve then .ve1 else .ve0
    let mst (ve : Bool) : Nat := if ve then 5 else 4
    let late (n : Nat) : Nat := n + if s.tc1 then 0 else 2
    let len := 64 * (b.lnm1.toNat + 1)
    let base := b.bank.toNat * 0x80000 + b.ofs.toNat * 128
    let addr := (base + (c.sreg k b.ar).toNat / 128 * 128) % 2 ^ 32
    let line := cacheBase b.ve + 64 * b.vl.toNat
    let e := [4, 2, 1, 1].getD v.esz.toNat 1
    let vbase := v.bank.toNat * 0x80000 + v.ofs.toNat * 64
    let vaddr := (vbase + (c.sreg k v.ar).toNat / e * e) % 2 ^ 32
    (s.issues a (.vcvtw a o) cyc → ∃ t, exec (.vcvtw a o) s = .next t ∧ s.startsOp t a cyc (unit o.ve) (late 8) fun op =>
      ∃ vals, op.does (c.vecEffs o.ve o.vec.toNat (c.mask o.ve o.msk) o.mz vals) ∧ vals.length = 64) ∧
    (s.issues a (.vcvtn a o) cyc → ∃ t, exec (.vcvtn a o) s = .next t ∧ s.startsOp t a cyc (unit o.ve) (late (if isMx o.fmt.toNat then 10 else 8)) fun op =>
      op.raises = [] ∧ op.claims = []) ∧
    (addr / 0x80000 = base / 0x80000 → (addr + len - 1) / 0x80000 = base / 0x80000 →
      (s.issues a (.vld a b) cyc → ∃ t, exec (.vld a b) s = .next t ∧ s.startsOp t a cyc (unit b.ve) (late (12 + (b.lnm1.toNat + 2) / 2)) fun op =>
        op.does ((c.readE k (mst b.ve) addr len).2 ++ c.writeE (mst b.ve) line (c.readE k (mst b.ve) addr len).1)) ∧
      (s.issues a (.vst a b) cyc → ∃ t, exec (.vst a b) s = .next t ∧ s.startsOp t a cyc (unit b.ve) (late (12 + (b.lnm1.toNat + 2) / 2)) fun op =>
        op.does (c.writeE (mst b.ve) addr (c.read k line len)))) ∧
    (vaddr / 0x80000 = vbase / 0x80000 → (vaddr + 64 * e - 1) / 0x80000 = vbase / 0x80000 →
      (s.issues a (.vldv a v) cyc → ∃ t, exec (.vldv a v) s = .next t ∧ s.startsOp t a cyc (unit v.ve) (late 12) fun op => op.raises = []) ∧
      (s.issues a (.vstv a v) cyc → ∃ t, exec (.vstv a v) s = .next t ∧ s.startsOp t a cyc (unit v.ve) (late 12) fun op =>
        op.raises = [] ∧ op.reads = [(cacheBase v.ve + 64 * v.vl.toNat, 64 * e)]))

/-! ## Transform, update and mask engines (R130–R158, R176–R220, R271–R273) -/

/-- R195, R271: an XRUN without base replacement, of a descriptor whose operation is the row's and whose tiles no other
instruction owns, completes 20 cycles (TC0: 24) and its access time after its issue, holds the XE as long, and shows its
descriptor in XE_STATUS; SCATTER_ADD claims its tiles. A descriptor of another operation issues nothing under the row.
(Choices of the model in it: log entry 17.) -/
def Obligations.XrunIssues : Prop :=
  ∀ (s : State) (a : Site) (cyc : Nat) (d : BitVec 5), (s.core a.core).canonical →
    (s.core a.core).te.owners.length = 16 →
    let c := s.core a.core
    let o : XrunOp := ⟨d, 0#5, 0#5, 0#5⟩
    let x := c.xdesc d.toNat
    let tiles := ((List.range (x.atnm1 + 1)).map (x.at0 + ·)).filter fun t => decide (t < 16)
    ∀ r ∈ [(Instr.xeCopy a o, 0), (.xeTranspose a o, 1), (.xeGather a o, 2), (.xeScatter a o, 3), (.xeScatterAdd a o, 4)],
      (x.op = r.2 → (r.2 = 4 → ∀ i ∈ tiles, c.te.owners.getD i none = none) →
        s.issues a r.1 cyc → ∃ t, exec r.1 s = .next t ∧
          s.startsOp t a cyc .xe (x.time + if s.tc1 then 20 else 24) (fun op =>
            op.free = op.due ∧ op.claims = if r.2 = 4 then tiles else []) ∧
          (t.core a.core).rf 0x5200 5 1 = d.toNat ∧ (t.core a.core).mem = c.mem) ∧
      (x.op ≠ r.2 → s.issues a r.1 cyc → ∃ t, exec r.1 s = .next t ∧ (t.core a.core).inflight.map PendingOp.settled = c.inflight.map PendingOp.settled ∧ (t.core a.core).mem = c.mem)

/-- R200, R201, R203, R211, R272: UADV asks for the step to advance at the next tick and leaves the step as it is; UGFAC of a
sound group in its bank makes its factor set valid at completion; UFLIST writes the ids of its descriptor's slots in slot
order; UFILT takes at most its declared count of ids into the filter. -/
def Obligations.UpdateControls : Prop :=
  ∀ (s : State) (a : Site) (cyc : Nat) (f d : BitVec 4) (bank : BitVec 3) (ra rb rn nmx : BitVec 5) (ofs : BitVec 12),
    (s.core a.core).canonical →
    let c := s.core a.core
    let k := s.ctxAt a.core cyc
    let late (n : Nat) : Nat := n + if s.tc1 then 0 else 8
    let gbase := bank.toNat * 0x80000 + ofs.toNat * 128
    let g := (gbase + (c.sreg k ra).toNat / 128 * 128) % 2 ^ 32
    let fbase := bank.toNat * 0x80000
    let ids := (fbase + (c.sreg k ra).toNat / 4 * 4) % 2 ^ 32
    let outs := (fbase + (c.sreg k rb).toNat / 4 * 4) % 2 ^ 32
    let nmax := c.filtMax.getD d.toNat 0
    let nf := 1024 * (nmx.toNat + 1)
    let inOne (base at_ len : Nat) : Prop := at_ / 0x80000 = base / 0x80000 ∧ (at_ + len - 1) / 0x80000 = base / 0x80000
    (s.issues a (.uadv a) cyc → ∃ t, exec (.uadv a) s = .next t ∧ s.startsOp t a cyc .ue (late 4) (fun op => op.effs = []) ∧
      (t.core a.core).rf 0x6008 8 8 = 1 ∧ (t.core a.core).gstep = c.gstep) ∧
    (inOne gbase g 1152 → let group := (c.readE k 6 g (groupBytes (c.readE k 6 g 128).1)).1
      groupOk group = true →
      s.issues a (.ugfac a f bank ra ofs) cyc → ∃ t, exec (.ugfac a f bank ra ofs) s = .next t ∧ s.startsOp t a cyc .ue (late 120) fun op =>
        Eff.factor f.toNat (some (factorSet c.ftz group c.gstep).1) ∈ op.effs ∧ op.raises = []) ∧
    (inOne fbase ids (4 * nmax) → s.issues a (.uflist a d bank ra) cyc → ∃ t, exec (.uflist a d bank ra) s = .next t ∧
      s.startsOp t a cyc .ue (late (32 + 2 * ((nmax + 31) / 32))) fun op =>
        op.does (c.writeE 6 ids ((filterRows c.filter d).flatMap fun w => leBytes 4 w.toNat))) ∧
    (inOne fbase ids (4 * nf) → inOne fbase outs (4 * nf) → (c.sreg k rn).toNat ≤ nf →
      s.issues a (.ufilt a d bank ra rb rn nmx) cyc → ∃ t, exec (.ufilt a d bank ra rb rn nmx) s = .next t ∧
        s.startsOp t a cyc .ue (late (32 + nf + 2 * ((nf + 31) / 32))) (fun op =>
          Eff.filter (filterAll d (c.udesc d.toNat).rows c.filter
            ((unpack 32 (c.readE k 6 ids (4 * (c.sreg k rn).toNat)).1).map (BitVec.ofNat 32))).1 ∈ op.effs) ∧
        (t.core a.core).filter = c.filter)

/-- R202, R206, R210, R218, R220: a UUPD whose factor set is valid and whose rule admits the pass, with every array in one
bank, and a UROW of rule 0 or 1 with its rows in the banks of its bases, are in flight for the time of the rows they touch
and abort nothing. With an invalid factor set (UE_FACTOR_STALE, 0x020D), or a rule that does not admit the pass or the form
(UE_RULE_MISMATCH, 0x020C), the instruction takes its time and writes nothing, and the frame is aborted with the code, which
UE_FAULT records if it holds no earlier fault.
(Choices of the model in it: log entries 18 and 39.) -/
def Obligations.UpdatePasses : Prop :=
  ∀ (s : State) (a : Site) (cyc : Nat) (di : BitVec 4) (pass : BitVec 3) (nrows : BitVec 12),
    (s.core a.core).canonical →
    let c := s.core a.core
    let d := c.udesc di.toNat
    let late (n : Nat) : Nat := n + if s.tc1 then 0 else 8
    let stops (i : Instr) (lat : Nat) (code : Nat) : Prop := s.issues a i cyc → ∃ t, exec i s = .next t ∧
      s.startsOp t a cyc .ue (late lat) (fun op => op.raises = [] ∧ op.effs = []) ∧
      (t.core a.core).rf 0x6000 31 16 = code ∧ (t.core a.core).frame.aborted = true ∧ (t.core a.core).seq.stopped = true ∧
      (c.frame.aborted = false →
        (t.core a.core).frame.faultCode = BitVec.ofNat 16 code ∧ (t.core a.core).frame.faultBundle = a.bundle) ∧
      (c.rf 0x605C 31 31 = 0 → (t.core a.core).reg 0x605C =
        BitVec.ofNat 32 (code + di.toNat * 0x10000 + d.fs * 0x100000 + 0x80000000))
    (c.factors.getD d.fs none = none → (∃ rows, stops (.uupd a di pass) (32 + rows) 0x020D) ∧
      ∃ rows, stops (.urow a di 0#5 nrows) (32 + 48 * nrows.toNat + rows) 0x020D) ∧
    ∀ f, c.factors.getD d.fs none = some f →
      let p := pass.toNat
      let runs := d.passReads f p ++ d.passWrites f p
      let lat := 32 + updateTime (touchedRows runs)
      let len := (rowLayout f (d.n % 8192)).2.2.2
      let glen := d.n % 8192 * stateBytes d.gfmt
      let odd := f.rule = 3 ∧ (d.sparse = true ∨ d.rowMode = true)
      (passAllowed f.rule p = false ∨ odd → stops (.uupd a di pass) lat 0x020C) ∧
      (passAllowed f.rule p = true → ¬odd → (∀ r ∈ runs, oneBank r = true) →
        s.issues a (.uupd a di pass) cyc → ∃ t, exec (.uupd a di pass) s = .next t ∧ s.startsOp t a cyc .ue (late lat) fun op =>
          op.raises = [] ∧ op.reads = d.passReads f p) ∧
      (2 ≤ f.rule → ∃ lat, stops (.urow a di 0#5 nrows) lat 0x020C) ∧
      (f.rule < 2 → (∀ j, j < nrows.toNat → inBank d.w (d.w + j * d.rstride) len = true ∧
          inBank d.grad (d.grad + j * d.gstride) glen = true) →
        s.issues a (.urow a di 0#5 nrows) cyc → ∃ t, exec (.urow a di 0#5 nrows) s = .next t ∧ ∃ lat, s.startsOp t a cyc .ue lat fun op =>
          (∀ x ∈ op.raises, x = ⟨0x020E#16, false⟩) ∧
            ∀ j, j < nrows.toNat → (d.w + j * d.rstride, len) ∈ op.reads)

/-- R132–R139, R141, R158, R273: MDODGE, MBURN and MREFRESH of a grain tile that passes its header checks (and, to burn,
with its scores staged) complete at their contract times, hold the tile's slot in edit, and report in ME_DROPS the
positions dropped, the lesser of k and the active ones, and those added, at most k; a burn empties the score stage. A tile
that fails a check is left as it is, and within the first 32 cycles of the operation the frame is aborted with the check's code.
(Choices of the model in it: log entry 18.) -/
def Obligations.MaskEdits : Prop :=
  ∀ (s : State) (a : Site) (cyc : Nat) (o : MEditOp),
    let c := s.core a.core
    let k := s.ctxAt a.core cyc
    let d := c.mdesc o.d.toNat
    let t := (c.tileView k d).1
    let req := c.meCount k o
    let late (n : Nat) : Nat := n + if s.tc1 then 0 else 8
    let staged : Prop := c.stage.valid = true ∧ c.stage.desc = o.d.toNat ∧ c.stage.tensor.toNat = t.h.tensor ∧
      c.stage.brow = t.h.brow ∧ c.stage.bcol = t.h.bcol
    let edits (i : Instr) (lat drops adds : Nat) (p : PendingOp → Prop) : Prop := s.issues a i cyc → ∃ t, exec i s = .next t ∧
      s.startsOp t a cyc .me (late lat) (fun op => op.raises = [] ∧ op.edits = [d.slot] ∧
        Eff.reg 0x7004 (BitVec.ofNat 32 (drops + adds * 65536)) ∈ op.effs ∧ p op) ∧ (t.core a.core).mem = c.mem
    let fails (i : Instr) (code : Half) : Prop := s.issues a i cyc → ∃ t, exec i s = .next t ∧ ∃ lat, s.startsOp t a cyc .me lat fun op =>
      op.raises = [] ∧ (∃ e ∈ op.early, e.raises = [⟨code, true⟩] ∧ cyc ≤ e.cycle ∧ e.cycle < cyc + (if code = 0x0209#16 then lat else 32)) ∧
        ∀ x ∈ op.effs, ∀ b bs, x ≠ .mem b bs
    (c.maskCheck d t.h t.sheet = none →
      edits (.mdodge a o) (80 + 32 * d.q + d.rr) (min req t.act.length) 0 (fun _ => True) ∧
      (staged → (∃ n, n ≤ req ∧ edits (.mburn a o) (592 + d.rr + d.rs) 0 n fun op => Eff.stage ScoreStage.reset ∈ op.effs) ∧
        ∃ n, n ≤ req ∧ edits (.mrefresh a o) (592 + 32 * d.q + d.rr + d.rs) (min req t.act.length) n fun op =>
          Eff.stage ScoreStage.reset ∈ op.effs) ∧
      (¬staged → fails (.mburn a o) 0x0209#16 ∧ fails (.mrefresh a o) 0x0209#16)) ∧
    ∀ x, c.maskCheck d t.h t.sheet = some x → fails (.mdodge a o) x ∧ fails (.mburn a o) x ∧ fails (.mrefresh a o) x

/-- R135, R136, R145–R147, R273: MSCORE stages 16,384 scores of the tile its descriptor names; MSLOAD of a sheet that agrees
with its tile's header sets the slot's tag to the header's epoch and writes the sheet; MSSTORE of a tile that passes its
checks writes its slot's sheet to the scratchpad; MREMAP of one raises nothing. -/
def Obligations.SheetsAndScores : Prop :=
  ∀ (s : State) (a : Site) (cyc : Nat) (o : MScoreOp) (m : MSheetOp) (di : BitVec 5) (old : BitVec 6),
    let c := s.core a.core
    let k := s.ctxAt a.core cyc
    let late (n : Nat) : Nat := n + if s.tc1 then 0 else 8
    let inOne (base at_ len : Nat) : Prop := at_ / 0x80000 = base / 0x80000 ∧ (at_ + len - 1) / 0x80000 = base / 0x80000
    let gbase := o.bank.toNat * 0x80000 + o.ofs.toNat * 1024
    let g := (gbase + (c.sreg k o.ra).toNat / 64 * 64) % 2 ^ 32
    let brows := (c.mdesc o.d.toNat).sbLen / 128
    let glen := if o.gf then 32768 else 65536
    let base := m.bank.toNat * 0x80000 + m.ofs.toNat * 64
    let addr := (base + (c.sreg k m.ra).toNat / 64 * 64) % 2 ^ 32
    let d := c.mdesc m.d.toNat
    let h := tileHeader (c.readE k 7 d.body 64).1
    let new := activeList (c.readE k 7 addr 2560).1
    let e := c.mdesc di.toNat
    (o.src = false → inOne gbase g glen → s.issues a (.mscore a o) cyc → ∃ t, exec (.mscore a o) s = .next t ∧
      s.startsOp t a cyc .me (late (24 + glen / 128 + if o.acc then 2 * brows else 0)) fun op =>
        ∃ v, Eff.stage v ∈ op.effs ∧ v.valid = true ∧ v.desc = o.d.toNat ∧ v.fromBuf = false) ∧
    (o.src = true → s.issues a (.mscore a o) cyc → ∃ t, exec (.mscore a o) s = .next t ∧ s.startsOp t a cyc .me (late (24 + brows)) fun op =>
        ∃ v, Eff.stage v ∈ op.effs ∧ v.valid = true ∧ v.desc = o.d.toNat ∧ v.fromBuf = true) ∧
    (inOne base addr 2560 → h.cap = d.q → h.fmt = d.fmt → h.slot = d.slot → h.nnz = new.length → h.nnz ≤ 1024 * d.q →
      s.issues a (.msload a m) cyc → ∃ t, exec (.msload a m) s = .next t ∧ s.startsOp t a cyc .me (late 84) fun op => op.raises = [] ∧ op.edits = [d.slot] ∧
        Eff.reg (0x7100 + 4 * d.slot) (BitVec.ofNat 32 h.epoch) ∈ op.effs ∧
        ∀ x ∈ c.writeE 7 (sheetBase d.slot) (buildSheet new), x.isFence = false → x ∈ op.effs) ∧
    (inOne base addr 2560 → c.maskCheck d h (c.read k (sheetBase d.slot) 2560) = none →
      s.issues a (.msstore a m) cyc → ∃ t, exec (.msstore a m) s = .next t ∧ s.startsOp t a cyc .me (late 76) fun op => op.raises = [] ∧
        ∀ x ∈ c.writeE 7 addr (c.read k (sheetBase d.slot) 2560), x.isFence = false → x ∈ op.effs) ∧
    (c.maskCheck e (tileHeader (c.readE k 7 e.body 64).1) (c.read k (sheetBase e.slot) 2560) = none →
      s.issues a (.mremap a di old) cyc → ∃ t, exec (.mremap a di old) s = .next t ∧ s.startsOp t a cyc .me (late (112 + 2 * e.rp)) fun op => op.raises = [])

/-- R151, R155, R273: PPRED gives its row set the predicted rows, at most its entry's capacity, and as audited rows those
whose number, with the block's and the frame's, is divisible by 2^AUD; PCTL asks for a predictor entry to be enabled or
disabled at the next tick and changes no register of the entry. -/
def Obligations.PredictorInstructions : Prop :=
  ∀ (s : State) (a : Site) (cyc : Nat) (o : PPredOp) (j : BitVec 4) (en : Bool),
    let c := s.core a.core
    let k := s.ctxAt a.core cyc
    let late (n : Nat) : Nat := n + if s.tc1 then 0 else 8
    let inOne (base at_ len : Nat) : Prop := at_ / 0x80000 = base / 0x80000 ∧ (at_ + len - 1) / 0x80000 = base / 0x80000
    let rp := (c.sreg k o.rp).toNat
    let base := o.bank.toNat * 0x80000
    let nmax := 64 * (o.nmx.toNat + 1)
    let block := (c.sreg k o.rq).toNat / 65536 % 2048
    let pe := 0x7C00 + 32 * o.j.toNat
    (inOne base (base + 64 * (rp % 8192)) 8192 → inOne base (base + 64 * (rp / 65536 % 8192)) (64 * nmax) →
      s.issues a (.ppred a o) cyc → ∃ t, exec (.ppred a o) s = .next t ∧ s.startsOp t a cyc .me (late (88 + nmax / 2)) fun op =>
        ∃ r : RowSet, Eff.rowSet o.rs.toNat r ∈ op.effs ∧ r.pent = o.j.toNat ∧
          ((List.range 128).countP fun i => r.selected.getLsbD i) ≤ c.rf pe 7 1 ∧
          ∀ i, i < 128 → (r.audited.getLsbD i = true ↔ (128 * block + i + c.frame.fn.toNat) % 2 ^ c.rf pe 11 8 = 0)) ∧
    (s.issues a (.pctl a j en) cyc → ∃ t, exec (.pctl a j en) s = .next t ∧ s.startsOp t a cyc .me (late 4) (fun op => op.effs = []) ∧
      (t.core a.core).frame.pctl = c.frame.pctl ++ [(j, en)] ∧
      ∀ r, 0x7C00 ≤ r → r < 0x7E00 → (t.core a.core).reg r = c.reg r)

/-! ## Every engine -/

/-- R223, R257: an engine instruction is in line no sooner than its engine has been free of every earlier instruction's issue interval,
waits included.
What one leaves at its issue, in a frame that does not retire with it: its results come at its completion, and until then no byte of
memory, shadow register, scalar register, predicate, DMA channel, conversion control, factor set, filter or score stage changes, nor
any register but SQ_PC and its engine's own (for the XE also the tile owners' registers of the TE), nor anything of the rest
of the module but the token meter. The loops and their counters are what the sequencer's arrival at the bundle makes them. One that
cannot issue changes nothing at all (log entry 7). -/
def Obligations.EngineIssueFrame : Prop :=
  ∀ (s t : State) (a : Site) (cyc : Nat) (tl : TLoadOp) (tm : TMulOp) (qm1 j d f : BitVec 4) (km en ve h mz b1 b2 : Bool) (rs pa msk : BitVec 3)
    (tp : TPrintOp) (va : VaOp) (vc : VcmpOp) (vl : VmlogOp) (vr : VrOp) (vo : VaccOp) (cv : VcvOp) (vb : VbOp) (vv : VvOp)
    (lo hi slot : BitVec 6) (ra rb rn nmx di : BitVec 5) (vd : BitVec 9) (si qe : Byte) (x : XrunOp) (nr ofs : BitVec 12)
    (me : MEditOp) (ms : MScoreOp) (sh : MSheetOp) (pp : PPredOp) (r : List Nat × Instr),
    r ∈ ([([3], [.tload a tl, .tmul a tm qm1, .tmulr a tm km rs, .tprint a tp]),
        ([5], [.vadd a va, .vsub a va, .vmul a va, .vfma a va, .vmin a va, .vmax a va, .vabs a va, .vneg a va, .vand a va,
          .vor a va, .vxor a va, .vnot a va, .vshl a va, .vshr a va, .vsra a va, .vpopc a va, .vmov a va, .vcvtf a va,
          .vcvti a va, .vrcp a va, .vrsq a va, .vexp2 a va, .vlog2 a va, .vdiv a va, .vsqrt a va, .vcmp a vc, .vmlog a vl,
          .vmlane a ve lo hi msk, .vmsr a ve ra h msk, .vspl a ve msk mz ra vd, .vscl a ve b1 b2 si qe, .vred a vr,
          .vrax a vr, .vacc a vo, .vcvtw a cv, .vcvtn a cv, .vld a vb, .vst a vb, .vldv a vv, .vstv a vv]),
        ([3, 5], [.xeCopy a x, .xeTranspose a x, .xeGather a x, .xeScatter a x, .xeScatterAdd a x]),
        ([6], [.uadv a, .ugfac a f rs ra ofs, .uflist a d rs ra, .ufilt a d rs ra rb rn nmx, .uupd a d pa, .urow a d ra nr]),
        ([7], [.mdodge a me, .mburn a me, .mrefresh a me, .mscore a ms, .msload a sh, .msstore a sh, .mremap a di slot,
          .ppred a pp, .pctl a j en])] : List (List Nat × List Instr)).flatMap (fun g => g.2.map fun i => (g.1, i)) →
    exec r.2 s = .next t →
    let c := s.core a.core
    let e := t.core a.core
    (c.issueCycle a r.2 = none → t = s) ∧
    (c.issueCycle a r.2 = some cyc → c.sameIssue a.bundle (slotNo r.2) = false → ∀ u, unitOf r.2 = some u →
      ∀ o ∈ c.inflight, o.unit = u → o.freeNow ≤ cyc) ∧
    (s.reaches a r.2 cyc → (t.core a.core).frame.retiredAt = none → s.othersKept t a.core ∧ e.mem = c.mem ∧ e.shadow = c.shadow ∧ e.seq.sregs = c.seq.sregs ∧ e.seq.preds = c.seq.preds ∧
      e.seq.coming = c.seq.coming ∧ e.dma.map DmaCh.settled = c.dma.map DmaCh.settled ∧
      e.seq.loops = (s.arrived a r.2 cyc).seq.loops ∧ e.seq.lc = (s.arrived a r.2 cyc).seq.lc ∧
      e.ve0ctl = c.ve0ctl ∧ e.ve1ctl = c.ve1ctl ∧ e.factors = c.factors ∧ e.filter = c.filter ∧ e.stage = c.stage ∧
      ∀ q, q ≠ 0x2004 → q / 0x1000 ∉ r.1 → e.reg q = c.reg q)

/-- R101, R225, R257: the instruction of a unit that reaches its contract completion first, with nothing else due on its core before,
reaches it: the clock comes to its completion, waits included, it leaves the unit, and its claims are gone. A suppressed one changes no
byte of memory. One whose one effect writes bytes to the core's memory, none of them lost to a collision and no line with a miss, changes
those bytes and no others. A grain tile's TLOAD whose header check, due before, fails empties the standby buffer and aborts the frame with
the check's code.
What the completion of an engine instruction leaves, where it meets no miss: every byte of its core's memory that none of its effects
writes, every other core's memory, the HBM, the ports, and the sequencer's scalar registers. -/
def Obligations.InstructionCompletes : Prop :=
  ∀ (s : State) (c : CoreId) (u : EngUnit) (f : Fate) (o : PendingOp), (s.core c).canonical → (s.core c).nextDone u = some o →
    let x := s.core c
    let clean := o.early = [] ∧ x.missing (linesRead o.reads ++ partLines o.effs) (f.misses.map fun l => l.toNat / 64 * 64) = []
    (x.onlyDue o.dueNow (.engine (.done o)) → s.gives (.instructionComplete c u f) fun t =>
      t.clock = max s.clock o.dueNow ∧ (∀ p ∈ (t.core c).inflight, p.id ≠ o.id) ∧
      (o.claims ≠ [] → ∀ i b, (t.core c).te.owners.getD i none ≠ some (o.id, b)) ∧
      (o.supp = true → (t.core c).mem = x.mem) ∧
      (clean → (∀ a bs, o.supp = false → o.effs = [.mem a bs] → f.collisions = [] → Memory.holds x.mem (t.core c).mem a bs) ∧
        (∀ i, (∀ e ∈ o.effs, e.touches i 1 = false) → Memory.byte (t.core c).mem i = Memory.byte x.mem i) ∧
        (∀ d, d ≠ c → (t.core d).mem = (s.core d).mem) ∧ t.hbm = s.hbm ∧ t.ports = s.ports ∧
        ((t.core c).frame.retiredAt = x.frame.retiredAt → (t.core c).seq.sregs = x.seq.sregs))) ∧
    ∀ h n code, o.header = some h → h.due ≤ o.dueNow → x.headerFault h = some (n, code) → o.early = [] → o.effs = [] →
      (∀ y ∈ x.allDues, y.1 ≤ o.dueNow → y.2 = .engine (.done o) ∨ y.2 = .engine (.header o h)) → x.frame.aborted = false →
      s.gives (.instructionComplete c u f) fun t => (t.core c).te.standby.tag = none ∧ (t.core c).frame.aborted = true ∧
        (t.core c).frame.faultCode = code ∧ (t.core c).frame.faultBundle = o.bundle

/-! ## Ticks, frames and the guard band (R11–R28) -/

/-- R11, R14, R24, R28, R91: a tick raises FN by 1, the tick's cycle becomes the last tick's, and the next follows a period at
the core frequency later, a fraction of a cycle carried; every row set is reset. A stop bath that is due halts the
module and starts no frame. Else, with an image loaded, the job started and the frames' guard band over, the entry at the ring position
starts on each core that is free, under the new FN; on a core whose frame is late it is dropped, or waits, as the policy of the frame
says.
(Choices of the model in it: log entry 19.) -/
def Obligations.TickRunsDueEntries : Prop :=
  ∀ s : State, s.canonical → s.ticking = true → s.gives .shutterTick fun t =>
    let n := s.shutter.fraction + cycleNum (s.greg 0x40000).toNat s.shutter.freq2
    let pos := s.shutter.ringPos
    let tick := s.shutter.nextTick
    t.shutter.fn = s.shutter.fn + 1#48 ∧ t.shutter.lastTick = tick ∧
      t.clock = max s.clock tick ∧ t.shutter.nextTick = tick + n / 2000 ∧
      t.shutter.fraction = n % 2000 ∧ (∀ c, (t.core c).rowSets = List.replicate 8 RowSet.reset) ∧
      (s.haltComing = true ∨ s.halted = true → t.halted = true ∧
        ∀ c, (s.core c).frame.live = false → (t.core c).frame.live = false) ∧
      (s.haltComing = false → s.halted = false → s.loaded = true → s.shutter.started = true → s.locked = true →
        s.shutter.guarded = true → (∀ c, ∀ d ∈ (s.core c).allDues, tick < d.1) →
        (∀ c, (s.core c).frame.live = true → (s.core c).frame.retiredAt = none) →
        (∀ c, State.abandonDue s.shutter.lastTick s c = false) →
        (s.shiftOpen = true ∨ ∀ c, (s.core c).replays = false) → 512 < cyclesOf (s.greg 0x40000).toNat s.shutter.freq2 →
        t.shutter.ringPos = (pos + 1) % s.ring ∧
        ∀ c e, (s.core c).sched[pos]? = some e → (s.core c).behind = 0 →
          let x := s.core c
          let l : FrameStart := ⟨pos, s.shutter.fn + 1#48, tick, t.shutter.guardAt, false⟩
          if x.frame.live = false then x.frame.dropped = none → x.lateStarts = [] → x.workEnd ≤ tick →
            (t.core c).frame.live = true ∧ (t.core c).frame.fn = l.fn ∧ (t.core c).frame.entry = pos ∧
              (t.core c).frame.kind = e.kind ∧ (t.core c).frame.ownTick = tick
          else if s.policy x.frame.kind = 1 then (t.core c).frame.dropped = some l.fn
          else (t.core c).lateStarts = x.lateStarts ++ [l])

/-- R12, R24, R241, R371: in the guard band a frame that retired in time ends: a pending commit of its carry words takes effect
if it retired normally, and is withdrawn if not, and so is its UADV. A frame that has not retired by the guard band's start is
an overrun and goes on. The guard-band work of a late frame follows its retirement, and the start that waited for it then
takes place, at the end of that work or at its own tick, unless the frame brings a stop bath or is to be replayed first.
(Choices of the model in it: log entry 19.) -/
def Obligations.GuardBandEndsFrames : Prop :=
  ∀ (s : State) (c : CoreId), (s.core c).canonical → (s.core c).frame.live = true →
    let x := s.core c
    let f := x.frame
    let ends (t : State) : Prop := (t.core c).rf 0x2020 0 0 = 0 ∧
      (x.rf 0x2020 0 0 = 1 → if f.normal then ∀ i, i < 8 → (t.core c).reg (0x2040 + 4 * i) = x.shadowReg (0x2040 + 4 * i)
        else (t.core c).rf 0x2020 3 3 = 1 ∧ ∀ i, i < 8 → (t.core c).reg (0x2040 + 4 * i) = x.reg (0x2040 + 4 * i)) ∧
      (f.normal = false → (t.core c).rf 0x6008 8 8 = 0)
    (s.ticking = true → s.shutter.guarded = false → (∀ d, ∀ y ∈ (s.core d).allDues, s.shutter.guardAt < y.1) → f.overrun = false →
      s.gives (.guardBand none) fun t =>
        if f.overruns f.guardAt then (t.core c).frame.overrun = true ∧ (t.core c).frame.live = true
        else (t.core c).frame.live = false ∧ ends t) ∧
    (f.overrun = true → f.retiredAt.isSome = true → (∀ y ∈ x.allDues, s.shutter.nextTick < y.1) →
      (x.lateStarts = [] → s.gives (.guardBand (some c)) fun t => (t.core c).frame.live = false ∧ ends t) ∧
      ∀ l rest e, x.lateStarts = l :: rest → x.sched[l.slot]? = some e → e.kind < 4 → s.coreHalts x = false → x.replays = false →
        s.gives (.guardBand (some c)) fun t =>
          if max l.tick (t.core c).workEnd < s.shutter.nextTick then (t.core c).frame.live = true ∧ (t.core c).frame.fn = l.fn ∧
            (t.core c).frame.entry = l.slot ∧ (t.core c).frame.started = max l.tick (t.core c).workEnd ∧ (t.core c).lateStarts = rest
          else (t.core c).frame.live = false ∧ (t.core c).lateStarts = l :: rest ∧ ends t)

/-- R13, R155, R200, R290, R441, R442: the events of a tick. A pending change of power class puts the lowest of the strap,
committed and forced classes and its token pool in force together. A UADV's tick raises the core's global step by 1, and
leaves no factor set valid and the filter empty. A frame's last PCTL of a predictor entry sets whether it is enabled. A derate
step lowers the core frequency by 5 % of the full one, and one step of the image's slack is used or, with none left, a stop bath
follows.
(Choices of the model in it: log entry 20.) -/
def Obligations.EventsOfTick : Prop :=
  ∀ (s : State) (c : CoreId) (j : BitVec 4), s.canonical →
    let x := s.core c
    let pe := 0x7C10 + 32 * j.toNat
    (s.ticking = true → s.power.pending.isSome = true → s.gives .powerClassChange fun t =>
      t.gf 0x3000C 1 0 = min (s.gf 0x30000 1 0) (if s.power.lowInput then 0 else s.strapClass - s.power.heatSteps) ∧
        t.gf 0x3000C 25 16 = [480, 600, 720].getD (t.gf 0x3000C 1 0) 0 ∧ t.power.pending = none) ∧
    (s.ticking = true → x.rf 0x6008 8 8 = 1 → x.frame.live = false → s.gives (.globalStepAdvance c) fun t =>
      (t.core c).gstep = (x.gstep + 1) % 2 ^ 40 ∧ (t.core c).rf 0x6008 8 8 = 0 ∧
        (t.core c).factors = List.replicate 16 none ∧ (t.core c).filter = []) ∧
    s.gives (.predictorEnabledSet c j) (fun t => (t.core c).frame.pctl = x.frame.pctl.filter (fun r => r.1 ≠ j) ∧
      match (x.frame.pctl.filter fun r => r.1 = j).getLast? with
      | some (_, true) => (t.core c).rf pe 0 0 = 1 ∧ (t.core c).rf pe 1 1 = 0
      | some (_, false) => (t.core c).rf pe 0 0 = 0
      | none => (t.core c).reg pe = x.reg pe) ∧
    (s.ticking = true → 0 < s.shutter.derates → s.gives .derateAtTick fun t =>
      t.shutter.freq2 = 3600 - 180 * (s.gf 0x20024 8 6 + 1) ∧ t.shutter.derates = s.shutter.derates - 1 ∧
        (s.loaded = true → if s.gf 0x50020 23 16 = 0 then t.shutter.stopNext = true
          else t.gf 0x50020 23 16 = s.gf 0x50020 23 16 - 1))

/-- R17, R320, R321, R323: at tick JOB_START_FN of a member that is loaded, locked and neither halted nor withdrawn from the
start, entry 0 starts on every core. Sixteen ticks before, a planned port that is not UP at its width with its planned peer
withdraws the start and shows LINK_PLAN_FAILED; else nothing changes. At a staged record's boundary the record comes into force; a
member that has staged none when the epoch changes enters a stop bath. -/
def Obligations.JobStartAndEpochs : Prop :=
  ∀ s : State, s.canonical →
    let start := (s.greg 0x40018).toNat + s.gf 0x4001C 15 0 * 2 ^ 32
    (s.ticking = true → s.loaded = true → s.shutter.started = false → s.halted = false → s.shutter.noStart = false →
      s.locked = true → s.shutter.fn.toNat = start → (∀ n, s.power.phase ≠ .shutdown n) → s.gives .jobStart fun t =>
        t.shutter.started = true ∧ t.shutter.ringPos = 1 % s.ring ∧ ∀ c e, (s.core c).sched[0]? = some e →
          (t.core c).frame.live = true ∧ (t.core c).frame.fn = s.shutter.fn ∧ (t.core c).frame.entry = 0 ∧
            (t.core c).frame.kind = e.kind) ∧
    (∀ i, s.image = some i → s.shutter.started = false → s.shutter.fn.toNat + 16 = start → s.shutter.noStart = false →
      let met (p : Nat) : Bool := s.planMet p (i.plan.ports.getD p ⟨0, 0, 0#32⟩) && s.syncMet p
      s.gives .linkPlanCheck fun t =>
        ((∀ p, p < 16 → met p = true) → t = s) ∧
          ∀ p, p < 16 → met p = false → t.shutter.noStart = true ∧ t.gf (portOff p + 4) 31 16 = 0x0504) ∧
    (∀ r, s.roster.staged = some r → s.gives .rosterEpochSwitch fun t =>
      if s.shutter.fn = r.boundary then t.roster.inForce = some r ∧ t.roster.staged = none ∧ t.greg 0x60804 = r.epoch
      else t = s) ∧
    (s.roster.staged = none → s.gives .rosterEpochSwitch fun t =>
      t.shutter.stopNext = true ∧ t.shutter.sync.skewReport = true ∧ t.roster = s.roster)

/-! ## Tick synchronisation (R29–R34) -/

/-- R29–R34: the second symbol of a follower, at the interval of a period, has its time base jump to the master's phase, and on the link
its FN be the symbol's. From then on it shows each symbol's phase error and slews the next tick by at most 8 ns towards it;
the sixteenth successive error within 20 ns locks it, and a second successive one beyond 50 ns loses lock with
TICK_SYNC_LOST and a stop bath. On the link the error is the symbol's arrival less its stamp and the link delay; at the pin, the
edge's, which carries no FN.
R28, R30, R32, R33, R316, R317: lock not reached 4,096 ticks after the first symbol, or four symbols missing, is
TICK_SYNC_LOST with a stop bath. A halt or skew report on a downstream port reaches the master, which owes its members HALT, and a
follower on the link forwards it upstream. Where a port's delay is due to be measured a request leaves with a new identifier; a request is
answered, and the answer to the port's request under way gives its delay, half the round trip less the residence.
(Choices of the model in it: log entries 47 and 52.) -/
def Obligations.TickSynchronisation : Prop :=
  (∀ (s : State) (port : BitVec 4) (b : TickBlock) (arrive off : Int) (interval : Nat), s.canonical → s.ticking = true →
    let y := s.shutter.sync
    let moved (ns : Int) (t : State) : Prop :=
      t.shutter.nextTick = max s.clock ((s.shutter.nextTick : Int) + ((s.shutter.fraction : Int) + ns * s.shutter.freq2) / 2000).toNat
    let tracks (err : Int) (t : State) : Prop :=
      moved (max (-8) (min 8 err)) t ∧ t.gf 0x4002C 15 0 = twosOf 16 err ∧
        (s.locked = true → (t.locked = false ↔ 50 < err.natAbs ∧ 1 ≤ y.bad) ∧
          (t.locked = false → t.shutter.stopNext = true ∧ t.gf 0x40020 31 16 = 0x0503)) ∧
        (s.locked = false → (t.locked = true ↔ err.natAbs ≤ 20 ∧ 15 ≤ y.good))
    let steps (i : Instr) (err : Int) (fn : BitVec 48) : Prop :=
      (y.symbols = 0 → s.gives i fun t => t.shutter.sync.symbols = 1 ∧ t.shutter.nextTick = s.shutter.nextTick) ∧
      (y.symbols = 1 → ((interval : Int) - (s.greg 0x40000).toNat).natAbs ≤ 1000 → s.gives i fun t =>
        t.shutter.sync.symbols = 2 ∧ moved err t ∧ t.shutter.fn = fn) ∧
      (2 ≤ y.symbols → s.gives i (tracks err))
    (s.source = 2 → steps (.tickInEdge off interval) off s.shutter.fn) ∧
    (s.source = 1 → s.gf 0x40030 3 0 = port.toNat → s.tickPort port.toNat = true →
      steps (.tickFlit port b arrive interval) (arrive - (b.stamp.toNat / 4 : Nat) - (s.gf 0x4002C 31 16 : Nat)) b.fn)) ∧
  (∀ (s : State) (port : BitVec 4) (b : TickBlock) (id res : Half) (rtt : Word), s.canonical → s.ports.length = 16 →
    let y := s.shutter.sync
    let lost (t : State) : Prop := t.locked = false ∧ t.gf 0x40020 31 16 = 0x0503 ∧ t.shutter.stopNext = true
    let p := port.toNat
    let reports := b.flags.getLsbD 2 || b.flags.getLsbD 3
    (s.source ≠ 0 → s.locked = false → 0 < y.symbols → 4096 ≤ y.ticksSince → s.gives .lockTimeout lost) ∧
    (s.source ≠ 0 → s.locked = true → 4 ≤ y.missing → s.gives .tickSyncLost lost) ∧
    (reports = true → s.gbit 0x40030 (16 + p) = true → s.tickPort p = true →
      (s.master = true → s.gives (.upstreamTickFlit port b) fun t => t.shutter.masterHalt = true) ∧
      (s.master = false → s.source = 1 → s.tickPort (s.gf 0x40030 3 0) = true → s.gives (.upstreamTickFlit port b) fun t =>
        ∃ f, t.sent = s.sent ++ [.flit (s.gf 0x40030 3 0) f])) ∧
    (reports = false → s.gives (.upstreamTickFlit port b) (· = s)) ∧
    (s.echoDue p = true → s.gives (.echoMeasurement port) fun t => t.shutter.sync.echoId = y.echoId + 1#16 ∧
      (t.port p).echo = some (y.echoId + 1#16) ∧ ∃ f, t.sent = s.sent ++ [.flit p f]) ∧
    (s.echoDue p = false → s.gives (.echoMeasurement port) (· = s)) ∧
    s.gives (.echo port false id res rtt) (fun t => ∃ f, t.sent = s.sent ++ [.flit p f]) ∧
    ((s.port p).echo = some id → s.gives (.echo port true id res rtt) fun t =>
      t.gf (portOff p + 12) 15 0 = (rtt.toNat - res.toNat + 1) / 2 % 65536 ∧
        (s.source = 1 → s.gf 0x40030 3 0 = p → t.gf 0x4002C 31 16 = (rtt.toNat - res.toNat + 1) / 2 % 65536)) ∧
    ((s.port p).echo ≠ some id → s.gives (.echo port true id res rtt) (· = s)))

/-! ## Registers (R5–R7, R35, R36, R60–R63) -/

/-- R60–R63: the commits of the four kinds of blocks complete. SHT_COMMIT_GO, CORE_COMMIT_GO, LNK_COMMIT_GO and CPM_COMMIT_GO
without IMMEDIATE make a commit of the block pending; with IMMEDIATE, on an idle block whose committer may commit and whose shadows
pass every check, they put every CMT field's shadow in force at once. SHT_COMMIT_CANCEL, CORE_COMMIT_CANCEL, LNK_COMMIT_CANCEL and
CPM_COMMIT_CANCEL withdraw a pending commit, the shadows staying. COMMIT_APPLY, at a tick at which the block is idle, puts every CMT
field's shadow in force. A write in a core's window finds the core as its cycles have left it by now (`u`).
Where a commit is not carried out: a second GO while one is pending does nothing, nor does CANCEL or COMMIT_APPLY with none pending; a
commit whose rights, in order before its idleness and its consistency, fail is rejected with the reason and code and changes no value in
force. -/
def Obligations.CommitsOfBlocks : Prop :=
  ∀ (s : State) (c : CoreId), s.canonical → s.accessible = true → s.available c = true → s.slicing c 0x1200 = false →
    ∀ r ∈ [(Block.shutter, Instr.shtCommitGo, Instr.shtCommitCancel), (.core c, .coreCommitGo c, .coreCommitCancel c),
        (.link, .lnkCommitGo, .lnkCommitCancel), (.cpm, .cpmCommitGo, .cpmCommitCancel)],
      let b := r.1
      let go := r.2.1
      let cancel := r.2.2
      let u := match b with
        | .core d => s.settleAt (winBase d + 0x1200)
        | _ => s
      let kept (t : State) : Prop := (∀ a, t.gshadowReg a = u.gshadowReg a) ∧ ∀ d a, (t.core d).shadowReg a = (u.core d).shadowReg a
      let inForce (v t : State) : Prop := t.blkPending b = false ∧ match b with
        | .core d => ∀ o ∈ coreCmt, (t.core d).reg o.1 &&& o.2 = (v.core d).shadowReg o.1 &&& o.2
        | b => ∀ o ∈ globCmt (blkRange b).1 (blkRange b).2, t.greg o.1 &&& o.2 = v.gshadowReg o.1 &&& o.2
      let failed (v : State) (reason : Nat) (code : Half) (t : State) : Prop := t.blkPending b = false ∧
        fld (t.blkStatus b) 1 1 = 1 ∧ fld (t.blkStatus b) 15 8 = reason ∧ fld (t.blkStatus b) 31 16 = code.toNat ∧
        match b with
        | .core d => ∀ o ∈ coreCmt, (t.core d).reg o.1 &&& o.2 = (v.core d).reg o.1 &&& o.2
        | b => ∀ o ∈ globCmt (blkRange b).1 (blkRange b).2, t.greg o.1 &&& o.2 = v.greg o.1 &&& o.2
      (u.blkPending b = false → s.gives (go false) fun t => t.blkPending b = true ∧ kept t) ∧
      (u.blkPending b = false → u.blkRights b = none → u.blkIdle b false = true → u.blkReason b = none →
        s.gives (go true) (inForce u)) ∧
      (u.blkPending b = true → s.gives cancel fun t => t.blkPending b = false ∧ kept t) ∧
      (s.blkPending b = true → s.ticking = true → s.blkIdle b true = true → s.blkRights b = none → s.blkReason b = none →
        s.gives (.commitApply b) (inForce s)) ∧
      (u.blkPending b = true → s.gives (go false) (· = u) ∧ s.gives (go true) (· = u)) ∧
      (u.blkPending b = false → s.gives cancel (· = u)) ∧
      (s.blkPending b = false → s.gives (.commitApply b) (· = s)) ∧
      (s.blkPending b = true → s.ticking = true → s.blkIdle b true = true →
        (∀ x, s.blkRights b = some x → s.gives (.commitApply b) (failed s x.1 x.2)) ∧
        (s.blkRights b = none → ∀ n, s.blkReason b = some n → s.gives (.commitApply b) (failed s n 0x0204#16))) ∧
      (u.blkPending b = false →
        (∀ x, u.blkRights b = some x → s.gives (go true) (failed u x.1 x.2)) ∧
        (u.blkRights b = none → u.blkIdle b false = false → s.gives (go true) (failed u (blkBusy b) 0x0204#16)) ∧
        (u.blkRights b = none → u.blkIdle b false = true → ∀ n, u.blkReason b = some n →
          s.gives (go true) (failed u n 0x0204#16)))

/-- R16, R35, R74, R337, R347, R404, R442: a KEY register reads 1 after a write of the handle of an open session of its role,
installer, for the doorbells operator and for tests the one that the life-cycle state asks for, and 0 after any other; with HIF_DBKEY set a doorbell counts 1 in each event counter
bound to it, and without it does nothing; NUM_CLR clears the saturation counts of the core; a read of SHT_FN_LO gives FN's
low word and latches its high bits in SHT_FN_HI. -/
def Obligations.KeysDoorbellsAndLatches : Prop :=
  ∀ (s : State) (c : CoreId) (w : Word) (bits : Half), s.canonical → s.accessible = true → s.available c = true →
    s.slicing c 0x401C = false →
    (∀ r ∈ [(Instr.shtKeyWrite w, 0x40044, 2), (.lnkKeyWrite w, 0x60008, 2), (.cpmKeyWrite w, 0x3001C, 2),
        (.htuTkeyWrite w, 0x2000C, s.testRole), (.hifDbkeyWrite w, 0x70008, 1)],
      (s.holds w r.2.2 = true → s.gives r.1 fun t => t.greg r.2.1 = 1#32) ∧
      (s.holds w r.2.2 = false → s.gives r.1 fun t => t.greg r.2.1 = 0#32)) ∧
    (s.gbit 0x70008 0 = false → s.gives (.hifDoorbellWrite bits) (· = s)) ∧
    (s.gbit 0x70008 0 = true → s.gives (.hifDoorbellWrite bits) fun t => ∀ i, i < 16 →
      let src := (s.core c).rf (0x2080 + 4 * i) 7 0
      let old := (s.core c).reg (0x20C0 + 4 * i)
      if 0x30 ≤ src ∧ src < 0x40 ∧ bits.getLsbD (src - 0x30) = true then
        ((t.core c).reg (0x20C0 + 4 * i)).toNat = min (old.toNat + 1) 0xFFFFFFFF
      else (t.core c).reg (0x20C0 + 4 * i) = old) ∧
    s.gives (.satcntClr c) (fun t => (∀ f, f < 11 → (t.core c).reg (0x4044 + 4 * f) = 0#32) ∧
      ∀ r, (r < 0x4044 ∨ 0x4070 ≤ r) → (t.core c).reg r = ((s.settleAt (winBase c)).core c).reg r) ∧
    s.gives .shtFnLoRead (fun t => t.greg 0x40014 = BitVec.ofNat 32 (s.shutter.fn.toNat / 2 ^ 32) ∧
      t.sent = s.sent ++ [.read (leBytes 4 (s.shutter.fn.toNat % 2 ^ 32))])

/-- R5, R62–R64, R241, R340, R345: a register write gives each field what its access code says: RW and RWS fields the value written,
W1C fields 0 and W1S fields 1 where it has ones, RO fields nothing; no CMT field changes its value in force, and its shadow takes the
value written, or with a commit of its block pending is discarded and noted. Stated of the registers whose write is no action of its
own; a write in a core's window finds the core as its cycles have left it by now (`u`). While an image is loaded the bank map, the fences and the carry
words take no write. A command buffer takes a write while its mailbox is free; PF1 writes the management mailbox alone. -/
def Obligations.RegisterWrites : Prop :=
  ∀ (s : State) (a w : Word) (c : CoreId) (b : RegBlk), s.canonical → s.accessible = true →
    let n := a.toNat / 4 * 4
    let off := n % 0x100000
    let m := b.mask .cmt
    let u := s.settleAt n
    let x := u.core c
    (n < 0x80000 ∨ 0xA0000 ≤ n ∨ 0x1000 < (n - 0x80000) % 0x2000 → n < 0x1000000 → findReg globRegs n = some b →
      keyRole n = none → commitOf n = none → htuGuarded n = false → n ≠ 0x70004 → b.base ≠ 0x70100 → s.reservedOnes n w = false → s.gives (.registerWrite ⟨false, a.setWidth 28⟩ w) fun t =>
        t.greg n = mergeReg b (s.greg n) w ∧
          (m = 0#32 → t.gshadow = s.gshadow ∧ ∀ r, r ≠ n → t.greg r = s.greg r) ∧
          ∀ blk, m ≠ 0#32 → blockAt n = some blk →
            if s.blkPending blk then fld (t.blkStatus blk) 2 2 = 1 ∧ t.gshadow = s.gshadow
            else t.gshadowReg n = (s.gshadowReg n &&& ~~~m) ||| (w &&& m)) ∧
    (winOf n = some (c, off) → off < 0x10000 → n < 2 ^ 28 → findReg coreRegs off = some b → off ≠ 0x1200 → off ≠ 0x401C →
      s.available c = true → s.slicing c off = false → s.reservedOnes n w = false →
      let i := Instr.registerWrite ⟨false, a.setWidth 28⟩ w
      let free := u.loaded = false ∨ loaderOnly off = false
      (u.loaded = true → loaderOnly off = true → s.gives i (· = u)) ∧
      (free → b.base = 0x2040 → (x.rf 0x2020 0 0 = 0 → s.gives i fun t => (t.core c).shadowReg off = w) ∧
        (x.rf 0x2020 0 0 = 1 → s.gives i fun t => (t.core c).shadow = x.shadow ∧ (t.core c).rf 0x2020 2 2 = 1)) ∧
      (free → b.base ≠ 0x2040 → s.gives i fun t => (t.core c).reg off = mergeReg b (x.reg off) w ∧
        (m = 0#32 → (t.core c).shadow = x.shadow ∧ ∀ r, r ≠ off → (t.core c).reg r = x.reg r) ∧
        (m ≠ 0#32 → if u.blkPending (.core c) then (t.core c).rf 0x1204 2 2 = 1 ∧ (t.core c).shadow = x.shadow
          else (t.core c).shadowReg off = (x.shadowReg off &&& ~~~m) ||| (w &&& m)))) ∧
    (∀ k, 0x80000 ≤ n → n < 0xA0000 → n = 0x80000 + k * 0x2000 + (n - 0x80000) % 0x2000 → (n - 0x80000) % 0x2000 < 0x1000 →
      s.reservedOnes n w = false → s.svc.running.getD k none = none → s.gives (.registerWrite ⟨false, a.setWidth 28⟩ w) fun t =>
        Memory.holds s.svc.buffers t.svc.buffers (n - 0x80000) (leBytes 4 w.toNat)) ∧
    (n < 0x1000 → s.svc.running.getD 16 none = none → s.gives (.registerWrite ⟨true, a.setWidth 28⟩ w) fun t =>
      Memory.holds s.svc.buffers t.svc.buffers (0x20000 + n) (leBytes 4 w.toNat)) ∧
    (w &&& 0xFFF8#32 = 0#32 → s.gives (.registerWrite ⟨true, 0x1004#28⟩ w) fun t =>
      t.greg (mboxStatus 16) = s.greg (mboxStatus 16) &&& ~~~(w &&& 6#32)) ∧
    (0x1008 ≤ n → n < 2 ^ 28 → s.gives (.registerWrite ⟨true, a.setWidth 28⟩ w) (· = s))

/-- R7: REGISTER_WRITE of ones to a reserved field, through PF0 or PF1, stops the run with a fault that names the address. Nothing else
stops one: no command but REGISTER_WRITE and POKE ever faults, and no command is refused.
(Choices of the model in it: log entry 10.) -/
def Obligations.OnlyReservedFieldsStop : Prop :=
  (∀ (s : State) (a : BitVec 28) (w : Word), s.accessible = true → s.reservedOnes (a.toNat / 4 * 4) w = true →
    exec (.registerWrite ⟨false, a⟩ w) s = .fault (.reservedFieldWrite (a.toNat / 4 * 4))) ∧
  (∀ (s : State) (w : Word), s.accessible = true → w &&& 0xFFF8#32 ≠ 0#32 →
    exec (.registerWrite ⟨true, 0x1004#28⟩ w) s = .fault (.reservedFieldWrite 0x1004)) ∧
  (∀ (s : State) (i : Instr) (f : Fault), exec i s = .fault f →
    ∃ a w, (i = .registerWrite ⟨false, a⟩ w ∨ i = .registerWrite ⟨true, a⟩ w ∨ i = .poke a w) ∧ f = .reservedFieldWrite (a.toNat / 4 * 4)) ∧
  ∀ (s : State) (i : Instr) (r : Refusal), exec i s ≠ .refused r

/-! ## Link ports (R299–R311) -/

/-- R301–R305, R307, R308: a DATA flit with the expected SEQ on an UP port joins the open tag group, and every thirty-second flit
is acknowledged; one that a codeword which FEC could not correct overlaps, or whose CRC fails, is discarded with a NAK. A TAG flit in order whose tag verifies
closes the group and steps the key; else the group is discarded, and the second time the port fails. ACK frees flits; NAK sends
again from its SEQ on, unless one has been sent 8 times, when the port fails; the ACK timer sends a due ACK. A port that is not UP takes
no sequenced flit and no NAK.
(Choices of the model in it: log entry 21.) -/
def Obligations.FlitsInOrder : Prop :=
  ∀ (s : State) (port : BitVec 4) (f : RxFlit) (seq : Half), s.canonical → s.ports.length = 16 →
    let p := port.toNat
    let x := s.port p
    let typ := fld (flitHead f.bytes) 3 0
    let good := s.portState p = 3 ∧ x.fecFailed f.place = false ∧ flitGood f.bytes = true ∧ flitSeq f.bytes = x.expected
    let nakOut : Output := .flit p (flitOf 3 0 0 false false (leBytes 2 x.expected))
    let again := x.retry.dropWhile (·.seq ≠ seq.toNat)
    (good → typ = 1 → s.gives (.dataFlit port f) fun t => (t.port p).held = x.held ++ [f.bytes] ∧
      (t.port p).expected = (x.expected + 1) % 4096 ∧ (t.port p).unacked = if 31 ≤ x.unacked then 0 else x.unacked + 1) ∧
    (s.portState p = 3 → x.fecFailed f.place = true ∨ flitGood f.bytes = false →
      ∀ i ∈ [Instr.dataFlit port f, .tagFlit port f], s.gives i fun t =>
        t.sent = s.sent ++ [nakOut] ∧ (t.port p).held = x.held ∧ (t.port p).expected = x.expected ∧ (t.port p).nakked = true) ∧
    (good → typ = 4 → s.gives (.tagFlit port f) fun t => (t.port p).held = [] ∧
      (∀ k pt, x.rx = some k → x.openGroup f.bytes = some pt → (t.port p).rx = some (k.step x.rxSwitch).1 ∧
        (t.port p).expected = (x.expected + 1) % 4096 ∧ s.portState p = t.portState p) ∧
      (x.openGroup f.bytes = none → (t.port p).tagFails = x.tagFails + 1 ∧ (t.port p).assembly = x.assembly ∧
        (1 ≤ x.tagFails → t.portState p = 4 ∧ t.gf (portOff p + 4) 31 16 = 0x0506))) ∧
    s.gives (.ack port seq) (fun t => x.waiting = [] → (t.port p).retry = freeUpTo seq.toNat x.retry) ∧
    (s.portState p = 3 → (again.any fun f => decide (8 ≤ f.sent)) = false → s.gives (.nak port seq) fun t =>
      t.sent = s.sent ++ again.map (fun f => .flit p f.bytes)) ∧
    (s.portState p = 3 → (again.any fun f => decide (8 ≤ f.sent)) = true → s.gives (.nak port seq) fun t =>
      t.portState p = 4 ∧ t.gf (portOff p + 4) 31 16 = 0x0501) ∧
    (x.unacked ≠ 0 → s.gives (.ackTimer port) fun t => (t.port p).unacked = 0 ∧
      t.sent = s.sent ++ [.flit p (flitOf 2 0 0 false false (leBytes 2 ((x.expected + 4095) % 4096)))]) ∧
    (x.unacked = 0 → s.gives (.ackTimer port) (· = s)) ∧
    (s.portState p ≠ 3 → ∀ i ∈ [Instr.dataFlit port f, .tagFlit port f, .nak port seq], s.gives i (· = s))

/-- R299, R305, R306, R309: an enabled port that trains goes to KEYING at the lesser of the width found and the width allowed,
with a KEY flit out; in KEYING the handshake of a member whose key is known and whose signature verifies brings it UP with the session's
two keys, any other leaves it in KEYING with LINK_AUTH_FAILED, as does its timeout. After 2^31 groups under one key the sender announces a later group
for the next generation; the receiver takes the switch at the group announced.
(Choices of the model in it: log entry 21.) -/
def Obligations.PortSessions : Prop :=
  ∀ (s : State) (port : BitVec 4) (tr : Training) (member : Word) (eph cert sig dik : List Byte) (g : BitVec 64),
    s.canonical → s.ports.length = 16 →
    let p := port.toNat
    let x := s.port p
    let hello := Instr.keyFlit port (.handshake eph member cert sig dik)
    let keys := sessionKeys (Config.secret s.tick1.freeCtr "ECDH secret" eph) (decide (s.greg 0x60800 < member))
    (s.ready = true → s.gbit (portOff p) 0 = true → s.portState p = 1 → s.gives (.linkTraining port tr) fun t =>
      t.portState p = 2 ∧ t.gf (portOff p + 4) 4 3 = min tr.width.toNat (s.gf (portOff p) 2 1) ∧ t.port p = { Port.reset with lanes := tr.width.toNat } ∧
        ∃ fl, t.sent = s.sent ++ [.flit p fl]) ∧
    (s.portState p = 2 → s.handshakeOk eph member cert sig dik = true → s.gives hello fun t =>
      t.greg (portOff p + 8) = member ∧ t.portState p = 3 ∧ (t.port p).tx = some keys.1 ∧ (t.port p).rx = some keys.2) ∧
    (s.portState p = 2 → s.handshakeOk eph member cert sig dik = false → s.gives hello fun t =>
      t.greg (portOff p + 8) = member ∧ t.portState p = 2 ∧ t.gf (portOff p + 4) 31 16 = 0x0506) ∧
    (s.portState p ≠ 2 → s.gives hello (· = s)) ∧
    s.gives (.keyFlit port (.rekey g)) (fun t => t.port p = { x with rxSwitch := some g.toNat }) ∧
    (s.portState p = 2 → s.gives (.handshakeTimeout port) fun t => t.portState p = 2 ∧ t.gf (portOff p + 4) 31 16 = 0x0506 ∧
      (s.portPlanned p = true → t.shutter.stopNext = true)) ∧
    (s.portState p ≠ 2 → s.gives (.handshakeTimeout port) (· = s)) ∧
    ∀ k, x.tx = some k → x.txSwitch = none →
      (2 ^ 31 ≤ k.group → s.gives (.keyGeneration port) fun t => ∃ n, k.group < n ∧ (t.port p).txSwitch = some n) ∧
      (k.group < 2 ^ 31 → s.gives (.keyGeneration port) (· = s))

/-! ## Messages, collectives and the roster (R310–R335, R318–R321, R359) -/

/-- R310, R311, R314, R320, R321: a message that is the first of its kind at its port is taken from there, and any other is not yet complete.
A SEND of an accepted epoch that fits its receive window writes its body there and nothing else of the
HBM; one that has no such window is dropped and counted at its port; one of another epoch is a roster skew. A GREQ for this module
is answered over the first-hop port of its sender. -/
def Obligations.MessagesAtThePort : Prop :=
  ∀ (s : State) (port : BitVec 4) (m : List Byte) (bad : Bool), s.canonical →
    let p := port.toNat
    let h := msgHead m
    let head := (s.port p).inbox.find? (fun n => decide ((msgHead n).kind = h.kind)) = some m
    (head → s.epochOk h.repoch = true → ∀ w, s.window h.window = some w →
      (w.gather = false → h.offset * 64 + h.length ≤ w.size → w.port = 0xFF ∨ w.port = p → h.dst = s.greg 0x60800 →
        s.gives (.send port m) fun t => Memory.holds s.hbm t.hbm (w.base + h.offset * 64) (msgBody m)) ∧
      (w.gather = true ∨ w.size < h.offset * 64 + h.length → s.gives (.send port m) fun t => t.hbm = s.hbm ∧
        t.gf (portOff p + 4) 31 16 = 0x0505 ∧
        (t.greg (portOff p + 0x24)).toNat = min ((s.greg (portOff p + 0x24)).toNat + 1) 0xFFFFFFFF)) ∧
    (head → s.epochOk h.repoch = false → s.gives (.send port m) fun t => t.hbm = s.hbm ∧ t.shutter.stopNext = true ∧
      (t.greg 0x60818).toNat = min ((s.greg 0x60818).toNat + 1) 0xFFFFFFFF) ∧
    (head → h.dst = s.greg 0x60800 → s.epochOk h.repoch = true → ∀ q k, (s.rosterOf h.repoch).bind (·.portOf h.src) = some q →
      s.portState q = 3 → s.ports.length = 16 → (s.port q).tx = some k → (s.port q).waiting = [] → (s.port q).retry = [] →
      s.gives (.greq port m bad) fun t => t.hbm = s.hbm ∧ ∃ f l, t.sent = s.sent ++ .flit q f :: l) ∧
    (¬head → ∀ i ∈ [Instr.send port m, .greq port m bad, .cdata port m, .gdata port m], s.gives i (· = s))

/-- R324, R326–R328, R333–R335: a start record for a collective of the link plan counts the core towards it, the last that it needs
starts it, and a repeat is discarded. Of the messages that are next in order at their port: CDATA that no run awaits yet is kept; a
gather's block is written at its sender's place; a shard that fits its gather window is written there. The oldest started collective, once
complete, is delivered and counted, and its failure, if it has one, is shown in COL_STATUS.
(Choices of the model in it: log entry 46.) -/
def Obligations.CollectivesProceed : Prop :=
  ∀ (s : State) (port : BitVec 4) (m : List Byte) (r : StartRecord) (bad : Bool), s.canonical →
    let h := msgHead m
    let key := (r.coll.toNat, r.fn, r.layer)
    let head := (s.port port.toNat).inbox.find? (fun n => decide ((msgHead n).kind = h.kind)) = some m
    let unmarked (l : List CollRun) : List CollRun := l.map fun x => { x with signalled := false }
    (∀ d, s.collDesc r.coll.toNat = some d →
      (s.coll.begun.contains key = true → s.gives (.startRecord r bad) (· = s)) ∧
      (s.coll.begun.contains key = false → s.coll.runs = [] → d.starts ≤ 1 → s.gives (.startRecord r bad) fun t =>
        key ∈ t.coll.begun) ∧
      (s.coll.begun.contains key = false → s.coll.runs = [] → 1 < d.starts → s.gives (.startRecord r bad) fun t =>
        ∃ x, t.coll.runs = [x] ∧ x.coll = r.coll.toNat ∧ x.fn = r.fn ∧ x.cores = [r.core.toNat] ∧ x.started = false)) ∧
    (head → h.dst = s.greg 0x60800 → s.epochOk h.repoch = true →
      (s.cdataFor m = none → s.gives (.cdata port m) fun t => t.coll.early = s.coll.early ++ [m] ∧ t.hbm = s.hbm) ∧
      (∀ i d x j, s.cdataFor m = some (i, d, x, j) → d.op = 0 → s.gives (.cdata port m) fun t =>
        Memory.holds s.hbm t.hbm (x.dst + j * d.bytes) (msgBody m) ∧
          t.coll.runs[i]? = some { x with blocks := x.blocks ++ [j] }) ∧
      (∀ w, s.window h.window = some w → w.gather = true → h.failed = false → h.offset * 64 + h.length ≤ w.size →
        s.gives (.gdata port m) fun t => Memory.holds s.hbm t.hbm (w.base + h.offset * 64) (msgBody m))) ∧
    (s.coll.runs.find? (·.started) = none → s.gives .collectiveComplete (· = s)) ∧
    ∀ x d, s.coll.runs.find? (·.started) = some x → s.collDesc x.coll = some d →
      (s.runComplete d x = true → s.gives .collectiveComplete fun t => unmarked t.coll.runs = unmarked (s.coll.runs.erase x) ∧
        (t.greg 0x60C08).toNat = min ((s.greg 0x60C08).toNat + 1) 0xFFFFFFFF ∧
        ∀ code, x.failed = some code → t.gf 0x60C00 31 16 = code.toNat) ∧
      (s.runComplete d x = false → s.gives .collectiveComplete (· = s))

/-- R17, R318–R321, R356, R359: a member stages an announced record that it can follow, and refuses any other with
ROSTER_EPOCH_SKEW's code; it takes a start into SHT_START and arms FREEZE_AT or, when it is not draining, FIX_AT on every core. The
leader counts the members that have staged its oldest proposal; a refusal, or the deadline, ends the proposal; CANCEL
from its proposer leaves nothing staged.
(Choices of the model in it: log entry 22.) -/
def Obligations.RosterAgents : Prop :=
  ∀ (s : State) (src : Word) (rec : List Byte) (fn : BitVec 48) (step : BitVec 40) (tgt : Target) (code : Half), s.canonical →
    let r := rosterRec rec
    (s.rosterOk r = true → s.shutter.fn.toNat + 16 ≤ r.boundary.toNat → s.gives (.announce src rec) fun t =>
      t.roster.staged = some r ∧ t.roster.taken = some (src, .epoch r) ∧ t.roster.inForce = s.roster.inForce) ∧
    (s.rosterOk r = false → s.gives (.announce src rec) fun t => t.roster = s.roster ∧
      t.htu.events = s.htu.events ++ [(0x0507#16, s.shutter.fn)]) ∧
    (∀ a, s.awaitedFrom src = some a → (s.others.all (a.stagedBy ++ [src]).contains = true →
      s.gives (.staged src) fun t => t.roster.awaiting = s.roster.awaiting.erase a) ∧
      (s.others.all (a.stagedBy ++ [src]).contains = false → s.gives (.staged src) fun t =>
        { a with stagedBy := a.stagedBy ++ [src] } ∈ t.roster.awaiting) ∧
      (s.others.contains src = true → s.gives (.refused src code) fun t =>
        t.roster.awaiting = s.roster.awaiting.erase a)) ∧
    (s.others.contains src = false → s.gives (.refused src code) (· = s)) ∧
    s.gives .stagedDeadline (fun t => ∀ a, s.roster.awaiting.find? (fun a => a.late s.shutter.fn) = some a →
      t.roster.awaiting = s.roster.awaiting.erase a) ∧
    (∀ x, s.roster.taken = some (src, .epoch x) → s.gives (.cancel src) fun t => t.roster.staged = none) ∧
    (∀ from_ x, s.roster.taken = some (from_, x) → from_ ≠ src → s.gives (.cancel src) (· = s)) ∧
    s.gives (.rosterStart src fn) (fun t => t.greg 0x40018 = fn.setWidth 32 ∧
      t.greg 0x4001C = BitVec.ofNat 32 (fn.toNat / 2 ^ 32) ∧ t.shutter.noStart = false) ∧
    s.gives (.freeze src step tgt) (fun t => t.svc.ckpt.isSome = true ∧ ∀ c,
      (t.core c).reg 0x6024 = BitVec.ofNat 32 step.toNat ∧ (t.core c).rf 0x6028 31 31 = 1) ∧
    s.gives (.fix src step) (fun t => ∀ c, if s.draining then t.core c = s.core c
      else (t.core c).reg 0x602C = BitVec.ofNat 32 step.toNat ∧ (t.core c).rf 0x6030 31 31 = 1)

/-! ## Mailbox commands (R345–R362) -/

/-- R345, R346, R426, R428: a mailbox command that arrives while its mailbox is busy sets REFUSED with SVC_BUSY and does nothing else; one that
a check fails — not READY, a malformed header, a session of another role, a stale generation — completes with the check's
code and changes no core, no byte of HBM, no image, no job key, no credential and nothing of the shutter. -/
def Obligations.MailboxChecks : Prop :=
  ∀ (s : State) (h : MboxHdr) (img : ImageSource) (fn : BitVec 48) (ra : RestoreArgs) (tg : Target) (w first count : Word)
    (ia : IngestArgs) (na : NvmeArgs) (qp : Half) (q ix : BitVec 4) (base seq : BitVec 64) (n : Nat) (sa : ServeArgs) (rg role : Byte)
    (bs : List Byte) (ms : List MemberKey) (tgt : BitVec 3), s.power.phase ≠ .off → s.power.phase ≠ .standby →
    ∀ r ∈ [(Instr.load h img, 1, false, false), (.start h fn, 1, false, false), (.stop h, 1, false, false),
        (.restore h ra, 1, false, false), (.checkpoint h tg, 1, false, false), (.setInterval h w, 2, false, false),
        (.ingestOpen h ia, 1, false, false), (.ingestClose h w, 1, false, false), (.nvmeAttach h na, 1, false, false),
        (.nvmeDetach h qp, 1, false, false), (.notifyRing h q base n, 1, false, false), (.serveOpen h sa, 1, false, false),
        (.serveClose h, 1, false, false), (.kvRead h rg first count, 1, false, false), (.publish h tg, 1, false, false),
        (.rosterChange h bs, 2, false, false), (.healthRead h, 0, false, true), (.sessionChallenge h, 0, false, false),
        (.sessionOpen h role w bs, 0, false, false), (.sessionClose h, 0, false, false), (.jobKey h bs, 1, false, false),
        (.jobKeyClear h, 1, false, false), (.credSet h role bs, if role = 2#8 then 3 else 2, false, false),
        (.memberKeys h ms, 2, false, false), (.signerSet h ix bs, 2, false, false),
        (.lifecycle h tgt, s.lifecycleRole h tgt.toNat, false, false), (.auditRead h seq n bs, 0, false, false),
        (.unitFence h, 2, true, false), (.unitUnfence h, 2, true, false)],
      (∀ b, mboxBox h = some b → (s.svc.running.getD b none).isSome = true →
        s.gives r.1 (· = s.mboxBusy b)) ∧
      ((∀ b, mboxBox h = some b → s.svc.running.getD b none = none) → ∀ code,
        s.mboxCheck h r.2.1 r.2.2.1 r.2.2.2 = some code → s.gives r.1 fun t => t.completes h code fun u resp =>
          resp = [] ∧ u.cores = s.cores ∧ u.hbm = s.hbm ∧ u.image = s.image ∧ u.shutter = s.shutter ∧
            u.sec.jobKey = s.sec.jobKey ∧ u.sec.operator = s.sec.operator ∧ u.sec.installer = s.sec.installer)

/-- R17, R28, R295, R296, R298, R320, R346, R387: LOAD of an image its source holds, by a loader that is free, begins the load, and
LOAD_FINISHED ends it: a refused image leaves no image, LOADED 0 and the code in LD_STATUS, and no core or byte of HBM changed; an
accepted one is loaded, with no job started and HALTED 0. START at least 64 frames ahead stages its frame number; STOP asks for a
stop bath and waits for it; ROSTER_CHANGE stages a record that the agents can follow.
(Choices of the model in it: log entry 41.) -/
def Obligations.JobCommands : Prop :=
  ∀ (s : State) (h : MboxHdr) (img : ImageSource) (fn : BitVec 48) (rec : List Byte), s.canonical →
    let r := rosterRec rec
    (s.admits h 1 false false →
      (∀ bs, s.imageFrom img = some bs → s.loaderFree = true → s.gives (.load h img) fun t =>
        t.loading = some ⟨bs, h⟩ ∧ t.gf 0x50000 0 0 = 1 ∧ t.image = s.image) ∧
      (s.imageFrom img = none → s.gives (.load h img) fun t => t.completes h 0x0605#16 fun u _ => u.loading = s.loading) ∧
      (s.loaded = true → s.shutter.fn.toNat + 64 ≤ fn.toNat → s.svc.restoreFailed = false → s.svc.restored = none →
        s.gives (.start h fn) fun t => t.greg 0x40018 = fn.setWidth 32 ∧
          t.greg 0x4001C = BitVec.ofNat 32 (fn.toNat / 2 ^ 32) ∧ t.shutter.noStart = false) ∧
      (fn.toNat < s.shutter.fn.toNat + 64 → s.gives (.start h fn) fun t => t.completes h 0x0605#16 fun u _ =>
        u.shutter = s.shutter) ∧
      (s.halted = true → s.gives (.stop h) fun t => t.completes h 0#16 fun u _ => u.shutter = s.shutter) ∧
      (s.halted = false → s.gives (.stop h) fun t => t.shutter.stopNext = true ∧ t.svc.stops = s.svc.stops ++ [h])) ∧
    (s.admits h 2 false false → s.shutter.fn.toNat + 64 ≤ r.boundary.toNat → s.rosterOk r = true →
      s.gives (.rosterChange h rec) fun t => t.roster.staged = some r) ∧
    (s.loading = none → s.gives .loadFinished (· = s)) ∧
    ∀ j, s.loading = some j →
      (∀ x, State.checkImage { s with loading := none } j.bytes = .error x → s.gives .loadFinished fun t =>
        t.image = none ∧ t.loading = none ∧ t.gf 0x50000 31 16 = x.code.toNat ∧ t.gf 0x50000 1 0 = 0 ∧
          t.cores = s.cores ∧ t.hbm = s.hbm) ∧
      (∀ f, State.checkImage { s with loading := none } j.bytes = .ok f → s.gives .loadFinished fun t =>
        t.image.isSome = true ∧ t.loading = none ∧ t.loaded = true ∧ t.halted = false ∧ t.shutter.started = false)

/-- R290, R353, R356–R358, R375, R385–R387: a checkpoint, asked for or due, freezes two steps on at every core; each chunk that is read adds its
digest, an uncorrectable granule abandons the checkpoint, and with every chunk written the manifest seals it, FIX_AT is armed and
the cursor shown in HIF_RETAIN; where the seal's own read fails the checkpoint is abandoned. PUBLISH waits for the next seal.
RESTORE of a manifest and body that pass every check takes each core back to the manifest's step; one that fails an early check, or whose
job has no slack left, changes nothing of the plate.
(Choices of the model in it: log entries 24, 26 and 43.) -/
def Obligations.CheckpointsAndRestore : Prop :=
  ∀ (s : State) (h : MboxHdr) (tg : Target) (sec : Word) (ra : RestoreArgs), s.canonical →
    let step := (s.gstep + 2) % 2 ^ 40
    let armed (off step : Nat) (t : State) : Prop := ∀ c, (t.core c).reg off = BitVec.ofNat 32 step ∧ (t.core c).rf (off + 4) 31 31 = 1
    let m := ra.manifest
    (s.admits h 1 false false → s.loaded = true → s.targetOk tg = true →
      (s.svc.ckpt = none → s.gives (.checkpoint h tg) fun t => t.svc.ckpt = some (newCkpt step tg (some h)) ∧
        armed 0x6024 step t) ∧
      (s.svc.publish = none → s.gives (.publish h tg) fun t => t.svc.publish = some (h, tg))) ∧
    (s.loaded = true → s.targetOk tg = true → s.svc.ckptAt + s.svc.interval ≤ s.nowSec → s.svc.ckpt = none →
      s.gives (.checkpointInterval tg) fun t => t.svc.ckpt = some (newCkpt step tg none) ∧ armed 0x6024 step t ∧
        t.svc.ckptAt = s.nowSec) ∧
    (s.loaded = false ∨ s.nowSec < s.svc.ckptAt + s.svc.interval → s.gives (.checkpointInterval tg) (· = s)) ∧
    (∀ k, s.svc.ckpt = some k → k.frozen = true → k.manifest = none →
      (k.leaves.length < chunkCount k.body → (s.svc.ckptNext = [] → s.gives (.checkpointChunk true) fun t => t.svc.ckpt = none) ∧
        (s.targetOk k.target = true → s.gives (.checkpointChunk false) fun t =>
          ∃ leaf n, t.svc.ckpt = some { k with leaves := k.leaves ++ [leaf], stored := n })) ∧
      (k.leaves.length = chunkCount k.body → s.svc.cmds = [] → s.svc.ckptNext = [] →
        (∃ a, k.target = .host a) → s.gives .checkpointSeal fun t => t.svc.ckpt = none ∧
          if s.sealUnread then t.svc.sealed = s.svc.sealed
          else t.svc.sealed.isSome = true ∧ armed 0x602C ((s.gstep + 1) % 2 ^ 40) t ∧ t.greg 0x70200 = BitVec.ofNat 32 k.cursor)) ∧
    (s.admits h 2 false false →
      (60 ≤ sec.toNat → sec.toNat ≤ 86400 → s.gives (.setInterval h sec) fun t => t.completes h 0#16 fun u _ =>
        u.svc.interval = sec.toNat) ∧
      (sec.toNat < 60 ∨ 86400 < sec.toNat → s.gives (.setInterval h sec) fun t => t.completes h 0x0605#16 fun u _ =>
        u.svc.interval = s.svc.interval)) ∧
    (s.admits h 1 false false → s.loaded = true → s.running = false ∨ s.halted = true ∨ s.shutter.started = false →
      (∀ code, s.image.bind s.slackCheck = some code → s.gives (.restore h ra) fun t => t.completes h code fun u _ =>
        u.hbm = s.hbm ∧ u.cores = s.cores) ∧
      (s.image.bind s.slackCheck = none → ∀ f, s.restoreEarly ra = some f → s.gives (.restore h ra) fun t => t.completes h f.code fun u _ =>
        u.hbm = s.hbm ∧ u.cores = s.cores) ∧
      ∀ body, s.image.bind s.slackCheck = none → s.restoreEarly ra = none → ra.hbmBad = false → s.tick1.restoredBody ra = .ok body → manifestRoot m = bytesAt m 0xA0 32 →
        body.length = natAt m 0x58 8 →
        (s.tick1.hbmWrite s.plate0 (body.take (body.length - 144 * 2048))).restoreEpochs m = none →
        s.gives (.restore h ra) fun t => t.completes h 0#16 fun u _ => u.svc.restoreFailed = false ∧
          ∀ c, (u.core c).gstep = natAt m 0x20 5)

/-- R59, R347, R348, R350–R355, R422: INGEST_OPEN adds a stream and INGEST_CLOSE ends it; a record joins its shuffle block, or is dropped and
counted if its tag fails; a complete batch is written to its slot; a stalled stream raises vector 36. Queue pairs are attached and
released; a failed or timed-out command is issued again twice, and at its third failure HIF_NVME_ERR shows its status. NOTIFY_RING
moves a queue to the host ring it binds. A transfer of the host DMA engine writes or reads a scratchpad as the fences allow, and one
tagged for notice counts an event of source 0x40.
(Choices of the model in it: log entries 25 and 26.) -/
def Obligations.IngestAndStorage : Prop :=
  ∀ (s : State) (h : MboxHdr) (a : IngestArgs) (st src : Word) (arr : BitVec 64) (bs tag : List Byte) (na : NvmeArgs)
    (qp cid : Half) (status : BitVec 15) (q : BitVec 4) (base : BitVec 64) (n : Nat) (d : CoreId) (ad : BitVec 22), s.canonical →
    let y := s.core d
    (s.admits h 1 false false →
      (s.ingestOk a = true → s.gives (.ingestOpen h a) fun t => t.completes h 0#16 fun u _ => ∃ x ∈ u.svc.streams, x.args = a) ∧
      (s.stream st ≠ none → s.gives (.ingestClose h st) fun t => t.completes h 0#16 fun u _ =>
        ∀ x ∈ u.svc.streams, x.args.stream ≠ st) ∧
      (s.qpOk na = true → s.gives (.nvmeAttach h na) fun t => t.completes h 0#16 fun u _ => u.svc.qps = s.svc.qps ++ [na]) ∧
      (s.qp qp ≠ none → s.gives (.nvmeDetach h qp) fun t => t.completes h 0#16 fun u _ => ∀ x ∈ u.svc.qps, x.qp ≠ qp) ∧
      (n ≠ 0 → s.svc.rings.length = 16 → s.gives (.notifyRing h q base n) fun t => t.completes h 0#16 fun u _ =>
        u.svc.queues.getD q.toNat [] = [] ∧ ∃ i, u.svc.rings.getD q.toNat none = some (base.toNat, n, i))) ∧
    (∀ x, s.stream st = some x →
      (s.plainRecord x.args src arr bs tag = none → s.gives (.ingestRecord st src arr bs tag) fun t =>
        t.stream st = some { x with dropped := x.dropped + 1 }) ∧
      (∀ b, s.plainRecord x.args src arr bs tag = some b → x.block.length + 1 < x.nb →
        s.gives (.ingestRecord st src arr bs tag) fun t => t.stream st = some { x with block := x.block ++ [⟨src, arr, b⟩] }) ∧
      (x.stopped = false → x.rows.length = x.args.batch → x.full.contains x.nextSlot = false → s.gives (.batchReady st) fun t =>
        (∃ z, t.stream st = some z ∧ z.full = x.full ++ [x.nextSlot] ∧ z.nextSlot = (x.nextSlot + 1) % x.args.slots) ∧
          (x.args.fromNvme = false →
            Memory.holds s.hbm t.hbm (x.args.base + x.nextSlot * x.args.batch * x.args.rowBytes) x.rows.flatten)) ∧
      (x.rows.length < x.args.batch → x.block.length < x.nb → s.gives (.ingestStall st) fun t =>
        t.sent = s.sent ++ [.vector 0 36])) ∧
    (∀ c, s.nvmeCmd qp cid = some c →
      let again (t : State) : Prop := (∃ z ∈ t.svc.cmds, z.qp = qp ∧ z.cid = cid ∧ z.req = c.req ∧ z.failures = c.failures + 1) ∧
        ((s.qp qp).isSome = true → Output.nvme qp cid c.req ∈ t.sent.drop s.sent.length)
      (c.failures < 2 → status ≠ 0#15 → s.gives (.nvmeCompletion qp cid status) again) ∧
      (c.failures < 2 → c.rungAt + 5000000000 ≤ s.nowNs → s.gives (.nvmeTimeout qp cid) again) ∧
      (s.nowNs < c.rungAt + 5000000000 → s.gives (.nvmeTimeout qp cid) (· = s)) ∧
      (2 ≤ c.failures → c.use = .checkpoint → status ≠ 0#15 → s.gives (.nvmeCompletion qp cid status) fun t =>
        t.greg 0x70214 = BitVec.ofNat 32 (status.toNat + qp.toNat * 65536)) ∧
      (status = 0#15 → c.use = .checkpoint → s.gives (.nvmeCompletion qp cid status) fun t =>
        t.svc.cmds = s.svc.cmds.erase c)) ∧
    (s.memSlice d = none →
      ((∀ r ∈ lineRuns ad.toNat bs.length, y.denies 0 true r.1 = false) → s.gives (.hostDmaComplete ⟨false, [⟨d, ad, .inl bs⟩]⟩) fun t =>
        Memory.holds y.mem (t.core d).mem ad.toNat bs) ∧
      ((∀ i, i < n → y.denies 8 false (ad.toNat + i) = false) → y.missing (linesRead [(ad.toNat, n)]) [] = [] →
        s.gives (.hostDmaComplete ⟨false, [⟨d, ad, .inr n⟩]⟩) fun t => t.sent = s.sent ++ [.read (y.read (s.ctx d) ad.toNat n)])) ∧
    s.gives (.hostDmaComplete ⟨false, []⟩) (· = s) ∧
    s.gives (.hostDmaComplete ⟨true, []⟩) (fun t => ∀ c i, i < 16 → (s.core c).rf (0x2080 + 4 * i) 7 0 = 0x40 →
      ((t.core c).reg (0x20C0 + 4 * i)).toNat = min (((s.core c).reg (0x20C0 + 4 * i)).toNat + 1) 0xFFFFFFFF)

/-- R346, R360, R362, R433: SERVE_OPEN of regions that fit opens them with committed length 0, and SERVE_CLOSE zeroes every word of
their entries; a request for an open stream is written to CP5's service buffer; KV_READ within a region's capacity answers the
bounded read of its entries, zeros beyond the committed length, unless a line of it is uncorrectable; HEALTH_READ answers the unit's entry.
(Choices of the model in it: log entry 25.) -/
def Obligations.ServingAndHealth : Prop :=
  ∀ (s : State) (h : MboxHdr) (a : ServeArgs) (i : Nat) (toks : List Word) (rg : Byte) (first count : Word), s.canonical →
    let off (k : KvArgs) : Nat := 0xA0000 + 32 * k.region.toNat
    let es := s.gf (0xA0004 + 32 * rg.toNat) 15 0 * 64
    let kb := (s.greg (0xA0000 + 32 * rg.toNat)).toNat / 64 * 64 + s.gf (0xA0018 + 32 * rg.toNat) 6 0 * 2 ^ 32
    (s.admits h 1 false false →
      (a.regions.all (s.kvOk a.regions) = true → s.gives (.serveOpen h a) fun t => t.completes h 0#16 fun u _ =>
        u.svc.serving = some ⟨a, List.replicate a.regions.length 0, []⟩ ∧
          ∀ k ∈ a.regions, u.greg (off k + 12) = 0#32 ∧ u.gf (off k + 4) 15 0 = k.esize.toNat ∧ u.greg (off k + 8) = k.cap) ∧
      (∀ v, s.svc.serving = some v → s.gives (.serveClose h) fun t => t.completes h 0#16 fun u _ =>
        u.svc.serving = none ∧ ∀ k ∈ v.args.regions, ∀ j, j < 8 → u.greg (off k + 4 * j) = 0#32) ∧
      (es ≠ 0 → first.toNat + count.toNat ≤ (s.greg (0xA0008 + 32 * rg.toNat)).toNat → h.hbmBad = false → s.gives (.kvRead h rg first count) fun t =>
        t.completes h 0#16 fun u resp => u.hbm = s.hbm ∧
          resp = (s.hbmBounded none (kb + first.toNat * es) (count.toNat * es)).1) ∧
      (es ≠ 0 → first.toNat + count.toNat ≤ (s.greg (0xA0008 + 32 * rg.toNat)).toNat → h.hbmBad = true → s.gives (.kvRead h rg first count) fun t =>
        t.completes h 0x040A#16 fun u resp => u.hbm = s.hbm ∧ resp = [])) ∧
    (∀ v, s.svc.serving = some v → i < v.args.regions.length → s.gives (.serveRequest i toks) fun t => ∃ at_ n, 0x140000 ≤ at_ ∧
      0 < n ∧ Memory.holds s.svc.cpBuf t.svc.cpBuf at_
        ((leBytes 4 i ++ leBytes 4 toks.length ++ toks.flatMap fun w => leBytes 4 w.toNat).take n)) ∧
    (s.svc.serving = none → s.gives (.serveRequest i toks) (· = s)) ∧
    (s.admits h 0 false true → h.unit.toNat < 256 → s.gives (.healthRead h) fun t => t.completes h 0#16 fun u resp =>
      u.cores = s.cores ∧ resp = (s.unitHealth h.unit.toNat).bytes)

/-! ## Security (R411–R429, R432) -/

/-- R425, R428, R429: a challenge answers a 32-byte nonce and holds it for its path; SESSION_OPEN with a signature that verifies
opens a session of the role and answers its handle, with one that does not it answers AUTH_FAILED, and ROLE_LOCKED while the role is
locked; a session ends by SESSION_CLOSE and after 3,600 s without use; a lock ends after 300 s. AUDIT_READ answers the entries asked
for and the head statement over the caller's nonce.
(Choices of the model in it: log entry 28.) -/
def Obligations.Sessions : Prop :=
  ∀ (s : State) (h : MboxHdr) (role : Byte) (key : Word) (sig nonce : List Byte) (w : Word) (first : BitVec 64) (n : Nat),
    s.canonical →
    let logs := s.sec.logBad = false ∧ h.logFails = false
    (s.admits h 0 false false →
      s.gives (.sessionChallenge h) (fun t => t.completes h 0#16 fun u resp => resp.length = 32 ∧
        (⟨h.src.toNat, resp, s.nowSec⟩ : Nonce) ∈ u.sec.nonces) ∧
      (logs → 1 ≤ role.toNat → role.toNat ≤ 3 →
        (s.roleLocked role.toNat = true → s.gives (.sessionOpen h role key sig) fun t => t.completes h 0x060C#16 fun u _ =>
          u.sec.sessions.length = s.sec.sessions.length) ∧
        (s.roleLocked role.toNat = false → s.authOk h.src.toNat role.toNat key sig = false → s.gives (.sessionOpen h role key sig) fun t =>
          t.completes h 0x0609#16 fun u _ => u.sec.sessions.length = s.sec.sessions.length) ∧
        (s.roleLocked role.toNat = false → s.authOk h.src.toNat role.toNat key sig = true → s.sec.sessions.length < 16 →
          s.gives (.sessionOpen h role key sig) fun t => t.completes h 0#16 fun u resp => ∃ x ∈ u.sec.sessions,
            resp = leBytes 4 x.handle.toNat ∧ x.role = role.toNat ∧ x.src = h.src.toNat ∧ x.handle ≠ 0#32)) ∧
      (logs → s.session h.session ≠ none → s.gives (.sessionClose h) fun t => t.completes h 0#16 fun u _ =>
        ∀ x ∈ u.sec.sessions, x.handle ≠ h.session) ∧
      (1 ≤ n → n ≤ 31 → nonce.length = 32 → s.gives (.auditRead h first n nonce) fun t => t.completes h 0#16 fun u resp =>
        u.sec.audit = s.sec.audit ∧ ∃ sig, resp = ((List.range n).filterMap fun i => s.auditEntryAt (first.toNat + i)).flatten ++
          leBytes 8 (s.sec.auditNext - 1) ++ s.sec.auditHead ++ nonce ++ sig)) ∧
    s.gives (.sessionIdleTimeout w) (fun t => ∀ x, x ∈ t.sec.sessions ↔
      x ∈ s.sec.sessions ∧ ¬(x.handle = w ∧ x.used + 3600 ≤ s.nowSec)) ∧
    s.gives (.roleLockExpiry role) (fun t => (∀ r, t.roleLocked r = s.roleLocked r) ∧
      ∀ l ∈ t.sec.locked, l.1 = role.toNat → s.nowSec < l.2 + 300)

/-- R404, R418, R420, R423, R424, R426, R432: JOB_KEY installs the key that a sound blob wraps, as the job's while no image is loaded
or as a tenant's, and JOB_KEY_CLEAR erases them; CRED_SET replaces a role's credential and closes its sessions; MEMBER_KEYS and
SIGNER_SET change their tables; LIFECYCLE notes a transition that the table allows for the next cold start; a fenced unit is
FENCED, with a stop bath if the running job uses it, and unfencing makes it OK.
(Choices of the model in it: log entry 28.) -/
def Obligations.KeysAndFences : Prop :=
  ∀ (s : State) (h : MboxHdr) (blob key : List Byte) (es : List MemberKey) (ix : BitVec 4) (tgt : BitVec 3), s.canonical →
    s.sec.tenants.length = 16 → s.sec.signers.length = 16 → s.health.length = 256 →
    let u := h.unit.toNat
    (s.admits h 1 false false →
      (s.unwrap blob = none → s.gives (.jobKey h blob) fun t => t.completes h 0x060B#16 fun u _ => u.sec.jobKey = s.sec.jobKey) ∧
      (∀ k, s.unwrap blob = some k →
        (natAt blob 6 1 = 1 → s.gives (.jobKey h blob) fun t => t.completes h 0#16 fun u _ =>
          u.sec.tenants.getD (natAt blob 7 1) none = some k ∧ u.sec.jobKey = s.sec.jobKey) ∧
        (natAt blob 6 1 = 0 → s.loaded = false → s.gives (.jobKey h blob) fun t => t.completes h 0#16 fun u _ =>
          u.sec.jobKey = some ⟨k, BitVec.ofNat 32 (natAt blob 8 4), BitVec.ofNat 32 (natAt blob 0xC 4)⟩) ∧
        (natAt blob 6 1 = 0 → s.loaded = true → s.gives (.jobKey h blob) fun t => t.completes h 0x0601#16 fun u _ =>
          u.sec.jobKey = s.sec.jobKey)) ∧
      (s.loaded = false → s.gives (.jobKeyClear h) fun t => t.completes h 0#16 fun u _ =>
        u.sec.jobKey = none ∧ u.sec.tenants = List.replicate 16 none)) ∧
    (s.admits h 2 false false → key.length = 97 → (sec1Point key).isSome = true →
      s.gives (.credSet h 1#8 key) (fun t => t.completes h 0#16 fun u _ => u.sec.operator = some key ∧
        ∀ x ∈ u.sec.sessions, x.role ≠ 1) ∧
      (key.all (· = 0#8) = false → s.gives (.signerSet h ix key) fun t => t.completes h 0#16 fun u _ =>
        u.sec.signers.getD ix.toNat none = some key)) ∧
    (s.admits h 2 false false → es.length ≤ 64 → (es.foldl memberKeySet s.sec.members).length ≤ 8192 →
      s.gives (.memberKeys h es) fun t => t.completes h 0#16 fun u _ => u.sec.members = es.foldl memberKeySet s.sec.members) ∧
    (s.admits h (s.lifecycleRole h tgt.toNat) false false →
      (s.lifecycleOk tgt.toNat = true → s.gives (.lifecycle h tgt) fun t => t.completes h 0#16 fun u _ =>
        u.gf 0x14 5 3 = tgt.toNat ∧ u.lcs = s.lcs) ∧
      (s.lifecycleOk tgt.toNat = false → s.gives (.lifecycle h tgt) fun t => t.completes h 0x060A#16 fun u _ =>
        u.greg 0x14 = s.greg 0x14)) ∧
    (s.admits h 2 true false → u < 192 →
      ((s.unitHealth u).state ≠ 4 → s.gives (.unitFence h) fun t => t.completes h 0#16 fun v _ => (v.unitHealth u).state = 3 ∧
        (v.unitHealth u).gen = (s.unitHealth u).gen + 1#32 ∧
          (s.schedules u = true → s.shutter.started = true → v.shutter.stopNext = true)) ∧
      ((s.unitHealth u).state = 3 → s.gives (.unitUnfence h) fun t => t.completes h 0#16 fun v _ => (v.unitHealth u).state = 0))

/-! ## HBM and integrity (R126, R343, R368–R379, R419) -/

/-- R126, R343, R375, R419, R448: BAR2 reads and writes the bytes of HBM that its enabled segment maps, where they are not stored
under a confidential job's key; before READY a read gives ones and a write does nothing; a bad granule poisons the read. A
contact-sheet record is written to its core's place in the slot of its frame.
(Choices of the model in it: log entry 35.) -/
def Obligations.HostMemoryAndSheets : Prop :=
  ∀ (s : State) (off : BitVec 36) (bs : List Byte) (n : Nat) (c : CoreId), s.canonical → s.accessible = true →
    s.power.perst = false →
    let seg := s.greg (0x70100 + 4 * (off.toNat / 2 ^ 32))
    let a := fld seg 6 0 * 2 ^ 32 + off.toNat % 2 ^ 32
    let open_ (n : Nat) : Prop := s.ready = true ∧ bitAt seg 31 = true ∧ fld seg 6 0 ≤ 95 ∧ off.toNat % 2 ^ 32 + n ≤ 2 ^ 32 ∧
      ∀ i, i < n → s.sealedAt (a + i) = none
    (open_ bs.length → s.gives (.bar2Access off (some bs) bs.length false) fun t => Memory.holds s.hbm t.hbm a bs) ∧
    (open_ n → (∀ i, i < n → s.landingHbm (a + i) 1 = []) → s.gives (.bar2Access off none n false) fun t =>
      t.hbm = s.hbm ∧ t.sent = s.sent ++ [.read (Memory.read s.hbm a n)]) ∧
    (s.ready = true → s.gives (.bar2Access off none n true) fun t => t.sent = s.sent ++ [.poisoned]) ∧
    (s.ready = false → s.gives (.bar2Access off none n false) (fun t => t.sent = s.sent ++ [.read (List.replicate n 0xFF#8)]) ∧
      s.gives (.bar2Access off (some bs) bs.length false) fun t => t.hbm = s.hbm) ∧
    (s.sheets.find? (fun r => r.core = c.val) = none → s.gives (.contactSheetRingWrite c) (· = s)) ∧
    ∀ r, s.sheets.find? (fun r => r.core = c.val) = some r → s.gives (.contactSheetRingWrite c) fun t =>
      t.sheets = s.sheets.erase r ∧ Memory.holds s.hbm t.hbm (s.gf 0x40104 31 12 * 4096 + s.gf 0x40108 6 0 * 2 ^ 32 +
        r.fn.toNat % s.gf 0x4010C 16 0 * 0x4800 + 128 * c.val) r.bytes

/-- R302, R368, R369, R374, R376, R377, R379, R400, R407: a patrol read goes on to the memory's next line, past the range of a slice, and a
miss it meets is counted; a refetch that ends writes the line from its backing copy, and a failed one leaves the line dirty; a recent miss is forgotten after
its window; a bucket fills by a corrected event and leaks when its time has come; a codeword's corrections are counted, and one not
corrected is noted against the flits it overlaps; records in flash take what is due.
(Choices of the model in it: log entries 23 and 56.) -/
def Obligations.IntegrityEvents : Prop :=
  ∀ (s : State) (c : CoreId) (m : Nat) (line : BitVec 23) (bs : List Byte) (stack : BitVec 3) (port : BitVec 4) (n : Fin 9)
    (word : Nat), s.canonical →
    let x := s.core c
    let due := s.htu.remapDue.filter fun r => decide (r.1 = s.physical c)
    let l := line.toNat / 64 * 64
    let filled (b : Nat) (t : State) : Prop := t.gf (0x20404 + 8 * b) 7 0 = min (s.gf (0x20404 + 8 * b) 7 0 + 1) 255
    let at_ := x.patrolLine m
    (m < 13 → x.integ.patrol.length = 13 → s.inSlice c at_ = true → s.gives (.patrolRead c m false) fun t =>
      (t.core c).integ.patrol.getD m 0 = (x.integ.patrol.getD m 0 / 128 + 1) * 128 % (patrolRange m).2) ∧
    (m < 13 → bitAt (x.reg 0x8018) 0 = true → x.integ.patrol.length = 13 → s.inSlice c at_ = false →
      s.gives (.patrolRead c m false) (fun t =>
        (t.core c).integ.patrol.getD m 0 = (x.integ.patrol.getD m 0 + 1) % (patrolRange m).2) ∧
      (x.knownEmpty at_ = false → s.gives (.patrolRead c m true) fun t =>
        ((t.core c).reg 0x8010).toNat = min ((x.reg 0x8010).toNat + 1) 0xFFFFFFFF)) ∧
    (s.inSlice c l = true → s.gives (.refetchComplete c line false) fun t => t.cores = s.cores ∧
      ∀ y ∈ t.htu.slices, y.core = c → .refetch l false ∈ y.held) ∧
    (s.inSlice c l = false → x.integ.refetches.contains l = true → x.integ.writtenSince.contains l = false →
      (s.backingBytes c l = some bs → s.gives (.refetchComplete c line false) fun t => Memory.holds x.mem (t.core c).mem l bs ∧
        (t.core c).integ.refetches.contains l = false) ∧
      s.gives (.refetchComplete c line true) fun t => (t.core c).mem = x.mem ∧ (t.core c).integ.nowDirty.contains l = true ∧
        (t.core c).rf 0x8000 31 16 = 0x040A) ∧
    s.gives (.missEntryExpiry c line) (fun t => ∀ r, r ∈ (t.core c).integ.recent ↔
      r ∈ x.integ.recent ∧ ¬(r.1 = l ∧ r.2 + x.window ≤ s.nowSec)) ∧
    s.gives (.onDieErrorCheckAndScrub stack) (filled stack.toNat) ∧ s.gives .pcieReplay (filled 24) ∧
    (s.ports.length = 16 → s.gives (.fecCodeword port ⟨word, none⟩) fun t => (t.greg (portOff port.toNat + 0x14)).toNat =
      min ((s.greg (portOff port.toNat + 0x14)).toNat + 1) 0xFFFFFFFF ∧
        (t.port port.toNat).badWords = (s.port port.toNat).badWords ++ [word]) ∧
    s.gives (.fecCodeword port ⟨word, some n⟩) (fun t => (t.greg (portOff port.toNat + 0x10)).toNat =
      min ((s.greg (portOff port.toNat + 0x10)).toNat + n.val) 0xFFFFFFFF) ∧
    (m < 26 → leakDue s.shutter.ticks (s.htu.leaks.getD m 0) (leakExp (s.greg (0x20400 + 8 * m))) = true →
      s.gives (.bucketLeak (.chip m)) fun t => t.gf (0x20404 + 8 * m) 7 0 = s.gf (0x20404 + 8 * m) 7 0 - 1) ∧
    (m < 6 → leakDue s.shutter.ticks (x.integ.leak.getD m 0) (leakExp (x.reg (0x8040 + 8 * m))) = true →
      s.gives (.bucketLeak (.core c m)) fun t => (t.core c).rf (0x8044 + 8 * m) 7 0 = x.rf (0x8044 + 8 * m) 7 0 - 1) ∧
    (due ≠ [] → s.gives (.remapRecordWrite c) fun t => (∀ r, r ∈ t.htu.remapDue ↔ r ∈ s.htu.remapDue ∧ r.1 ≠ s.physical c) ∧
      t.htu.remapRec = s.htu.remapRec.write 3 ((s.htu.remapped ++ due).flatMap remapLineBytes)) ∧
    (due = [] → s.gives (.remapRecordWrite c) (· = s)) ∧
    (s.htu.ageingDue = true → s.gives .ageingRecordWrite fun t => t.htu.ageingDue = false ∧
      t.htu.ageingRec = s.htu.ageingRec.write 2 s.ageingBody) ∧
    (s.htu.ageingDue = false → s.gives .ageingRecordWrite (· = s))

/-! ## Self-test (R398–R408) -/

/-- R396, R398–R408: a slice starts in the cycle in which it may, if there is one, and shows in HTU_STATUS, and one that found a failing
unit fails the core; coverage that has expired is shown; a measurement within margin is recorded, one below it raises the offset, or with
the offset at its limit derates at the next tick, or with no derate left exhausts the margin. A request under the key, or over PLDM under a
session of its role, is taken; without the key it is ignored; a full test starts on a free unit; a test that ends shows its result, and a
failing one fails its unit; the end of the shutdown test is recorded.
(Choices of the model in it: log entries 29 to 31.) -/
def Obligations.TestsAndMargins : Prop :=
  ∀ (s : State) (c : CoreId) (seg : Segment) (r : SliceResult) (l : List Int) (unit : Half) (k : BitVec 2) (tr : TestResult)
    (via : Option (Word × Word)) (found : ShutdownFound), s.canonical → s.health.length = 256 →
    let u := unit.toNat
    let last := max s.htu.passedAt s.htu.rotatedAt
    let v := s.gf 0x20024 5 0
    let reqs (full : Bool) (t : State) : Prop := t.htu.request = some ⟨u, full, k.toNat, false, (s.unitHealth u).state, []⟩ ∧
      t.gf 0x20000 0 0 = 1
    let mayAsk : Prop := match via with
      | none => s.gbit 0x2000C 0 = true ∧ (s.unitHealth u).gen = s.greg 0x20008
      | some (w, gen) => s.powered = true ∧ s.holds w s.testRole = true ∧ s.sec.logBad = false ∧ (s.unitHealth u).gen = gen
    (∀ a, s.sliceStart c seg = some a → s.gives (.inServiceSlice c seg r) fun t =>
      t.htu.slices = s.htu.slices ++ [⟨c, seg, r, []⟩] ∧ t.gf 0x20000 1 1 = 1) ∧
    (s.sliceStart c seg = none → s.gives (.inServiceSlice c seg r) (· = s)) ∧
    (s.htu.slices.find? (fun x => x.core = c) = none → s.gives (.sliceEnd c) (· = s)) ∧
    (∀ x, s.htu.slices.find? (fun x => x.core = c) = some x → x.held = [] → s.gives (.sliceEnd c) fun t =>
      t.htu.slices = s.htu.slices.filter (fun y => y.core ≠ c) ∧
        (x.seg.unit ≠ 7#4 → x.result.logicFail = true → (t.unitHealth (s.physical x.core)).state = 4)) ∧
    (last + s.covInterval < s.nowSec → s.gives .coverageExpired fun t =>
      t.gf 0x20000 2 2 = 1 ∧ t.gf 0x20000 31 16 = 0x0703) ∧
    (s.nowSec ≤ last + s.covInterval → s.gives .coverageExpired (· = s)) ∧
    (s.power.phase ≠ .shutdown 3 → s.gives (.canaryMeasurement [l]) fun t => t.htu.canaries = l ∧
      ((s.leastMargin l).1 ≥ 20 → t.gf 0x20024 5 0 = v ∧ t.shutter.derates = s.shutter.derates) ∧
      ((s.leastMargin l).1 < 20 → v < 59 → t.gf 0x20024 5 0 = v + 5) ∧
      ((s.leastMargin l).1 < 20 → 60 ≤ v → s.gf 0x20024 8 6 + s.shutter.derates < 4 →
        t.shutter.derates = s.shutter.derates + 1 ∧ t.gf 0x20000 31 16 = 0x0701) ∧
      ((s.leastMargin l).1 < 20 → 60 ≤ v → 4 ≤ s.gf 0x20024 8 6 → s.shutter.derates = 0 →
        t.gf 0x20000 3 3 = 1 ∧ t.shutter.stopNext = true)) ∧
    (mayAsk → s.lcs ≠ 0 → s.lcs ≠ 5 → s.htu.request = none → u < 256 →
      s.gives (.testRequestInService ⟨via, unit⟩ k) (reqs false) ∧ s.gives (.testRequestFull ⟨via, unit⟩ k) (reqs true)) ∧
    (s.gbit 0x2000C 0 = false → ∀ i ∈ [Instr.testRequestInService ⟨none, unit⟩ k, .testRequestFull ⟨none, unit⟩ k], s.gives i fun t =>
      t.htu.request = s.htu.request ∧ t.gf 0x20000 31 16 = 0x0601) ∧
    (∀ q, s.htu.request = some q →
      (q.full = true → q.running = false → s.inUse q.unit = false → s.schedules q.unit = false ∨ s.halted = true → q.unit < 192 → s.gives .fullTestStart fun t =>
        t.htu.request = some { q with running := true } ∧ (t.unitHealth q.unit).state = 2) ∧
      (q.over = true → s.power.phase ≠ .shutdown 2 → q.unit < 192 → s.gives (.testDone ⟨tr, found⟩) fun t =>
        t.htu.request = none ∧ t.gf 0x20000 0 0 = 0 ∧ t.greg 0x20014 = tr.micros ∧ t.gf 0x20010 31 31 = 1 ∧
          (tr.passed = true → t.gf 0x20010 15 0 = 0) ∧
          (tr.passed = false → t.gf 0x20010 15 0 = 0x0702 ∧ (t.unitHealth q.unit).state = 4)) ∧
      (q.over = false → s.power.phase ≠ .shutdown 2 → s.gives (.testDone ⟨tr, found⟩) (· = s))) ∧
    (s.power.phase = .shutdown 2 → s.gives (.testDone ⟨tr, found⟩) fun t => t.power.phase = .shutdown 3 ∧
      t.htu.shutdownRec = s.htu.shutdownRec.write 1 (s.shutdownBody (if s.failsAnew found then 2 else 1) found))

/-! ## Start-up, resets and power (R341, R388, R437–R453) -/

/-- R341, R395, R414, R447, R448, R452, R453: a cold start leaves the module as after reset, with its fuses and flash, and the straps
shown and applied; a module reset keeps the job key, and lasts while RST_N is held; start-up with a slot that boots reaches READY
unless the margin is exhausted or the part is VOID, and without one stays in recovery. A function level reset ends the sessions of its
function and resets its configuration space, MSI-X table and mailboxes; PERST_N does so for both functions.
(Choices of the model in it: log entry 44.) -/
def Obligations.StartsAndResets : Prop :=
  ∀ (s : State) (p : Straps) (f : StartFindings), s.canonical →
    let fresh (t : State) : Prop := t.clock = 0 ∧ t.shutter = Shutter.reset ∧ t.image = none ∧ t.hbm = [] ∧ t.sec.sessions = [] ∧
      t.gf 0x30014 3 2 = p.pclass.toNat ∧ t.gf 0x30000 1 0 = p.pclass.toNat ∧ t.gf 0x40004 3 3 = (if p.tickRole then 1 else 0) ∧
      t.sec.maker = s.sec.maker ∧ t.mgmt.rollback = s.mgmt.rollback
    s.gives (.coldStart p) (fun t => fresh t ∧ t.power.phase = .starting ∧ t.power.latched = false ∧ t.sec.jobKey = none) ∧
    (s.powered = true → s.gives (.moduleReset p) fun t => fresh t ∧ t.power.phase = .held ∧ t.sec.jobKey = s.sec.jobKey) ∧
    (s.powered = false → s.gives (.moduleReset p) (· = s)) ∧ (s.power.phase ≠ .held → s.gives (.rstNRelease p) (· = s)) ∧
    (s.power.phase = .held → s.gives (.rstNRelease p) fun t => fresh t ∧ t.power.phase = .starting ∧
      t.power.cold = s.power.cold) ∧
    (s.power.phase = .starting → s.bootSlot f = none → s.gives (.startupReady f) fun t => t.gbit 0x10000 22 = true ∧
      t.power.phase = .starting) ∧
    (∀ slot, s.power.phase = .starting → s.bootSlot f = some slot → s.lcs ≠ 5 → s.gives (.startupReady f) fun t =>
      t.mgmt.running = slot ∧ ((t.ready = true ∧ t.power.phase = .ready) ∨ t.gbit 0x20000 3 = true)) ∧
    (s.power.phase ≠ .starting → s.gives (.startupReady f) (· = s)) ∧
    s.gives .flrPf0 (fun t => (∀ x ∈ t.sec.sessions, 16 ≤ x.src) ∧ t.greg 0x40044 = 0#32 ∧ t.greg 0x70008 = 0#32 ∧
      t.svc.pcie = setAt s.svc.pcie 0 ([], []) ∧
      ∀ n, n < 16 → t.svc.running.getD n none = none ∧ t.greg (mboxStatus n) = 0#32) ∧
    s.gives .flrPf1 (fun t => (∀ x ∈ t.sec.sessions, x.src ≠ 16) ∧ t.svc.pcie = setAt s.svc.pcie 1 ([], []) ∧
      t.svc.running.getD 16 none = none) ∧
    s.gives .perstN (fun t => (∀ x ∈ t.sec.sessions, 17 ≤ x.src) ∧ t.power.perst = true ∧ t.greg 0x70000 = 0#32 ∧ t.hbm = s.hbm) ∧
    s.gives .perstNDeassertion (fun t => t.power.perst = false ∧ t.power.pcieTraining = true)

/-- R439, R440, R443, R446, R450, R451: a low input forces P20 and recovery lifts it; heat forces the class in force a step down, a hot
inlet P20, and ten cool seconds lift a step; an input that fails, an overvoltage, which latches, a thermal trip and a
reference away too long switch the module off with their cause in CPM_LASTOFF; a lost reference brings a stop bath.
(Choices of the model in it: log entry 44.) -/
def Obligations.ForcedPower : Prop :=
  ∀ (s : State) (sensor : BitVec 6) (temp : Nat), s.canonical → s.powered = true →
    let off (cause : Nat) (t : State) : Prop := t.power.phase = .off ∧ t.greg 0x30018 = BitVec.ofNat 32 cause ∧ t.image = none
    let down (t : State) : Prop := t.gf 0x3000C 3 2 ≤ s.gf 0x3000C 1 0 - 1
    s.gives .inputLow (fun t => t.power.lowInput = true ∧ t.gf 0x3000C 3 2 = 0 ∧
      (s.gf 0x3000C 1 0 ≠ 0 → t.power.pending = some 0)) ∧
    s.gives .inputRecovered (fun t => t.power.lowInput = false ∧ t.gf 0x3000C 3 2 = s.strapClass - s.power.heatSteps) ∧
    s.gives .inputPowerFail (off 2) ∧
    s.gives .inputOvervoltage (fun t => off 3 t ∧ t.power.latched = true) ∧
    s.gives .thermalTrip (off 4) ∧
    (sensor.toNat < 48 → (100 ≤ temp → s.trips temp = false → s.gives (.dieOverTemperature sensor temp) down) ∧
      (s.trips temp = true → s.gives (.dieOverTemperature sensor temp) (off 4)) ∧
      (temp < 100 → s.gives (.dieOverTemperature sensor temp) fun t => t.power.dieTemp = setAt s.power.dieTemp sensor.toNat temp)) ∧
    ((∃ d ∈ s.power.dieTemp, 100 < d) → s.gives .dieTempStep down) ∧
    ((∀ d ∈ s.power.dieTemp, d ≤ 100) → s.gives .dieTempStep (· = s)) ∧
    s.gives (.coolantInletHigh temp) (fun t => t.power.inletTemp = temp ∧ (40 < temp → t.gf 0x3000C 3 2 = 0)) ∧
    s.gives .thermalForceLift (fun t => t.power.heatSteps = s.power.heatSteps - 1 ∧
      (s.power.lowInput = true → t.gf 0x3000C 3 2 = 0) ∧
      (s.power.lowInput = false → t.gf 0x3000C 3 2 = s.strapClass - (s.power.heatSteps - 1))) ∧
    (s.power.refLost = false → s.gives .refclkLost fun t => t.power.refLost = true ∧ t.shutter.stopNext = true ∧
      t.gbit 0x3000C 6 = true) ∧
    (s.power.refLost = true → s.gives .refclkTimeout (off 5) ∧ s.gives .refclkLost (· = s)) ∧
    (s.power.refLost = false → s.gives .refclkTimeout (· = s)) ∧
    s.gives .refclkReturn (fun t => t.power.refLost = false)

/-- R388, R415, R430, R431, R449, R452: under an installer's session MODULE_POWER_OFF keeps jobs from starting and begins the
shutdown, whose stages the limit ends in turn, and a module reset and a firmware update are carried out; without one they are
refused. Power-on from standby starts anew. The time, the I3C address, a sensor's reading and the FRU record are Safelight's.
(Choices of the model in it: log entry 36.) -/
def Obligations.ManagementActions : Prop :=
  ∀ (s : State) (w : Word) (p : Straps) (b : FirmwareBundle) (utc : BitVec 64) (sn : Half) (ad : BitVec 7), s.canonical →
    let slot := 1 - s.mgmt.running
    let refused (t : State) : Prop := t.power = s.power ∧ t.mgmt = s.mgmt ∧ t.shutter = s.shutter ∧
      t.sent = s.sent ++ [.reply 0x11 0x0601#16 []]
    (s.holds w 2 = true → s.sec.logBad = false →
      (s.power.phase = .ready → s.gives (.modulePowerOff w) fun t => t.shutter.noStart = true ∧
        (∃ n, t.power.phase = .shutdown n) ∧ (s.halted = false → t.shutter.stopNext = true)) ∧
      (s.powered = true → s.gives (.moduleResetRequest w p) fun t => t.image = none ∧ t.clock = 0 ∧ t.power.phase = .starting) ∧
      (s.power.phase ≠ .off → s.gives (.firmwareUpdate w b) fun t => t.mgmt.slots = setAt s.mgmt.slots slot ⟨b.image, b.version⟩ ∧
        (t.mgmt.next = some slot ↔ b.signed = true ∧ s.mgmt.rollback ≤ b.version) ∧ t.mgmt.running = s.mgmt.running)) ∧
    (s.holds w 2 = false → s.power.phase = .ready →
      ∀ i ∈ [Instr.modulePowerOff w, .moduleResetRequest w p, .firmwareUpdate w b], s.gives i refused) ∧
    (s.power.phase = .standby → s.gives .modulePowerOn fun t => t.power.phase = .starting) ∧
    (s.power.phase ≠ .standby → s.gives .modulePowerOn (· = s)) ∧
    (s.power.phase = .shutdown 1 → s.gives .shutdownStageLimit fun t =>
      (t.power.phase = .shutdown 2 ∨ t.power.phase = .shutdown 3) ∧ t.svc.ckpt = none) ∧
    (s.power.phase = .shutdown 2 → s.gives .shutdownStageLimit fun t => t.power.phase = .shutdown 3) ∧
    (s.power.phase = .shutdown 3 → s.gives .shutdownStageLimit fun t => t.power.phase = .standby ∧ t.greg 0x30018 = 1#32) ∧
    ((∀ n, s.power.phase ≠ .shutdown n) → s.gives .shutdownStageLimit (· = s)) ∧
    (s.safelight = true → s.gives (.setDateTime utc) (fun t => t.mgmt.utc = some (utc.toNat, s.nowSec)) ∧
      (∀ v, s.tick1.sensor sn.toNat = some v → s.gives (.pldmSensorRead sn) fun t =>
        t.sent = s.sent ++ [.reply 0x11 0#16 (leBytes 4 v)] ∧ ∀ a ∈ t.power.alerts, some a ≠ sensorCause sn.toNat) ∧
      s.gives .pldmFruRead (fun t => ∃ bs, t.sent = s.sent ++ [.reply 0x11 0#16 bs])) ∧
    (s.power.phase ≠ .off → s.gives (.entdaa ad) fun t => t.mgmt.i3c = some ad)

/-- R416, R417: SPDM 1.2 over Safelight. The version answer begins a transcript; every answer carries its code; digests and
certificates are those of slot 0, and any other slot is an error; a measurement block is the register's value.
(Choices of the model in it: log entry 36.) -/
def Obligations.SpdmAnswers : Prop :=
  ∀ (s : State) (slot ix : Byte) (nonce : List Byte) (base hash : Word) (off len : Half) (sg : Bool), s.spdmOn = true →
    let tells (i : Instr) (bs : List Byte → Prop) : Prop := s.gives i fun t => ∃ l, t.sent = s.sent ++ [.reply 0x11 0#16 l] ∧ bs l
    let coded (code : Byte) (l : List Byte) : Prop := ∃ r, l = 0x12#8 :: code :: r
    s.gives .getVersion (fun t => t.sent = s.sent ++ [.reply 0x11 0#16 [0x10#8, 4#8, 0#8, 0#8, 0#8, 1#8, 0#8, 0x12#8]] ∧
      t.mgmt.spdm = [0x10#8, 4#8, 0#8, 0#8, 0#8, 1#8, 0#8, 0x12#8]) ∧
    tells .getCapabilities (coded 0x61#8) ∧ tells (.negotiateAlgorithms base hash) (coded 0x63#8) ∧
    tells .getDigests (· = [0x12#8, 1#8, 0#8, 1#8] ++ sha384 s.certChain) ∧
    (slot = 0#8 → tells (.getCertificate slot off len) (coded 2#8) ∧ tells (.challenge slot nonce) (coded 3#8)) ∧
    (slot ≠ 0#8 → ∀ i ∈ [Instr.getCertificate slot off len, .challenge slot nonce],
      tells i (· = [0x12#8, 0x7F#8, 1#8, 0#8])) ∧
    (1 ≤ ix.toNat → ix.toNat ≤ 9 → tells (.getMeasurements ix sg nonce) fun l => ∃ r,
      l = [0x12#8, 0x60#8, 0#8, 0#8, 1#8] ++ leBytes 3 (s.measurement ix.toNat).length ++ s.measurement ix.toNat ++ r) ∧
    (ix = 0#8 → tells (.getMeasurements ix sg nonce) fun l => ∃ r, l = [0x12#8, 0x60#8, 9#8, 0#8, 0#8, 0#8, 0#8, 0#8] ++ r) ∧
    (ix = 0xFF#8 → tells (.getMeasurements ix sg nonce) fun l => ∃ n r, l = [0x12#8, 0x60#8, 0#8, 0#8, 9#8] ++ leBytes 3 n ++
      ((List.range 9).map (· + 1)).flatMap s.measurement ++ r) ∧
    (9 < ix.toNat → ix ≠ 0xFF#8 → tells (.getMeasurements ix sg nonce) (· = [0x12#8, 0x7F#8, 1#8, 0#8]))

/-- R425, R428, R457, R458: Loupe's monitor. Without DBGEN its input is ignored; its reading commands answer; AUTH OPEN with a
signature that verifies opens its session; PEEK and POKE need an installer's session from PROVISIONED on, are audited, and read and
write as BAR0 does, POKE nowhere in the identity, fuse and security registers; LOGOUT and 600 s without input end the session.
(Choices of the model in it: log entry 36.) -/
def Obligations.LoupeCommands : Prop :=
  ∀ (s : State) (unit : Byte) (n rate : Nat) (key v : Word) (sig : List Byte) (a : Word) (b : RegBlk), s.canonical →
    let ad : BitVec 28 := a.setWidth 28
    let word := a.toNat / 4 * 4
    let tells (i : Instr) (code : Half) (p : State → List Byte → Prop) : Prop := s.gives i fun t =>
      ∃ l, t.sent = s.sent ++ [.reply 0x12 code l] ∧ p t l
    let any (_ : State) (_ : List Byte) : Prop := True
    let mine := match s.mgmt.loupe with
      | some h => s.holds h 2 && !s.loupeIdle h
      | none => false
    (s.loupeOn = false → ∀ i ∈ [Instr.help, .id, .status, .sensors, .health unit, .log n, .authChal, .authOpen key sig, .peek ad n,
        .poke ad v, .baud rate, .logout], s.gives i (· = s)) ∧
    (s.loupeOn = true →
      (∀ i ∈ [Instr.help, .status, .sensors, .log n], tells i 0#16 any) ∧
      tells .id 0#16 (fun _ l => ∃ r, l = s.identity ++ r) ∧
      tells (.health unit) 0#16 (fun _ l => l = (s.unitHealth unit.toNat).bytes) ∧
      (s.mgmt.loupe = none → tells .authChal 0#16 (fun t l => l.length = 32 ∧ (⟨0x12, l, s.nowSec⟩ : Nonce) ∈ t.sec.nonces) ∧
        (s.roleLocked 2 = false → s.authOk 0x12 2 key sig = true → s.sec.sessions.length < 16 →
          tells (.authOpen key sig) 0#16 fun t _ => t.mgmt.loupe.isSome = true)) ∧
      (mine = false ∨ s.lcs < 2 → ∀ i ∈ [Instr.peek ad n, .poke ad v], tells i 0x0601#16 fun t _ => t.cores = s.cores ∧
        (s.sec.logBad = false → t.sec.auditNext = s.sec.auditNext + 1)) ∧
      (mine = true → 2 ≤ s.lcs → s.sec.logBad = false →
        (1 ≤ n → n ≤ 64 → s.htu.slices = [] → tells (.peek ad n) 0#16 fun _ l => l.length = 4 * n) ∧
        (pokeBarred word = true → word < 2 ^ 28 → tells (.poke ad v) 0x0601#16 fun t _ => t.cores = s.cores) ∧
        (s.accessible = true → word < 0x80000 → pokeBarred word = false → findReg globRegs word = some b → keyRole word = none →
          commitOf word = none → htuGuarded word = false → word ≠ 0x70004 → b.base ≠ 0x70100 → s.reservedOnes word v = false →
          tells (.poke ad v) 0#16 fun t _ => t.greg word = mergeReg b (s.greg word) v)) ∧
      (rate ∈ [115200, 921600, 1500000, 3000000] → tells (.baud rate) 0#16 fun t _ => t.mgmt.baud = rate) ∧
      (rate ∉ [115200, 921600, 1500000, 3000000] → tells (.baud rate) 0x0605#16 fun t _ => t.mgmt.baud = s.mgmt.baud) ∧
      tells .logout 0#16 fun t _ => t.mgmt.loupe = none) ∧
    (s.mgmt.loupe = none → s.gives .loupeIdleTimeout (· = s)) ∧
    ∀ h x, s.mgmt.loupe = some h → x ∈ s.sec.sessions → x.handle = h → x.used + 600 ≤ s.nowSec →
      s.gives .loupeIdleTimeout fun t => t.mgmt.loupe = none ∧ x ∉ t.sec.sessions
end

