-- ==== Sys2Proof/Laws/Sparse.lean ====
section
/-! SUPPORT. The laws of the sparse maps and memories: a read after a write, a write leaves every other place alone, and
every operation keeps the canonical form. -/

namespace Sys2Proof.Machine

variable {α : Type} [DecidableEq α] {d : Nat → α}

theorem Sparse.wfFrom_mono {m : List (Nat × α)} {a b : Nat} (h : a ≤ b) (hm : Sparse.wfFrom d (some b) m = true) :
    Sparse.wfFrom d (some a) m = true := by
  cases m with
  | nil => rfl
  | cons x t =>
    simp only [Sparse.wfFrom, Bool.and_eq_true, decide_eq_true_eq] at hm ⊢
    exact ⟨⟨by omega, hm.1.2⟩, hm.2⟩

theorem Sparse.wfFrom_none {m : List (Nat × α)} {a : Nat} (hm : Sparse.wfFrom d (some a) m = true) :
    Sparse.wfFrom d none m = true := by
  cases m with
  | nil => rfl
  | cons x t =>
    simp only [Sparse.wfFrom, Bool.and_eq_true, decide_eq_true_eq, true_and] at hm ⊢
    exact ⟨hm.1.2, hm.2⟩

/-- Below the first key, a map in canonical form lists nothing. -/
theorem Sparse.get_below {m : List (Nat × α)} {a k : Nat} (hm : Sparse.wfFrom d (some a) m = true) (h : k ≤ a) :
    Sparse.get d m k = d k := by
  induction m generalizing a with
  | nil => rfl
  | cons x t ih =>
    simp only [Sparse.wfFrom, Bool.and_eq_true, decide_eq_true_eq] at hm
    have : x.1 ≠ k := by omega
    simp only [Sparse.get, this, if_false]
    exact ih hm.2 (by omega)

omit [DecidableEq α] in
theorem Sparse.get_insert (m : List (Nat × α)) (k j : Nat) (v : α) :
    Sparse.get d (Sparse.insert m k v) j = if k = j then v else Sparse.get d m j := by
  induction m with
  | nil => simp [Sparse.insert, Sparse.get]
  | cons x t ih =>
    obtain ⟨a, w⟩ := x
    simp only [Sparse.insert]
    split
    · simp [Sparse.get]
    · split
      · next h => subst h; simp only [Sparse.get]; split <;> simp_all
      · simp only [Sparse.get, ih]
        split
        · next h => subst h; simp_all
        · rfl

theorem Sparse.get_erase_self {m : List (Nat × α)} {lo : Option Nat} {k : Nat} (hm : Sparse.wfFrom d lo m = true) :
    Sparse.get d (Sparse.erase m k) k = d k := by
  induction m generalizing lo with
  | nil => rfl
  | cons x t ih =>
    obtain ⟨a, w⟩ := x
    simp only [Sparse.wfFrom, Bool.and_eq_true] at hm
    simp only [Sparse.erase]
    split
    · next h => subst h; exact Sparse.get_below hm.2 (Nat.le_refl _)
    · next h => simp only [Sparse.get, h, if_false]; exact ih hm.2

omit [DecidableEq α] in
theorem Sparse.get_erase_ne (m : List (Nat × α)) {k j : Nat} (h : k ≠ j) :
    Sparse.get d (Sparse.erase m k) j = Sparse.get d m j := by
  induction m with
  | nil => rfl
  | cons x t ih =>
    obtain ⟨a, w⟩ := x
    simp only [Sparse.erase]
    split
    · next ha => subst ha; simp [Sparse.get, h]
    · simp only [Sparse.get, ih]

/-- A read after a write to the same key gives the value written. -/
theorem Sparse.get_set_self {m : List (Nat × α)} (hm : Sparse.wf d m = true) (k : Nat) (v : α) :
    Sparse.get d (Sparse.set d m k v) k = v := by
  simp only [Sparse.set]
  split
  · next h => rw [Sparse.get_erase_self hm, h]
  · simp [Sparse.get_insert]

/-- A write leaves every other key alone. -/
theorem Sparse.get_set_ne (m : List (Nat × α)) {k j : Nat} (v : α) (h : k ≠ j) :
    Sparse.get d (Sparse.set d m k v) j = Sparse.get d m j := by
  simp only [Sparse.set]
  split
  · exact Sparse.get_erase_ne m h
  · simp [Sparse.get_insert, h]

theorem Sparse.wfFrom_erase {m : List (Nat × α)} {lo : Option Nat} (k : Nat) (hm : Sparse.wfFrom d lo m = true) :
    Sparse.wfFrom d lo (Sparse.erase m k) = true := by
  induction m generalizing lo with
  | nil => rfl
  | cons x t ih =>
    obtain ⟨a, w⟩ := x
    have hm' := hm
    simp only [Sparse.wfFrom, Bool.and_eq_true] at hm
    simp only [Sparse.erase]
    split
    · cases lo with
      | none => exact Sparse.wfFrom_none hm.2
      | some b =>
        have : b < a := by simpa using hm.1.1
        exact Sparse.wfFrom_mono (Nat.le_of_lt this) hm.2
    · simp only [Sparse.wfFrom, Bool.and_eq_true]
      exact ⟨hm.1, ih hm.2⟩

theorem Sparse.wfFrom_insert {m : List (Nat × α)} {lo : Option Nat} {k : Nat} {v : α} (hv : v ≠ d k)
    (hlo : ∀ b, lo = some b → b < k) (hm : Sparse.wfFrom d lo m = true) :
    Sparse.wfFrom d lo (Sparse.insert m k v) = true := by
  induction m generalizing lo with
  | nil => cases lo <;> simp_all [Sparse.insert, Sparse.wfFrom]
  | cons x t ih =>
    obtain ⟨a, w⟩ := x
    simp only [Sparse.wfFrom, Bool.and_eq_true] at hm
    simp only [Sparse.insert]
    split
    · next h => cases lo <;> simp_all [Sparse.wfFrom]
    · split
      · next h => subst h; cases lo <;> simp_all [Sparse.wfFrom]
      · next h1 h2 =>
        simp only [Sparse.wfFrom, Bool.and_eq_true]
        exact ⟨hm.1, ih (by intro b hb; cases hb; omega) hm.2⟩

/-- A write keeps the canonical form. -/
theorem Sparse.wf_set {m : List (Nat × α)} (k : Nat) (v : α) (hm : Sparse.wf d m = true) :
    Sparse.wf d (Sparse.set d m k v) = true := by
  simp only [Sparse.wf, Sparse.set] at *
  split
  · exact Sparse.wfFrom_erase k hm
  · next h => exact Sparse.wfFrom_insert h (by simp) hm

theorem Sparse.wfFrom_filter {m : List (Nat × α)} {lo : Option Nat} (p : Nat × α → Bool)
    (hm : Sparse.wfFrom d lo m = true) : Sparse.wfFrom d lo (m.filter p) = true := by
  induction m generalizing lo with
  | nil => rfl
  | cons x t ih =>
    obtain ⟨a, w⟩ := x
    simp only [Sparse.wfFrom, Bool.and_eq_true] at hm
    simp only [List.filter]
    split
    · simp only [Sparse.wfFrom, Bool.and_eq_true]
      exact ⟨hm.1, ih hm.2⟩
    · have := ih hm.2
      cases lo with
      | none => exact Sparse.wfFrom_none this
      | some b =>
        have hb : b < a := by simpa using hm.1.1
        exact Sparse.wfFrom_mono (Nat.le_of_lt hb) this

/-- Dropping entries keeps the canonical form. -/
theorem Sparse.wf_filter {m : List (Nat × α)} (p : Nat × α → Bool) (hm : Sparse.wf d m = true) :
    Sparse.wf d (m.filter p) = true := Sparse.wfFrom_filter p hm

theorem Memory.wf_nil : Memory.wf [] = true := rfl

theorem Memory.wf_setByte {m : List (Nat × Byte)} (a : Nat) (b : Byte) (hm : Memory.wf m = true) :
    Memory.wf (Memory.setByte m a b) = true := Sparse.wf_set a b hm

/-- Writing bytes keeps the canonical form. -/
theorem Memory.wf_write {m : List (Nat × Byte)} (a : Nat) (bs : List Byte) (hm : Memory.wf m = true) :
    Memory.wf (Memory.write m a bs) = true := by
  induction bs generalizing m a with
  | nil => exact hm
  | cons b t ih => exact ih (a + 1) (Memory.wf_setByte a b hm)

theorem Memory.byte_setByte_self {m : List (Nat × Byte)} (hm : Memory.wf m = true) (a : Nat) (b : Byte) :
    Memory.byte (Memory.setByte m a b) a = b := Sparse.get_set_self hm a b

theorem Memory.byte_setByte_ne (m : List (Nat × Byte)) {a i : Nat} (b : Byte) (h : a ≠ i) :
    Memory.byte (Memory.setByte m a b) i = Memory.byte m i := Sparse.get_set_ne m b h

/-- A byte outside the bytes written reads as before. -/
theorem Memory.byte_write_outside (m : List (Nat × Byte)) (a : Nat) (bs : List Byte) {i : Nat}
    (h : i < a ∨ a + bs.length ≤ i) : Memory.byte (Memory.write m a bs) i = Memory.byte m i := by
  induction bs generalizing m a with
  | nil => rfl
  | cons b t ih =>
    simp only [List.length_cons] at h
    rw [Memory.write, ih _ _ (by omega), Memory.byte_setByte_ne m b (by omega)]

/-- A byte written reads as it was written. -/
theorem Memory.byte_write_inside {m : List (Nat × Byte)} (hm : Memory.wf m = true) (a : Nat) (bs : List Byte) {i : Nat}
    (h : i < bs.length) : Memory.byte (Memory.write m a bs) (a + i) = bs[i] := by
  induction bs generalizing m a i with
  | nil => simp at h
  | cons b t ih =>
    cases i with
    | zero =>
      rw [Nat.add_zero, Memory.write, Memory.byte_write_outside _ _ _ (by omega), Memory.byte_setByte_self hm]
      rfl
    | succ n =>
      have h' : n < t.length := by simpa using h
      have := ih (Memory.wf_setByte a b hm) (a + 1) h'
      rw [Memory.write, show a + (n + 1) = a + 1 + n by omega, this]
      rfl

end Sys2Proof.Machine
end

