-- ==== Sys2Proof/Laws/State.lean ====
section
/-! SUPPORT. What each named update of the state and of a core does to each field: one lemma a field, true by `rfl`. -/

namespace Sys2Proof.Machine

variable (s : State) (x : Core)

@[simp] theorem State.setGreg_pending (a : Nat) (w : Word) : (s.setGreg a w).pending = s.pending := rfl
@[simp] theorem State.setGreg_freeCtr (a : Nat) (w : Word) : (s.setGreg a w).freeCtr = s.freeCtr := rfl
@[simp] theorem State.setGreg_clock (a : Nat) (w : Word) : (s.setGreg a w).clock = s.clock := rfl
@[simp] theorem State.setGreg_cores (a : Nat) (w : Word) : (s.setGreg a w).cores = s.cores := rfl
@[simp] theorem State.setGreg_gregs (a : Nat) (w : Word) : (s.setGreg a w).gregs = Sparse.set globReset s.gregs a w := rfl
@[simp] theorem State.setGreg_gshadow (a : Nat) (w : Word) : (s.setGreg a w).gshadow = s.gshadow := rfl
@[simp] theorem State.setGreg_hbm (a : Nat) (w : Word) : (s.setGreg a w).hbm = s.hbm := rfl
@[simp] theorem State.setGreg_shutter (a : Nat) (w : Word) : (s.setGreg a w).shutter = s.shutter := rfl
@[simp] theorem State.setGreg_image (a : Nat) (w : Word) : (s.setGreg a w).image = s.image := rfl
@[simp] theorem State.setGreg_loading (a : Nat) (w : Word) : (s.setGreg a w).loading = s.loading := rfl
@[simp] theorem State.setGreg_ports (a : Nat) (w : Word) : (s.setGreg a w).ports = s.ports := rfl
@[simp] theorem State.setGreg_roster (a : Nat) (w : Word) : (s.setGreg a w).roster = s.roster := rfl
@[simp] theorem State.setGreg_coll (a : Nat) (w : Word) : (s.setGreg a w).coll = s.coll := rfl
@[simp] theorem State.setGreg_svc (a : Nat) (w : Word) : (s.setGreg a w).svc = s.svc := rfl
@[simp] theorem State.setGreg_sec (a : Nat) (w : Word) : (s.setGreg a w).sec = s.sec := rfl
@[simp] theorem State.setGreg_health (a : Nat) (w : Word) : (s.setGreg a w).health = s.health := rfl
@[simp] theorem State.setGreg_htu (a : Nat) (w : Word) : (s.setGreg a w).htu = s.htu := rfl
@[simp] theorem State.setGreg_power (a : Nat) (w : Word) : (s.setGreg a w).power = s.power := rfl
@[simp] theorem State.setGreg_mgmt (a : Nat) (w : Word) : (s.setGreg a w).mgmt = s.mgmt := rfl
@[simp] theorem State.setGreg_sheets (a : Nat) (w : Word) : (s.setGreg a w).sheets = s.sheets := rfl
@[simp] theorem State.setGreg_sent (a : Nat) (w : Word) : (s.setGreg a w).sent = s.sent := rfl

@[simp] theorem State.setGshadow_pending (a : Nat) (w : Word) : (s.setGshadow a w).pending = s.pending := rfl
@[simp] theorem State.setGshadow_freeCtr (a : Nat) (w : Word) : (s.setGshadow a w).freeCtr = s.freeCtr := rfl
@[simp] theorem State.setGshadow_clock (a : Nat) (w : Word) : (s.setGshadow a w).clock = s.clock := rfl
@[simp] theorem State.setGshadow_cores (a : Nat) (w : Word) : (s.setGshadow a w).cores = s.cores := rfl
@[simp] theorem State.setGshadow_gregs (a : Nat) (w : Word) : (s.setGshadow a w).gregs = s.gregs := rfl
@[simp] theorem State.setGshadow_gshadow (a : Nat) (w : Word) : (s.setGshadow a w).gshadow = Sparse.set globReset s.gshadow a w := rfl
@[simp] theorem State.setGshadow_hbm (a : Nat) (w : Word) : (s.setGshadow a w).hbm = s.hbm := rfl
@[simp] theorem State.setGshadow_shutter (a : Nat) (w : Word) : (s.setGshadow a w).shutter = s.shutter := rfl
@[simp] theorem State.setGshadow_image (a : Nat) (w : Word) : (s.setGshadow a w).image = s.image := rfl
@[simp] theorem State.setGshadow_loading (a : Nat) (w : Word) : (s.setGshadow a w).loading = s.loading := rfl
@[simp] theorem State.setGshadow_ports (a : Nat) (w : Word) : (s.setGshadow a w).ports = s.ports := rfl
@[simp] theorem State.setGshadow_roster (a : Nat) (w : Word) : (s.setGshadow a w).roster = s.roster := rfl
@[simp] theorem State.setGshadow_coll (a : Nat) (w : Word) : (s.setGshadow a w).coll = s.coll := rfl
@[simp] theorem State.setGshadow_svc (a : Nat) (w : Word) : (s.setGshadow a w).svc = s.svc := rfl
@[simp] theorem State.setGshadow_sec (a : Nat) (w : Word) : (s.setGshadow a w).sec = s.sec := rfl
@[simp] theorem State.setGshadow_health (a : Nat) (w : Word) : (s.setGshadow a w).health = s.health := rfl
@[simp] theorem State.setGshadow_htu (a : Nat) (w : Word) : (s.setGshadow a w).htu = s.htu := rfl
@[simp] theorem State.setGshadow_power (a : Nat) (w : Word) : (s.setGshadow a w).power = s.power := rfl
@[simp] theorem State.setGshadow_mgmt (a : Nat) (w : Word) : (s.setGshadow a w).mgmt = s.mgmt := rfl
@[simp] theorem State.setGshadow_sheets (a : Nat) (w : Word) : (s.setGshadow a w).sheets = s.sheets := rfl
@[simp] theorem State.setGshadow_sent (a : Nat) (w : Word) : (s.setGshadow a w).sent = s.sent := rfl

@[simp] theorem State.setCore_pending (c : CoreId) (y : Core) : (s.setCore c y).pending = s.pending := rfl
@[simp] theorem State.setCore_freeCtr (c : CoreId) (y : Core) : (s.setCore c y).freeCtr = s.freeCtr := rfl
@[simp] theorem State.setCore_clock (c : CoreId) (y : Core) : (s.setCore c y).clock = s.clock := rfl
@[simp] theorem State.setCore_cores (c : CoreId) (y : Core) : (s.setCore c y).cores = s.cores.set c.val y c.isLt := rfl
@[simp] theorem State.setCore_gregs (c : CoreId) (y : Core) : (s.setCore c y).gregs = s.gregs := rfl
@[simp] theorem State.setCore_gshadow (c : CoreId) (y : Core) : (s.setCore c y).gshadow = s.gshadow := rfl
@[simp] theorem State.setCore_hbm (c : CoreId) (y : Core) : (s.setCore c y).hbm = s.hbm := rfl
@[simp] theorem State.setCore_shutter (c : CoreId) (y : Core) : (s.setCore c y).shutter = s.shutter := rfl
@[simp] theorem State.setCore_image (c : CoreId) (y : Core) : (s.setCore c y).image = s.image := rfl
@[simp] theorem State.setCore_loading (c : CoreId) (y : Core) : (s.setCore c y).loading = s.loading := rfl
@[simp] theorem State.setCore_ports (c : CoreId) (y : Core) : (s.setCore c y).ports = s.ports := rfl
@[simp] theorem State.setCore_roster (c : CoreId) (y : Core) : (s.setCore c y).roster = s.roster := rfl
@[simp] theorem State.setCore_coll (c : CoreId) (y : Core) : (s.setCore c y).coll = s.coll := rfl
@[simp] theorem State.setCore_svc (c : CoreId) (y : Core) : (s.setCore c y).svc = s.svc := rfl
@[simp] theorem State.setCore_sec (c : CoreId) (y : Core) : (s.setCore c y).sec = s.sec := rfl
@[simp] theorem State.setCore_health (c : CoreId) (y : Core) : (s.setCore c y).health = s.health := rfl
@[simp] theorem State.setCore_htu (c : CoreId) (y : Core) : (s.setCore c y).htu = s.htu := rfl
@[simp] theorem State.setCore_power (c : CoreId) (y : Core) : (s.setCore c y).power = s.power := rfl
@[simp] theorem State.setCore_mgmt (c : CoreId) (y : Core) : (s.setCore c y).mgmt = s.mgmt := rfl
@[simp] theorem State.setCore_sheets (c : CoreId) (y : Core) : (s.setCore c y).sheets = s.sheets := rfl
@[simp] theorem State.setCore_sent (c : CoreId) (y : Core) : (s.setCore c y).sent = s.sent := rfl

@[simp] theorem State.mapCores_pending (f : CoreId → Core → Core) : (s.mapCores f).pending = s.pending := by simp only [State.mapCores]
@[simp] theorem State.mapCores_freeCtr (f : CoreId → Core → Core) : (s.mapCores f).freeCtr = s.freeCtr := by simp only [State.mapCores]
@[simp] theorem State.mapCores_clock (f : CoreId → Core → Core) : (s.mapCores f).clock = s.clock := by simp only [State.mapCores]
@[simp] theorem State.mapCores_cores (f : CoreId → Core → Core) : (s.mapCores f).cores = Vector.ofFn fun i => f i (s.cores.get i) := by simp only [State.mapCores]
@[simp] theorem State.mapCores_gregs (f : CoreId → Core → Core) : (s.mapCores f).gregs = s.gregs := by simp only [State.mapCores]
@[simp] theorem State.mapCores_gshadow (f : CoreId → Core → Core) : (s.mapCores f).gshadow = s.gshadow := by simp only [State.mapCores]
@[simp] theorem State.mapCores_hbm (f : CoreId → Core → Core) : (s.mapCores f).hbm = s.hbm := by simp only [State.mapCores]
@[simp] theorem State.mapCores_shutter (f : CoreId → Core → Core) : (s.mapCores f).shutter = s.shutter := by simp only [State.mapCores]
@[simp] theorem State.mapCores_image (f : CoreId → Core → Core) : (s.mapCores f).image = s.image := by simp only [State.mapCores]
@[simp] theorem State.mapCores_loading (f : CoreId → Core → Core) : (s.mapCores f).loading = s.loading := by simp only [State.mapCores]
@[simp] theorem State.mapCores_ports (f : CoreId → Core → Core) : (s.mapCores f).ports = s.ports := by simp only [State.mapCores]
@[simp] theorem State.mapCores_roster (f : CoreId → Core → Core) : (s.mapCores f).roster = s.roster := by simp only [State.mapCores]
@[simp] theorem State.mapCores_coll (f : CoreId → Core → Core) : (s.mapCores f).coll = s.coll := by simp only [State.mapCores]
@[simp] theorem State.mapCores_svc (f : CoreId → Core → Core) : (s.mapCores f).svc = s.svc := by simp only [State.mapCores]
@[simp] theorem State.mapCores_sec (f : CoreId → Core → Core) : (s.mapCores f).sec = s.sec := by simp only [State.mapCores]
@[simp] theorem State.mapCores_health (f : CoreId → Core → Core) : (s.mapCores f).health = s.health := by simp only [State.mapCores]
@[simp] theorem State.mapCores_htu (f : CoreId → Core → Core) : (s.mapCores f).htu = s.htu := by simp only [State.mapCores]
@[simp] theorem State.mapCores_power (f : CoreId → Core → Core) : (s.mapCores f).power = s.power := by simp only [State.mapCores]
@[simp] theorem State.mapCores_mgmt (f : CoreId → Core → Core) : (s.mapCores f).mgmt = s.mgmt := by simp only [State.mapCores]
@[simp] theorem State.mapCores_sheets (f : CoreId → Core → Core) : (s.mapCores f).sheets = s.sheets := by simp only [State.mapCores]
@[simp] theorem State.mapCores_sent (f : CoreId → Core → Core) : (s.mapCores f).sent = s.sent := by simp only [State.mapCores]

@[simp] theorem State.emit_pending (o : Output) : (s.emit o).pending = s.pending := rfl
@[simp] theorem State.emit_freeCtr (o : Output) : (s.emit o).freeCtr = s.freeCtr := rfl
@[simp] theorem State.emit_clock (o : Output) : (s.emit o).clock = s.clock := rfl
@[simp] theorem State.emit_cores (o : Output) : (s.emit o).cores = s.cores := rfl
@[simp] theorem State.emit_gregs (o : Output) : (s.emit o).gregs = s.gregs := rfl
@[simp] theorem State.emit_gshadow (o : Output) : (s.emit o).gshadow = s.gshadow := rfl
@[simp] theorem State.emit_hbm (o : Output) : (s.emit o).hbm = s.hbm := rfl
@[simp] theorem State.emit_shutter (o : Output) : (s.emit o).shutter = s.shutter := rfl
@[simp] theorem State.emit_image (o : Output) : (s.emit o).image = s.image := rfl
@[simp] theorem State.emit_loading (o : Output) : (s.emit o).loading = s.loading := rfl
@[simp] theorem State.emit_ports (o : Output) : (s.emit o).ports = s.ports := rfl
@[simp] theorem State.emit_roster (o : Output) : (s.emit o).roster = s.roster := rfl
@[simp] theorem State.emit_coll (o : Output) : (s.emit o).coll = s.coll := rfl
@[simp] theorem State.emit_svc (o : Output) : (s.emit o).svc = s.svc := rfl
@[simp] theorem State.emit_sec (o : Output) : (s.emit o).sec = s.sec := rfl
@[simp] theorem State.emit_health (o : Output) : (s.emit o).health = s.health := rfl
@[simp] theorem State.emit_htu (o : Output) : (s.emit o).htu = s.htu := rfl
@[simp] theorem State.emit_power (o : Output) : (s.emit o).power = s.power := rfl
@[simp] theorem State.emit_mgmt (o : Output) : (s.emit o).mgmt = s.mgmt := rfl
@[simp] theorem State.emit_sheets (o : Output) : (s.emit o).sheets = s.sheets := rfl
@[simp] theorem State.emit_sent (o : Output) : (s.emit o).sent = s.sent ++ [o] := rfl

@[simp] theorem State.logEvent_pending (code : Half) : (s.logEvent code).pending = s.pending := rfl
@[simp] theorem State.logEvent_freeCtr (code : Half) : (s.logEvent code).freeCtr = s.freeCtr := rfl
@[simp] theorem State.logEvent_clock (code : Half) : (s.logEvent code).clock = s.clock := rfl
@[simp] theorem State.logEvent_cores (code : Half) : (s.logEvent code).cores = s.cores := rfl
@[simp] theorem State.logEvent_gregs (code : Half) : (s.logEvent code).gregs = s.gregs := rfl
@[simp] theorem State.logEvent_gshadow (code : Half) : (s.logEvent code).gshadow = s.gshadow := rfl
@[simp] theorem State.logEvent_hbm (code : Half) : (s.logEvent code).hbm = s.hbm := rfl
@[simp] theorem State.logEvent_shutter (code : Half) : (s.logEvent code).shutter = s.shutter := rfl
@[simp] theorem State.logEvent_image (code : Half) : (s.logEvent code).image = s.image := rfl
@[simp] theorem State.logEvent_loading (code : Half) : (s.logEvent code).loading = s.loading := rfl
@[simp] theorem State.logEvent_ports (code : Half) : (s.logEvent code).ports = s.ports := rfl
@[simp] theorem State.logEvent_roster (code : Half) : (s.logEvent code).roster = s.roster := rfl
@[simp] theorem State.logEvent_coll (code : Half) : (s.logEvent code).coll = s.coll := rfl
@[simp] theorem State.logEvent_svc (code : Half) : (s.logEvent code).svc = s.svc := rfl
@[simp] theorem State.logEvent_sec (code : Half) : (s.logEvent code).sec = s.sec := rfl
@[simp] theorem State.logEvent_health (code : Half) : (s.logEvent code).health = s.health := rfl
@[simp] theorem State.logEvent_htu (code : Half) : (s.logEvent code).htu = { s.htu with events := s.htu.events ++ [(code, s.shutter.fn)] } := rfl
@[simp] theorem State.logEvent_power (code : Half) : (s.logEvent code).power = s.power := rfl
@[simp] theorem State.logEvent_mgmt (code : Half) : (s.logEvent code).mgmt = s.mgmt := rfl
@[simp] theorem State.logEvent_sheets (code : Half) : (s.logEvent code).sheets = s.sheets := rfl
@[simp] theorem State.logEvent_sent (code : Half) : (s.logEvent code).sent = s.sent := rfl

@[simp] theorem State.atCycle_pending (t : Nat) : (s.atCycle t).pending = s.pending := by unfold State.atCycle; split <;> rfl
@[simp] theorem State.atCycle_freeCtr (t : Nat) : (s.atCycle t).freeCtr = s.freeCtr := by unfold State.atCycle; split <;> rfl
@[simp] theorem State.atCycle_cores (t : Nat) : (s.atCycle t).cores = s.cores := by unfold State.atCycle; split <;> rfl
@[simp] theorem State.atCycle_gregs (t : Nat) : (s.atCycle t).gregs = s.gregs := by unfold State.atCycle; split <;> rfl
@[simp] theorem State.atCycle_gshadow (t : Nat) : (s.atCycle t).gshadow = s.gshadow := by unfold State.atCycle; split <;> rfl
@[simp] theorem State.atCycle_hbm (t : Nat) : (s.atCycle t).hbm = s.hbm := by unfold State.atCycle; split <;> rfl
@[simp] theorem State.atCycle_shutter (t : Nat) : (s.atCycle t).shutter = s.shutter := by unfold State.atCycle; split <;> rfl
@[simp] theorem State.atCycle_image (t : Nat) : (s.atCycle t).image = s.image := by unfold State.atCycle; split <;> rfl
@[simp] theorem State.atCycle_loading (t : Nat) : (s.atCycle t).loading = s.loading := by unfold State.atCycle; split <;> rfl
@[simp] theorem State.atCycle_ports (t : Nat) : (s.atCycle t).ports = s.ports := by unfold State.atCycle; split <;> rfl
@[simp] theorem State.atCycle_roster (t : Nat) : (s.atCycle t).roster = s.roster := by unfold State.atCycle; split <;> rfl
@[simp] theorem State.atCycle_coll (t : Nat) : (s.atCycle t).coll = s.coll := by unfold State.atCycle; split <;> rfl
@[simp] theorem State.atCycle_svc (t : Nat) : (s.atCycle t).svc = s.svc := by unfold State.atCycle; split <;> rfl
@[simp] theorem State.atCycle_sec (t : Nat) : (s.atCycle t).sec = s.sec := by unfold State.atCycle; split <;> rfl
@[simp] theorem State.atCycle_health (t : Nat) : (s.atCycle t).health = s.health := by unfold State.atCycle; split <;> rfl
@[simp] theorem State.atCycle_htu (t : Nat) : (s.atCycle t).htu = s.htu := by unfold State.atCycle; split <;> rfl
@[simp] theorem State.atCycle_power (t : Nat) : (s.atCycle t).power = s.power := by unfold State.atCycle; split <;> rfl
@[simp] theorem State.atCycle_mgmt (t : Nat) : (s.atCycle t).mgmt = s.mgmt := by unfold State.atCycle; split <;> rfl
@[simp] theorem State.atCycle_sheets (t : Nat) : (s.atCycle t).sheets = s.sheets := by unfold State.atCycle; split <;> rfl
@[simp] theorem State.atCycle_sent (t : Nat) : (s.atCycle t).sent = s.sent := by unfold State.atCycle; split <;> rfl
@[simp] theorem State.atCycle_clock (t : Nat) : (s.atCycle t).clock = max s.clock t := by
  unfold State.atCycle; split <;> (try simp only []) <;> omega

@[simp] theorem State.tick1_pending : s.tick1.pending = s.pending := rfl
@[simp] theorem State.tick1_freeCtr : s.tick1.freeCtr = s.freeCtr + 1 := rfl
@[simp] theorem State.tick1_clock : s.tick1.clock = s.clock := rfl
@[simp] theorem State.tick1_cores : s.tick1.cores = s.cores := rfl
@[simp] theorem State.tick1_gregs : s.tick1.gregs = s.gregs := rfl
@[simp] theorem State.tick1_gshadow : s.tick1.gshadow = s.gshadow := rfl
@[simp] theorem State.tick1_hbm : s.tick1.hbm = s.hbm := rfl
@[simp] theorem State.tick1_shutter : s.tick1.shutter = s.shutter := rfl
@[simp] theorem State.tick1_image : s.tick1.image = s.image := rfl
@[simp] theorem State.tick1_loading : s.tick1.loading = s.loading := rfl
@[simp] theorem State.tick1_ports : s.tick1.ports = s.ports := rfl
@[simp] theorem State.tick1_roster : s.tick1.roster = s.roster := rfl
@[simp] theorem State.tick1_coll : s.tick1.coll = s.coll := rfl
@[simp] theorem State.tick1_svc : s.tick1.svc = s.svc := rfl
@[simp] theorem State.tick1_sec : s.tick1.sec = s.sec := rfl
@[simp] theorem State.tick1_health : s.tick1.health = s.health := rfl
@[simp] theorem State.tick1_htu : s.tick1.htu = s.htu := rfl
@[simp] theorem State.tick1_power : s.tick1.power = s.power := rfl
@[simp] theorem State.tick1_mgmt : s.tick1.mgmt = s.mgmt := rfl
@[simp] theorem State.tick1_sheets : s.tick1.sheets = s.sheets := rfl
@[simp] theorem State.tick1_sent : s.tick1.sent = s.sent := rfl

@[simp] theorem State.stopBath_pending : s.stopBath.pending = s.pending := rfl
@[simp] theorem State.stopBath_freeCtr : s.stopBath.freeCtr = s.freeCtr := rfl
@[simp] theorem State.stopBath_clock : s.stopBath.clock = s.clock := rfl
@[simp] theorem State.stopBath_cores : s.stopBath.cores = s.cores := rfl
@[simp] theorem State.stopBath_gregs : s.stopBath.gregs = s.gregs := rfl
@[simp] theorem State.stopBath_gshadow : s.stopBath.gshadow = s.gshadow := rfl
@[simp] theorem State.stopBath_hbm : s.stopBath.hbm = s.hbm := rfl
@[simp] theorem State.stopBath_shutter : s.stopBath.shutter = { s.shutter with stopNext := true } := rfl
@[simp] theorem State.stopBath_image : s.stopBath.image = s.image := rfl
@[simp] theorem State.stopBath_loading : s.stopBath.loading = s.loading := rfl
@[simp] theorem State.stopBath_ports : s.stopBath.ports = s.ports := rfl
@[simp] theorem State.stopBath_roster : s.stopBath.roster = s.roster := rfl
@[simp] theorem State.stopBath_coll : s.stopBath.coll = s.coll := rfl
@[simp] theorem State.stopBath_svc : s.stopBath.svc = s.svc := rfl
@[simp] theorem State.stopBath_sec : s.stopBath.sec = s.sec := rfl
@[simp] theorem State.stopBath_health : s.stopBath.health = s.health := rfl
@[simp] theorem State.stopBath_htu : s.stopBath.htu = s.htu := rfl
@[simp] theorem State.stopBath_power : s.stopBath.power = s.power := rfl
@[simp] theorem State.stopBath_mgmt : s.stopBath.mgmt = s.mgmt := rfl
@[simp] theorem State.stopBath_sheets : s.stopBath.sheets = s.sheets := rfl
@[simp] theorem State.stopBath_sent : s.stopBath.sent = s.sent := rfl

@[simp] theorem State.hbmWrite_pending (a : Nat) (bs : List Byte) : (s.hbmWrite a bs).pending = s.pending := rfl
@[simp] theorem State.hbmWrite_freeCtr (a : Nat) (bs : List Byte) : (s.hbmWrite a bs).freeCtr = s.freeCtr := rfl
@[simp] theorem State.hbmWrite_clock (a : Nat) (bs : List Byte) : (s.hbmWrite a bs).clock = s.clock := rfl
@[simp] theorem State.hbmWrite_cores (a : Nat) (bs : List Byte) : (s.hbmWrite a bs).cores = s.cores := rfl
@[simp] theorem State.hbmWrite_gregs (a : Nat) (bs : List Byte) : (s.hbmWrite a bs).gregs = s.gregs := rfl
@[simp] theorem State.hbmWrite_gshadow (a : Nat) (bs : List Byte) : (s.hbmWrite a bs).gshadow = s.gshadow := rfl
@[simp] theorem State.hbmWrite_hbm (a : Nat) (bs : List Byte) : (s.hbmWrite a bs).hbm = Memory.write s.hbm a bs := rfl
@[simp] theorem State.hbmWrite_shutter (a : Nat) (bs : List Byte) : (s.hbmWrite a bs).shutter = s.shutter := rfl
@[simp] theorem State.hbmWrite_image (a : Nat) (bs : List Byte) : (s.hbmWrite a bs).image = s.image := rfl
@[simp] theorem State.hbmWrite_loading (a : Nat) (bs : List Byte) : (s.hbmWrite a bs).loading = s.loading := rfl
@[simp] theorem State.hbmWrite_ports (a : Nat) (bs : List Byte) : (s.hbmWrite a bs).ports = s.ports := rfl
@[simp] theorem State.hbmWrite_roster (a : Nat) (bs : List Byte) : (s.hbmWrite a bs).roster = s.roster := rfl
@[simp] theorem State.hbmWrite_coll (a : Nat) (bs : List Byte) : (s.hbmWrite a bs).coll = s.coll := rfl
@[simp] theorem State.hbmWrite_svc (a : Nat) (bs : List Byte) : (s.hbmWrite a bs).svc = s.svc := rfl
@[simp] theorem State.hbmWrite_sec (a : Nat) (bs : List Byte) : (s.hbmWrite a bs).sec = s.sec := rfl
@[simp] theorem State.hbmWrite_health (a : Nat) (bs : List Byte) : (s.hbmWrite a bs).health = s.health := rfl
@[simp] theorem State.hbmWrite_htu (a : Nat) (bs : List Byte) : (s.hbmWrite a bs).htu = s.htu := rfl
@[simp] theorem State.hbmWrite_power (a : Nat) (bs : List Byte) : (s.hbmWrite a bs).power = s.power := rfl
@[simp] theorem State.hbmWrite_mgmt (a : Nat) (bs : List Byte) : (s.hbmWrite a bs).mgmt = s.mgmt := rfl
@[simp] theorem State.hbmWrite_sheets (a : Nat) (bs : List Byte) : (s.hbmWrite a bs).sheets = s.sheets := rfl
@[simp] theorem State.hbmWrite_sent (a : Nat) (bs : List Byte) : (s.hbmWrite a bs).sent = s.sent := rfl

@[simp] theorem Core.setReg_regs (a : Nat) (w : Word) : (x.setReg a w).regs = Sparse.set coreReset x.regs a w := rfl
@[simp] theorem Core.setReg_shadow (a : Nat) (w : Word) : (x.setReg a w).shadow = x.shadow := rfl
@[simp] theorem Core.setReg_mem (a : Nat) (w : Word) : (x.setReg a w).mem = x.mem := rfl
@[simp] theorem Core.setReg_seq (a : Nat) (w : Word) : (x.setReg a w).seq = x.seq := rfl
@[simp] theorem Core.setReg_frame (a : Nat) (w : Word) : (x.setReg a w).frame = x.frame := rfl
@[simp] theorem Core.setReg_lateStarts (a : Nat) (w : Word) : (x.setReg a w).lateStarts = x.lateStarts := rfl
@[simp] theorem Core.setReg_workEnd (a : Nat) (w : Word) : (x.setReg a w).workEnd = x.workEnd := rfl
@[simp] theorem Core.setReg_entering (a : Nat) (w : Word) : (x.setReg a w).entering = x.entering := rfl
@[simp] theorem Core.setReg_numAt (a : Nat) (w : Word) : (x.setReg a w).numAt = x.numAt := rfl
@[simp] theorem Core.setReg_behind (a : Nat) (w : Word) : (x.setReg a w).behind = x.behind := rfl
@[simp] theorem Core.setReg_te (a : Nat) (w : Word) : (x.setReg a w).te = x.te := rfl
@[simp] theorem Core.setReg_ve0ctl (a : Nat) (w : Word) : (x.setReg a w).ve0ctl = x.ve0ctl := rfl
@[simp] theorem Core.setReg_ve1ctl (a : Nat) (w : Word) : (x.setReg a w).ve1ctl = x.ve1ctl := rfl
@[simp] theorem Core.setReg_rowSets (a : Nat) (w : Word) : (x.setReg a w).rowSets = x.rowSets := rfl
@[simp] theorem Core.setReg_stage (a : Nat) (w : Word) : (x.setReg a w).stage = x.stage := rfl
@[simp] theorem Core.setReg_factors (a : Nat) (w : Word) : (x.setReg a w).factors = x.factors := rfl
@[simp] theorem Core.setReg_filter (a : Nat) (w : Word) : (x.setReg a w).filter = x.filter := rfl
@[simp] theorem Core.setReg_filtMax (a : Nat) (w : Word) : (x.setReg a w).filtMax = x.filtMax := rfl
@[simp] theorem Core.setReg_dma (a : Nat) (w : Word) : (x.setReg a w).dma = x.dma := rfl
@[simp] theorem Core.setReg_inflight (a : Nat) (w : Word) : (x.setReg a w).inflight = x.inflight := rfl
@[simp] theorem Core.setReg_nextId (a : Nat) (w : Word) : (x.setReg a w).nextId = x.nextId := rfl
@[simp] theorem Core.setReg_sched (a : Nat) (w : Word) : (x.setReg a w).sched = x.sched := rfl
@[simp] theorem Core.setReg_regions (a : Nat) (w : Word) : (x.setReg a w).regions = x.regions := rfl
@[simp] theorem Core.setReg_unitFree (a : Nat) (w : Word) : (x.setReg a w).unitFree = x.unitFree := rfl
@[simp] theorem Core.setReg_integ (a : Nat) (w : Word) : (x.setReg a w).integ = x.integ := rfl

@[simp] theorem Core.setShadow_regs (a : Nat) (w : Word) : (x.setShadow a w).regs = x.regs := rfl
@[simp] theorem Core.setShadow_shadow (a : Nat) (w : Word) : (x.setShadow a w).shadow = Sparse.set coreReset x.shadow a w := rfl
@[simp] theorem Core.setShadow_mem (a : Nat) (w : Word) : (x.setShadow a w).mem = x.mem := rfl
@[simp] theorem Core.setShadow_seq (a : Nat) (w : Word) : (x.setShadow a w).seq = x.seq := rfl
@[simp] theorem Core.setShadow_frame (a : Nat) (w : Word) : (x.setShadow a w).frame = x.frame := rfl
@[simp] theorem Core.setShadow_lateStarts (a : Nat) (w : Word) : (x.setShadow a w).lateStarts = x.lateStarts := rfl
@[simp] theorem Core.setShadow_workEnd (a : Nat) (w : Word) : (x.setShadow a w).workEnd = x.workEnd := rfl
@[simp] theorem Core.setShadow_entering (a : Nat) (w : Word) : (x.setShadow a w).entering = x.entering := rfl
@[simp] theorem Core.setShadow_numAt (a : Nat) (w : Word) : (x.setShadow a w).numAt = x.numAt := rfl
@[simp] theorem Core.setShadow_behind (a : Nat) (w : Word) : (x.setShadow a w).behind = x.behind := rfl
@[simp] theorem Core.setShadow_te (a : Nat) (w : Word) : (x.setShadow a w).te = x.te := rfl
@[simp] theorem Core.setShadow_ve0ctl (a : Nat) (w : Word) : (x.setShadow a w).ve0ctl = x.ve0ctl := rfl
@[simp] theorem Core.setShadow_ve1ctl (a : Nat) (w : Word) : (x.setShadow a w).ve1ctl = x.ve1ctl := rfl
@[simp] theorem Core.setShadow_rowSets (a : Nat) (w : Word) : (x.setShadow a w).rowSets = x.rowSets := rfl
@[simp] theorem Core.setShadow_stage (a : Nat) (w : Word) : (x.setShadow a w).stage = x.stage := rfl
@[simp] theorem Core.setShadow_factors (a : Nat) (w : Word) : (x.setShadow a w).factors = x.factors := rfl
@[simp] theorem Core.setShadow_filter (a : Nat) (w : Word) : (x.setShadow a w).filter = x.filter := rfl
@[simp] theorem Core.setShadow_filtMax (a : Nat) (w : Word) : (x.setShadow a w).filtMax = x.filtMax := rfl
@[simp] theorem Core.setShadow_dma (a : Nat) (w : Word) : (x.setShadow a w).dma = x.dma := rfl
@[simp] theorem Core.setShadow_inflight (a : Nat) (w : Word) : (x.setShadow a w).inflight = x.inflight := rfl
@[simp] theorem Core.setShadow_nextId (a : Nat) (w : Word) : (x.setShadow a w).nextId = x.nextId := rfl
@[simp] theorem Core.setShadow_sched (a : Nat) (w : Word) : (x.setShadow a w).sched = x.sched := rfl
@[simp] theorem Core.setShadow_regions (a : Nat) (w : Word) : (x.setShadow a w).regions = x.regions := rfl
@[simp] theorem Core.setShadow_unitFree (a : Nat) (w : Word) : (x.setShadow a w).unitFree = x.unitFree := rfl
@[simp] theorem Core.setShadow_integ (a : Nat) (w : Word) : (x.setShadow a w).integ = x.integ := rfl

@[simp] theorem Core.write_regs (a : Nat) (bs : List Byte) : (x.write a bs).regs = x.regs := rfl
@[simp] theorem Core.write_shadow (a : Nat) (bs : List Byte) : (x.write a bs).shadow = x.shadow := rfl
@[simp] theorem Core.write_mem (a : Nat) (bs : List Byte) : (x.write a bs).mem = Memory.write x.mem a bs := rfl
@[simp] theorem Core.write_seq (a : Nat) (bs : List Byte) : (x.write a bs).seq = x.seq := rfl
@[simp] theorem Core.write_frame (a : Nat) (bs : List Byte) : (x.write a bs).frame = x.frame := rfl
@[simp] theorem Core.write_lateStarts (a : Nat) (bs : List Byte) : (x.write a bs).lateStarts = x.lateStarts := rfl
@[simp] theorem Core.write_workEnd (a : Nat) (bs : List Byte) : (x.write a bs).workEnd = x.workEnd := rfl
@[simp] theorem Core.write_entering (a : Nat) (bs : List Byte) : (x.write a bs).entering = x.entering := rfl
@[simp] theorem Core.write_numAt (a : Nat) (bs : List Byte) : (x.write a bs).numAt = x.numAt := rfl
@[simp] theorem Core.write_behind (a : Nat) (bs : List Byte) : (x.write a bs).behind = x.behind := rfl
@[simp] theorem Core.write_te (a : Nat) (bs : List Byte) : (x.write a bs).te = x.te := rfl
@[simp] theorem Core.write_ve0ctl (a : Nat) (bs : List Byte) : (x.write a bs).ve0ctl = x.ve0ctl := rfl
@[simp] theorem Core.write_ve1ctl (a : Nat) (bs : List Byte) : (x.write a bs).ve1ctl = x.ve1ctl := rfl
@[simp] theorem Core.write_rowSets (a : Nat) (bs : List Byte) : (x.write a bs).rowSets = x.rowSets := rfl
@[simp] theorem Core.write_stage (a : Nat) (bs : List Byte) : (x.write a bs).stage = x.stage := rfl
@[simp] theorem Core.write_factors (a : Nat) (bs : List Byte) : (x.write a bs).factors = x.factors := rfl
@[simp] theorem Core.write_filter (a : Nat) (bs : List Byte) : (x.write a bs).filter = x.filter := rfl
@[simp] theorem Core.write_filtMax (a : Nat) (bs : List Byte) : (x.write a bs).filtMax = x.filtMax := rfl
@[simp] theorem Core.write_dma (a : Nat) (bs : List Byte) : (x.write a bs).dma = x.dma := rfl
@[simp] theorem Core.write_inflight (a : Nat) (bs : List Byte) : (x.write a bs).inflight = x.inflight := rfl
@[simp] theorem Core.write_nextId (a : Nat) (bs : List Byte) : (x.write a bs).nextId = x.nextId := rfl
@[simp] theorem Core.write_sched (a : Nat) (bs : List Byte) : (x.write a bs).sched = x.sched := rfl
@[simp] theorem Core.write_regions (a : Nat) (bs : List Byte) : (x.write a bs).regions = x.regions := rfl
@[simp] theorem Core.write_unitFree (a : Nat) (bs : List Byte) : (x.write a bs).unitFree = x.unitFree := rfl
@[simp] theorem Core.write_integ (a : Nat) (bs : List Byte) : (x.write a bs).integ = x.integ := rfl

end Sys2Proof.Machine
end

