-- ==== Sys2Proof/Laws/Chip.lean ====
section
/-! SUPPORT. What the shared operations over registers, cores and the whole chip do, each said once. -/

namespace Sys2Proof.Machine

/-! ## Cores of a state -/

@[simp] theorem State.core_setCore_self (s : State) (c : CoreId) (x : Core) : (s.setCore c x).core c = x := by
  show (s.cores.set c.val x c.isLt)[c.val] = x
  simp

@[simp] theorem State.core_setCore_ne (s : State) {c d : CoreId} (x : Core) (h : d ≠ c) :
    (s.setCore c x).core d = s.core d := by
  have : c.val ≠ d.val := fun e => h (Fin.ext e.symm)
  show (s.cores.set c.val x c.isLt)[d.val] = s.cores[d.val]
  simp [this]

@[simp] theorem State.core_mapCores (s : State) (f : CoreId → Core → Core) (c : CoreId) :
    (s.mapCores f).core c = f c (s.core c) := by
  show (Vector.ofFn fun i => f i (s.cores.get i))[c.val] = f c (s.cores.get c)
  simp

/-- A core depends on the state's cores alone. -/
theorem State.core_congr {s t : State} (h : t.cores = s.cores) (c : CoreId) : t.core c = s.core c := by
  simp [State.core, h]

/-! ## Registers -/

theorem Core.reg_setReg_self {x : Core} (h : Sparse.wf coreReset x.regs = true) (a : Nat) (w : Word) :
    (x.setReg a w).reg a = w := Sparse.get_set_self h a w

theorem Core.reg_setReg_ne (x : Core) {a b : Nat} (w : Word) (h : a ≠ b) : (x.setReg a w).reg b = x.reg b :=
  Sparse.get_set_ne x.regs w h

theorem State.greg_setGreg_self {s : State} (h : Sparse.wf globReset s.gregs = true) (a : Nat) (w : Word) :
    (s.setGreg a w).greg a = w := Sparse.get_set_self h a w

theorem State.greg_setGreg_ne (s : State) {a b : Nat} (w : Word) (h : a ≠ b) : (s.setGreg a w).greg b = s.greg b :=
  Sparse.get_set_ne s.gregs w h

theorem State.greg_congr {s t : State} (h : t.gregs = s.gregs) (a : Nat) : t.greg a = s.greg a := by
  simp [State.greg, h]

theorem Core.wf_setReg {x : Core} (h : Sparse.wf coreReset x.regs = true) (a : Nat) (w : Word) :
    Sparse.wf coreReset (x.setReg a w).regs = true := Sparse.wf_set a w h

theorem State.wf_setGreg {s : State} (h : Sparse.wf globReset s.gregs = true) (a : Nat) (w : Word) :
    Sparse.wf globReset (s.setGreg a w).gregs = true := Sparse.wf_set a w h

/-- A field write touches no register but its own. -/
theorem Core.reg_setRf_ne (x : Core) {a b : Nat} (hi lo v : Nat) (h : a ≠ b) : (x.setRf a hi lo v).reg b = x.reg b :=
  Core.reg_setReg_ne x _ h

theorem Core.reg_bump_ne (x : Core) {a b : Nat} (n : Nat) (h : a ≠ b) : (x.bump a n).reg b = x.reg b :=
  Core.reg_setReg_ne x _ h

/-! ## Reports of the integrity logic and of the health table -/

theorem State.alertFor_cores (s : State) (n : Nat) : (s.alertFor n).cores = s.cores := by
  simp only [State.alertFor]; split <;> rfl

theorem State.alertFor_gregs (s : State) (n : Nat) : (s.alertFor n).gregs = s.gregs := by
  simp only [State.alertFor]; split <;> rfl

theorem State.alertFor_hbm (s : State) (n : Nat) : (s.alertFor n).hbm = s.hbm := by
  simp only [State.alertFor]; split <;> rfl

/-- A change to the health table touches no core, register or byte of HBM. -/
theorem State.setHealth_keeps (s : State) (u st fl : Nat) (code : Half) :
    (s.setHealth u st fl code).cores = s.cores ∧ (s.setHealth u st fl code).gregs = s.gregs ∧
      (s.setHealth u st fl code).hbm = s.hbm ∧ (s.setHealth u st fl code).pending = s.pending := by
  simp only [State.setHealth, State.vector, State.emit, State.alertFor]
  split <;> simp

theorem State.noteUnit_keeps (s : State) (u : Nat) (code : Half) :
    (s.noteUnit u code).cores = s.cores ∧ (s.noteUnit u code).gregs = s.gregs ∧
      (s.noteUnit u code).hbm = s.hbm ∧ (s.noteUnit u code).pending = s.pending := State.setHealth_keeps s u _ _ code

theorem State.takeReport_keeps (c : CoreId) (s : State) (r : Nat × Half) :
    (State.takeReport c s r).cores = s.cores ∧ (State.takeReport c s r).gregs = s.gregs ∧
      (State.takeReport c s r).hbm = s.hbm ∧ (State.takeReport c s r).pending = s.pending := by
  simp only [State.takeReport]
  split
  · exact ⟨rfl, rfl, rfl, rfl⟩
  · split
    · exact State.noteUnit_keeps _ _ _
    · exact State.noteUnit_keeps _ _ _

theorem State.takeReports_keep (c : CoreId) (l : List (Nat × Half)) (s : State) :
    (l.foldl (State.takeReport c) s).cores = s.cores ∧ (l.foldl (State.takeReport c) s).gregs = s.gregs ∧
      (l.foldl (State.takeReport c) s).hbm = s.hbm ∧ (l.foldl (State.takeReport c) s).pending = s.pending := by
  induction l generalizing s with
  | nil => exact ⟨rfl, rfl, rfl, rfl⟩
  | cons r t ih =>
    have h1 := ih (State.takeReport c s r)
    have h2 := State.takeReport_keeps c s r
    exact ⟨h1.1.trans h2.1, h1.2.1.trans h2.2.1, h1.2.2.1.trans h2.2.2.1, h1.2.2.2.trans h2.2.2.2⟩

/-- A core once its integrity logic's reports have been taken. -/
def Core.drained (x : Core) : Core := { x with integ := { x.integ with reports := [] } }

/-- Taking a core's reports: the core without them, no other core, no register, no byte of HBM. -/
theorem State.drainReports_spec (s : State) (c : CoreId) :
    (s.drainReports c).cores = (s.setCore c (s.core c).drained).cores ∧ (s.drainReports c).gregs = s.gregs ∧
      (s.drainReports c).hbm = s.hbm ∧ (s.drainReports c).pending = s.pending := by
  have h := State.takeReports_keep c (s.core c).integ.reports (s.setCore c (s.core c).drained)
  exact ⟨h.1, h.2.1, h.2.2.1, h.2.2.2⟩

/-! ## An operation on one core -/

/-- The core after the operation, its reports taken. -/
def State.coreAfter (s : State) (c : CoreId) (f : Ctx → Core → Core) : Core :=
  let x := f (s.tick1.ctx c) (s.core c)
  if x.integ.reports.isEmpty then x else x.drained

/-- An operation on a core changes that core as the operation says and no other core, register of the global area or
byte of HBM. -/
theorem State.onCore_spec (s : State) (c : CoreId) (f : Ctx → Core → Core) :
    (s.onCore c f).core c = s.coreAfter c f ∧ (∀ d, d ≠ c → (s.onCore c f).core d = s.core d) ∧
      (s.onCore c f).gregs = s.gregs ∧ (s.onCore c f).hbm = s.hbm ∧ (s.onCore c f).pending = s.pending := by
  have htick : s.tick1.core c = s.core c := rfl
  simp only [State.onCore, State.coreAfter, htick]
  split
  · refine ⟨State.core_setCore_self _ _ _, fun d hd => ?_, rfl, rfl, rfl⟩
    exact State.core_setCore_ne _ _ hd
  · have h := State.drainReports_spec (s.tick1.setCore c (f (s.tick1.ctx c) (s.core c))) c
    refine ⟨?_, fun d hd => ?_, h.2.1, h.2.2.1, h.2.2.2⟩
    · rw [State.core_congr h.1, State.core_setCore_self, State.core_setCore_self]
    · rw [State.core_congr h.1, State.core_setCore_ne _ _ hd, State.core_setCore_ne _ _ hd]; rfl

/-- Every field of a core but the reports is as the operation leaves it. -/
theorem State.coreAfter_fields (s : State) (c : CoreId) (f : Ctx → Core → Core) :
    let x := f (s.tick1.ctx c) (s.core c)
    let y := s.coreAfter c f
    y.regs = x.regs ∧ y.shadow = x.shadow ∧ y.mem = x.mem ∧ y.seq = x.seq ∧ y.frame = x.frame ∧ y.te = x.te ∧
      y.rowSets = x.rowSets ∧ y.stage = x.stage ∧ y.factors = x.factors ∧ y.filter = x.filter ∧ y.dma = x.dma ∧
      y.inflight = x.inflight ∧ y.ve0ctl = x.ve0ctl ∧ y.ve1ctl = x.ve1ctl ∧ y.integ.bad = x.integ.bad := by
  simp only [State.coreAfter]
  split <;> simp [Core.drained]

/-! ## The CRC of a line (R365, R366) -/

/-- The stored CRC of a line differs from the computed one exactly where the line is listed as bad. -/
theorem Core.storedCrc_ne (c : Core) (line : Nat) :
    c.storedCrc line ≠ lineCrc (Memory.read c.mem line 64) ↔ c.integ.bad.contains line = true := by
  unfold Core.storedCrc
  split
  · simp only [ne_eq, iff_true, *]
    intro h
    have := congrArg (lineCrc (Memory.read c.mem line 64) ^^^ ·) h
    simp at this
  · simp_all

/-! ## What falls due -/

theorem earliest_mem {α : Type} {l : List (Nat × α)} {y : Nat × α} (h : earliest l = some y) : y ∈ l := by
  induction l with
  | nil => cases h
  | cons x t ih =>
    simp only [earliest] at h
    split at h
    · cases h; simp
    · split at h <;> cases h
      · exact List.mem_cons_of_mem _ (ih ‹_›)
      · simp

/-- Where nothing falls due by a cycle, nothing has happened by then. -/
theorem State.settle_eq_self {s : State} {cs : List CoreId} {t : Nat} (h : ∀ c ∈ cs, ∀ d ∈ (s.core c).allDues, t < d.1) :
    s.settle cs t = s := by
  unfold State.settle
  generalize cs.foldl (fun n c => n + (s.core c).dueCount) 0 = n
  cases n with
  | zero => rfl
  | succ n =>
    simp only [State.settleUpTo]
    split
    · rename_i u c d he
      have hm := earliest_mem he
      simp only [State.duesOf, List.mem_flatMap, List.mem_map] at hm
      obtain ⟨c', hc, x, hx, hy⟩ := hm
      have := h c' hc x hx
      cases hy
      rw [if_neg (by omega)]
    · rfl

/-! ## The token meter and the issue of an instruction -/

/-- The token meter touches LD_OVERDRAW, LD_OVERDRAW_FN and the stop bath due at the next tick. -/
theorem State.meter_spec (s : State) (t : Nat) :
    (s.meter t).cores = s.cores ∧ (s.meter t).hbm = s.hbm ∧ (s.meter t).pending = s.pending ∧ (s.meter t).clock = s.clock ∧
      (∀ a, a ≠ 0x50024 → a ≠ 0x50028 → (s.meter t).greg a = s.greg a) := by
  simp only [State.meter]
  split
  · split
    · exact ⟨rfl, rfl, rfl, rfl, fun _ _ _ => rfl⟩
    · refine ⟨rfl, rfl, rfl, rfl, fun a h1 h2 => ?_⟩
      rw [State.greg_setGreg_ne _ _ (Ne.symm h2), State.greg_setGreg_ne _ _ (Ne.symm h1)]
      rfl
  · exact ⟨rfl, rfl, rfl, rfl, fun _ _ _ => rfl⟩

/-- The core that an instruction leaves that issues at `a` and changes its core by `f`, its reports taken. -/
def Core.performed (k : Ctx) (a : Site) (i : Instr) (f : Ctx → Core → At → Core) (x : Core) : Core :=
  let y := (x.reopen a.bundle (slotNo i)).arrive k a.bundle (slotNo i)
  let y := (f k y (y.siteOf k a)).joinPorts i x.inflight.length
  Core.drained (if decide (slotNo i ≠ 0) || y.seq.stopped then y.checkRetire k else y)

/-- An instruction that changes its core alone changes, at its issue, that core as it says, no other core, no byte of HBM, and of the
global area the token meter's registers alone. -/
theorem State.perform_spec (s : State) (a : Site) (i : Instr) (t : Nat) (f : Ctx → Core → At → Core) :
    let u := s.perform a i t fun k at_ s => s.setCore a.core (f k (s.core a.core) at_)
    u.core a.core = Core.performed { ((s.atCycle t).tick1).ctx a.core with clock := t } a i f (s.core a.core) ∧
      (∀ d, d ≠ a.core → u.core d = s.core d) ∧ u.hbm = s.hbm ∧ u.pending = s.pending ∧
      ∀ r, r ≠ 0x50024 → r ≠ 0x50028 → u.greg r = s.greg r := by
  intro u
  let k : Ctx := { ((s.atCycle t).tick1).ctx a.core with clock := t }
  let x := s.core a.core
  let y := (x.reopen a.bundle (slotNo i)).arrive k a.bundle (slotNo i)
  let z := (f k y (y.siteOf k a)).joinPorts i x.inflight.length
  let w := if decide (slotNo i ≠ 0) || z.seq.stopped then z.checkRetire k else z
  let v := ((s.atCycle t).tick1).setCore a.core y
  have hx : ∀ d, ((s.atCycle t).tick1).core d = s.core d := State.core_congr (by simp)
  have hu : u = (((v.setCore a.core (f k y (y.siteOf k a))).setCore a.core w).drainReports a.core).meter t := by
    show s.perform a i t _ = _
    unfold State.perform
    simp only [State.core_setCore_self, hx]
    rfl
  have hm := State.meter_spec (((v.setCore a.core (f k y (y.siteOf k a))).setCore a.core w).drainReports a.core) t
  have hd := State.drainReports_spec ((v.setCore a.core (f k y (y.siteOf k a))).setCore a.core w) a.core
  rw [hu]
  refine ⟨?_, fun d h => ?_, hm.2.1.trans (hd.2.2.1.trans (by simp [v])),
    hm.2.2.1.trans (hd.2.2.2.trans (by simp [v])), fun r h1 h2 => ?_⟩
  · rw [State.core_congr hm.1, State.core_congr hd.1, State.core_setCore_self, State.core_setCore_self]
    rfl
  · rw [State.core_congr hm.1, State.core_congr hd.1, State.core_setCore_ne _ _ h, State.core_setCore_ne _ _ h,
      State.core_setCore_ne _ _ h]
    exact (State.core_setCore_ne _ _ h).trans (hx d)
  · rw [hm.2.2.2.2 r h1 h2]
    exact State.greg_congr (hd.2.1.trans (by simp [v])) r

/-- An instruction that can issue, with nothing falling due before it and its line passing its CRC, issues in its cycle. -/
theorem State.issueWith_eq {s : State} {a : Site} {i : Instr} {t : Nat} (g : Ctx → At → State → State)
    (hc : (s.core a.core).issueCycle a i = some t) (hd : ∀ d ∈ (s.core a.core).allDues, t < d.1)
    (hl : (s.core a.core).sameIssue a.bundle (slotNo i) = false →
      (s.core a.core).missing ((s.core a.core).fetchLines a.bundle.toNat) [] = []) :
    s.issueWith a i g = s.perform a i t g := by
  have h1 : s.settle [a.core] t = s := State.settle_eq_self fun c h d => by
    rw [List.mem_singleton] at h; subst h; exact hd d
  have h2 : (s.core a.core).mayIssue a.bundle (slotNo i) = true := by
    unfold Core.issueCycle at hc
    unfold Core.mayIssue
    split at hc
    · split at hc <;> simp_all
    · split at hc <;> simp_all
  simp only [State.issueWith, hc, h1, h2]
  cases h : (s.core a.core).sameIssue a.bundle (slotNo i)
  · simp [hl h]
  · simp

end Sys2Proof.Machine
end

