-- ==== Sys2Proof/Laws/Crypto.lean ====
section
/-! SUPPORT. The lengths of what the ciphers and hashes answer. -/

namespace Sys2Proof.Machine

@[simp] theorem length_leBytes (n x : Nat) : (leBytes n x).length = n := by
  induction n generalizing x with
  | zero => rfl
  | succ n ih => simp [leBytes, ih]

@[simp] theorem length_beBytes (n x : Nat) : (beBytes n x).length = n := by simp [beBytes]

@[simp] theorem length_bytesAt (l : List Byte) (o n : Nat) : (bytesAt l o n).length = n := by simp [bytesAt]

@[simp] theorem length_xorBytes (a b : List Byte) : (xorBytes a b).length = min a.length b.length := by simp [xorBytes]

/-! ## AES -/

theorem length_shiftRows (b : List Byte) : (shiftRows b).length = 16 := by simp [shiftRows]

/-- The key schedule's words have four bytes each, and there are as many as were asked for. -/
theorem keyWords_shape (nk n i : Nat) (rcon : Byte) (done : List (List Byte)) (h1 : 1 ≤ nk) (h2 : nk ≤ done.length)
    (h : ∀ w ∈ done, w.length = 4) :
    (keyWords nk n i rcon done).length = done.length + n ∧ ∀ w ∈ keyWords nk n i rcon done, w.length = 4 := by
  induction n generalizing i rcon done with
  | zero => exact ⟨rfl, h⟩
  | succ n ih =>
    have hb : (done.getD (nk - 1) []).length = 4 := by
      have hl : nk - 1 < done.length := by omega
      rw [List.getD_eq_getElem _ _ hl]
      exact h _ (List.getElem_mem hl)
    have hp : (done.headD []).length = 4 := by
      cases done with
      | nil => simp at h2; omega
      | cons a t => exact h a (by simp)
    have key : ∀ t r, t.length = 4 → (keyWords nk n (i + 1) r (xorBytes (done.getD (nk - 1) []) t :: done)).length = done.length + (n + 1) ∧
        ∀ w ∈ keyWords nk n (i + 1) r (xorBytes (done.getD (nk - 1) []) t :: done), w.length = 4 := by
      intro t r ht
      have := ih (i + 1) r (xorBytes (done.getD (nk - 1) []) t :: done) (by simp; omega) (by
        intro w hw
        rcases List.mem_cons.1 hw with rfl | hw
        · rw [length_xorBytes, hb, ht]; rfl
        · exact h w hw)
      refine ⟨?_, this.2⟩
      rw [this.1]; simp; omega
    unfold keyWords
    split
    · exact key _ _ (by simp only [length_xorBytes, List.length_map, List.length_append, List.length_drop, List.length_take, hp]; rfl)
    · split
      · exact key _ _ (by rw [List.length_map, hp])
      · exact key _ _ hp

/-- A block under a 32-byte key is 16 bytes. -/
theorem length_aesEncrypt (key blk : List Byte) (h : key.length = 32) : (aesEncrypt key blk).length = 16 := by
  have hk : (roundKeys key).length = 15 := by simp [roundKeys, h]
  have h0 := keyWords_shape 8 52 8 1#8 ((List.range 8).map fun i => (key.drop (4 * i)).take 4).reverse (by omega) (by simp) (by
    intro w hw
    simp only [List.mem_reverse, List.mem_map, List.mem_range] at hw
    obtain ⟨i, hi, rfl⟩ := hw
    simp [h]; omega)
  have hr : ((roundKeys key).getD 14 []).length = 16 := by
    rw [List.getD_eq_getElem _ _ (by omega)]
    simp only [roundKeys, h, List.getElem_map, List.getElem_range]
    generalize hw : (keyWords 8 52 8 1#8 ((List.range 8).map fun i => (key.drop (4 * i)).take 4).reverse).reverse = ws at *
    have hl : ws.length = 60 := by rw [← hw]; simp [h0.1]
    have hm : ∀ w ∈ ws, w.length = 4 := by rw [← hw]; intro w hw'; exact h0.2 w (List.mem_reverse.1 hw')
    have : ((ws.drop 56).take 4).map List.length = List.replicate 4 4 := by
      apply List.eq_replicate_iff.2
      refine ⟨by simp [hl], ?_⟩
      intro n hn
      obtain ⟨w, hw', rfl⟩ := List.mem_map.1 hn
      exact hm w (List.mem_of_mem_drop (List.mem_of_mem_take hw'))
    show (List.take 4 (List.drop 56 ws)).flatten.length = 16
    rw [List.length_flatten, this]; rfl
  simp only [aesEncrypt, length_xorBytes, length_shiftRows, hk]
  simp only [show 15 - 1 = 14 from rfl, hr]; rfl

/-- GCM's tag is 16 bytes. -/
theorem length_gcmTag (key nonce aad ct : List Byte) (h : key.length = 32) : (gcmTag key nonce aad ct).length = 16 := by
  simp [gcmTag, length_aesEncrypt, h]

/-! ## SHA-2 -/

/-- Rounds keep the eight working variables. -/
theorem length_rounds (h : ShaShape) (l : List (Nat × Nat)) (v : List Nat) (hv : v.length = 8) : (l.foldl h.round v).length = 8 := by
  induction l generalizing v with
  | nil => exact hv
  | cons kw l ih =>
    refine ih _ ?_
    unfold ShaShape.round
    split
    · rfl
    · exact hv

theorem length_block (h : ShaShape) (ks st : List Nat) (blk : List Byte) (hs : st.length = 8) : (h.block ks st blk).length = 8 := by
  simp [ShaShape.block, length_rounds, hs]

theorem length_hash (h : ShaShape) (iv : List Nat) (n : Nat) (m : List Byte) (hv : iv.length = 8) (hn : n ≤ 8 * (h.w / 8)) :
    (h.hash iv n m).length = n := by
  have key : ∀ (ks : List Nat) (l : List (List Byte)) (st : List Nat), st.length = 8 → (l.foldl (h.block ks) st).length = 8 := by
    intro ks l
    induction l with
    | nil => intro st h; exact h
    | cons b l ih => intro st hs; exact ih _ (length_block h ks st b hs)
  have hf : ∀ l : List Nat, (l.flatMap (beBytes (h.w / 8))).length = l.length * (h.w / 8) := by
    intro l
    induction l with
    | nil => simp
    | cons a l ih => simp [ih, Nat.succ_mul, Nat.add_comm]
  simp only [ShaShape.hash, List.length_take, hf, key _ _ _ hv]
  omega

theorem primes_length : primes.length = 80 := by decide +kernel

@[simp] theorem length_sha256 (m : List Byte) : (sha256 m).length = 32 :=
  length_hash _ _ _ _ (by simp [primes_length]) (by decide)

@[simp] theorem length_sha384 (m : List Byte) : (sha384 m).length = 48 :=
  length_hash _ _ _ _ (by simp [primes_length]) (by decide)

@[simp] theorem length_hmac384 (key m : List Byte) : (hmac384 key m).length = 48 := by simp [hmac384]

/-- HKDF to 32 bytes gives 32. -/
@[simp] theorem length_hkdf32 (secret info : List Byte) : (hkdf secret info 32).length = 32 := by
  simp [hkdf, hkdfExpand, hkdfGo]

end Sys2Proof.Machine
end

