-- ==== Sys2Proof/Laws/Sequencer.lean ====
section
/-! SUPPORT. What a result of the sequencer does to the registers that later bundles read. -/

namespace Sys2Proof.Machine

@[simp] theorem length_setAt {α : Type} (l : List α) (i : Nat) (v : α) : (setAt l i v).length = l.length := by
  induction l generalizing i with
  | nil => rfl
  | cons a t ih => cases i <;> simp [setAt, ih]

theorem getD_setAt_self {α : Type} (l : List α) {i : Nat} (v d : α) (h : i < l.length) : (setAt l i v).getD i d = v := by
  induction l generalizing i with
  | nil => simp at h
  | cons a t ih =>
    cases i with
    | zero => rfl
    | succ n => simpa [setAt] using ih (by simpa using h)

theorem getD_setAt_ne {α : Type} (l : List α) {i j : Nat} (v d : α) (h : i ≠ j) : (setAt l i v).getD j d = l.getD j d := by
  induction l generalizing i j with
  | nil => rfl
  | cons a t ih =>
    cases i with
    | zero => cases j with
      | zero => exact absurd rfl h
      | succ m => rfl
    | succ n => cases j with
      | zero => rfl
      | succ m => simpa [setAt] using ih (by omega)

/-! ## Results in place -/

@[simp] theorem Seq.put_length (q : Seq) (d : SeqDst) (v : Word) : (q.put d v).sregs.length = q.sregs.length := by
  cases d <;> simp only [Seq.put] <;> split <;> simp

theorem Seq.put_sreg_self (q : Seq) {r : BitVec 5} {v : Word} (hr : r ≠ 0#5) (hl : q.sregs.length = 32) :
    (q.put (.sreg r) v).sregs.getD r.toNat 0#32 = v := by
  have := r.isLt
  simp only [Seq.put, if_neg hr]
  exact getD_setAt_self _ _ _ (by omega)

theorem Seq.put_sreg_ne (q : Seq) {d : SeqDst} (v : Word) {r : BitVec 5} (h : d ≠ .sreg r) :
    (q.put d v).sregs.getD r.toNat 0#32 = q.sregs.getD r.toNat 0#32 := by
  cases d with
  | sreg r' =>
    have hr : r'.toNat ≠ r.toNat := fun e => h (by rw [BitVec.eq_of_toNat_eq e])
    simp only [Seq.put]
    split
    · rfl
    · exact getD_setAt_ne _ _ _ hr
  | pred p => simp only [Seq.put]; split <;> rfl
  | ovr ch b => rfl

theorem Seq.put_pred_ne (q : Seq) {d : SeqDst} (v : Word) {p : BitVec 3} (h : d ≠ .pred p) :
    (q.put d v).preds.getLsbD p.toNat = q.preds.getLsbD p.toNat := by
  cases d with
  | sreg r => simp only [Seq.put]; split <;> rfl
  | ovr ch b => rfl
  | pred p' =>
    have hp : p'.toNat ≠ p.toNat := fun e => h (by rw [BitVec.eq_of_toNat_eq e])
    have h1 : (1#8 <<< p'.toNat).getLsbD p.toNat = false := by
      simp only [BitVec.getLsbD_shiftLeft]
      by_cases hlt : p.toNat < p'.toNat
      · simp [hlt]
      · have : p.toNat - p'.toNat ≠ 0 := by omega
        simp [this]
    simp only [Seq.put]
    split
    · rfl
    · have := p.isLt
      split <;> simp [h1]
      intro; omega

theorem Seq.foldl_put_length (l : List SeqWrite) (q : Seq) :
    (l.foldl (fun q w => q.put w.dst w.val) q).sregs.length = q.sregs.length := by
  induction l generalizing q with
  | nil => rfl
  | cons w t ih => simp [List.foldl_cons, ih]

theorem Seq.foldl_put_sreg (l : List SeqWrite) (q : Seq) {r : BitVec 5} (h : ∀ w ∈ l, w.dst ≠ .sreg r) :
    (l.foldl (fun q w => q.put w.dst w.val) q).sregs.getD r.toNat 0#32 = q.sregs.getD r.toNat 0#32 := by
  induction l generalizing q with
  | nil => rfl
  | cons w t ih =>
    rw [List.foldl_cons, ih _ fun x hx => h x (List.mem_cons_of_mem _ hx), Seq.put_sreg_ne _ _ (h w (List.mem_cons_self ..))]

theorem Seq.foldl_put_pred (l : List SeqWrite) (q : Seq) {p : BitVec 3} (h : ∀ w ∈ l, w.dst ≠ .pred p) :
    (l.foldl (fun q w => q.put w.dst w.val) q).preds.getLsbD p.toNat = q.preds.getLsbD p.toNat := by
  induction l generalizing q with
  | nil => rfl
  | cons w t ih =>
    rw [List.foldl_cons, ih _ fun x hx => h x (List.mem_cons_of_mem _ hx), Seq.put_pred_ne _ _ (h w (List.mem_cons_self ..))]

/-- A result is placed among those on their way, after every one of an earlier or the same cycle. -/
theorem SeqWrite.place_split (w : SeqWrite) (l : List SeqWrite) :
    ∃ l1 l2, l = l1 ++ l2 ∧ SeqWrite.place w l = l1 ++ w :: l2 := by
  induction l with
  | nil => exact ⟨[], [], rfl, rfl⟩
  | cons x t ih =>
    simp only [SeqWrite.place]
    split
    · exact ⟨[], x :: t, rfl, rfl⟩
    · obtain ⟨l1, l2, h1, h2⟩ := ih
      exact ⟨x :: l1, l2, by rw [h1]; rfl, by rw [h2]; rfl⟩

theorem Seq.settle_coming_subset (q : Seq) (n : Nat) {w : SeqWrite} (h : w ∈ (q.settle n).coming) : w ∈ q.coming := by
  have hc : ∀ (l : List SeqWrite) (q : Seq), (l.foldl (fun q w => q.put w.dst w.val) q).coming = q.coming := by
    intro l
    induction l with
    | nil => intro q; rfl
    | cons x t ih =>
      intro q
      rw [List.foldl_cons, ih]
      cases x.dst <;> simp only [Seq.put] <;> (try split) <;> rfl
  simp only [Seq.settle, hc] at h
  exact (List.mem_filter.mp h).1

theorem Seq.settle_sreg (q : Seq) (n : Nat) {r : BitVec 5} (h : q.clearOf (.sreg r)) :
    (q.settle n).sregs.getD r.toNat 0#32 = q.sregs.getD r.toNat 0#32 := by
  simp only [Seq.settle]
  rw [Seq.foldl_put_sreg _ _ fun w hw => h w (List.mem_filter.mp hw).1]

theorem Seq.settle_pred (q : Seq) (n : Nat) {p : BitVec 3} (h : q.clearOf (.pred p)) :
    (q.settle n).preds.getLsbD p.toNat = q.preds.getLsbD p.toNat := by
  simp only [Seq.settle]
  rw [Seq.foldl_put_pred _ _ fun w hw => h w (List.mem_filter.mp hw).1]

theorem Seq.settle_length (q : Seq) (n : Nat) : (q.settle n).sregs.length = q.sregs.length := by
  simp only [Seq.settle, Seq.foldl_put_length]

theorem Seq.settle_clearOf (q : Seq) (n : Nat) {d : SeqDst} (h : q.clearOf d) : (q.settle n).clearOf d :=
  fun w hw => h w (Seq.settle_coming_subset q n hw)

/-- A sequencer with one more result on its way, read at a cycle: the new value from its cycle on. -/
theorem Seq.settle_place_sreg (q : Seq) (rd : BitVec 5) (v : Word) (due n : Nat) (hr : rd ≠ 0#5)
    (hl : q.sregs.length = 32) (hc : q.clearOf (.sreg rd)) :
    (Seq.settle { q with coming := SeqWrite.place ⟨.sreg rd, v, due⟩ q.coming } n).sregs.getD rd.toNat 0#32 =
      if due ≤ n then v else q.sregs.getD rd.toNat 0#32 := by
  obtain ⟨l1, l2, h1, h2⟩ := SeqWrite.place_split ⟨.sreg rd, v, due⟩ q.coming
  have f1 : ∀ w ∈ l1.filter (fun w => decide (w.due ≤ n)), w.dst ≠ .sreg rd :=
    fun w hw => hc w (by rw [h1]; exact List.mem_append_left _ (List.mem_filter.mp hw).1)
  have f2 : ∀ w ∈ l2.filter (fun w => decide (w.due ≤ n)), w.dst ≠ .sreg rd :=
    fun w hw => hc w (by rw [h1]; exact List.mem_append_right _ (List.mem_filter.mp hw).1)
  simp only [Seq.settle, h2, List.filter_append, List.foldl_append, List.filter_cons]
  by_cases hd : due ≤ n
  · simp only [hd, decide_true, if_true, List.foldl_cons]
    rw [Seq.foldl_put_sreg _ _ f2]
    exact Seq.put_sreg_self _ hr (by rw [Seq.foldl_put_length]; exact hl)
  · simp only [hd, decide_false, Bool.false_eq_true, if_false]
    rw [Seq.foldl_put_sreg _ _ f2, Seq.foldl_put_sreg _ _ f1]

/-- A scalar result is read from its contract cycle on, and the previous value before it. -/
theorem Core.result_sreg (k k' : Ctx) (c : Core) (rd : BitVec 5) (v : Word) (lat : Nat)
    (hl : c.seq.sregs.length = 32) (hc : c.seq.clearOf (.sreg rd)) :
    (c.result k (.sreg rd) v lat).sreg k' rd =
      if rd = 0#5 then 0#32 else if k.clock + lat ≤ k'.clock then v else c.sreg k' rd := by
  simp only [Core.sreg]
  split
  · rfl
  · next hr =>
    have h := Seq.settle_place_sreg (c.seq.settle k.clock) rd v (k.clock + lat) k'.clock hr
      (by rw [Seq.settle_length, hl]) (Seq.settle_clearOf _ _ hc)
    rw [Seq.settle_sreg _ _ hc] at h ⊢
    exact h

end Sys2Proof.Machine
end

