-- ==== Sys2Proof/Tests/Slice0.lean ====
section
/-! SUPPORT. Tests: terms that each check of WellFormed refuses, slots and published vectors decoded from the manual's
words, single commands on small states, and for each statement with hypotheses states and operands that meet them. -/

set_option Elab.async false

namespace Sys2Proof.Tests

open Sys2Proof.Machine

/-! ## Helpers -/

/-- The canonical form as a check that evaluates. -/
def canonCheck (s : State) : Bool :=
  s.cores.all (fun c => Memory.wf c.mem && Sparse.wf coreReset c.regs && Sparse.wf coreReset c.shadow) &&
    Memory.wf s.hbm && Sparse.wf globReset s.gregs && Sparse.wf globReset s.gshadow && Memory.wf s.svc.buffers &&
    Memory.wf s.svc.cpBuf

theorem canon_of {s : State} (h : canonCheck s = true) : s.canonical := by
  simp only [canonCheck, Bool.and_eq_true, Vector.all_eq_true] at h
  obtain ⟨⟨⟨⟨⟨hc, h1⟩, h2⟩, h3⟩, h4⟩, h5⟩ := h
  refine ⟨fun c => ?_, h1, h2, h3, h4, h5⟩
  have := hc c.val c.isLt
  exact ⟨this.1.1, this.1.2, this.2⟩

/-- The state after reset, and one with the module's clock running. -/
def s0 : State := State.reset
def site : Site := ⟨0, 4#13, none⟩

theorem canon_s0 : s0.canonical := canon_of (by decide +kernel)

/-- A state with a global register or core 0 changed. -/
def greg (s : State) (l : List (Nat × Word)) : State := l.foldl (fun s r => s.setGreg r.1 r.2) s
def core0 (s : State) (f : Core → Core) : State := s.setCore 0 (f (s.core 0))
def regs (l : List (Nat × Word)) (c : Core) : Core := l.foldl (fun c r => c.setReg r.1 r.2) c

theorem admits_of {s : State} {h : MboxHdr} {role : Nat} {names free : Bool}
    (c : (s.power.phase ≠ .off ∧ s.power.phase ≠ .standby) ∧ (∀ n ∈ mboxBox h, s.svc.running.getD n none = none) ∧
      s.mboxCheck h role names free = none ∧
        (role = 0 ∨ s.sec.logBad = false ∧ h.logFails = false)) : s.admits h role names free :=
  ⟨c.1.1, c.1.2, fun n hn => c.2.1 n hn, c.2.2.1, c.2.2.2⟩

/-! ## WellFormed -/

def badHdr : MboxHdr := ⟨0#8, false, 0#32, 0#32, 0#32, 0#32, 0#32, false, [], false, false⟩
def hdr0 : MboxHdr := ⟨0#8, false, 0#32, 7#32, 0#32, 0#32, 0#32, false, List.replicate 24 0#8, false, false⟩
def va0 : VaOp := ⟨false, 0#3, false, 1#2, 0#9, 0#9, 0#9⟩
def vr0 : VrOp := ⟨false, 0#3, false, 1#2, 0#3, 0#6, 0#9, 0#9⟩
def tm0 : TMulOp := ⟨0#2, 5#4, 5#4, 0#11, 0#2, false, false, 0#4, 0#5, 0#15⟩
def tl0 : TLoadOp := ⟨4#4, 5#4, 15#4, 0#6, false, 0#5, 0#5, 0#15⟩
def ms0 : MScoreOp := ⟨0#5, true, false, false, 0#3, 0#5, 0#9⟩
def find0 : StartFindings := ⟨[true, false], [], 0#32, [], []⟩

/-- One term for each check of WellFormed; the check refuses it. -/
theorem test_ill_formed_refused : ([.pcmp site 0#3 6#3 0#5 0#5, .pcmpi site 0#3 6#3 0#5 0#12, .tload site { tl0 with lay := 0#4 },
    .tload site { tl0 with slot := 1#6 }, .tload site { tl0 with er := 1#5 }, .tload site { tl0 with lay := 5#4, slot := 51#6 },
    .tmul site { tm0 with wfmt := 0#4 } 15#4, .tmul site { tm0 with wfmt := 10#4 } 15#4, .tmul site { tm0 with cfg := 1#2 } 15#4,
    .tmul site tm0 0#4, .tmulr site { tm0 with cfg := 2#2 } false 0#3, .tprint site ⟨0#4, 0#6, false, 1#3, 0#5, 0#15⟩,
    .vabs site { va0 with vb := 1#9 }, .vfma site va0, .vrcp site va0, .vshl site { va0 with sty := 0#2 },
    .vcvtf site { va0 with sty := 0#2 }, .vand site { va0 with sty := 2#2 }, .vnot site { va0 with vb := 1#9 },
    .vcmp site ⟨false, 0#3, false, 1#2, 6#3, 0#3, 0#9, 0#9⟩, .vcvtw site ⟨false, 0#3, false, 0#4, 0#9, 0#11⟩,
    .vred site { vr0 with nm1 := 1#6 }, .vred site { vr0 with rop := 3#3 }, .vrax site vr0,
    .vrax site { vr0 with nm1 := 2#6, va := 510#9 }, .vld site ⟨false, 0#3, 0#5, 1#8, 2047#11, 0#7⟩,
    .vldv site ⟨false, 0#3, false, 3#2, 0#3, 0#5, 0#11, 0#9⟩, .xeCopy site ⟨24#5, 0#5, 0#5, 0#5⟩, .uupd site 0#4 5#3,
    .urow site 0#4 0#5 0#12, .mdodge site ⟨0#5, true, 0#5, 1#16⟩, .mburn site ⟨0#5, false, 1#5, 0#16⟩,
    .mscore site { ms0 with gf := true }, .mremap site 0#5 51#6, .dataFlit 0#4 ⟨[], 0⟩,
    .loopi { site with guard := some ⟨1#3, false⟩ } 0#2 0#9 1#12, .end_ { site with guard := some ⟨0#3, true⟩ },
    .keyFlit 0#4 (.handshake [] 0#32 [] [] []), .canaryMeasurement [[]], .startupReady { find0 with slotOk := [true] },
    .startupReady { find0 with sweeps := [[0]] }, .challenge 0#8 [], .healthRead badHdr] : List Instr).all
      (fun i => !i.wellFormed) = true := by decide +kernel

/-- Terms at the edge of the same checks are well formed. -/
theorem test_well_formed_edges : ([.pcmp site 0#3 5#3 0#5 0#5, .tload site tl0, .tload site { tl0 with lay := 5#4, slot := 50#6 },
    .tmul site tm0 15#4, .vabs site va0, .vred site vr0, .vrax site { vr0 with nm1 := 1#6, va := 510#9 },
    .vld site ⟨false, 0#3, 0#5, 0#8, 2047#11, 0#7⟩, .xeCopy site ⟨23#5, 0#5, 0#5, 0#5⟩, .uupd site 0#4 4#3,
    .urow site 0#4 0#5 1#12, .mscore site ms0, .mremap site 0#5 50#6, .healthRead hdr0, .startupReady find0] : List Instr).all
      (·.wellFormed) = true := by decide +kernel

/-! ## Slots and vectors of the manual -/

/-- R262: the manual's TMUL word. -/
theorem test_tmul_word : teSlot site 0x5199BFF642A000 = some (some (.tmul site
    ⟨2#2, 3#4, 3#4, 1023#11, 1#2, true, false, 4#4, 5#5, 0x2000#15⟩ 3#4)) := by decide +kernel

/-- R263: the manual's VFMA word, for either VE. -/
theorem test_vfma_word : veSlot true site 0x11000C0202 = some (some (.vfma site ⟨true, 2#3, false, 0#2, 3#9, 1#9, 2#9⟩)) := by
  decide +kernel

/-- FIPS 180-4: SHA-384 of "abc", its first and last bytes. -/
theorem test_sha384_abc : let d := sha384 [0x61#8, 0x62#8, 0x63#8]
    d.take 8 = [0xCB#8, 0#8, 0x75#8, 0x3F#8, 0x45#8, 0xA3#8, 0x5E#8, 0x8B#8] ∧ d.drop 44 = [0x34#8, 0xC8#8, 0x25#8, 0xA7#8] := by
  decide +kernel

/-! ## States that meet the hypotheses of the statements -/

def b0 : Site := ⟨3, 9#13, none⟩

theorem test_witness_StepRunsFrontCommand : ({ s0 with pending := [.pcieReplay, .help] } : State).pending = .pcieReplay :: [.help] ∧
    s0.pending = [] := by decide +kernel

theorem test_witness_StepKeepsCanonical : s0.canonical ∧ step s0 = .next s0 ∧
    ({ s0 with pending := [.shtFnLoRead] } : State).canonical ∧ ∃ t, step { s0 with pending := [.shtFnLoRead] } = .next t :=
  ⟨canon_s0, rfl, canon_of (by decide +kernel), _, rfl⟩

theorem test_witness_StepKeepsShape : s0.shaped ∧ ∃ t, step { s0 with pending := [.shtFnLoRead] } = .next t := by
  refine ⟨?_, _, rfl⟩
  unfold State.shaped Core.shaped Seq.shaped
  decide +kernel

/-- A frame runs on core `c`, in line for bundle `b` from cycle 20 on. -/
def runAt (s : State) (c : CoreId) (b : Nat) : State :=
  s.setCore c { s.core c with frame := { (s.core c).frame with live := true }, seq := { (s.core c).seq with prev := b - 1, nextAt := 20 } }
def s1 : State := runAt s0 0 4
/-- Scalar registers 1 and 31 and p7 as operands and destinations, on the last core's last bundle. -/
def a1 : Site := ⟨143, 8191#13, none⟩
def sEnd : State := runAt s0 143 8191
theorem test_witness_ScalarResults : (sEnd.core 143).seq.shaped ∧ (sEnd.core 143).seq.clearOf (.sreg 31#5) ∧
    (sEnd.core 143).seq.clearOf (.sreg 0#5) ∧ ∀ i ∈ [Instr.mul a1 ⟨31#5, 1#5, 2#5⟩, .addi a1 ⟨0#5, 1#5, 8191#13⟩,
      .lih a1 31#5 0xFFFF#16, .movlc a1 31#5 3#2], sEnd.issues a1 i 20 := by
  unfold State.issues State.reaches Seq.shaped Seq.clearOf; decide +kernel

theorem test_witness_PredicateResults : sEnd.issues a1 (.pcmp a1 7#3 5#3 1#5 2#5) 20 ∧ (5#3 : BitVec 3).toNat ≤ 5 ∧
    (sEnd.core 143).seq.clearOf (.pred 7#3) ∧ (sEnd.core 143).seq.clearOf (.pred 0#3) := by
  unfold State.issues State.reaches Seq.clearOf; decide +kernel

theorem test_witness_ScalarFrame : (s1.core 0).seq.shaped ∧ (⟨31#5, 1#5, 8191#13⟩ : SqI13).rd = 31#5 ∧
    ∀ i ∈ [Instr.mul site ⟨31#5, 1#5, 2#5⟩, .addi site ⟨31#5, 1#5, 8191#13⟩, .lih site 31#5 0xFFFF#16, .pcmp site 7#3 0#3 1#5 2#5],
      s1.reaches site i 20 ∧ (s0.core 0).issueCycle site i = none ∧ ∃ t, exec i s1 = .next t := by
  refine ⟨?_, rfl, ?_⟩
  · unfold Seq.shaped; decide +kernel
  · intro i h
    simp only [List.mem_cons, List.not_mem_nil, or_false] at h
    rcases h with rfl | rfl | rfl | rfl <;> refine ⟨?_, ?_, _, rfl⟩ <;> (try unfold State.reaches) <;> decide +kernel

/-- A program with SPRE s3 = 4 and s5 = 9, so that LOOPR clamps; one at the end of an iteration of a loop, the first of two or the
last; one whose counter 15 holds 2, and that waits for 2 at it. -/
def loop2 (iter : Nat) : LoopFrame := ⟨2#2, 5, 6, iter, 2, 2, false⟩
def sSpre : State := core0 s1 fun c => { c with seq := { c.seq with spre := c.seq.spre.set 3 4#32, sregs := c.seq.sregs.set 5 9#32 } }
def sLoop (iter : Nat) : State := core0 s1 fun c => { c with seq := { c.seq with loops := [loop2 iter], prev := 6 } }
def wait0 : Waiting := ⟨15#4, 2#32, 0, 0⟩
def sWait : State := core0 s1 fun c => regs [(0x20FC, 2#32)] { c with seq := { c.seq with waiting := some wait0 } }
theorem test_witness_LoopsAndWaits : ((sSpre.core 0).canonical ∧ (sSpre.core 0).seq.lc.length = 4 ∧
      4 < ((sSpre.core 0).sreg (sSpre.ctxAt 0 20) 5#5).toNat ∧
      ∀ i ∈ [Instr.loopi site 2#2 0#9 0#12, .loopi site 2#2 511#9 4095#12, .loopr site 2#2 1#9 5#5 3#5], sSpre.issues site i 20) ∧
    (∀ r ∈ [(0, 5#13), (1, 7#13)], ((sLoop r.1).core 0).seq.lc.length = 4 ∧ ((sLoop r.1).core 0).seq.loops = [loop2 r.1] ∧
      ((sLoop r.1).core 0).seq.prev = (loop2 r.1).last ∧ 1 ≤ (loop2 r.1).first ∧
      (sLoop r.1).reaches ⟨0, r.2, none⟩ (.movlc ⟨0, r.2, none⟩ 1#5 2#2) 20) ∧
    (∀ i ∈ [Instr.waitx site 15#4 (.imm 0#16), .waitx site 15#4 (.imm 3#16)], s1.issues site i 20) ∧ (s1.core 0).canonical ∧ (sWait.core 0).canonical ∧
    (sWait.core 0).seq.waiting = some wait0 ∧ (∀ d ∈ (sWait.core 0).allDues, sWait.clock < d.1) ∧
    2 ≤ ((sWait.core 0).reg (0x20C0 + 4 * 15)).toNat := by
  unfold State.issues State.reaches Core.canonical; decide +kernel

theorem test_witness_CarryStopSignalOverride : (let s := core0 s1 (regs [(0x2020, 1#32), (0x2008, 0x80000000#32)])
    (∀ i ∈ [Instr.commit site, .scarry site 7#3 0#5, .sqStop site 5#16], s.issues site i 20) ∧ (s.core 0).canonical ∧
      (s.core 0).rf 0x2020 0 0 = 1 ∧ (s.core 0).rf 0x2008 31 31 = 1) ∧
    (∀ i ∈ [Instr.commit site, .scarry site 7#3 0#5, .sqStop site 5#16, .signal site 15#4 0#5, .dovr site 3#2 true 0#5],
      s1.issues site i 20) ∧ (s1.core 0).canonical ∧ (s1.core 0).seq.shaped ∧ (s1.core 0).seq.clearOf (.ovr 3#2 true) ∧
    (s1.core 0).rf 0x2020 0 0 = 0 ∧ (s1.core 0).rf 0x2008 31 31 = 0 := by
  unfold State.issues State.reaches Core.canonical Seq.shaped Seq.clearOf; decide +kernel

theorem test_witness_OperandCacheWords : (∀ i ∈ [Instr.sst site 31#5 ⟨true, 2047#11, 15#4⟩, .sld site 31#5 ⟨true, 2047#11, 15#4⟩ false],
      s1.issues site i 20) ∧ (s1.core 0).canonical ∧ (s1.core 0).seq.shaped ∧
    (s1.core 0).missing [0x580000 + 64 * 2047] [] = [] ∧ (s1.core 0).seq.clearOf (.sreg 31#5) := by
  unfold State.issues State.reaches Core.canonical Seq.shaped Seq.clearOf; decide +kernel

/-- A frame whose next bundle's line misses its CRC, replayable or not; the same at the frame's entry. -/
def sMiss (r : Bool) (slot : Nat) : State := core0 s1 fun c => { c with
  frame := { c.frame with replayable := r }, seq := { c.seq with slot := slot }, integ := { c.integ with bad := [0x500080] } }
theorem test_witness_EndAndFetchTrap : (s1.core 0).canonical ∧ s1.reaches site (.end_ site) 20 ∧ (s1.core 0).inflight = [] ∧
    (∀ ch ∈ (s1.core 0).dma, ch.inflight = []) ∧ (s0.core 0).trapCycle 4 = none ∧
    ∀ r, ∀ n ∈ [0, 7], ((sMiss r n).core 0).canonical ∧ ((sMiss r n).core 0).frame.aborted = false ∧
      ((sMiss r n).core 0).trapCycle 4 = some 20 ∧ ((sMiss r n).core 0).allDues.length = 0 ∧
      ((sMiss r n).core 0).canReplay ((sMiss r n).ctxAt 0 20) = r := by
  unfold State.reaches Core.canonical; decide +kernel

theorem test_witness_SuppressedSequencerDoesNothing : (let a : Site := { site with guard := some ⟨0#3, true⟩ }
    s1.reaches a (.commit a) 20 ∧ s1.suppresses a (.commit a) 20 = true) ∧ s1.suppresses site (.commit site) 20 = false := by
  unfold State.reaches; decide +kernel

/-- A kind 4 transfer of the last descriptor on channel 3, with override of both sides, whose values lie at the last byte of their
spans. -/
def sOvr : State := core0 s1 fun c =>
  { c with mem := Memory.write c.mem 0x51FFE0 [0xC4#8], seq := { c.seq with ovr := [0#32, 0#32, 0#32, 0#32, 0#32, 0#32, 63#32, 4095#32] } }
def sOvr2 : State := core0 sOvr fun c => { c with mem := Memory.write c.mem 0x51FFFC [1#8, 0#8, 1#8, 0#8] }
theorem test_witness_StartJoinsChannel : (sOvr2.core 0).canonical ∧ (sOvr2.core 0).dma.length = 4 ∧
    (sOvr2.core 0).missing [(0x500000 + 32 * 4095) / 64 * 64] [] = [] ∧ (sOvr2.core 0).rf (0x2200 + 32 * 3) 5 5 = 0 ∧
    (sOvr2.core 0).sameIssue 4#13 6 = false ∧
    (let d := descOf (Memory.read (sOvr2.core 0).mem (0x500000 + 32 * 4095) 32)
    d.ovrL = true ∧ d.ovrR = true ∧ ((sOvr2.core 0).override (sOvr2.ctxAt 0 20) 3#2 false).toNat < d.lspan ∧
        ((sOvr2.core 0).override (sOvr2.ctxAt 0 20) 3#2 true).toNat < d.rspan) ∧
    ∀ i ∈ [Instr.dmaStart site 3#2 4095#12 false, .dmaStartOvr site 3#2 4095#12 false], sOvr2.issues site i 20 := by
  unfold State.issues State.reaches Core.canonical; decide +kernel

/-- A channel whose oldest descriptor moves one piece from HBM to the top of bank 7, and one whose oldest is suppressed. -/
def fate0 : Fate := ⟨[], [], false⟩
def op1 (supp : Bool) (due : Nat) : DmaOp :=
  ⟨5, 1#13, supp, 0, due, [⟨.hbm 64, .here 0x3FFFC0, List.replicate 64 1#8⟩], 0#16, none, [], false, 0, 0, fate0⟩
def sDma (supp : Bool) : State := core0 s0 fun c => { c with dma := c.dma.set 3 ⟨[op1 supp 1202, op1 true 1300], 9⟩ }
theorem test_witness_DescriptorCompletes : ∀ b, (let s := sDma b
    (s.core 0).canonical ∧ (s.core 0).dma.length = 4 ∧ (s.core 0).dma.getD 3 DmaCh.reset = ⟨op1 b 1202 :: [op1 true 1300], 9⟩ ∧
      (s.core 0).onlyDue (op1 b 1202).dueNow (.dma 3) ∧ (∀ p ∈ [op1 true 1300].head?, (op1 b 1202).dueNow < p.dueNow) ∧
      (op1 b 1202).supp = b ∧ (op1 b 1202).code = 0#16 ∧ (s.core 0).rf (0x2200 + 32 * 3) 5 5 = 0 ∧
      (s.core 0).denies 0 true 0x3FFFC0 = false) ∧
    (sDma false).kvBounds ((sDma false).entryOf 0) 64 64 = [] ∧ (sDma false).landingHbm 64 64 = [] := by
  unfold Core.canonical Core.onlyDue; decide +kernel

theorem test_witness_TloadFillsStandby : ∀ o ∈ [(⟨2#4, 3#4, 15#4, 0#6, false, 0#5, 0#5, 0x7F00#15⟩ : TLoadOp),
      ⟨5#4, 3#4, 0#4, 50#6, true, 0#5, 0#5, 0#15⟩],
    (let base := o.abase.toNat * 128
     let addr := (base + ((s1.core 0).sreg (s1.ctxAt 0 20) o.ar).toNat / 128 * 128) % 2 ^ 32
     let len := bodyLen o.lay.toNat o.wfmt.toNat (o.qm1.toNat + 1)
     addr / 0x80000 = base / 0x80000 ∧ (addr + len - 1) / 0x80000 = base / 0x80000) ∧ s1.issues site (.tload site o) 20 := by
  unfold State.issues State.reaches; decide +kernel

/-- A standby buffer loaded with a dense tile, and one with a grain tile of capacity 16, with the bottom 8 rows predicted. -/
def sTe (lay q : Nat) : State := core0 s1 fun c => regs [(0x7C00, 16#32)]
  { c with te := { c.te with loaded := true, standby := ⟨some ⟨lay, 3, q⟩, [], [], 0⟩ } }
def tmG : TMulOp := ⟨2#2, 3#4, 3#4, 1023#11, 0#2, true, true, 8#4, 0#5, 0#15⟩
def tmD : TMulOp := ⟨0#2, 3#4, 3#4, 0#11, 3#2, false, false, 15#4, 0#5, 0x7FFF#15⟩
theorem test_witness_ProductClaimsTiles : (let s := sTe 5 16
    let c := s.core 0
    c.canonical ∧ c.te.owners.length = 16 ∧ ∀ r ∈ [(Instr.tmul site tmG 15#4, Product.mk tmG 16 16 none none),
        (.tmulr site tmG true 7#3, ⟨tmG, c.rf 0x7C00 7 1 / 8, 16, none, some RowSet.reset⟩)],
      c.claimed r.2.tiles (c.chained r.2) = none ∧ r.2.tagOk c.te.standby.tag = true ∧
        (128 * ((r.2.n * unitBytes 3 + 127) / 128) - 1) / 0x80000 = 0 ∧ s.issues site r.1 20) ∧
    let s := sTe 2 16
    let p : Product := ⟨tmD, 16, 16, none, none⟩
    (s.core 0).canonical ∧ (s.core 0).claimed p.tiles ((s.core 0).chained p) = none ∧
      p.tagOk (s.core 0).te.standby.tag = true ∧ s.issues site (.tmul site tmD 15#4) 20 := by
  unfold State.issues State.reaches Core.canonical; decide +kernel

def tp0 : TPrintOp := ⟨15#4, 63#6, false, 0#3, 0#5, 0x7E00#15⟩
theorem test_witness_TprintClaimsTile : s1.issues site (.tprint site tp0) 20 ∧ (s1.core 0).te.owners.length = 16 ∧
    (s1.core 0).te.owners.getD 15 none = none ∧ (let len := printLen ((s1.core 0).printDesc 63).ofmt
      (0x7E00 * 128 + len - 1) / 0x80000 = 0x7E00 * 128 / 0x80000) := by unfold State.issues State.reaches; decide +kernel

/-- Tile 15 is owned by the instruction of bundle 2. -/
def sOwn : State := core0 s1 fun c =>
  regs [(0x5400, 0x10000000#32), (0x5408, 0xF00#32)] { c with te := { c.te with owners := c.te.owners.set 15 (some (0, 2#13)) } }
def xr0 : XrunOp := ⟨0#5, 0#5, 0#5, 0#5⟩
theorem test_witness_DoubleClaimAborts : let s := sOwn
    let o : TMulOp := { tm0 with nm1 := 255#11, t0 := 14#4 }
    let p : Product := ⟨o, 16, 16, none, none⟩
    (s.core 0).canonical ∧ (s.core 0).frame.aborted = false ∧ (s.core 0).rf 0x3010 31 31 = 0 ∧
      (s.core 0).claimed p.tiles ((s.core 0).chained p) = some (15, 2#13) ∧
      (s.core 0).claimed [15] none = some (15, 2#13) ∧ ((s.core 0).xdesc 0).op = 4 ∧ ((s.core 0).xdesc 0).at0 = 15 ∧
      ∀ i ∈ [Instr.tmul site o 15#4, .tprint site tp0, .xeScatterAdd site xr0], s.issues site i 20 := by
  unfold State.issues State.reaches Core.canonical; decide +kernel

/-- R122, of SCATTER_ADD. -/
theorem test_scatterAdd_claims : (match exec (.xeScatterAdd site xr0) sOwn with
    | .next t => decide ((t.core 0).frame.faultCode = 0x0202#16) && decide ((t.core 0).rf 0x5200 31 16 = 0x0202)
    | _ => false) = true := by decide +kernel

theorem test_witness_LaneArithmetic : va0.sty = 1#2 ∧ ({ va0 with sty := 3#2 } : VaOp).sty ≠ 1#2 ∧
    ∀ i ∈ [Instr.vadd site va0, .vcvtf site va0, .vand site va0, .vfma site { va0 with sty := 3#2 }, .vdiv site { va0 with sty := 0#2 }],
      s1.issues site i 20 := by
  unfold State.issues State.reaches; decide +kernel

def vm0 : VcmpOp := ⟨true, 7#3, true, 1#2, 5#3, 7#3, 511#9, 0#9⟩
theorem test_witness_LaneMasksAndControls : vm0.sty = 1#2 ∧ ∀ i ∈ [Instr.vcmp site vm0, .vmlane site true 5#6 4#6 7#3,
    .vmsr site true 31#5 true 7#3, .vspl site true 7#3 true 31#5 511#9, .vscl site true true true 255#8 128#8], s1.issues site i 20 := by
  unfold State.issues State.reaches; decide +kernel

def vo0 : VaccOp := ⟨true, 7#3, false, 511#9, 15#4, 127#7, true, 0#5⟩
theorem test_witness_ReductionsAndTileReads : (vr0.sty = 1#2 ∧ vr0.rop = 0#3) ∧
    (let row := vo0.row.toNat + ((s1.core 0).sreg (s1.ctxAt 0 20) vo0.rr).toNat
     row < 128 ∧ ∀ i, i < 4 → (s1.core 0).denies 5 false (0x400000 + 15 * 0x10000 + 512 * row + 256 + 64 * i) = false) ∧
    ∀ i ∈ [Instr.vred site vr0, .vrax site { vr0 with nm1 := 63#6 }, .vacc site vo0], s1.issues site i 20 := by
  unfold State.issues State.reaches; decide +kernel

def vb0 : VbOp := ⟨true, 7#3, 0#5, 255#8, 2047#11, 127#7⟩
def vv0 : VvOp := ⟨true, 7#3, false, 0#2, 7#3, 0#5, 2047#11, 511#9⟩
theorem test_witness_MovesAndConversions : (let base := vb0.bank.toNat * 0x80000 + vb0.ofs.toNat * 128
     let addr := (base + ((s1.core 0).sreg (s1.ctxAt 0 20) vb0.ar).toNat / 128 * 128) % 2 ^ 32
     addr / 0x80000 = base / 0x80000 ∧ (addr + 64 * 256 - 1) / 0x80000 = base / 0x80000) ∧
    (let base := vv0.bank.toNat * 0x80000 + vv0.ofs.toNat * 64
     let addr := (base + ((s1.core 0).sreg (s1.ctxAt 0 20) vv0.ar).toNat / 4 * 4) % 2 ^ 32
     addr / 0x80000 = base / 0x80000 ∧ (addr + 64 * 4 - 1) / 0x80000 = base / 0x80000) ∧
    ∀ i ∈ [Instr.vld site vb0, .vst site vb0, .vldv site vv0, .vstv site vv0, .vcvtn site ⟨true, 7#3, false, 5#4, 511#9, 0#11⟩],
      s1.issues site i 20 := by
  unfold State.issues State.reaches; decide +kernel

/-- Descriptor 23 asks for operation `op` over tiles 14 and 15. -/
def sXe (op : Nat) : State := core0 s1 (regs [(0x5400 + 128 * 23, BitVec.ofNat 32 (op * 2 ^ 26)), (0x5408 + 128 * 23, 0x1E00#32)])
theorem test_witness_XrunIssues : ∀ op, op < 5 → (let s := sXe op
    (s.core 0).canonical ∧ (s.core 0).te.owners.length = 16 ∧ ((s.core 0).xdesc 23).op = op ∧
      ((s.core 0).xdesc 23).op ≠ (op + 1) % 5 ∧ ((s.core 0).xdesc 23).at0 = 14 ∧
      (∀ i ∈ [14, 15], (s.core 0).te.owners.getD i none = none) ∧
      ∀ i ∈ [Instr.xeCopy site ⟨23#5, 0#5, 0#5, 0#5⟩, .xeScatterAdd site ⟨23#5, 0#5, 0#5, 0#5⟩], s.issues site i 20) := by
  unfold State.issues State.reaches Core.canonical; decide +kernel

/-- A bank whose bytes are zero holds a sound group; descriptor 15's filter list held 32 ids at most. -/
def sFilt : State := core0 s1 fun c => { c with filtMax := c.filtMax.set 15 32, seq := { c.seq with sregs := c.seq.sregs.set 1 32768#32 } }
theorem test_witness_UpdateControls : (sFilt.core 0).canonical ∧
    (let k := sFilt.ctxAt 0 20
    groupOk ((sFilt.core 0).readE k 6 (7 * 0x80000) (groupBytes ((sFilt.core 0).readE k 6 (7 * 0x80000) 128).1)).1 = true ∧
      ((sFilt.core 0).sreg k 1#5).toNat ≤ 1024 * 32) ∧
    (7 * 0x80000 + 1152 - 1) / 0x80000 = 7 ∧ (7 * 0x80000 + 4 * 32 - 1) / 0x80000 = 7 ∧
    (7 * 0x80000 + 4 * (1024 * 32) - 1) / 0x80000 = 7 ∧
    ∀ i ∈ [Instr.uadv site, .ugfac site 15#4 7#3 0#5 0#12, .uflist site 15#4 7#3 0#5, .ufilt site 15#4 7#3 0#5 0#5 1#5 31#5],
      sFilt.issues site i 20 := by unfold State.issues State.reaches Core.canonical; decide +kernel

/-- A factor set of a rule, and descriptor 15 over 16 elements at the end of a bank. -/
def fset (rule : Nat) : FactorSet := (factorSet false (BitVec.ofNat 8 rule :: List.replicate 1151 0#8) 0).1
def sUpd (f : Option FactorSet) : State := core0 s1 fun c => regs ((0x67D4, 16#32) ::
  [0x67C0, 0x67C4, 0x67C8, 0x67CC, 0x67D0, 0x67D8, 0x67DC, 0x67E0].map fun r => (r, 0x7FF00#32)) { c with factors := c.factors.set 0 f }
theorem test_witness_UpdatePasses : (((sUpd none).core 0).canonical ∧ ((sUpd none).core 0).factors.getD 0 none = none ∧
      (sUpd none).issues site (.uupd site 15#4 0#3) 20 ∧ (sUpd none).issues site (.urow site 15#4 0#5 1#12) 20) ∧
    ∀ rule, rule < 4 → (let s := sUpd (some (fset rule))
      let d := (s.core 0).udesc 15
      let f := fset rule
      (s.core 0).canonical ∧ (s.core 0).factors.getD d.fs none = some f ∧ passAllowed f.rule 4 = decide (rule = 3) ∧
        passAllowed f.rule (if rule < 2 then 0 else 2) = true ∧ ¬(f.rule = 3 ∧ (d.sparse = true ∨ d.rowMode = true)) ∧
        (∀ r ∈ d.passReads f (if rule < 2 then 0 else 2) ++ d.passWrites f (if rule < 2 then 0 else 2), oneBank r = true) ∧
        (f.rule < 2 → inBank d.w d.w (rowLayout f (d.n % 8192)).2.2.2 = true ∧ inBank d.grad d.grad 64 = true)) := by
  unfold State.issues State.reaches Core.canonical; decide +kernel

theorem test_witness_UpdatePasses_issue : ∀ rule, rule < 4 → ∀ i ∈ [Instr.uupd site 15#4 0#3, .uupd site 15#4 2#3, .urow site 15#4 0#5 1#12],
    (sUpd (some (fset rule))).issues site i 20 := by
  unfold State.issues State.reaches; decide +kernel

/-- An empty grain tile of capacity 1 in format 3 at the core's first bank passes the checks of its header; the score stage
holds its scores, or nothing; with another capacity in the header the tile fails. -/
def sTile (staged : Bool) (q : Byte) : State := core0 s1 fun c =>
  regs [(0x7404, 0x30#32)] { c with mem := Memory.write c.mem 6 [q, 3#8], stage := { c.stage with valid := staged } }
theorem sheetActive_zero (n r c : Nat) : sheetActive (List.replicate n 0#8) r c = false := by
  have h : ∀ i, (List.replicate n (0#8 : Byte)).getD i 0#8 = 0#8 := by
    intro i; simp [List.getD, List.getElem?_replicate]; split <;> rfl
  simp only [sheetActive, natAt, bytesAt, h]
  simp [List.range_succ, leNat]

theorem sheetCount_zero (n : Nat) : sheetCount (List.replicate n 0#8) = 0 := by
  have h : rowCount (List.replicate n 0#8) = fun _ => 0 := by funext r; simp [rowCount, sheetActive_zero]
  rw [sheetCount, h]
  decide +kernel

theorem activeList_zero (n : Nat) : activeList (List.replicate n 0#8) = [] := by simp [activeList, sheetActive_zero]

/-- The check of a tile whose sheet is empty. -/
theorem maskCheck_zero (c : Core) (d : MDesc) (h : TileHeader) (sheet : List Byte) (n : Nat) (hs : sheet = List.replicate n 0#8) :
    c.maskCheck d h sheet = if h.cap ≠ d.q || h.fmt ≠ d.fmt then some 0x0208#16
      else if h.nnz ≠ 0 || h.cap * 1024 < h.nnz then some 0x0208#16
      else if h.slot ≠ d.slot then some 0x0208#16
      else if h.epoch ≠ c.slotTag d.slot then some 0x0205#16 else none := by
  subst hs
  simp only [Core.maskCheck, sheetCount_zero]

theorem sTile_sheet : (((sTile true 1#8).core 0).tileView ((sTile true 1#8).ctxAt 0 20) (((sTile true 1#8).core 0).mdesc 0)).1.sheet =
    List.replicate 2560 0#8 := by decide +kernel

theorem sTile2_sheet : (((sTile false 2#8).core 0).tileView ((sTile false 2#8).ctxAt 0 20) (((sTile false 2#8).core 0).mdesc 0)).1.sheet =
    List.replicate 2560 0#8 := by decide +kernel

def me0 : MEditOp := ⟨0#5, false, 0#5, 1023#16⟩
theorem test_witness_MaskEdits : (let s := sTile true 1#8
    let d := (s.core 0).mdesc 0
    let t := ((s.core 0).tileView (s.ctxAt 0 20) d).1
    (∀ i ∈ [Instr.mdodge site me0, .mburn site me0, .mrefresh site me0], s.issues site i 20) ∧
      (s.core 0).maskCheck d t.h t.sheet = none ∧ (s.core 0).stage.valid = true ∧
      (s.core 0).stage.tensor.toNat = t.h.tensor ∧ (s.core 0).stage.brow = t.h.brow ∧ (s.core 0).stage.bcol = t.h.bcol) ∧
    ((sTile false 1#8).core 0).stage.valid = false ∧
    (let s := sTile false 2#8
    let t := ((s.core 0).tileView (s.ctxAt 0 20) ((s.core 0).mdesc 0)).1
    (s.core 0).maskCheck ((s.core 0).mdesc 0) t.h t.sheet = some 0x0208#16) := by
  refine ⟨⟨?_, (maskCheck_zero _ _ _ _ _ sTile_sheet).trans ?_, ?_⟩, ?_, (maskCheck_zero _ _ _ _ _ sTile2_sheet).trans ?_⟩ <;>
    (try unfold State.issues State.reaches) <;> decide +kernel

theorem sTile_new : (((sTile true 1#8).core 0).readE ((sTile true 1#8).ctxAt 0 20) 7 0x80000 2560).1 = List.replicate 2560 0#8 := by
  decide +kernel

theorem sTile_read : ((sTile true 1#8).core 0).read ((sTile true 1#8).ctxAt 0 20) (sheetBase (((sTile true 1#8).core 0).mdesc 0).slot) 2560 =
    List.replicate 2560 0#8 := by decide +kernel

theorem test_witness_SheetsAndScores : let s := sTile true 1#8
    let c := s.core 0
    let k := s.ctxAt 0 20
    let d := c.mdesc 0
    let h := tileHeader (c.readE k 7 d.body 64).1
    let new := activeList (c.readE k 7 0x80000 2560).1
    (∀ i ∈ [Instr.mscore site ms0, .mscore site { ms0 with src := false, bank := 0#3 }, .msload site ⟨0#5, 1#3, 0#5, 0#13⟩,
        .msstore site ⟨0#5, 1#3, 0#5, 0#13⟩, .mremap site 0#5 50#6], s.issues site i 20) ∧
      (0x70000 + 65536 - 1) / 0x80000 = 0 ∧ (0x80000 + 2560 - 1) / 0x80000 = 1 ∧
      h.cap = d.q ∧ h.fmt = d.fmt ∧ h.slot = d.slot ∧ h.nnz = new.length ∧ h.nnz ≤ 1024 * d.q ∧
      c.maskCheck d h (c.read k (sheetBase d.slot) 2560) = none := by
  intro s c k d h new
  have hn : new = [] := by unfold new; rw [sTile_new]; exact activeList_zero _
  rw [hn]
  refine ⟨?_, ?_, ?_, ?_, ?_, ?_, ?_, ?_, (maskCheck_zero c d h _ _ sTile_read).trans ?_⟩ <;>
    (try unfold State.issues State.reaches) <;> decide +kernel

def pp0 : PPredOp := ⟨15#4, 7#3, 7#3, 0#5, 0#5, 31#5⟩
theorem test_witness_PredictorInstructions : s1.issues site (.ppred site pp0) 20 ∧ s1.issues site (.pctl site 15#4 true) 20 ∧
    (let rp := ((s1.core 0).sreg (s1.ctxAt 0 20) 0#5).toNat
    (7 * 0x80000 + 64 * (rp % 8192) + 8192 - 1) / 0x80000 = 7 ∧
      (7 * 0x80000 + 64 * (rp / 65536 % 8192) + 64 * (64 * 32) - 1) / 0x80000 = 7) := by unfold State.issues State.reaches; decide +kernel

theorem test_witness_EngineIssueFrame : ∀ i ∈ [Instr.tload site tl0, .tprint site tp0, .vadd site va0, .xeCopy site xr0,
    .uadv site, .mdodge site ⟨0#5, true, 0#5, 0#16⟩], s1.reaches site i 20 ∧ (s1.core 0).sameIssue 4#13 (slotNo i) = false ∧
      (s0.core 0).issueCycle site i = none ∧
      (match exec i s1 with
      | .next t => decide ((t.core 0).frame.retiredAt = none)
      | _ => false) = true := by unfold State.reaches; decide +kernel

/-- A TLOAD of a grain tile in flight alone, its header's capacity wrong, a suppressed VADD, and one that writes 4 bytes. -/
def opIn (u : EngUnit) (supp : Bool) (effs : List Eff) (h : Option HdrCheck) : PendingOp :=
  { PendingOp.blank with id := 7, unit := u, bundle := 3#13, supp := supp, due := 20, free := 20, master := 5, claims := [2], effs := effs, header := h }
def sOp (o : PendingOp) : State := core0 s0 fun c => { c with inflight := [o] }
def hdrBad : HdrCheck := ⟨14, 0, 0, 1, 3, none, List.replicate 64 0#8⟩
def opLoad : PendingOp := opIn .teLoad false [] (some hdrBad)
def opSupp : PendingOp := opIn .ve1 true [] none
def opMem : PendingOp := opIn .ve1 false [.mem 0x580000 [1#8, 2#8, 3#8, 4#8]] none

theorem test_witness_InstructionCompletes : (∀ o ∈ [opLoad, opSupp, opMem], ((sOp o).core 0).canonical ∧
      ((sOp o).core 0).nextDone o.unit = some o) ∧
    (∀ o ∈ [opSupp, opMem], ((sOp o).core 0).onlyDue o.dueNow (.engine (.done o)) ∧ o.early = [] ∧
      ((sOp o).core 0).missing (linesRead o.reads ++ partLines o.effs) [] = [] ∧ o.claims ≠ []) ∧ opSupp.supp = true ∧
    (opMem.supp = false ∧ opMem.effs = [.mem 0x580000 [1#8, 2#8, 3#8, 4#8]]) ∧
    opLoad.header = some hdrBad ∧ hdrBad.due ≤ opLoad.dueNow ∧ opLoad.early = [] ∧ opLoad.effs = [] ∧
    ((sOp opLoad).core 0).headerFault hdrBad = some (1, 0x0208#16) ∧ ((sOp opLoad).core 0).frame.aborted = false ∧
    (∀ y ∈ ((sOp opLoad).core 0).allDues, y.1 ≤ opLoad.dueNow →
      y.2 = .engine (.done opLoad) ∨ y.2 = .engine (.header opLoad hdrBad)) := by
  refine ⟨?_, ?_, ?_, ?_, ?_, ?_, ?_, ?_, ?_, ?_, ?_⟩ <;> (try unfold Core.canonical) <;> (try unfold Core.onlyDue) <;> decide +kernel

/-! ## Ticks -/

/-- An image with a port plan, three windows (the second a gather window) and two collectives; a module that runs it. -/
def coll0 (op starts : Nat) : Coll := ⟨op, 0, false, 0, 0, starts, 0, 0, 0, 0, 0, 0, 0, 0, 0#32, false, 0, 0, 0, 64, 0⟩
def img0 : Image := ⟨0, 1, 0, 10000, 0, false, 1, 2, [], ⟨4, List.replicate 15 ⟨0, 0, 0#32⟩ ++ [⟨1, 4, 9#32⟩],
  [⟨0x1000, 4096, false, 0xFF, 0, 0⟩, ⟨0x2000, 4096, true, 0xFF, 0, 0⟩], [coll0 0 1, coll0 0 2]⟩, [], [], 0#32, 0⟩
def sched0 : List SchedEntry := [⟨0, 0, 1, 0, false, [], []⟩, ⟨0, 0, 2, 0, false, [], []⟩]
def sJob (started : Bool) (pos : Nat) : State :=
  let s := greg { s0 with image := some img0 } [(0x40004, 1#32), (0x40020, 1#32), (0x50000, 2#32), (0x40018, 0#32)]
  core0 { s with shutter := { s.shutter with started := started, ringPos := pos, guarded := true } } fun c => { c with sched := sched0 }
/-- Core 0 runs a late frame whose kind is dropped (1), or continued (0); it overran if `over`. -/
def sLate (kind : Nat) (over_ : Bool) (ret : Option Nat) (late : List FrameStart) : State :=
  core0 (greg (sJob true 1) [(0x40028, 4#32)]) fun c => regs [(0x2020, 1#32), (0x6008, 0x100#32)]
    { c with frame := { c.frame with live := true, kind := kind, guardAt := 111988, overrun := over_, retiredAt := ret }, lateStarts := late }

theorem test_witness_TickRunsDueEntries :
    (∀ s ∈ [sJob true 1, sLate 0 false none [], sLate 1 false none []], s.canonical) ∧
    (∀ s ∈ [sJob true 1, sLate 0 false none [], sLate 1 false none []],
      s.ticking = true ∧ s.haltComing = false ∧ s.halted = false ∧ s.loaded = true ∧ s.shutter.started = true ∧
      s.locked = true ∧ s.shutter.guarded = true ∧ (∀ c, ∀ d ∈ (s.core c).allDues, s.shutter.nextTick < d.1) ∧
      (∀ c, (s.core c).frame.live = true → (s.core c).frame.retiredAt = none) ∧
      (∀ c, State.abandonDue s.shutter.lastTick s c = false) ∧ s.shiftOpen = false ∧
      (∀ c, (s.core c).replays = false) ∧ (s.core 0).sched[1]? = some ⟨0, 0, 2, 0, false, [], []⟩ ∧ (s.core 0).behind = 0 ∧
      (s.core 0).frame.dropped = none ∧ (s.core 0).lateStarts = [] ∧ (s.core 0).workEnd ≤ s.shutter.nextTick) ∧
    ((sJob true 1).core 0).frame.live = false ∧
    (∀ k ∈ [0, 1], ((sLate k false none []).core 0).frame.live = true ∧ (sLate k false none []).policy k = k) ∧
    (let s : State := { sJob true 1 with shutter := { (sJob true 1).shutter with stopNext := true } }
    s.ticking = true ∧ s.haltComing = true ∧ (s.core 0).frame.live = false) ∧
    512 < cyclesOf ((sJob true 1).greg 0x40000).toNat (sJob true 1).shutter.freq2 := by
  refine ⟨?_, ?_, ?_, ?_, ?_, ?_⟩
  · intro s h
    simp only [List.mem_cons, List.not_mem_nil, or_false] at h
    rcases h with rfl | rfl | rfl <;> exact canon_of (by decide +kernel)
  all_goals decide +kernel

def late0 : FrameStart := ⟨1, 5#48, 0, 0, false⟩
theorem test_witness_GuardBandEndsFrames :
    (∀ r ∈ [some 0, some 112000, none], (let s := sLate 0 false r []
      let s : State := { s with shutter := { s.shutter with guarded := false } }
      (s.core 0).canonical ∧ (s.core 0).frame.live = true ∧ s.ticking = true ∧ (s.core 0).frame.overrun = false ∧
        (∀ d, ∀ y ∈ (s.core d).allDues, s.shutter.guardAt < y.1) ∧
        (s.core 0).frame.overruns (s.core 0).frame.guardAt = decide (r ≠ some 0) ∧ (s.core 0).rf 0x2020 0 0 = 1 ∧
        (s.core 0).frame.normal = r.isSome)) ∧
    ∀ l ∈ [[], [late0]], (let s := sLate 0 true (some 9) l
      (s.core 0).canonical ∧ (s.core 0).frame.live = true ∧ (s.core 0).frame.overrun = true ∧
        (s.core 0).frame.retiredAt.isSome = true ∧ (∀ y ∈ (s.core 0).allDues, s.shutter.nextTick < y.1) ∧ (s.core 0).lateStarts = l ∧
        (s.core 0).sched[late0.slot]? = some ⟨0, 0, 2, 0, false, [], []⟩ ∧ s.coreHalts (s.core 0) = false ∧
        (s.core 0).replays = false) := by
  unfold Core.canonical; decide +kernel

/-- Pending changes at a tick: a power class, a step, PCTLs, a derate with and without slack. -/
def sTick (slack : Word) : State :=
  let s := core0 (greg s0 [(0x40004, 1#32), (0x50000, 2#32), (0x50020, slack)]) fun c => regs [(0x6008, 0x100#32)]
    { c with frame := { c.frame with pctl := [(15#4, true), (15#4, false)] } }
  { s with power := { s.power with pending := some 0 }, shutter := { s.shutter with derates := 1 } }
theorem test_witness_EventsOfTick : ((sTick 0#32).ticking = true ∧ (sTick 0#32).loaded = true ∧ (sTick 0x10000#32).loaded = true) ∧
    (sTick 0#32).canonical ∧ (sTick 0#32).gf 0x50020 23 16 = 0 ∧ (sTick 0x10000#32).gf 0x50020 23 16 = 1 ∧
    (sTick 0#32).power.pending.isSome = true ∧ ((sTick 0#32).core 0).rf 0x6008 8 8 = 1 ∧
    ((sTick 0#32).core 0).frame.live = false ∧ 0 < (sTick 0#32).shutter.derates ∧
    (((sTick 0#32).core 0).frame.pctl.filter fun r => r.1 = 15#4).getLast? = some (15#4, false) := by
  refine ⟨by decide +kernel, canon_of (by decide +kernel), ?_⟩; decide +kernel

/-- A member before its start: loaded and locked, not started, with a start at FN or 16 frames later, and a staged record. -/
def rec0 (b : BitVec 48) : RosterRec := ⟨5#32, b, [⟨9#32, 0#32, 15, 1, 1#16⟩]⟩
def sStart (fn : Word) (b : Option (BitVec 48)) : State :=
  let s := greg (sJob false 0) [(0x40018, fn)]
  { s with roster := { s.roster with staged := b.map rec0 } }
theorem test_witness_JobStartAndEpochs :
    (let s := sStart 0#32 none
    s.canonical ∧ s.ticking = true ∧ s.loaded = true ∧ s.shutter.started = false ∧ s.halted = false ∧ s.shutter.noStart = false ∧
      s.locked = true ∧ s.shutter.fn.toNat = (s.greg 0x40018).toNat + s.gf 0x4001C 15 0 * 2 ^ 32 ∧
      s.power.phase = .starting ∧ (s.core 0).sched[0]? = some ⟨0, 0, 1, 0, false, [], []⟩ ∧ s.roster.staged = none) ∧
    (let s := sStart 16#32 (some 0#48)
    s.image = some img0 ∧ s.shutter.fn.toNat + 16 = (s.greg 0x40018).toNat + s.gf 0x4001C 15 0 * 2 ^ 32 ∧
      (s.planMet 14 (img0.plan.ports.getD 14 ⟨0, 0, 0#32⟩) && s.syncMet 14) = true ∧
      (s.planMet 15 (img0.plan.ports.getD 15 ⟨0, 0, 0#32⟩) && s.syncMet 15) = false ∧
      s.roster.staged = some (rec0 0#48) ∧ s.shutter.fn = (rec0 0#48).boundary) := by
  refine ⟨⟨canon_of (by decide +kernel), ?_⟩, ?_⟩ <;> decide +kernel

/-- A follower of TICK_IN (source 2) or of link port 15 (source 1), which is UP at x4, in lock or out of it, after symbols. -/
def sSync (src : Nat) (lock : Bool) (y : Sync) : State :=
  let s := greg s0 [(0x40004, BitVec.ofNat 32 (1 + 2 * src)), (0x40030, 0x8000000F#32), (0x40020, if lock then 1#32 else 0#32),
    (0x613C4, 0x13#32)]
  { s with shutter := { s.shutter with sync := y } }
theorem test_witness_TickSynchronisation :
    (∀ n ∈ [0, 1, 2], (let s := sSync 1 true { Sync.reset with symbols := n, bad := 1 }
      s.ticking = true ∧ s.shutter.sync.symbols = n ∧ s.source = 1 ∧ s.gf 0x40030 3 0 = 15 ∧ s.tickPort 15 = true ∧ s.locked = true)) ∧
    (let s := sSync 2 false { Sync.reset with symbols := 2, good := 15 }
    s.ticking = true ∧ s.shutter.sync.symbols = 2 ∧ s.source = 2 ∧ s.locked = false) ∧
    (((999000 : Nat) : Int) - ((sSync 1 true Sync.reset).greg 0x40000).toNat).natAbs ≤ 1000 ∧
    ((sSync 1 true Sync.reset).canonical ∧ (sSync 1 true Sync.reset).ports.length = 16) ∧
    (let s := sSync 1 false { Sync.reset with symbols := 1, ticksSince := 4096 }
    s.source ≠ 0 ∧ s.locked = false ∧ 0 < s.shutter.sync.symbols ∧ 4096 ≤ s.shutter.sync.ticksSince) ∧
    (let s := sSync 2 true { Sync.reset with missing := 4 }
    s.source ≠ 0 ∧ s.locked = true ∧ 4 ≤ s.shutter.sync.missing ∧ s.gbit 0x40030 31 = true) ∧
    (let s := sSync 1 true Sync.reset
    s.master = false ∧ s.echoDue 15 = true ∧ s.echoDue 14 = false ∧ (s.port 15).echo = none) ∧
    (let s := greg (sSync 1 true Sync.reset) [(0x40004, 0xB#32)]
    s.master = true ∧ s.gbit 0x40030 31 = true ∧ s.tickPort 15 = true) ∧
    ((4#16 : Half).getLsbD 2 || (4#16 : Half).getLsbD 3) = true ∧ ((3#16 : Half).getLsbD 2 || (3#16 : Half).getLsbD 3) = false := by
  refine ⟨?_, ?_, ?_, ⟨canon_of (by decide +kernel), ?_⟩, ?_⟩ <;> decide +kernel

/-! ## Registers -/

/-- The registers answer, and no core is fenced or in a slice. -/
def sUp (phase : PowerPhase) (l : List (Nat × Word)) : State :=
  let s := greg s0 l
  { s with power := { s.power with phase := phase } }
/-- Status of a block: a commit pending, or none; shadows that differ from what is in force. -/
def stOff (b : Block) : List (Nat × Word) := match b with
  | .shutter => [(0x40040, 1#32)] | .link => [(0x60004, 1#32)] | .cpm => [(0x30008, 1#32)] | .core _ => []
def sCmt (b : Block) (pend keys : Bool) : State :=
  let s := sUp .ready (((0x40004, 1#32) :: if pend then stOff b else []) ++
    if keys then [(0x40044, 1#32), (0x60008, 1#32), (0x3001C, 1#32)] else [])
  let s := if pend then s.setCore 5 ((s.core 5).setReg 0x1204 1#32) else s
  (s.setGshadow 0x40004 3#32).setGshadow 0x30000 0#32

theorem test_witness_CommitsOfBlocks :
    (∀ b ∈ [Block.shutter, .core 5, .link, .cpm], ∀ p ∈ [false, true], (sCmt b p true).blkPending b = p ∧
      (sCmt b p true).accessible = true ∧ (sCmt b p true).available 5 = true ∧ (sCmt b p true).slicing 5 0x1200 = false ∧
      (sCmt b p true).ticking = true ∧ (sCmt b p true).blkIdle b true = true ∧ (sCmt b p true).blkRights b = none) ∧
    (∀ p ∈ [false, true], ((sCmt (.core 5) p true).settleAt (winBase 5 + 0x1200)).blkPending (.core 5) = p) ∧
    (∀ b ∈ [Block.core 5, .link, .cpm], (sCmt b false true).blkIdle b false = true) ∧
    (∀ b ∈ [Block.link, .cpm], (sCmt b true true).blkReason b = none) ∧
    (∀ b ∈ [Block.link, .cpm, .shutter], (sCmt b true false).blkRights b = some (0, 0x0601#16)) ∧
    (sCmt .link true true).canonical := by
  refine ⟨by decide +kernel, by decide +kernel, by decide +kernel, by decide +kernel, by decide +kernel, canon_of (by decide +kernel)⟩

/-- Session 7 of an installer. -/
def sKey (k : Bool) : State :=
  let s := sUp .ready [(0x70008, if k then 1#32 else 0#32)]
  { s with sec := { s.sec with sessions := [⟨7#32, 2, 0, 0#32, 0⟩] } }
theorem test_witness_KeysDoorbellsAndLatches : (∀ k ∈ [false, true], (sKey k).accessible = true ∧ (sKey k).available 143 = true ∧
    (sKey k).slicing 143 0x401C = false ∧ (sKey k).gbit 0x70008 0 = k ∧ (sKey k).holds 7#32 2 = true ∧ (sKey k).holds 8#32 2 = false) ∧
    (sKey true).canonical := ⟨by decide +kernel, canon_of (by decide +kernel)⟩

/-- A module with an image. -/
def sImg : State := sUp .ready [(0x50000, 2#32)]
/-- A register of the global area without and with shadow, the last KV register, and three of the last core's window, the second the
loader's alone; the buffers. -/
theorem test_witness_RegisterWrites : (∀ n ∈ [0x20400, 0x40000, 0xA1FF8], (n < 0x80000 ∨ 0xA0000 ≤ n) ∧
      (findReg globRegs n).any (fun b => decide (b.base ≠ 0x70100)) = true ∧ keyRole n = none ∧ commitOf n = none ∧
      htuGuarded n = false ∧ n ≠ 0x70004 ∧ (sUp .ready []).reservedOnes n 1#32 = false) ∧
    (∀ p ∈ [false, true], (sCmt .shutter p true).accessible = true ∧ (sCmt .shutter p true).blkPending .shutter = p ∧
      blockAt 0x40000 = some .shutter) ∧
    (∀ o ∈ [0x1220, 0x2040, 0x7404], winOf (0x1000000 + 143 * 0x100000 + o) = some (143, o) ∧ o < 0x10000 ∧
      (findReg coreRegs o).any (fun b => decide ((b.base = 0x2040) = (o = 0x2040))) = true ∧ (sUp .ready []).available 143 = true ∧
      (sUp .ready []).slicing 143 o = false ∧ (sUp .ready []).reservedOnes (0x1000000 + 143 * 0x100000 + o) 1#32 = false ∧
      ((sUp .ready []).settleAt (0x1000000 + 143 * 0x100000 + o)).loaded = false) ∧
    (sImg.settleAt (0x1000000 + 143 * 0x100000 + 0x1000)).loaded = true ∧ loaderOnly 0x1000 = true ∧ loaderOnly 0x1220 = false ∧
    (∀ p ∈ [false, true], ((sCmt (.core 5) p true).settleAt (winBase 5 + 0x1220)).blkPending (.core 5) = p) ∧
    ((sUp .ready []).reservedOnes (0x80000 + 15 * 0x2000 + 0xFFC) 1#32 = false ∧
      ∀ k ∈ [15, 16], (sUp .ready []).svc.running.getD k none = none) ∧
    (6#32 : Word) &&& 0xFFF8#32 = 0#32 ∧ (sUp .ready []).canonical := by
  refine ⟨?_, ?_, ?_, ?_, ?_, ?_, ?_, ?_, ?_, canon_of (by decide +kernel)⟩ <;> decide +kernel

theorem test_witness_OnlyReservedFieldsStop : (sUp .ready []).accessible = true ∧
    (sUp .ready []).reservedOnes ((0x40004#28 : BitVec 28).toNat / 4 * 4) 0xFFFFFFFF#32 = true ∧
    (0xFFFFFFFF#32 : Word) &&& 0xFFF8#32 ≠ 0#32 ∧ (match exec (.registerWrite ⟨false, 0x40004#28⟩ 0xFFFFFFFF#32) (sUp .ready []) with
      | .fault f => decide (f = .reservedFieldWrite 0x40004)
      | _ => false) = true := by decide +kernel

/-! ## Links -/

/-- Port 15 in a state, as `x`. -/
def sPort (st : Nat) (x : Port) : State :=
  let s := greg s0 [(0x613C0, 5#32), (0x613C4, BitVec.ofNat 32 st)]
  { s with ports := s.ports.set 15 x, power := { s.power with phase := .ready } }
def key0 : LinkKey := ⟨List.replicate 32 1#8, List.replicate 4 2#8, 0, 0⟩
def data1 : List Byte := flitOf 1 4095 8 true true [1#8, 2#8, 3#8, 4#8, 5#8, 6#8, 7#8, 8#8]
def tag1 : List Byte := flitOf 4 0 31 false false (leBytes 8 0 ++ List.replicate 16 9#8 ++ leBytes 2 4095 ++ [1#8] ++ leBytes 4 0)
def portRx (fails : Nat) : Port := { Port.reset with expected := 0, rx := some key0, held := [data1], tagFails := fails }
def sentFlit (n : Nat) : TxFlit := ⟨4095, data1, n⟩
/-- Codeword 3 of the port could not be corrected: flits 3 and 4 overlap it, flit 5 does not. -/
def portBad : Port := { Port.reset with badWords := [3] }
theorem test_witness_FlitsInOrder :
    ((sPort 3 { Port.reset with expected := 4095, unacked := 31 }).portState 15 = 3 ∧ flitGood data1 = true ∧ flitSeq data1 = 4095 ∧
      fld (flitHead data1) 3 0 = 1 ∧ flitGood [] = false ∧ Port.reset.fecFailed 0 = false ∧
      [2, 3, 4, 5].map portBad.fecFailed = [false, true, true, false]) ∧
    (flitGood tag1 = true ∧ flitSeq tag1 = 0 ∧ fld (flitHead tag1) 3 0 = 4 ∧ (portRx 1).rx = some key0 ∧ 1 ≤ (portRx 1).tagFails) ∧
    (let s := sPort 3 (portRx 1)
    s.ports.length = 16 ∧ s.portState 15 = 3 ∧ (s.port 15).expected = 0 ∧ (s.port 15).waiting = []) ∧
    (∀ n ∈ [1, 8], (let s := sPort 3 { Port.reset with retry := [sentFlit n] }
      s.portState 15 = 3 ∧ ((s.port 15).retry.dropWhile (·.seq ≠ 4095)).any (fun f => decide (8 ≤ f.sent)) = decide (n = 8))) ∧
    (sPort 2 Port.reset).portState 15 ≠ 3 ∧ (sPort 3 Port.reset).canonical := by
  refine ⟨?_, ?_, ?_, ?_, ?_, canon_of (by decide +kernel)⟩ <;> decide +kernel

/-- A device identity key, and a signature by it over a handshake of zeros in the name of member 9. -/
def dik0 : List Byte := 4#8 :: (beBytes 48 0xE66E634966AA807ADB58566555F10B028C400D44AA8D42A484303709E1AB9E799A658C2BC0243C19163508E69FACD1F0 ++
  beBytes 48 0x05C01CC5371E1D1CBCF2CDAB695E671A868F4166F175668A0F9427A8A1A2A916C9F43C43B2DAEA4DD46C39CD62CE591B)
def sigR : List Byte := let r := beBytes 48 0xAA87CA22BE8B05378EB1C71EF320AD746E1D3B628BA79B9859F741E082542A385502F25DBF55296C3A545E3872760AB7
  r ++ r
def eph0 : List Byte := List.replicate 97 0#8
def cert0 : List Byte := List.replicate 48 0#8
theorem hello_digest : sha384 (handshakeBytes eph0 9#32 cert0) = beBytes 48 0xE7A801AA94DCA64EDFB90CCFD68538ABCF7C2DA577EC77DA998364553B414B844F95E879CBEDAE0433E38BCD09D197D9 := by
  decide +kernel
theorem test_handshake_verifies : ecdsaOk dik0 (sha384 (handshakeBytes eph0 9#32 cert0)) sigR = true := by
  rw [hello_digest]; decide +kernel
/-- A port in KEYING; the module knows member 9's key. -/
def sKeying : State := let s := sPort 2 Port.reset
  { s with image := some img0, sec := { s.sec with members := [(9#32, sha384 dik0)] } }
theorem handshake0 : sKeying.handshakeOk eph0 9#32 cert0 sigR dik0 = true := by
  have h : sKeying.sec.members = [(9#32, sha384 dik0)] := rfl
  simp [State.handshakeOk, h, test_handshake_verifies]

/-- A training port; ports in KEYING with a handshake that passes and one that fails; a key just short of 2^31 groups and at it. -/
theorem test_witness_PortSessions :
    (let s := greg (sPort 1 Port.reset) [(0x3000C, 0x20#32)]
    s.ready = true ∧ s.gbit (portOff 15) 0 = true ∧ s.portState 15 = 1 ∧ s.ports.length = 16) ∧
    sKeying.portState 15 = 2 ∧ sKeying.portPlanned 15 = true ∧ sKeying.handshakeOk eph0 9#32 cert0 sigR dik0 = true ∧
    (sPort 2 Port.reset).handshakeOk eph0 9#32 cert0 sigR dik0 = false ∧
    (∀ g ∈ [2 ^ 31 - 1, 2 ^ 31], (let s := sPort 3 { Port.reset with tx := some { key0 with group := g } }
      s.portState 15 ≠ 2 ∧ (s.port 15).tx = some { key0 with group := g } ∧ (s.port 15).txSwitch = none)) ∧
    (sPort 1 Port.reset).canonical := by
  refine ⟨?_, ?_, ?_, handshake0, rfl, ?_, canon_of (by decide +kernel)⟩ <;> decide +kernel

/-- A message of 64 bytes, and a module whose image has a window and a gather window, and whose roster reaches member 9 by
port 15, with messages there. -/
def msg0 (kind window rep off : Nat) (dst : Nat) : List Byte :=
  [BitVec.ofNat 8 kind, 0#8] ++ leBytes 2 window ++ leBytes 4 9 ++ leBytes 4 dst ++ leBytes 4 rep ++ leBytes 4 off ++ leBytes 4 64 ++
    List.replicate 8 0#8 ++ List.replicate 64 7#8
def sMsg (inbox : List (List Byte)) : State :=
  let s := sPort 3 { Port.reset with tx := some key0, inbox := inbox }
  { s with image := some img0, roster := { s.roster with inForce := some { rec0 0#48 with epoch := 0#32 } } }
/-- A message is the first of its kind at port 15. -/
def headOf15 (s : State) (m : List Byte) : Bool :=
  decide ((s.port 15).inbox.find? (fun n => decide ((msgHead n).kind = (msgHead m).kind)) = some m)
theorem test_witness_MessagesAtThePort : (let m := msg0 1 0 0 63 0
    let s := sMsg [msg0 2 0 0 0 0, m]
    headOf15 s m = true ∧ headOf15 s (msg0 1 0 0 62 0) = false ∧ s.epochOk (msgHead m).repoch = true ∧
      s.window 0 = some ⟨0x1000, 4096, false, 0xFF, 0, 0⟩ ∧
      (msgHead m).window = 0 ∧ (msgHead m).offset * 64 + (msgHead m).length ≤ 4096 ∧ (msgHead m).dst = s.greg 0x60800) ∧
    (∀ m ∈ [msg0 1 0 0 64 0, msg0 1 1 0 0 0, msg0 1 0 1 0 0], headOf15 (sMsg [m]) m = true) ∧
    4096 < (msgHead (msg0 1 0 0 64 0)).offset * 64 + (msgHead (msg0 1 0 0 64 0)).length ∧
    (sMsg []).window (msgHead (msg0 1 1 0 0 0)).window = some ⟨0x2000, 4096, true, 0xFF, 0, 0⟩ ∧
    (sMsg []).epochOk (msgHead (msg0 1 0 1 0 0)).repoch = false ∧
    (let m := msg0 4 0 0 0 0
    let s := sMsg [m]
    headOf15 s m = true ∧ (s.rosterOf (msgHead m).repoch).bind (·.portOf (msgHead m).src) = some 15 ∧ s.portState 15 = 3 ∧
      s.ports.length = 16 ∧ (s.port 15).tx = some key0 ∧ (s.port 15).waiting = [] ∧ (s.port 15).retry = []) ∧ (sMsg []).canonical := by
  refine ⟨?_, ?_, ?_, ?_, ?_, ?_, canon_of (by decide +kernel)⟩ <;> decide +kernel

/-- A run of collective 0, a gather, that awaits the block of member 9, or has failed. -/
def run0 (failed : Option Half) : CollRun := ⟨0, 0#48, 0#32, 0#64, 0#64, [0], true, [⟨9#32, 0#32, 15, 1, 1#16⟩], 0, 0, 0x8000, 0, 0, [], [],
  false, false, 0#32, [], failed⟩
def sColl (runs : List CollRun) (inbox : List (List Byte)) : State :=
  let s := sMsg inbox
  { s with coll := { s.coll with runs := runs, begun := [(1, 5#48, 0#32)] } }
theorem test_witness_CollectivesProceed : (let m := msg0 2 0 0 0 0
    let s := sColl [] [m]
    s.collDesc 1 = some (coll0 0 2) ∧ s.coll.begun.contains (1, 5#48, 0#32) = true ∧
      s.coll.begun.contains (1, 6#48, 0#32) = false ∧ s.coll.runs = [] ∧ s.collDesc 0 = some (coll0 0 1) ∧ (coll0 0 1).starts ≤ 1 ∧
      1 < (coll0 0 2).starts ∧ headOf15 s m = true ∧ s.cdataFor m = none ∧ s.coll.runs.find? (·.started) = none) ∧
    (let m := msg0 2 0 0 0 0
    let s := sColl [run0 none] [m]
    headOf15 s m = true ∧ (msgHead m).dst = s.greg 0x60800 ∧ s.epochOk (msgHead m).repoch = true ∧
      s.cdataFor m = some (0, coll0 0 1, run0 none, 0) ∧ (coll0 0 1).op = 0 ∧
      s.coll.runs.find? (·.started) = some (run0 none) ∧ s.runComplete (coll0 0 1) (run0 none) = false) ∧
    (let m := msg0 5 1 0 63 0
    headOf15 (sColl [] [m]) m = true ∧ (sColl [] [m]).window (msgHead m).window = some ⟨0x2000, 4096, true, 0xFF, 0, 0⟩ ∧
      (msgHead m).failed = false ∧ (msgHead m).offset * 64 + 64 ≤ 4096) ∧
    ((sColl [] []).runComplete (coll0 0 1) (run0 (some 1#16)) = true ∧ (run0 (some 1#16)).failed = some 1#16) ∧ (sColl [] []).canonical := by
  refine ⟨?_, ?_, ?_, ?_, canon_of (by decide +kernel)⟩ <;> decide +kernel

/-- A record that names a neighbour on port 15, which is UP with that member, or is not; proposals of a leader. -/
def recBytes (b : Nat) : List Byte := leBytes 4 5 ++ leBytes 6 b ++ leBytes 2 1 ++ leBytes 4 0 ++ leBytes 4 9 ++ leBytes 4 0 ++
  [15#8, 1#8] ++ leBytes 2 1 ++ leBytes 4 0
def sRos (peer : Word) (by_ : List Word) : State :=
  let s := greg (sMsg []) [(0x613C8, peer)]
  { s with roster := { s.roster with
    awaiting := [⟨.epoch (rec0 24#48), by_, none⟩], taken := some (9#32, .epoch (rec0 24#48)) } }
theorem test_witness_RosterAgents :
    ((sRos 9#32 []).rosterOk (rosterRec (recBytes 16)) = true ∧
      (sRos 9#32 []).shutter.fn.toNat + 16 ≤ (rosterRec (recBytes 16)).boundary.toNat ∧
      (sRos 8#32 []).rosterOk (rosterRec (recBytes 16)) = false) ∧
    ((sRos 9#32 []).awaitedFrom 9#32 = some ⟨.epoch (rec0 24#48), [], none⟩ ∧ (sRos 9#32 []).others.all [9#32].contains = true ∧
      (sRos 9#32 []).others.all [8#32].contains = false ∧ (sRos 9#32 []).others.contains 9#32 = true ∧
      (sRos 9#32 []).others.contains 8#32 = false) ∧
    ((sRos 9#32 []).roster.awaiting.find? (fun a => a.late 0#48) = some ⟨.epoch (rec0 24#48), [], none⟩ ∧
      (sRos 9#32 []).roster.taken = some (9#32, .epoch (rec0 24#48)) ∧ (9#32 : Word) ≠ 8#32) ∧ (sRos 9#32 []).canonical := by
  refine ⟨?_, ?_, ?_, canon_of (by decide +kernel)⟩ <;> decide +kernel

/-! ## Mailboxes -/

/-- A module that is READY, with sessions 7 of a role on mailbox 0, 8 of an operator and 9 of a maker. -/
def sAdm (role : Nat) (l : List (Nat × Word)) : State :=
  let s := sUp .ready ((0x3000C, 0x20#32) :: l)
  { s with sec := { s.sec with sessions := [⟨7#32, role, 0, 0#32, 0⟩, ⟨8#32, 1, 0, 0#32, 0⟩, ⟨9#32, 3, 0, 0#32, 0⟩] } }
def hU (u : Word) : MboxHdr := { hdr0 with unit := u }

theorem test_witness_MailboxChecks :
    (let s : State := { sAdm 1 [] with svc := { s0.svc with running := s0.svc.running.set 0 (some hdr0) } }
    s.power.phase ≠ .off ∧ s.power.phase ≠ .standby ∧ mboxBox hdr0 = some 0 ∧ (s.svc.running.getD 0 none).isSome = true) ∧
    (let s := sAdm 1 []
    s.power.phase ≠ .off ∧ s.power.phase ≠ .standby ∧ (∀ b ∈ mboxBox hdr0, s.svc.running.getD b none = none) ∧
      s.mboxCheck { hdr0 with session := 0#32 } 1 false false = some 0x0601#16 ∧ s.mboxCheck hdr0 2 false false = some 0x0601#16 ∧
      s.mboxCheck { hdr0 with plen := 4033#32 } 0 false true = some 0x0605#16 ∧
      (sAdm 2 []).mboxCheck { hU 191#32 with gen := 1#32 } 2 true false = some 0x0604#16 ∧
      s0.mboxCheck hdr0 0 false false = some 0x0606#16) := by decide +kernel

theorem test_witness_JobCommands :
    (sAdm 1 []).admits hdr0 1 false false ∧ (sAdm 2 []).admits hdr0 2 false false ∧ (sAdm 1 []).canonical ∧
    ((sAdm 1 []).imageFrom (.host [1#8]) = some [1#8] ∧ (sAdm 1 []).loaderFree = true ∧
      (sAdm 1 []).imageFrom (.nvme 3 [1#8]) = none) ∧
    (let s := sAdm 1 [(0x50000, 2#32)]
    s.mboxCheck hdr0 1 false false = none ∧ s.loaded = true ∧ s.shutter.fn.toNat + 64 ≤ (64#48 : BitVec 48).toNat ∧
      (63#48 : BitVec 48).toNat < s.shutter.fn.toNat + 64 ∧ s.svc.restoreFailed = false ∧ s.svc.restored = none ∧
      s.halted = false ∧ (sAdm 1 [(0x40020, 8#32)]).halted = true) ∧
    ((sAdm 2 []).shutter.fn.toNat + 64 ≤ (rosterRec (leBytes 4 5 ++ leBytes 6 64 ++ leBytes 6 0)).boundary.toNat ∧
      (sAdm 2 []).rosterOk (rosterRec (leBytes 4 5 ++ leBytes 6 64 ++ leBytes 6 0)) = true) ∧
    s0.loading = none ∧
    ((match State.checkImage { { s0 with loading := some ⟨[], hdr0⟩ } with loading := none } [] with
      | .error _ => true
      | .ok _ => false) = true) := by
  refine ⟨admits_of ?_, admits_of ?_, canon_of ?_, ?_⟩ <;> decide +kernel

/-- The same an hour later. -/
def atHour (s : State) : State := { s with shutter := { s.shutter with baseNs := 3600000000000 } }
/-- A checkpoint whose one chunk is to be read, or has been; a job whose derates have used up its image's slack. -/
def ckpt0 (leaves : List (List Byte)) : Ckpt := { newCkpt 2 (.host 0#64) none with frozen := true, leaves := leaves }
def sCk (k : Option Ckpt) : State :=
  let s := sAdm 1 [(0x50000, 2#32)]
  { s with svc := { s.svc with ckpt := k } }
def sSpent : State := { greg (sCk none) [(0x20024, 0x40#32)] with image := some { img0 with slack := 0 } }
theorem test_witness_CheckpointsAndRestore :
    (sCk none).admits hdr0 1 false false ∧ (sAdm 2 []).admits hdr0 2 false false ∧ (sCk none).canonical ∧
    ((atHour (sCk none)).svc.ckptAt + (atHour (sCk none)).svc.interval ≤ (atHour (sCk none)).nowSec ∧ (atHour (sCk none)).loaded = true ∧
      (sCk none).nowSec < (sCk none).svc.ckptAt + (sCk none).svc.interval) ∧
    ((sCk none).loaded = true ∧ (sCk none).targetOk (.host 5#64) = true ∧ (sCk none).svc.ckpt = none ∧
      (sCk none).svc.publish = none ∧ (sAdm 1 []).loaded = false ∧ (sCk none).shutter.started = false) ∧
    (let s := sCk (some (ckpt0 []))
    s.svc.ckpt = some (ckpt0 []) ∧ (ckpt0 []).frozen = true ∧ (ckpt0 []).manifest = none ∧
      (ckpt0 []).leaves.length < chunkCount (ckpt0 []).body ∧ s.svc.ckptNext = [] ∧ s.targetOk (ckpt0 []).target = true) ∧
    (let s := sCk (some (ckpt0 [[1#8]]))
    (ckpt0 [[1#8]]).leaves.length = chunkCount (ckpt0 [[1#8]]).body ∧ s.svc.cmds = [] ∧ s.svc.ckptNext = [] ∧
      (ckpt0 [[1#8]]).target = .host 0#64) ∧
    (60 ≤ (60#32 : Word).toNat ∧ (86400#32 : Word).toNat ≤ 86400 ∧ ¬60 ≤ (59#32 : Word).toNat) ∧
    ((sCk none).restoreEarly ⟨[], [], 0#64, false⟩).isSome = true ∧ (sCk none).image.bind (sCk none).slackCheck = none ∧
    sSpent.image.bind sSpent.slackCheck = some 0x0107#16 ∧ sSpent.mboxCheck hdr0 1 false false = none ∧ sSpent.loaded = true := by
  refine ⟨admits_of ?_, admits_of ?_, canon_of ?_, ?_⟩ <;> decide +kernel

/-- A stream of 1,024-record blocks of one-byte rows, two to a batch, with or without a tenant's key, a queue pair and a
command on it that has failed `n` times. -/
def ia0 (t : Option (BitVec 4)) : IngestArgs := ⟨3#32, false, 10, .raw, 1, 2, 2, 0x8000, 1#4, 1#4, t⟩
def qp0 : NvmeArgs := ⟨5#16, 2, true, 512, false, 0, false, 0, 0⟩
def cmd0 (n : Nat) : NvmeCmd := ⟨5#16, 6#16, ⟨true, false, 0, 8, []⟩, .checkpoint, false, n, 0⟩
def stm0 (t : Option (BitVec 4)) (rows : List (List Byte)) : Stream := { streamAt (ia0 t) 0 with rows := rows }
def sIng (l : List Stream) (n : Nat) : State :=
  let s := core0 (sAdm 1 []) (regs [(0x20BC, 0x40#32)])
  { s with svc := { s.svc with streams := l, qps := if l.isEmpty then [] else [qp0], cmds := [cmd0 n] } }
theorem test_witness_IngestAndStorage :
    (sIng [] 0).admits hdr0 1 false false ∧ (sIng [] 0).canonical ∧
    ((sIng [] 0).ingestOk (ia0 none) = true ∧ (sIng [stm0 none []] 0).stream 3#32 = some (stm0 none []) ∧
      (sIng [] 0).qpOk qp0 = true ∧ (sIng [stm0 none []] 0).svc.qps = [qp0] ∧ (sIng [] 0).svc.rings.length = 16) ∧
    ((sIng [stm0 (some 2#4) []] 0).plainRecord (ia0 (some 2#4)) 1#32 1#64 [9#8] [] = none ∧
      (sIng [stm0 none []] 0).plainRecord (ia0 none) 1#32 1#64 [9#8] [] = some [9#8] ∧
      (stm0 none []).block.length + 1 < (stm0 none []).nb) ∧
    (let x := stm0 none [[1#8], [2#8]]
    x.stopped = false ∧ x.rows.length = x.args.batch ∧ x.full.contains x.nextSlot = false) ∧
    ((stm0 none [[1#8]]).rows.length < (stm0 none []).args.batch ∧ (stm0 none []).block.length < (stm0 none []).nb) ∧
    (cmd0 1).rungAt + 5000000000 ≤ (atHour (sIng [] 1)).nowNs ∧ (sIng [] 1).nowNs < (cmd0 1).rungAt + 5000000000 ∧
    ((sIng [] 0).memSlice 0 = none ∧ (∀ r ∈ lineRuns 0x3FFFC0 64, ((sIng [] 0).core 0).denies 0 true r.1 = false) ∧
      (∀ i, i < 64 → ((sIng [] 0).core 0).denies 8 false (0x3FFFC0 + i) = false) ∧
      ((sIng [] 0).core 0).missing (linesRead [(0x3FFFC0, 64)]) [] = []) ∧
    (∀ n ∈ [1, 2], (sIng [] n).nvmeCmd 5#16 6#16 = some (cmd0 n) ∧ (cmd0 n).use = .checkpoint ∧ ((cmd0 n).failures < 2 ↔ n = 1)) ∧
    ((sIng [] 0).core 0).rf (0x2080 + 4 * 15) 7 0 = 0x40 := by
  refine ⟨admits_of ?_, canon_of ?_, ?_⟩ <;> decide +kernel

/-- A serving endpoint with KV region 255, of 4 entries of 64 bytes. -/
def kv0 : KvArgs := ⟨255#8, 0x4000#39, 1#16, 4#32, 0#64⟩
def sa0 : ServeArgs := ⟨0#64, 0#64, 16, 1#4, 1#4, [kv0], [none]⟩
def sServe (on : Bool) : State :=
  let s := sAdm 1 (if on then [(0xA1FE0, 0x4000#32), (0xA1FE4, 1#32), (0xA1FE8, 4#32)] else [])
  { s with svc := { s.svc with serving := if on then some ⟨sa0, [0], []⟩ else none } }
theorem test_witness_ServingAndHealth :
    (sServe false).admits hdr0 1 false false ∧ (sServe true).admits hdr0 1 false false ∧
    (sServe true).admits (hU 255#32) 0 false true ∧ (sServe false).canonical ∧
    (sServe true).admits { hdr0 with hbmBad := true } 1 false false ∧
    (sa0.regions.all ((sServe false).kvOk sa0.regions) = true ∧ (sServe true).svc.serving = some ⟨sa0, [0], []⟩ ∧
      (sServe true).gf (0xA0004 + 32 * 255) 15 0 * 64 ≠ 0 ∧ 3 + 1 ≤ ((sServe true).greg (0xA0008 + 32 * 255)).toNat ∧
      0 < sa0.regions.length ∧ (sServe false).svc.serving = none ∧ (hU 255#32).unit.toNat < 256) := by
  refine ⟨admits_of ?_, admits_of ?_, admits_of ?_, canon_of ?_, admits_of ?_, ?_⟩ <;> decide +kernel

/-! ## Security -/

/-- An installer's key, and a signature by it of the message of an open: 32 bytes of 5, role 2 and the part's numbers. -/
def pub0 : List Byte := 4#8 :: (beBytes 48 0x285CDD6BE6B6BCB7E0634F17A9E6DDBC3CE62CC82AD194ABA8A3FCC6917F12020B9EB7BCC85B463D7D6DB74835DDCECE ++
  beBytes 48 0x36ABA396022CA82C9CB85BB9B7577B09BBED0519911A71346452D47A90E73173146E31570F811ED1B2472E57FAA2CFBD)
def nonce0 : List Byte := List.replicate 32 5#8
def open0 : List Byte := nonce0 ++ [2#8] ++ leBytes 4 1 ++ leBytes 4 0xB1000001

theorem pub0_id : keyIdOf pub0 = 0xBD6C19AE#32 := by decide +kernel

theorem open0_digest : sha384 open0 = beBytes 48 0x64FC533FA88E187B5775DCAA91B3645EAE9BDE42A1BE08F92F92005269CF0D6DA088C1286D7A6D04FE689773558ECBEC := by decide +kernel

/-- The signature verifies. -/
theorem test_ecdsa_verifies : ecdsaOk pub0 (sha384 open0) sigR = true := by rw [open0_digest]; decide +kernel

/-- A state with the installer's credential and the nonce, challenged on mailbox 0 and by Loupe. -/
def sAuth (loupe : Option Word) : State :=
  let s := sAdm 2 [(0x30014, 0x200#32), (0x20024, 0#32)]
  { s with
    sec := { s.sec with installer := some pub0, nonces := [⟨0, nonce0, 0⟩, ⟨0x12, nonce0, 0⟩] }
    mgmt := { s.mgmt with loupe := loupe } }

theorem auth0 (loupe : Option Word) (src : Nat) (h : src = 0 ∨ src = 0x12) : (sAuth loupe).authOk src 2 0xBD6C19AE#32 sigR = true := by
  have hm : (sAuth loupe).openMessage nonce0 2 = open0 := (by decide +kernel : (sAuth none).openMessage nonce0 2 = open0)
  have hc : (sAuth loupe).credential 2 = some pub0 := rfl
  have hn : (sAuth loupe).sec.nonces = [⟨0, nonce0, 0⟩, ⟨0x12, nonce0, 0⟩] := rfl
  have ht : (sAuth loupe).nowSec = 0 := (by decide +kernel : (sAuth none).nowSec = 0)
  unfold State.authOk
  rw [hc]
  simp only [pub0_id, hn, List.any_cons, hm, test_ecdsa_verifies, ht]
  rcases h with rfl | rfl <;> simp

theorem test_witness_Sessions :
    ((sAuth none).canonical ∧ (sAuth none).admits { hdr0 with session := 0#32 } 0 false false ∧ (sAuth none).admits hdr0 0 false false) ∧
    ((sAuth none).roleLocked 2 = false ∧ (sAuth none).authOk 0 1 0#32 sigR = false ∧ (sAuth none).sec.sessions.length < 16) ∧
    ({ sAuth none with sec := { (sAuth none).sec with locked := [(3, 0)] } } : State).roleLocked 3 = true ∧
    ((sAuth none).session hdr0.session ≠ none ∧ nonce0.length = 32) := by
  refine ⟨⟨canon_of ?_, admits_of ?_, admits_of ?_⟩, ?_⟩ <;> decide +kernel

/-- Two open calls whose signature verifies: `auth0` for mailbox 0 (SESSION_OPEN) and for Loupe (AUTH OPEN). -/
theorem test_witness_SessionOpens : (sAuth none).roleLocked 2 = false ∧ (sAuth none).authOk hdr0.src.toNat 2 0#32 sigR = false ∧
    (∃ id, (sAuth none).authOk hdr0.src.toNat 2 id sigR = true) ∧ (sAuth none).sec.sessions.length < 16 :=
  ⟨by decide +kernel, by decide +kernel, ⟨_, auth0 none 0 (.inl rfl)⟩, by decide +kernel⟩

/-! ## Keys -/

theorem bytesAt_left (p t : List Byte) (o n : Nat) (h : o + n ≤ p.length) : bytesAt (p ++ t) o n = bytesAt p o n := by
  apply List.map_congr_left
  intro i hi
  have : o + i < p.length := by have := List.mem_range.1 hi; omega
  simp [List.getD, List.getElem?_append_left this]

theorem bytesAt_right (p t : List Byte) (h : t.length = n) : bytesAt (p ++ t) p.length n = t := by
  apply List.ext_getElem
  · simp [h]
  · intro i h1 h2
    simp only [bytesAt, List.getElem_map, List.getElem_range]
    rw [List.getD, List.getElem?_append_right (by omega)]
    simp [h2]

/-- A blob that wraps 32 bytes for the job, or for tenant 15: all but its tag, with the base point for the ephemeral key. -/
def ephB : List Byte := 4#8 :: (beBytes 48 g384.1 ++ beBytes 48 g384.2)
def blobHead (kind tenant : Byte) : List Byte :=
  leBytes 4 0x4B4A4458 ++ leBytes 2 1 ++ [kind, tenant] ++ leBytes 4 0x1234 ++ leBytes 4 0 ++ ephB ++ [0#8, 0#8, 0#8]
def blobAll (kind tenant : Byte) : List Byte := blobHead kind tenant ++ List.replicate 32 0#8
/-- Its key-encryption key, and the blob. -/
def kek0 (s : State) : List Byte := hkdf (bytesAt (Config.secret 0 "ECDH with DWK" (leBytes 1 s.lcs ++ leBytes 1 (s.gf 0x14 7 6) ++ ephB)) 0 48)
  (ascii "XD job wrap" ++ leBytes 4 0x1234) 32
def blob0 (s : State) (kind tenant : Byte) : List Byte :=
  blobAll kind tenant ++ gcmTag (kek0 s) (List.replicate 12 0#8) (blobHead kind tenant) (List.replicate 32 0#8)

theorem blob0_unwraps (s : State) (kind tenant : Byte) (h : kind = 0#8 ∧ tenant = 0#8 ∨ kind = 1#8 ∧ tenant = 15#8) :
    (s.unwrap (blob0 s kind tenant)).isSome = true ∧ natAt (blob0 s kind tenant) 6 1 = kind.toNat := by
  have ht : (gcmTag (kek0 s) (List.replicate 12 0#8) (blobHead kind tenant) (List.replicate 32 0#8)).length = 16 :=
    length_gcmTag _ _ _ _ (length_hkdf32 _ _)
  have hl : (blobAll kind tenant).length = 148 := by rcases h with ⟨rfl, rfl⟩ | ⟨rfl, rfl⟩ <;> decide +kernel
  have hb : ∀ o n, o + n ≤ 148 → bytesAt (blob0 s kind tenant) o n = bytesAt (blobAll kind tenant) o n := fun o n hon =>
    bytesAt_left _ _ _ _ (by omega)
  have htag : bytesAt (blob0 s kind tenant) 0x94 16 = gcmTag (kek0 s) (List.replicate 12 0#8) (blobHead kind tenant) (List.replicate 32 0#8) := by
    have := bytesAt_right (blobAll kind tenant) _ ht
    rwa [hl] at this
  have hhead : (blob0 s kind tenant).take 0x74 = blobHead kind tenant := by
    rw [blob0, List.take_append_of_le_length (by omega)]
    rcases h with ⟨rfl, rfl⟩ | ⟨rfl, rfl⟩ <;> decide +kernel
  have hlen : (blob0 s kind tenant).length = 164 := by rw [blob0, List.length_append, hl, ht]
  have f : ∀ o n v, o + n ≤ 148 → natAt (blobAll kind tenant) o n = v → natAt (blob0 s kind tenant) o n = v := by
    intro o n v hon hv; rw [natAt, hb o n hon]; exact hv
  have hk : natAt (blob0 s kind tenant) 6 1 = kind.toNat := f _ _ _ (by omega) (by rcases h with ⟨rfl, rfl⟩ | ⟨rfl, rfl⟩ <;> decide +kernel)
  have hn : natAt (blob0 s kind tenant) 7 1 = tenant.toNat := f _ _ _ (by omega) (by rcases h with ⟨rfl, rfl⟩ | ⟨rfl, rfl⟩ <;> decide +kernel)
  have he : bytesAt (blob0 s kind tenant) 0x10 97 = ephB := by
    rw [hb _ _ (by omega)]; rcases h with ⟨rfl, rfl⟩ | ⟨rfl, rfl⟩ <;> decide +kernel
  have h8 : bytesAt (blob0 s kind tenant) 8 4 = leBytes 4 0x1234 := by
    rw [hb _ _ (by omega)]; rcases h with ⟨rfl, rfl⟩ | ⟨rfl, rfl⟩ <;> decide +kernel
  have hc : bytesAt (blob0 s kind tenant) 0x74 32 = List.replicate 32 0#8 := by
    rw [hb _ _ (by omega)]; rcases h with ⟨rfl, rfl⟩ | ⟨rfl, rfl⟩ <;> decide +kernel
  refine ⟨?_, hk⟩
  have hp : (sec1Point ephB).isNone = false := by decide +kernel
  have m0 := f 0 4 0x4B4A4458 (by omega) (by rcases h with ⟨rfl, rfl⟩ | ⟨rfl, rfl⟩ <;> decide +kernel)
  have m4 := f 4 2 1 (by omega) (by rcases h with ⟨rfl, rfl⟩ | ⟨rfl, rfl⟩ <;> decide +kernel)
  have m7 := f 0x71 3 0 (by omega) (by rcases h with ⟨rfl, rfl⟩ | ⟨rfl, rfl⟩ <;> decide +kernel)
  unfold State.unwrap
  simp only [hlen, m0, m4, m7, hk, hn, he, hp, hhead, h8, hc, htag]
  rcases h with ⟨rfl, rfl⟩ | ⟨rfl, rfl⟩ <;> simp [gcmOpen, kek0]

theorem test_witness_KeysAndFences :
    ((sAdm 1 []).admits hdr0 1 false false ∧ (sAdm 2 []).admits hdr0 2 false false ∧ (sAdm 1 []).canonical) ∧
    ((sAdm 1 []).sec.tenants.length = 16 ∧ (sAdm 1 []).sec.signers.length = 16 ∧ (sAdm 1 []).health.length = 256) ∧
    ((sAdm 1 []).unwrap [] = none ∧ (sAdm 1 []).loaded = false ∧ (sAdm 1 [(0x50000, 2#32)]).loaded = true) ∧
    (ephB.length = 97 ∧ (sec1Point ephB).isSome = true ∧ ephB.all (· = 0#8) = false) ∧
    ((List.replicate 64 (⟨9#32, false, [1#8]⟩ : MemberKey)).length ≤ 64 ∧
      (List.foldl memberKeySet (sAdm 2 []).sec.members [⟨9#32, false, [1#8]⟩]).length ≤ 8192) ∧
    ((sAdm 2 []).admits hdr0 ((sAdm 2 []).lifecycleRole hdr0 5) false false ∧ (sAdm 2 []).lifecycleOk 5 = true ∧
      (sAdm 3 []).admits hdr0 ((sAdm 3 []).lifecycleRole hdr0 4) false false ∧ (sAdm 2 []).admits hdr0 ((sAdm 2 []).lifecycleRole hdr0 0) false false ∧
      (sAdm 2 []).lifecycleOk 0 = false) ∧
    (sAdm 2 []).admits (hU 191#32) 2 true false ∧
    (((sAdm 2 []).unitHealth 191).state ≠ 4 ∧ ((({ sAdm 2 [(0x50000, 2#32)] with image := some img0 } : State).schedules 191) = true)) ∧
    (({ sAdm 2 [] with health := s0.health.set 191 ⟨3, 0, 0#16, 0#32, 0, 0⟩ } : State).unitHealth 191).state = 3 := by
  refine ⟨⟨admits_of ?_, admits_of ?_, canon_of ?_⟩, ?_, ?_, ?_, ?_, ⟨admits_of ?_, ?_, admits_of ?_, admits_of ?_, ?_⟩, admits_of ?_, ?_⟩ <;>
    decide +kernel

/-- The same with a blob whose tag verifies, for the job and for tenant 15. -/
theorem test_witness_JobKeys : (∃ k, (sAdm 1 []).unwrap (blob0 (sAdm 1 []) 0#8 0#8) = some k ∧ natAt (blob0 (sAdm 1 []) 0#8 0#8) 6 1 = 0) ∧
    ∃ k, (sAdm 1 []).unwrap (blob0 (sAdm 1 []) 1#8 15#8) = some k ∧ natAt (blob0 (sAdm 1 []) 1#8 15#8) 6 1 = 1 := by
  have a := blob0_unwraps (sAdm 1 []) 0#8 0#8 (.inl ⟨rfl, rfl⟩)
  have b := blob0_unwraps (sAdm 1 []) 1#8 15#8 (.inr ⟨rfl, rfl⟩)
  obtain ⟨k, hk⟩ := Option.isSome_iff_exists.1 a.1
  obtain ⟨l, hl⟩ := Option.isSome_iff_exists.1 b.1
  exact ⟨⟨k, hk, a.2⟩, l, hl, b.2⟩

/-! ## The module -/

/-- Segment 15 of BAR2 maps the top 4 GiB of HBM; a contact-sheet record of core 143 waits. -/
def sBar (ready : Bool) : State :=
  let s := sUp .ready ([(0x7013C, 0x8000005F#32)] ++ if ready then [(0x3000C, 0x20#32)] else [])
  { s with sheets := [⟨143, 5#48, [1#8]⟩] }
theorem test_witness_HostMemoryAndSheets : (sBar true).canonical ∧
    (let s := sBar true
    let off : BitVec 36 := 0xFFFFFFFFC#36
    let seg := s.greg (0x70100 + 4 * (off.toNat / 2 ^ 32))
    s.accessible = true ∧ s.power.perst = false ∧ s.ready = true ∧ bitAt seg 31 = true ∧ fld seg 6 0 ≤ 95 ∧
      off.toNat % 2 ^ 32 + 4 ≤ 2 ^ 32 ∧
      ∀ i, i < 4 → s.sealedAt (fld seg 6 0 * 2 ^ 32 + off.toNat % 2 ^ 32 + i) = none ∧
        s.landingHbm (fld seg 6 0 * 2 ^ 32 + off.toNat % 2 ^ 32 + i) 1 = []) ∧
    ((sBar false).accessible = true ∧ (sBar false).ready = false ∧
      (sBar true).sheets.find? (fun r => r.core = 143) = some ⟨143, 5#48, [1#8]⟩) :=
  ⟨canon_of (by decide +kernel), by decide +kernel, by decide +kernel⟩

/-- A core that patrols, with a line of its frame store being fetched again, under an image that holds its frame store, with a line
to be recorded and a slice on the core or not. -/
def sInt (slice : Bool) : State :=
  let s := core0 s0 fun c => regs [(0x8018, 1#32)] { c with integ := { c.integ with refetches := [0x53FFC0] } }
  { s with
    image := some { img0 with fstores := [(0, [1#8])] }
    shutter := { s.shutter with ticks := 0x1000000 }
    htu := { s.htu with
      slices := if slice then [⟨0, ⟨7#4, 0⟩, ⟨false, [], []⟩, []⟩] else []
      remapDue := if slice then [(s.physical 0, 0, 0)] else []
      ageingDue := slice } }
theorem test_witness_IntegrityEvents : (sInt false).canonical ∧ (sInt true).canonical ∧
    (let x := (sInt false).core 0
    bitAt (x.reg 0x8018) 0 = true ∧ x.integ.patrol.length = 13 ∧
      (∀ m, m < 13 → (sInt false).inSlice 0 (x.patrolLine m) = false ∧ x.knownEmpty (x.patrolLine m) = false) ∧
      (sInt false).inSlice 0 ((0x53FFFF#23 : BitVec 23).toNat / 64 * 64) = false ∧
      x.integ.refetches.contains ((0x53FFFF#23 : BitVec 23).toNat / 64 * 64) = true ∧ x.integ.writtenSince.contains 0x53FFC0 = false ∧
      ((sInt false).backingBytes 0 0x53FFC0).isSome = true ∧ (sInt false).ports.length = 16 ∧ (sInt false).htu.ageingDue = false ∧
      ((sInt false).htu.remapDue.filter fun r => decide (r.1 = (sInt false).physical 0)) = [] ∧
      (∀ m, m < 26 → leakDue (sInt false).shutter.ticks ((sInt false).htu.leaks.getD m 0) (leakExp ((sInt false).greg (0x20400 + 8 * m))) = true) ∧
      ∀ m, m < 6 → leakDue (sInt false).shutter.ticks (x.integ.leak.getD m 0) (leakExp (x.reg (0x8040 + 8 * m))) = true) ∧
    ((sInt true).inSlice 0 (((sInt true).core 0).patrolLine 0) = true ∧ ((sInt true).core 0).integ.patrol.length = 13 ∧
      (sInt true).inSlice 0 ((0x1FFF#23 : BitVec 23).toNat / 64 * 64) = true ∧ (sInt true).htu.ageingDue = true ∧
      ((sInt true).htu.remapDue.filter fun r => decide (r.1 = (sInt true).physical 0)) ≠ []) :=
  ⟨canon_of (by decide +kernel), canon_of (by decide +kernel), by decide +kernel, by decide +kernel⟩

/-- A module with the test key; one whose offset stands at v; one with a request and a slice that ends; session 7 is an installer's. -/
def sTest (key : Bool) (v : Nat) (req : Option TestReq) : State :=
  let s := sUp .ready [(0x2000C, if key then 1#32 else 0#32), (0x20024, BitVec.ofNat 32 v), (0x40020, 8#32)]
  { s with
    sec := { s.sec with sessions := [⟨7#32, 2, 0, 0#32, 0⟩] }
    htu := { s.htu with request := req, slices := [⟨143, ⟨1#4, 0⟩, ⟨true, [], []⟩, []⟩] } }
/-- Core 0 is in a dark frame in which slices are enabled. -/
def sDark : State :=
  let s := sUp .ready [(0x20018, 1#32), (0x3000C, 0x3FF0020#32)]
  core0 s fun c => { c with frame := { c.frame with live := true, kind := 4 } }
theorem test_witness_Slices : sDark.canonical ∧ sDark.health.length = 256 ∧ sDark.sliceStart 0 ⟨7#4, 719⟩ = some 0 ∧
    sDark.sliceStart 0 ⟨7#4, 720⟩ = none ∧ sDark.htu.slices.find? (fun x => x.core = 0) = none ∧
    (max sDark.htu.passedAt sDark.htu.rotatedAt + sDark.covInterval < { sDark with clock := 10 ^ 16 }.nowSec) ∧
    sDark.nowSec ≤ max sDark.htu.passedAt sDark.htu.rotatedAt + sDark.covInterval :=
  ⟨canon_of (by decide +kernel), by decide +kernel⟩
theorem test_witness_TestsAndMargins :
    (sTest true 60 none).canonical ∧ (sTest true 60 none).health.length = 256 ∧
    (sTest true 60 none).htu.slices.find? (fun x => x.core = 143) = some ⟨143, ⟨1#4, 0⟩, ⟨true, [], []⟩, []⟩ ∧
    ((sTest true 58 none).power.phase ≠ .shutdown 3 ∧ ((sTest true 58 none).unitHealth 0).state ≠ 5 ∧
      (sTest true 58 none).gf 0x20024 5 0 < 59 ∧ 60 ≤ (sTest true 60 none).gf 0x20024 5 0 ∧
      (sTest true 60 none).gf 0x20024 8 6 + (sTest true 60 none).shutter.derates < 4 ∧
      4 ≤ (sTest true 0x13C none).gf 0x20024 8 6 ∧ 60 ≤ (sTest true 0x13C none).gf 0x20024 5 0 ∧ (sTest true 0x13C none).shutter.derates = 0) ∧
    ((sTest true 60 none).gbit 0x2000C 0 = true ∧ (sTest true 60 none).lcs = 3 ∧ (sTest true 60 none).htu.request = none ∧
      ((sTest true 60 none).unitHealth 255).gen = (sTest true 60 none).greg 0x20008 ∧ (sTest false 60 none).gbit 0x2000C 0 = false) ∧
    ((sTest false 60 none).powered = true ∧ (sTest false 60 none).holds 7#32 (sTest false 60 none).testRole = true ∧
      (sTest false 60 none).sec.logBad = false ∧ ((sTest false 60 none).unitHealth 255).gen = 0#32) := by
  refine ⟨canon_of ?_, ?_⟩ <;> decide +kernel
theorem test_witness_TestsEnd :
    (∀ run ∈ [false, true], let q : TestReq := ⟨191, true, 0, run, 0, []⟩
    (sTest true 60 (some q)).canonical ∧ (sTest true 60 (some q)).htu.request = some q ∧ q.full = true ∧ q.running = run ∧
      (sTest true 60 (some q)).inUse q.unit = false ∧ (sTest true 60 (some q)).schedules q.unit = false ∧
      q.over = run ∧ q.unit < 192 ∧ ∀ n, (sTest true 60 (some q)).power.phase ≠ .shutdown n) ∧
    (⟨191, false, 2, false, 0, []⟩ : TestReq).over = true ∧ (sUp (.shutdown 2) []).power.phase = .shutdown 2 := by
  have ph (q : Option TestReq) (n : Nat) : (sTest true 60 q).power.phase ≠ .shutdown n := by simp [sTest, sUp]
  refine ⟨fun run _ => ?_, by decide +kernel, rfl⟩
  rcases (by simp : run = false ∨ run = true) with rfl | rfl <;>
    exact ⟨canon_of (by decide +kernel), rfl, rfl, rfl, by decide +kernel, by decide +kernel, by decide +kernel, by decide, ph _⟩

/-- Where every canary has the same margin, that is the least. -/
theorem leastMargin_const (s : State) (v : Int) (h : (s.unitHealth 0).state ≠ 5) : (s.leastMargin (List.replicate 1280 v)).1 = v := by
  have hg : ∀ i, i < 1280 → (List.replicate 1280 v).getD i 0 = v := by
    intro i hi
    have : ∀ n, i < n → (List.replicate n v).getD i 0 = v := by
      intro n hn; simp [List.getD, hn]
    exact this _ hi
  have key : ∀ (p : Nat → Bool) (l : List Nat) (k : Nat), (∀ i ∈ l, i < 1280) →
      (l.foldl (fun (a : Int × Nat) i => if p i && (decide (a.2 = 1280) || decide ((List.replicate 1280 v).getD i 0 < a.1)) then
        ((List.replicate 1280 v).getD i 0, i) else a) (v, k)).1 = v := by
    intro p l
    induction l with
    | nil => intros; rfl
    | cons i l ih =>
      intro k hl
      have hi := hg i (hl i (by simp))
      rw [List.foldl_cons, hi]
      split <;> exact ih _ fun j hj => hl j (by simp [hj])
  unfold State.leastMargin
  rw [List.range_eq_range', List.range'_succ, List.foldl_cons]
  simp only [hg 0 (by omega), show (decide (1248 ≤ 0) || decide ((s.unitHealth (0 / 8)).state ≠ 5) ||
    decide ((s.unitHealth (0 / 8)).flags % 2 = 1)) = true by simp [h], Bool.true_and, decide_true, Bool.true_or, if_true]
  exact key _ _ _ fun i hi => by have := List.mem_range'_1.1 hi; omega

/-- Margins of 20 everywhere, and of 19. -/
theorem test_witness_MarginKept : 20 ≤ ((sTest true 60 none).leastMargin (List.replicate 1280 20)).1 ∧
    ((sTest true 58 none).leastMargin (List.replicate 1280 19)).1 < 20 := by
  rw [leastMargin_const _ _ (by decide +kernel), leastMargin_const _ _ (by decide +kernel)]
  decide

theorem test_witness_StartsAndResets :
    s0.canonical ∧ s0.powered = true ∧ (sUp .held []).power.phase = .held ∧ (s0.power.phase = .starting ∧ s0.lcs ≠ 5 ∧
      s0.bootSlot find0 = some 0 ∧ s0.bootSlot { find0 with slotOk := [false, false] } = none ∧ (sUp .ready []).power.phase ≠ .starting) :=
  ⟨canon_s0, by decide +kernel⟩

theorem test_witness_ForcedPower :
    (let s := sUp .ready [(0x3000C, 0x1#32)]
    s.canonical ∧ s.powered = true ∧ (0#6 : BitVec 6).toNat < 48 ∧ (47#6 : BitVec 6).toNat < 48 ∧ (∀ d ∈ s.power.dieTemp, d ≤ 100) ∧
      s.power.refLost = false ∧ s.power.lowInput = false ∧ s.gf 0x3000C 1 0 ≠ 0 ∧ s.trips 114 = false ∧ s.trips 115 = true) ∧
    (let s : State := { sUp .ready [] with power := { s0.power with
      phase := .ready, dieTemp := s0.power.dieTemp.set 47 101, refLost := true, lowInput := true } }
    s.powered = true ∧ (∃ d ∈ s.power.dieTemp, 100 < d) ∧ s.power.refLost = true ∧ s.power.lowInput = true ∧ s.gf 0x3000C 1 0 = 0 ∧
      s.trips 109 = false ∧ s.trips 110 = true) := by
  refine ⟨⟨canon_of ?_, ?_⟩, ?_⟩ <;> decide +kernel

theorem test_witness_ManagementActions :
    (sAdm 2 []).canonical ∧ ((sAdm 2 []).holds 7#32 2 = true ∧ (sAdm 2 []).sec.logBad = false ∧ (sAdm 2 []).power.phase = .ready ∧
      (sAdm 2 []).powered = true ∧ (sAdm 2 []).halted = false ∧ (sAdm 2 []).holds 8#32 2 = false ∧ (sAdm 2 []).safelight = true) ∧
    ((sUp .standby []).power.phase = .standby ∧ (sUp .ready []).power.phase ≠ .standby ∧
      (∀ n ∈ [1, 2, 3], (sUp (.shutdown n) []).power.phase = .shutdown n)) ∧
    ((sAdm 2 []).tick1.sensor 56 = some 0 ∧ ((sAdm 2 []).tick1.sensor 703).isSome = true) := by
  refine ⟨canon_of ?_, ?_⟩ <;> decide +kernel

theorem test_witness_SpdmAnswers : (sUp .ready []).spdmOn = true ∧ 1 ≤ (1#8 : Byte).toNat ∧ (9#8 : Byte).toNat ≤ 9 ∧ 9 < (10#8 : Byte).toNat ∧
    (10#8 : Byte) ≠ 0xFF#8 := by decide +kernel

/-- Loupe with the installer's session 7, and without; `auth0` is its AUTH OPEN. -/
theorem test_witness_LoupeCommands : (sAuth (some 7#32)).canonical ∧ (sUp .ready []).loupeOn = false ∧
    ((sAuth none).loupeOn = true ∧ (sAuth none).mgmt.loupe = none ∧ (sAuth none).roleLocked 2 = false ∧
      (∃ id, (sAuth none).authOk 0x12 2 id sigR = true) ∧ (sAuth none).sec.sessions.length < 16) ∧
    ((sAuth (some 7#32)).mgmt.loupe = some 7#32 ∧ (sAuth (some 7#32)).holds 7#32 2 = true ∧
      (sAuth (some 7#32)).loupeIdle 7#32 = false ∧ 2 ≤ (sAuth (some 7#32)).lcs ∧
      (sAuth (some 7#32)).sec.logBad = false ∧ (sAuth (some 7#32)).htu.slices = [] ∧ (sAuth (some 7#32)).accessible = true) ∧
    (∀ n ∈ [0x20400, 0x40000], n < 0x80000 ∧ pokeBarred n = false ∧
      (findReg globRegs n).any (fun b => decide (b.base ≠ 0x70100)) = true ∧ keyRole n = none ∧ commitOf n = none ∧
      htuGuarded n = false ∧ n ≠ 0x70004 ∧ (sAuth (some 7#32)).reservedOnes n 1#32 = false) ∧
    (pokeBarred 0xFFC = true ∧ pokeBarred 0x1FFFC = true) ∧
    (let s : State := { sAuth (some 7#32) with clock := 10 ^ 13 }
    (⟨7#32, 2, 0, 0#32, 0⟩ : Session) ∈ s.sec.sessions ∧ 0 + 600 ≤ s.nowSec) := by
  refine ⟨canon_of (by decide +kernel), by decide +kernel, ⟨by decide +kernel, rfl, by decide +kernel, ⟨_, auth0 none 0x12 (.inr rfl)⟩,
    by decide +kernel⟩, ?_⟩
  decide +kernel

/-! ## A restore -/

theorem bytesAt_shift (p t : List Byte) (o n : Nat) : bytesAt (p ++ t) (p.length + o) n = bytesAt t o n := by
  apply List.map_congr_left
  intro i _
  simp only [List.getD]
  rw [List.getElem?_append_right (by omega)]
  congr 2
  omega

/-- A manifest of one empty chunk and no grain tile, around the digest of the schedule tables. -/
def leaf0 : List Byte := beBytes 32 0x6E340B9CFFB37A989CA544E6BB780A2C78901D3FB33738768511A30617AFA01D
def manHead : List Byte := leBytes 4 0x464D4458 ++ leBytes 2 1 ++ leBytes 2 0 ++ leBytes 4 416 ++ List.replicate 84 0#8
def manTail : List Byte := beBytes 32 0xE3B0C44298FC1C149AFBF4C8996FB92427AE41E4649B934CA495991B7852B855 ++ leaf0 ++
  leBytes 4 1 ++ leBytes 4 0 ++ leBytes 4 0x100 ++ leBytes 4 0x100 ++ List.replicate 48 0#8 ++ leaf0 ++ List.replicate 128 0#8
def man0 (d : List Byte) : List Byte := manHead ++ (d ++ manTail)
def sRest (d : List Byte) : State := { sCk none with svc := { (sCk none).svc with sealed := some (man0 d) } }
def ra0 (d : List Byte) : RestoreArgs := ⟨man0 d, [[]], 0#64, false⟩

theorem leaf0_eq : merkleLeaf [] = leaf0 := by decide +kernel
theorem emptyDigest_eq : sha256 [] = bytesAt manTail 0 32 := by decide +kernel

theorem man0_head (d : List Byte) (o n : Nat) (h : o + n ≤ 96) : bytesAt (man0 d) o n = bytesAt manHead o n := bytesAt_left _ _ _ _ (by
  have : manHead.length = 96 := by decide +kernel
  omega)

theorem man0_digest (d : List Byte) (hd : d.length = 32) : bytesAt (man0 d) 0x60 32 = d := by
  have hl : manHead.length = 96 := by decide +kernel
  have h : bytesAt (man0 d) (manHead.length + 0) 32 = bytesAt (d ++ manTail) 0 32 := bytesAt_shift _ _ _ _
  rw [hl] at h
  rw [h, bytesAt_left _ _ _ _ (by omega)]
  have := bytesAt_right [] d hd
  simpa using this

theorem man0_tail (d : List Byte) (hd : d.length = 32) (o n : Nat) : bytesAt (man0 d) (128 + o) n = bytesAt manTail o n := by
  have hl : manHead.length = 96 := by decide +kernel
  have h : bytesAt (man0 d) (manHead.length + (32 + o)) n = bytesAt (d ++ manTail) (32 + o) n := bytesAt_shift _ _ _ _
  have h2 := bytesAt_shift d manTail o n
  rw [hd] at h2
  rw [hl] at h
  rw [show 128 + o = 96 + (32 + o) by omega, h, h2]

theorem man0_length (d : List Byte) (hd : d.length = 32) : (man0 d).length = 416 := by
  have hl : manHead.length = 96 := by decide +kernel
  have ht : manTail.length = 288 := by decide +kernel
  rw [man0, List.length_append, List.length_append, hl, hd, ht]

theorem headField (d : List Byte) (o n v : Nat) (h : o + n ≤ 96) (hv : natAt manHead o n = v) : mf (man0 d) o n = v := by
  rw [mf, natAt, man0_head d o n h]; exact hv

theorem tailField (d : List Byte) (hd : d.length = 32) (o n v : Nat) (hv : natAt manTail o n = v) : mf (man0 d) (128 + o) n = v := by
  rw [mf, natAt, man0_tail d hd]; exact hv

/-- The manifest passes every check of RESTORE. -/
theorem restores (d : List Byte) (hd : d.length = 32) (hs : (sCk none).schedDigest = d) : (sRest d).restoreEarly (ra0 d) = none ∧ (sRest d).tick1.restoredBody (ra0 d) = .ok [] ∧
    manifestRoot (man0 d) = bytesAt (man0 d) 0xA0 32 ∧ ([] : List Byte).length = natAt (man0 d) 0x58 8 ∧
    ((sRest d).tick1.hbmWrite (sRest d).plate0 (([] : List Byte).take (0 - 144 * 2048))).restoreEpochs (man0 d) = none ∧ (sRest d).loaded = true ∧
    (sRest d).shutter.started = false ∧ (sRest d).image.bind (sRest d).slackCheck = none ∧ (ra0 d).hbmBad = false := by
  have f0 := headField d 0 4 0x464D4458 (by omega) (by decide +kernel)
  have f4 := headField d 4 2 1 (by omega) (by decide +kernel)
  have f6 := headField d 6 2 0 (by omega) (by decide +kernel)
  have f8 := headField d 8 4 416 (by omega) (by decide +kernel)
  have fc := headField d 0xC 4 0 (by omega) (by decide +kernel)
  have f48 := headField d 0x48 4 0 (by omega) (by decide +kernel)
  have f28 := headField d 0x28 8 0 (by omega) (by decide +kernel)
  have f58 := headField d 0x58 8 0 (by omega) (by decide +kernel)
  have t0 := tailField d hd 0x40 4 1 (by decide +kernel)
  have t4 := tailField d hd 0x44 4 0 (by decide +kernel)
  have t8 := tailField d hd 0x48 4 0x100 (by decide +kernel)
  have tc := tailField d hd 0x4C 4 0x100 (by decide +kernel)
  have ts := tailField d hd 160 4 0 (by decide +kernel)
  have fi : bytesAt (man0 d) 0x10 16 = (sRest d).imageId := by
    rw [man0_head d _ _ (by omega)]
    exact (by decide +kernel : bytesAt manHead 0x10 16 = (sCk none).imageId)
  have hleaf : bytesAt (man0 d) 0x100 32 = leaf0 := by
    rw [show (0x100 : Nat) = 128 + 128 by rfl, man0_tail d hd]; decide +kernel
  have hroot : bytesAt (man0 d) 0xA0 32 = leaf0 := by
    rw [show (0xA0 : Nat) = 128 + 32 by rfl, man0_tail d hd]; decide +kernel
  have h80 : bytesAt (man0 d) 0x80 32 = sha256 [] := by
    rw [show (0x80 : Nat) = 128 + 0 by rfl, man0_tail d hd, emptyDigest_eq]
  have g1 : (sRest d).greg 0x10008 = 0#32 := (by decide +kernel : (sCk none).greg 0x10008 = 0#32)
  have g2 : ((sRest d).greg 0x60800).toNat = 0 := (by decide +kernel : ((sCk none).greg 0x60800).toNat = 0)
  have g3 : (sRest d).sealKeyId.toNat = 0 := (by decide +kernel : (sCk none).sealKeyId.toNat = 0)
  have g4 : (sRest d).schedDigest = d := by
    have h1 : ∀ o, (sRest d).core o = (sCk none).core o := fun _ => rfl
    have h2 : (sRest d).hbm = (sCk none).hbm := rfl
    have h3 : (sRest d).freeCtr = (sCk none).freeCtr := rfl
    have h4 : (sRest d).mapKey = (sCk none).mapKey := rfl
    refine Eq.trans ?_ hs
    have h5 : ∀ a n, (sRest d).kvBounds none a n = (sCk none).kvBounds none a n := fun _ _ => rfl
    simp only [State.schedDigest, State.hbmBounded, State.hbmRead, State.landingHbm, h1, h2, h3, h4, h5]
  have g5 : (sRest d).svc.sealed = some (man0 d) := rfl
  have g6 : (sRest d).tick1.confidential = false := (by decide +kernel : (sCk none).tick1.confidential = false)
  norm_num only at t0 t4 t8 tc ts
  refine ⟨?_, ?_, ?_, ?_, ?_, ?_, rfl, (by decide +kernel : (sCk none).image.bind (sCk none).slackCheck = none), rfl⟩
  · have hform : manifestFormed (man0 d) = true := by simp [manifestFormed, f0, f4, f6, f8, t0, t4, t8, tc, man0_length d hd]
    have hsig : (sRest d).manifestSigned (man0 d) = true := by
      have hid : BitVec.ofNat 32 (natAt (man0 d) ((man0 d).length - 128) 4) = (sRest d).greg 0x10008 := by
        rw [g1, man0_length d hd]; exact congrArg (BitVec.ofNat 32) ts
      simp only [State.manifestSigned, hid, g5, decide_true, Bool.true_or, Bool.and_self]
    simp only [State.restoreEarly, ra0, hform, hsig, fc, g2, fi, f48, g3, man0_digest d hd, g4, f28]
    simp
  · simp only [State.restoredBody, ra0, t0, List.range_one, List.foldl_cons, List.foldl_nil, State.restoredChunk, tc, hleaf,
      Nat.mul_zero, Nat.add_zero, List.getD_cons_zero, leaf0_eq, g6]
    simp
  · rw [manifestRoot, hroot, t0, tc]
    simp only [List.range_one, List.map_cons, List.map_nil, Nat.mul_zero, Nat.add_zero, hleaf]
    rfl
  · exact f58.symm
  · simp only [State.restoreEpochs, t4, h80, Nat.mul_zero]
    simp [bytesAt]
  · exact (by decide +kernel : (sCk none).loaded = true)

theorem test_witness_Restores : ∃ d, (sRest d).restoreEarly (ra0 d) = none ∧ (sRest d).tick1.restoredBody (ra0 d) = .ok [] ∧
    manifestRoot (man0 d) = bytesAt (man0 d) 0xA0 32 ∧ ([] : List Byte).length = natAt (man0 d) 0x58 8 ∧
    ((sRest d).tick1.hbmWrite (sRest d).plate0 (([] : List Byte).take (0 - 144 * 2048))).restoreEpochs (man0 d) = none ∧
    (sRest d).loaded = true ∧ (sRest d).shutter.started = false ∧ (sRest d).image.bind (sRest d).slackCheck = none ∧
    (ra0 d).hbmBad = false := ⟨_, restores _ (length_sha256 _) rfl⟩

/-! ## An image that loads -/

/-- A signed image of one empty section, for no core. -/
def imgHead : List Byte := leBytes 4 0x31584E47 ++ leBytes 2 1 ++ [0#8, 0#8] ++ leBytes 4 1000000 ++ leBytes 2 0 ++ [0#8, 2#8] ++
  List.replicate 26 0#8 ++ leBytes 2 1 ++ leBytes 4 128 ++ List.replicate 80 0#8
def imgTable : List Byte := leBytes 2 0xA ++ leBytes 2 0xFFFF ++ leBytes 4 0 ++ leBytes 8 256 ++ leBytes 8 0 ++
  beBytes 32 0xE3B0C44298FC1C149AFBF4C8996FB92427AE41E4649B934CA495991B7852B855 ++ List.replicate 8 0#8 ++ leBytes 2 0xFF ++ leBytes 2 0xFFFF ++ leBytes 4 0 ++ leBytes 8 256 ++
  leBytes 8 100 ++ List.replicate 40 0#8
def signer0 : List Byte := 4#8 :: (beBytes 48 0xC9B52F5E18EF43972472F3C049F93D9825F96D51BD5974C258F0D6C22E98562535A5DF7395FB220311D7E57DBE1D5690 ++
  beBytes 48 0x2B895DC41FCD787FB97E10FC27BAF883111E32B3BDD519ACBDFDC891691A6CE6318DF3C38B4B31E854C249AFBA6BECDB)
def imgSig : List Byte := leBytes 4 0xFD920085 ++ sigR
def imgBytes : List Byte := imgHead ++ imgTable ++ imgSig
def sSigner : State := { s0 with sec := { s0.sec with signers := s0.sec.signers.set 15 (some signer0) } }

theorem findSome_none {α β : Type} {l : List α} {f : α → Option β} (h : ∀ x ∈ l, f x = none) : l.findSome? f = none :=
  List.findSome?_eq_none_iff.2 h

theorem ok_bind {α β : Type} (a : α) (f : α → Check β) : ((Except.ok a : Check α) >>= f) = f a := rfl
theorem unless_true (r : Refused) : failUnless true r = none := rfl
theorem pass_none : pass none = .ok () := rfl
theorem need_some {α : Type} (a : α) (c : Half) : need (some a) c = .ok a := rfl

/-- The header and the sections of the image. -/
def imgH : ImgHead := ⟨0, 0, 1000000, 0, false, 2, 0, 0, 1, 128, List.replicate 16 0#8⟩
def imgL : List Sect := [⟨0, 10, 0xFFFF, 256, 0, []⟩, ⟨1, 0xFF, 0xFFFF, 256, 100, imgSig⟩]
theorem img_head : headOf imgBytes = some imgH := by decide +kernel
theorem img_sects : sectsOf imgBytes imgH = some imgL := by decide +kernel
theorem img_signed : sSigner.signatureOk imgBytes imgL = true := by decide +kernel

/-- What the image holds for a core: nothing. -/
def imgCore (c : CoreId) : CoreImg := ⟨c, [], 0, 0, [], [], [], [], [], [], []⟩
theorem img_core (c : CoreId) : coreImg imgH imgL c = imgCore c := by
  have hb (t : Nat) : sectBytes imgL t c.val = [] := by
    have h : ¬0xFFFF = c.val := by omega
    simp only [sectBytes, imgL, List.filter_cons, h, decide_false, Bool.and_false, Bool.false_eq_true, if_false, List.filter_nil,
      List.flatMap_nil]
  have hm : imgH.mask.testBit c.val = false := by simp [imgH]
  simp only [coreImg, hb, hm]
  rfl
theorem img_cores : (fileOf imgH imgL).cores = (List.finRange 144).map imgCore := by
  simp only [fileOf]
  exact List.map_congr_left fun c _ => img_core c

theorem img_word (c : CoreId) : (imgCore c).word = coreReset := by
  funext off
  simp only [CoreImg.word, imgCore, List.reverse_nil, List.find?_nil]
theorem reset_checks : coreReason coreReset = none := by decide +kernel
theorem img_valid (p : LinkPlan) (c : CoreId) : (imgCore c).valid p = none := by
  simp only [CoreImg.valid, img_word, reset_checks]
  rfl
theorem img_capacity (x : Core) (c : CoreId) : (imgCore c).capacity x = none := by
  simp [CoreImg.capacity, imgCore, CoreImg.bundles, distinct, CoreImg.filterOk, failUnless]
theorem img_replay (c : CoreId) : (imgCore c).replaySafe = none := rfl
theorem img_regions (c : CoreId) : (imgCore c).regionsOk 1 = true := by
  have h : (imgCore 0).scaleAt = none := by
    simp only [CoreImg.scaleAt, img_word]
    decide +kernel
  have hc : (imgCore c).scaleAt = (imgCore 0).scaleAt := by simp only [CoreImg.scaleAt, img_word]
  simp only [CoreImg.regionsOk, hc, h]
  rfl
theorem img_placed (l : List CoreImg) (n : Nat) (c : CoreId) : (imgCore c).placed l 1 n = none := by
  simp only [CoreImg.placed, img_regions]
  rfl
theorem img_unbound : ∀ i < 16, fld (coreReset (0x2080 + 4 * i)) 7 0 = 0 := by decide +kernel
theorem img_waits (n : Nat) : (fileOf imgH imgL).waitsOk n = true := by
  simp only [ImgFile.waitsOk, img_cores, List.all_map]
  simp only [List.all_eq_true, Function.comp_apply, img_word, List.mem_range]
  intro _ _ i hi
  simp [img_unbound i hi]
theorem img_walks (ctr : Nat) : (fileOf imgH imgL).allWalks ctr = (List.finRange 144).map fun c => (c, []) := by
  simp only [ImgFile.allWalks, img_cores, List.map_map]
  rfl
theorem img_fits (n : Nat) : (((fileOf imgH imgL).cores.zip ((List.finRange 144).map fun c => (c, ([] : Walks)))).findSome?
    fun x => x.1.fits n x.2.2) = none := by
  rw [img_cores, List.zip_map]
  refine findSome_none fun x hx => ?_
  obtain ⟨y, -, rfl⟩ := List.mem_map.1 hx
  rfl
theorem img_starts (l : List CoreId) (e : Nat) : startsOf (l.map fun c => (c, [])) e = [] := by
  have h : ((l.map fun c => (c, ([] : Walks))).flatMap fun x => (x.2.filter fun r => r.1 = e).flatMap fun r =>
      r.2.2.map (·.issue)) = [] := by simp
  rw [startsOf, h]
  rfl
theorem img_ports : ((fileOf imgH imgL).plan.ports.filter fun p => p.use ≠ 0).length = 0 := by decide +kernel
theorem img_timed (s : State) (pool : Nat) : (fileOf imgH imgL).timed s 1000000 0 pool = none := by
  have hf : (fileOf imgH imgL).head.ring = 1 := rfl
  have hs : (fileOf imgH imgL).head.slack = 0 := rfl
  have fab : s.fabricOk 1 ((List.finRange 144).map fun c => (c, [])) = true := by
    simp [State.fabricOk, img_starts]
  have peak : tokenPeak 1 0 ((List.finRange 144).map fun c => (c, [])) = 0 := by
    simp [tokenPeak, img_starts, most]
  have free (n : Nat) : portsFree 1 n (((List.finRange 144).map fun c => (c, ([] : Walks))).flatMap (fileOf imgH imgL).plan.holds) = true := by
    rw [List.flatMap_map]
    have h : ((List.finRange 144).flatMap fun c => (fileOf imgH imgL).plan.holds (c, [])) = [] := by
      simp [LinkPlan.holds]
    rw [h]
    rfl
  simp only [ImgFile.timed, img_fits, img_walks, img_waits, img_ports, hf, hs, fab, peak, free]
  simp [failUnless]
theorem img_hbm (s : State) : (fileOf imgH imgL).hbmOk s = true := by
  have h : (fileOf imgH imgL).hbmRanges = [] ∧ (fileOf imgH imgL).plan.colls.length = 0 := by decide +kernel
  simp only [ImgFile.hbmOk, h.1, List.eq_nil_of_length_eq_zero h.2]
  rfl

/-- The loader accepts the image: its signature is a listed signer's and it asks nothing of any core. -/
theorem img_accepted : sSigner.checkImage imgBytes = .ok (fileOf imgH imgL) := by
  have hring : (fileOf imgH imgL).head.ring = 1 := rfl
  have hfmt : checkFormat imgBytes = .ok (imgH, imgL) := by
    have h1 : imgL.all (fun s => (imgH.conf && sealedTypes.contains s.type) || shapeOk imgH.ring s) = true := by decide +kernel
    have h2 : linkShapeOk (sectBytes imgL 12 0xFFFF) = true := by decide +kernel
    have h3 : ((List.finRange 144).findSome? fun c => failUnless (!imgH.mask.testBit c.val ||
        (sectBytes imgL 1 c.val).length = 24 * imgH.ring) ⟨0x0108#16, c.val, 0, 0, 0⟩) = none := by
      refine findSome_none fun c _ => ?_
      have hm : imgH.mask.testBit c.val = false := by simp [imgH]
      simp [hm, failUnless]
    simp only [checkFormat, img_head, img_sects, need_some, h1, h2, h3, unless_true, pass_none, ok_bind]
    rfl
  have hsig : sSigner.checkSignature imgBytes imgH imgL = .ok (fileOf imgH imgL) := by
    have h1 : imgL.all (shapeOk imgH.ring) = true := by decide +kernel
    have h2 : sSigner.openSections imgBytes imgH imgL = some imgL := rfl
    simp only [State.checkSignature, img_signed, h2, need_some, h1, unless_true, pass_none, ok_bind]
    rfl
  have hcls : sSigner.gbit 8 (fileOf imgH imgL).head.tclass = true := by decide +kernel
  have hcores : sSigner.checkCores (fileOf imgH imgL) = none := by
    refine findSome_none fun c _ => ?_
    have hm : (fileOf imgH imgL).head.mask.testBit c.val = false := by simp [fileOf, imgH]
    simp [hm, failUnless]
  have hcap : ((fileOf imgH imgL).cores.findSome? fun c => c.capacity (sSigner.core c.id)) = none := by
    rw [img_cores]
    exact findSome_none fun x hx => by obtain ⟨c, -, rfl⟩ := List.mem_map.1 hx; exact img_capacity _ c
  have hval (p : LinkPlan) : ((fileOf imgH imgL).cores.findSome? (CoreImg.valid p)) = none := by
    rw [img_cores]
    exact findSome_none fun x hx => by obtain ⟨c, -, rfl⟩ := List.mem_map.1 hx; exact img_valid p c
  have hrep : ((fileOf imgH imgL).cores.findSome? CoreImg.replaySafe) = none := by
    rw [img_cores]
    exact findSome_none fun x hx => by obtain ⟨c, -, rfl⟩ := List.mem_map.1 hx; exact img_replay c
  have hpl : (fileOf imgH imgL).placed sSigner = none := by
    simp only [ImgFile.placed, img_hbm, hring]
    rw [img_cores, findSome_none (fun x hx => by obtain ⟨c, -, rfl⟩ := List.mem_map.1 hx; exact img_placed _ _ c)]
    rfl
  have hcol : collsOk (sectBytes imgL 12 0xFFFF) = true := by decide +kernel
  have hper : (sSigner.greg 0x40000).toNat = 1000000 ∧ sSigner.gf 0x20024 8 6 = 0 := by decide +kernel
  rw [State.checkImage, hfmt, ok_bind]
  show (sSigner.checkSignature imgBytes imgH imgL >>= _) = _
  rw [hsig, ok_bind, hcls, unless_true, pass_none, ok_bind, hcores, pass_none, ok_bind, hcap, pass_none, ok_bind, hcol, unless_true,
    pass_none, ok_bind, hval, pass_none, ok_bind, hrep, pass_none, ok_bind, hpl, pass_none, ok_bind, hper.1, hper.2, img_timed,
    pass_none, ok_bind]
  rfl
theorem test_witness_JobCommands_accepted :
    let s : State := { sSigner with loading := some ⟨imgBytes, hdr0⟩ }
    s.canonical ∧ s.loading = some ⟨imgBytes, hdr0⟩ ∧ State.checkImage { s with loading := none } imgBytes = .ok (fileOf imgH imgL) := by
  exact ⟨canon_of (by decide +kernel), rfl, img_accepted⟩

end Sys2Proof.Tests
end

section
/-! SUPPORT. What REGISTER_WRITE and POKE answer, case by case, and that every other command answers a next state (R5, R7, R340). -/

namespace Sys2Proof.Machine

/-! ## REGISTER_WRITE and POKE -/

theorem exec_registerWrite_eq (r : RegAddr) (w : Word) (s : State) : exec (.registerWrite r w) s = execRegisterWrite r w s := rfl

theorem exec_poke_eq (a : BitVec 28) (w : Word) (s : State) : exec (.poke a w) s = execPoke a w s := rfl

/-- A write of ones to a reserved field through PF0. -/
theorem exec_registerWrite_reserved {s : State} {a : BitVec 28} {w : Word} (ha : s.accessible = true)
    (hr : s.reservedOnes (a.toNat / 4 * 4) w = true) :
    exec (.registerWrite ⟨false, a⟩ w) s = .fault (.reservedFieldWrite (a.toNat / 4 * 4)) := by
  simp [exec_registerWrite_eq, execRegisterWrite, ha, hr]

/-- Any other write through PF0. -/
theorem exec_registerWrite {s : State} {a : BitVec 28} {w : Word} (ha : s.accessible = true)
    (hr : s.reservedOnes (a.toNat / 4 * 4) w = false) :
    exec (.registerWrite ⟨false, a⟩ w) s = .next (s.bar0Write (a.toNat / 4 * 4) w) := by
  simp [exec_registerWrite_eq, execRegisterWrite, State.regWrite, ha, hr]

/-- A write of ones to the reserved bits of the management mailbox's STATUS, through PF1. -/
theorem exec_registerWrite_pf1_reserved {s : State} {a : BitVec 28} {w : Word} (ha : s.accessible = true)
    (hr : pf1Reserved (a.toNat / 4 * 4) w = true) :
    exec (.registerWrite ⟨true, a⟩ w) s = .fault (.reservedFieldWrite (a.toNat / 4 * 4)) := by
  simp [exec_registerWrite_eq, execRegisterWrite, ha, hr]

/-- Any other write through PF1. -/
theorem exec_registerWrite_pf1 {s : State} {a : BitVec 28} {w : Word} (ha : s.accessible = true)
    (hr : pf1Reserved (a.toNat / 4 * 4) w = false) :
    exec (.registerWrite ⟨true, a⟩ w) s = .next (s.pf1Write (a.toNat / 4 * 4) w) := by
  simp [exec_registerWrite_eq, execRegisterWrite, ha, hr]

/-- REGISTER_WRITE answers a next state or the fault of its address. -/
theorem exec_registerWrite_cases (r : RegAddr) (w : Word) (s : State) :
    (∃ t, exec (.registerWrite r w) s = .next t) ∨
      exec (.registerWrite r w) s = .fault (.reservedFieldWrite (r.addr.toNat / 4 * 4)) := by
  simp only [exec_registerWrite_eq, execRegisterWrite]
  split_ifs <;> simp

/-- POKE answers a next state or the fault of its address. -/
theorem exec_poke_cases (a : BitVec 28) (w : Word) (s : State) :
    (∃ t, exec (.poke a w) s = .next t) ∨ exec (.poke a w) s = .fault (.reservedFieldWrite (a.toNat / 4 * 4)) := by
  simp only [exec_poke_eq, execPoke]
  split_ifs <;> simp

/-! ## Every other command -/

/-- What a command answers: a next state, or, of REGISTER_WRITE and POKE alone, the fault of their address. -/
theorem exec_cases (i : Instr) (s : State) :
    (∃ t, exec i s = .next t) ∨ ∃ a w, (i = .registerWrite ⟨false, a⟩ w ∨ i = .registerWrite ⟨true, a⟩ w ∨ i = .poke a w) ∧
      exec i s = .fault (.reservedFieldWrite (a.toNat / 4 * 4)) := by
  cases i with
  | registerWrite r w =>
    obtain ⟨pf1, a⟩ := r
    exact (exec_registerWrite_cases ⟨pf1, a⟩ w s).imp_right fun h => ⟨a, w, by cases pf1 <;> simp, h⟩
  | poke a w => exact (exec_poke_cases a w s).imp_right fun h => ⟨a, w, .inr (.inr rfl), h⟩
  | _ => exact .inl ⟨_, rfl⟩

end Sys2Proof.Machine
end

section
/-! SUPPORT. What keeps a core's memory and register maps in canonical form: the named operations of a core, one lemma each. -/

namespace Sys2Proof.Machine

variable {x y : Core} {k : Ctx}

/-! ## Registers and memory -/

theorem Core.canonical.mem_wf (h : x.canonical) : Memory.wf x.mem = true := h.1

theorem Core.canonical.regs_wf (h : x.canonical) : Sparse.wf coreReset x.regs = true := h.2.1

theorem Core.canonical.shadow_wf (h : x.canonical) : Sparse.wf coreReset x.shadow = true := h.2.2

theorem Core.canonical.ite {p : Prop} [Decidable p] (h : x.canonical) (h' : y.canonical) : (if p then x else y).canonical := by
  split <;> assumption

/-- An operation repeated over a list. -/
theorem Core.canonical.foldl {α : Type} {f : Core → α → Core} {l : List α} (h : x.canonical)
    (hf : ∀ {z a}, z.canonical → (f z a).canonical) : (l.foldl f x).canonical :=
  List.foldlRecOn l f h fun _ hz _ _ => hf hz

theorem Core.canonical.setReg {a : Nat} {w : Word} (h : x.canonical) : (x.setReg a w).canonical :=
  ⟨h.mem_wf, Core.wf_setReg h.regs_wf a w, h.shadow_wf⟩

theorem Core.canonical.setRf {a hi lo v : Nat} (h : x.canonical) : (x.setRf a hi lo v).canonical := h.setReg

theorem Core.canonical.bump {a n : Nat} (h : x.canonical) : (x.bump a n).canonical := h.setReg

theorem Core.canonical.write {a : Nat} {bs : List Byte} (h : x.canonical) : (x.write a bs).canonical :=
  ⟨Memory.wf_write a bs h.mem_wf, h.regs_wf, h.shadow_wf⟩

theorem Core.canonical.setFrame {f : Frame} (h : x.canonical) : ({ x with frame := f } : Core).canonical := h

theorem Core.canonical.setInteg {g : Integ} (h : x.canonical) : ({ x with integ := g } : Core).canonical := h

theorem Core.canonical.drained (h : x.canonical) : x.drained.canonical := h

/-! ## Status codes and aborts -/

theorem Core.canonical.abort {code : Half} {b : BitVec 13} (h : x.canonical) : (x.abort code b).canonical := h

theorem Core.canonical.raise {u : Nat} {code : Half} (h : x.canonical) : (x.raise u code).canonical := .setRf h

theorem Core.canonical.raiseInt {code : Half} (h : x.canonical) : (x.raiseInt code).canonical := h.setRf

theorem Core.canonical.raiseNum {now u : Nat} {code : Half} (h : x.canonical) : (x.raiseNum now u code).canonical := by
  have h1 : (if x.numKeeps now u (lastCodeOff u) code then x else x.raise u code).canonical := .ite h h.raise
  have h2 : ∀ {y : Core}, y.canonical → (if y.numKeeps now 11 0x4010 code then y else y.setRf 0x4010 31 16 code.toNat).canonical :=
    fun hy => .ite hy hy.setRf
  exact h2 h1

theorem Core.canonical.raiseAt {now u : Nat} {code : Half} (h : x.canonical) : (x.raiseAt now u code).canonical :=
  .ite h.raiseNum h.raise

theorem Core.canonical.raises {now u : Nat} {b : BitVec 13} {l : List Raise} (h : x.canonical) :
    (Core.raises now u b x l).canonical :=
  h.foldl fun hz => .ite hz.raiseAt.abort hz.raiseAt

theorem Core.canonical.noteViolation {a m : Nat} {wr : Bool} (h : x.canonical) : (x.noteViolation a m wr).canonical :=
  .ite h (.ite h (.setReg (.setReg h)))

theorem Core.canonical.violation {u a m : Nat} {b : BitVec 13} {wr : Bool} (h : x.canonical) :
    (x.violation u b a m wr).canonical := h.raise.noteViolation.abort

/-! ## Effects of an instruction -/

theorem Core.canonical.showOwners (h : x.canonical) : x.showOwners.canonical := h.setRf

theorem Core.canonical.release {id : Nat} (h : x.canonical) : (x.release id).canonical := .showOwners h

theorem Core.canonical.setTileFlags {i o s : Half} (h : x.canonical) : (x.setTileFlags i o s).canonical := by
  simp only [Core.setTileFlags]
  exact .setFrame (.setRf (.setReg h))

theorem Core.canonical.showBusy {u : EngUnit} (h : x.canonical) : (x.showBusy u).canonical := h.setRf

theorem Core.canonical.collide {line l w : Nat} (h : x.canonical) : (x.collide line l w).canonical := by
  simp only [Core.collide]
  exact .setFrame (.setReg (.setReg h))

theorem Core.canonical.fullWrite {line : Nat} (h : x.canonical) : (x.fullWrite line).canonical := h

theorem Core.canonical.store {a : Nat} {bs : List Byte} (h : x.canonical) : (x.store a bs).canonical :=
  h.write.foldl .fullWrite

/-- One effect of an instruction. -/
theorem Core.canonical.apply {u : Nat} {b : BitVec 13} {e : Eff} (h : x.canonical) : (Core.apply u b x e).1.canonical := by
  cases e with
  | mem a bs => exact h.store
  | fence a m wr => exact h.violation
  | reg off w => exact h.setReg
  | first off w more => exact .ite h (h.setReg.foldl .setReg)
  | count off n => exact h.bump
  | acc t i ow quiet order terms =>
    simp only [Core.apply]
    split
    · exact h.write
    · split
      · exact .setFrame h.write.setTileFlags
      · exact h.write.setTileFlags
  | accInt t i ow quiet terms =>
    simp only [Core.apply]
    split
    · exact h.write
    · exact h.write.setTileFlags
  | stage v => exact .setRf h
  | conv ve v => exact .ite h h
  | factor i f => exact .setRf h
  | filter l => exact .setRf h
  | tileFlags i o s => exact h.setTileFlags
  | amax _ _ | push _ | audit _ _ _ | edited | gatherOor _ | firstInv _ => exact .setFrame h
  | standby _ | rowSet _ _ => exact h

theorem Core.canonical.applyAll {u : Nat} {b : BitVec 13} {l : List Eff} (h : x.canonical) :
    (Core.applyAll u b x l).1.canonical :=
  List.foldlRecOn (motive := fun r : Core × NumEv => r.1.canonical) l _ h fun _ hz _ _ => hz.apply

theorem Core.canonical.fire {op : PendingOp} {e : Early} (h : x.canonical) : (x.fire k op e).canonical := h.applyAll.raises

theorem Core.canonical.satCount {f : Nat} (h : x.canonical) : (x.satCount f).canonical := h.bump

theorem Core.canonical.numFlag {now u b : Nat} {set : Bool} {code : Half} (h : x.canonical) :
    (x.numFlag now u set b code).canonical := .ite (.raiseNum h.setReg) h

theorem Core.canonical.numEvents {now u : Nat} {ev : NumEv} (h : x.canonical) : (x.numEvents now u ev).canonical :=
  (h.foldl .satCount).numFlag.numFlag.numFlag.numFlag.numFlag

/-! ## Misses -/

theorem Core.canonical.showRemaps (h : x.canonical) : x.showRemaps.canonical := h.foldl .setReg

theorem Core.canonical.showFills (h : x.canonical) : x.showFills.canonical := h.setRf.setRf

theorem Core.canonical.uncontained (h : x.canonical) : x.uncontained.canonical := .setFrame h.raiseInt.setRf

theorem Core.canonical.corrected {m : Nat} (h : x.canonical) : (x.corrected m).canonical := by
  unfold Core.corrected
  exact .ite (.setInteg h.setRf.setRf.raiseInt.setRf) h.setRf.setRf

theorem Core.canonical.remapLine {ctr line : Nat} (h : x.canonical) : (x.remapLine ctr line).canonical := by
  simp only [Core.remapLine]
  split
  · exact .ite (.setFrame (.setInteg (.setInteg (.setRf (.raiseInt h))))) (.setInteg (.setInteg (.setRf (.raiseInt h))))
  · have hw : ∀ {g l}, (((({ x with integ := g } : Core).report line 0x040C#16).write line l)).canonical := .write (.setInteg h)
    refine .showFills (.showRemaps ?_)
    split
    · exact .setInteg hw
    · exact .raiseInt (.setInteg hw)
    · exact .uncontained hw

theorem Core.canonical.refetch {line : Nat} (h : x.canonical) : (x.refetch line).canonical := by
  unfold Core.refetch
  exact .setInteg (.corrected (.bump (.raiseInt h)))

theorem Core.canonical.lastMiss {line : Nat} {p l : Bool} (h : x.canonical) : (x.lastMiss line p l).canonical := .ite h h.setReg

theorem Core.canonical.miss {line : Nat} {p : Bool} (h : x.canonical) : (x.miss k line p).canonical := by
  have counted : ∀ {l}, ((x.bump 0x8008 1).lastMiss line p l).canonical := .lastMiss (.bump h)
  have patrolled : ∀ {z : Core}, z.canonical → (if p then z.bump 0x8010 1 else z).canonical := fun hz => .ite hz.bump hz
  have filled : ∀ {z : Core} {b : Bool}, z.canonical → (if b then z.uncontained else z).canonical :=
    fun hz => .ite hz.uncontained hz
  have refetched : ∀ {z : Core}, z.canonical → (if z.isClean line then z.refetch line else z).canonical :=
    fun hz => .ite hz.refetch hz
  unfold Core.miss
  refine .ite h.lastMiss (refetched (.ite ?_ (.ite (.remapLine (.raiseInt (.setInteg ?_))) (.setInteg ?_))))
  all_goals exact filled (.setInteg (patrolled counted))

theorem Core.canonical.missFrame {code : Half} {b : BitVec 13} {l : List Nat} (h : x.canonical) :
    (x.missFrame k code b l).canonical := by
  have hm : (l.foldl (fun c l => c.miss k l false) x).canonical := h.foldl .miss
  refine .ite h (.ite ?_ (.abort (.raiseInt hm)))
  exact .ite (.raiseInt hm) (.raiseInt (.corrected (.raiseInt hm)))

theorem Core.canonical.frameMiss {u : Nat} {code : Half} {b : BitVec 13} {l : List Nat} (h : x.canonical) :
    (x.frameMiss k u code b l).canonical := .ite h h.raise.missFrame

/-! ## Completion -/

theorem Core.canonical.queuePeak (h : x.canonical) : (x.queuePeak k).canonical := .ite h.setRf h

theorem Core.canonical.leave {op : PendingOp} (h : x.canonical) : (x.leave op).canonical := .ite h (.release h)

theorem Core.canonical.waitAbandoned {now : Nat} (h : x.canonical) : (x.waitAbandoned now).canonical := by
  simp only [Core.waitAbandoned]
  split
  · exact h
  · exact h.setRf

theorem Core.canonical.checkRetire (h : x.canonical) : (x.checkRetire k).canonical :=
  .ite (.setRf (.setRf (.foldl h.waitAbandoned .setReg))) h

/-- The contract completion of an instruction. -/
theorem Core.canonical.complete {op : PendingOp} {f : Fate} (h : x.canonical) : (x.complete k op f).canonical := by
  refine .checkRetire (.showBusy (.ite h.leave ?_))
  refine .numEvents (.raises (.ite (.queuePeak ?_) ?_))
  all_goals exact .applyAll (.foldl (.frameMiss (.foldl h.leave .fire)) fun hz => hz.collide.raise)

/-! ## What falls due -/

theorem Core.canonical.takeWord {w : CacheWord} (h : x.canonical) : (x.takeWord k w).canonical := by
  simp only [Core.takeWord]
  split
  · exact .frameMiss h
  · exact h.store.frameMiss

theorem Core.canonical.checkHeader {hc : HdrCheck} {b : BitVec 13} (h : x.canonical) : (x.checkHeader hc b).canonical := by
  simp only [Core.checkHeader]
  split
  · exact h
  · exact .ite (.abort (.raise h)) (.setReg (.setReg (.setReg (.setReg (.abort (.raise h))))))

theorem Core.canonical.fetchTrap {b : Nat} {l : List Nat} (h : x.canonical) : (x.fetchTrap k b l).canonical :=
  .checkRetire (.frameMiss h)

theorem Core.canonical.doDue {d : Due} (h : x.canonical) : (x.doDue k d).canonical := by
  cases d with
  | word w => exact .takeWord h
  | early o e => exact .fire h
  | header o hc => exact .checkHeader h
  | trap l => exact h.fetchTrap
  | done o => exact h.complete

end Sys2Proof.Machine
end

section
/-! SUPPORT. What keeps every memory and register map of the module in canonical form: the named operations over the whole chip, one
lemma each, and with them all that falls due. -/

namespace Sys2Proof.Machine

variable {s t : State}

/-! ## Registers, cores and HBM -/

theorem State.canonical.core (h : s.canonical) (c : CoreId) : (s.core c).canonical := h.1 c

theorem State.canonical.hbm_wf (h : s.canonical) : Memory.wf s.hbm = true := h.2.1

theorem State.canonical.gregs_wf (h : s.canonical) : Sparse.wf globReset s.gregs = true := h.2.2.1

theorem State.canonical.gshadow_wf (h : s.canonical) : Sparse.wf globReset s.gshadow = true := h.2.2.2.1

theorem State.canonical.buffers_wf (h : s.canonical) : Memory.wf s.svc.buffers = true := h.2.2.2.2.1

theorem State.canonical.ite {p : Prop} [Decidable p] (h : s.canonical) (h' : t.canonical) : (if p then s else t).canonical := by
  split <;> assumption

/-- An operation repeated over a list. -/
theorem State.canonical.foldl {α : Type} {f : State → α → State} {l : List α} (h : s.canonical)
    (hf : ∀ {u a}, u.canonical → (f u a).canonical) : (l.foldl f s).canonical :=
  List.foldlRecOn l f h fun _ hu _ _ => hf hu

theorem State.canonical.setCore {c : CoreId} {x : Core} (h : s.canonical) (hx : x.canonical) : (s.setCore c x).canonical := by
  refine ⟨fun d => ?_, h.2⟩
  by_cases hd : d = c
  · rw [hd, State.core_setCore_self]; exact hx
  · rw [State.core_setCore_ne s x hd]; exact h.core d

theorem State.canonical.mapCores {f : CoreId → Core → Core} (h : s.canonical) (hf : ∀ {c x}, x.canonical → (f c x).canonical) :
    (s.mapCores f).canonical := by
  refine ⟨fun d => ?_, by simpa using h.2⟩
  rw [State.core_mapCores]
  exact hf (h.core d)

theorem State.canonical.setGreg {a : Nat} {w : Word} (h : s.canonical) : (s.setGreg a w).canonical :=
  ⟨h.core, h.hbm_wf, State.wf_setGreg h.gregs_wf a w, h.2.2.2⟩

theorem State.canonical.setGf {a hi lo v : Nat} (h : s.canonical) : (s.setGf a hi lo v).canonical := h.setGreg

theorem State.canonical.bumpG {a n : Nat} (h : s.canonical) : (s.bumpG a n).canonical := h.setGreg

theorem State.canonical.hbmWrite {a : Nat} {bs : List Byte} (h : s.canonical) : (s.hbmWrite a bs).canonical :=
  ⟨h.core, Memory.wf_write a bs h.hbm_wf, h.2.2⟩

theorem State.canonical.emit {o : Output} (h : s.canonical) : (s.emit o).canonical := h

theorem State.canonical.tick1 (h : s.canonical) : s.tick1.canonical := h

theorem State.canonical.atCycle {n : Nat} (h : s.canonical) : (s.atCycle n).canonical := .ite h h

theorem Core.canonical.addEvents {x : Core} {src n : Nat} (h : x.canonical) : (x.addEvents src n).canonical :=
  h.foldl fun hz => .ite hz.bump hz

theorem State.canonical.event {src : Nat} (h : s.canonical) : (s.event src).canonical := h.mapCores .addEvents

/-! ## Reports of the integrity logic -/

theorem State.canonical.alertFor {n : Nat} (h : s.canonical) : (s.alertFor n).canonical := .ite h h

theorem State.canonical.setHealth {u st fl : Nat} {code : Half} (h : s.canonical) : (s.setHealth u st fl code).canonical :=
  .emit (.emit (.alertFor h))

theorem State.canonical.takeReport {c : CoreId} {r : Nat × Half} (h : s.canonical) : (State.takeReport c s r).canonical :=
  .ite h (.ite (.setHealth h) (.setHealth h))

theorem State.canonical.drainReports {c : CoreId} (h : s.canonical) : (s.drainReports c).canonical :=
  .foldl (h.setCore (.drained (h.core c))) .takeReport

/-! ## Messages on a port -/

theorem State.canonical.setPort {p : Nat} {x : Port} (h : s.canonical) : (s.setPort p x).canonical := h

theorem State.canonical.firstSend {p : Nat} {f : List Byte} (h : s.canonical) : (State.firstSend p s f).canonical :=
  .emit (.bumpG h)

theorem State.canonical.pushFlit {p : Nat} {f : List Byte} (h : s.canonical) : (State.pushFlit p s f).canonical :=
  .ite (.firstSend h) h

theorem State.canonical.sendGroup {p : Nat} {l : List (List Byte × Bool × Bool)} (h : s.canonical) :
    (State.sendGroup p s l).canonical := by
  simp only [State.sendGroup]
  split
  · exact h
  · exact .setGreg (.foldl h.setPort .pushFlit)

theorem State.canonical.sendMessage {p : Nat} {m : List Byte} (h : s.canonical) : (s.sendMessage p m).canonical :=
  .ite h (.foldl h .sendGroup)

/-! ## Collectives -/

theorem State.canonical.setRun {i : Nat} {r : CollRun} (h : s.canonical) : (s.setRun i r).canonical := h

theorem State.canonical.serviceRead {a n : Nat} (h : s.canonical) : (s.serviceRead a n).2.canonical := .ite h.bumpG h

theorem State.canonical.showColl (h : s.canonical) : s.showColl.canonical := h.setGf.setGf

theorem State.canonical.collEvents {ev : NumEv} {nan : Bool} (h : s.canonical) : (s.collEvents ev nan).canonical := by
  have h1 : (if ev.inv || nan then s.setGf 0x60C00 10 10 1 else s).canonical := .ite h.setGf h
  exact .ite h1.setGf h1

theorem State.canonical.sendColl {i j : Nat} {r : CollRun} {hd : Word → MsgHead} {body : List Byte} (h : s.canonical) :
    (s.sendColl i r j hd body).canonical := by
  simp only [State.sendColl]
  split
  · exact h
  · refine .ite h ?_
    split
    · exact h.sendMessage.setRun
    · exact h.sendMessage

theorem State.canonical.sendCdata {i j : Nat} {r : CollRun} {body : List Byte} (h : s.canonical) :
    (s.sendCdata i r j body).canonical := h.sendColl

theorem State.canonical.signalReady (h : s.canonical) : s.signalReady.canonical := .foldl h .event

theorem State.canonical.tileEpoch {r : CollRun} {n : Nat} (h : s.canonical) : (s.tileEpoch r n).2.canonical := h.serviceRead

theorem State.canonical.iteSnd {β : Type} {p : Prop} [Decidable p] {a b : β × State} (ha : a.2.canonical) (hb : b.2.canonical) :
    (if p then a else b).2.canonical := by
  split <;> assumption

/-- A fold that carries a value beside the state. -/
theorem State.canonical.foldlSnd {α β : Type} {f : β × State → α → β × State} {l : List α} {b : β} (h : s.canonical)
    (hf : ∀ {r a}, r.2.canonical → (f r a).2.canonical) : (l.foldl f (b, s)).2.canonical :=
  List.foldlRecOn (motive := fun r : β × State => r.2.canonical) l f h fun _ hr _ _ => hf hr

theorem State.canonical.sumShard {i : Nat} {d : Coll} {r : CollRun} (h : s.canonical) : (s.sumShard i d r).canonical := by
  simp only [State.sumShard]
  refine .ite h ?_
  have read : ∀ (l : List Nat), (l.foldl (fun (st : List (Nat × Word) × State) n =>
      (st.1 ++ [(n, (st.2.tileEpoch r n).1)], (st.2.tileEpoch r n).2)) ([], s)).2.canonical := fun l => h.foldlSnd .tileEpoch
  have written : ∀ {u : State} {b : Bool} {a bs ev}, u.canonical →
      (if b then u else (u.hbmWrite a bs).collEvents ev false).canonical := fun hu => .ite hu hu.hbmWrite.collEvents
  refine .ite (.setRun (.bumpG (written (read _)))) (.ite (.foldl (.setRun (written (read _))) .sendCdata) ?_)
  exact .setRun (written (read _))

theorem State.canonical.giveBlock {i j : Nat} {d : Coll} {r : CollRun} {body : List Byte} (h : s.canonical) :
    (s.giveBlock i d r j body).canonical :=
  .ite (.sumShard h.setRun) (.setRun (.hbmWrite h))

theorem State.canonical.takeCdata {m : List Byte} (h : s.canonical) : (s.takeCdata m).canonical := by
  unfold State.takeCdata
  split
  · exact h.giveBlock
  · exact h

theorem State.canonical.giveEarly (h : s.canonical) : s.giveEarly.canonical := .foldl h .takeCdata

theorem State.canonical.contribute {i : Nat} {d : Coll} {r : CollRun} (h : s.canonical) : (s.contribute i d r).canonical := by
  unfold State.contribute
  lift_lets
  extract_lets m one sent
  have residual : ∀ {u : State} {a n}, u.canonical → (if d.comp = 0 then ([], u) else u.serviceRead a n).2.canonical :=
    fun hu => .iteSnd hu hu.serviceRead
  have tagged : ∀ {u : State} {n}, u.canonical → (if d.sparse then u.tileEpoch r n else (0#32, u)).2.canonical :=
    fun hu => .iteSnd hu.tileEpoch hu
  have formed : ∀ {v : State × List Byte} {b}, v.1.canonical → (one v b).1.canonical := by
    intro v b hv
    simp only [one]
    exact .ite (tagged (residual hv.serviceRead)) (.collEvents (.hbmWrite (tagged (residual hv.serviceRead))))
  have hsent : sent.canonical := by
    refine h.foldl fun {u j} hu => ?_
    have body : ((d.owned m j).foldl one (u, [])).1.canonical :=
      List.foldlRecOn (motive := fun v : State × List Byte => v.1.canonical) _ one hu fun _ hv _ _ => formed hv
    refine .ite hu (.ite ?_ body.sendCdata)
    split
    · exact body.setRun
    · exact body
  split
  · exact hsent.sumShard
  · exact hsent

theorem State.canonical.spread {i : Nat} {d : Coll} {r : CollRun} (h : s.canonical) : (s.spread i d r).canonical :=
  .ite h (.hbmWrite (.foldl (.setRun (.serviceRead h)) .sendCdata))

theorem State.canonical.askShards {i : Nat} {d : Coll} {r : CollRun} (h : s.canonical) : (s.askShards i d r).canonical := by
  simp only [State.askShards]
  split
  · exact h.setRun
  · exact .ite h.setRun (.signalReady (.foldl (.setRun (.hbmWrite h.serviceRead)) .sendColl))

theorem State.canonical.startRun {i : Nat} {d : Coll} {r : CollRun} {bad : Bool} (h : s.canonical) :
    (s.startRun i d r bad).canonical := by
  simp only [State.startRun]
  have begun : ∀ {c : Collectives}, ({ s with coll := c } : State).canonical := h
  refine .showColl (.giveEarly (.signalReady ?_))
  refine .ite (.setRun begun) (.ite (.setRun begun) (.ite (.setRun begun) (.ite (.contribute begun) (.ite ?_ ?_))))
  · exact .askShards begun
  · exact .spread begun

theorem State.canonical.takeStartRecord {r : StartRecord} {bad : Bool} (h : s.canonical) :
    (s.takeStartRecord r bad).canonical := by
  simp only [State.takeStartRecord]
  split
  · exact h
  · refine .ite h (.ite h (.ite ?_ ?_))
    · split
      · exact .startRun h.setRun
      · exact .startRun h
    · split
      · exact h.setRun
      · exact h

/-! ## DMA (R246, R249) -/

theorem State.canonical.dmaViolation {own c : CoreId} {b : BitVec 13} {a m : Nat} {wr : Bool} (h : s.canonical) :
    (s.dmaViolation own c b a m wr).canonical := by
  have noted : (s.setCore c ((s.core c).noteViolation (lineOf a) m wr)).canonical := h.setCore (h.core c).noteViolation
  exact noted.setCore (noted.core own).abort

theorem DmaRun.take_canonical {own : CoreId} {o : DmaOp} {r : DmaRun} {row : DmaRow} (h : r.s.canonical) :
    (r.take own o row).1.s.canonical := by
  simp only [DmaRun.take]
  split
  · split
    · exact h.dmaViolation
    · exact h
  · exact h

theorem DmaRun.land_canonical {own c : CoreId} {ch : Nat} {o : DmaOp} {f : Fate} {r : DmaRun} {a : Nat} {bs : List Byte}
    (h : r.s.canonical) : (r.land own c ch o f a bs).s.canonical := by
  have stored : ∀ {l : List LostWrite} {ws : List (Nat × List Byte)}, (r.s.setCore c (ws.foldl (fun x w => x.store w.1 w.2)
      (l.foldl (fun x l => x.collide l.line 0 l.winner) (r.s.core c)))).canonical :=
    h.setCore (.foldl (.foldl (h.core c) .collide) .store)
  simp only [DmaRun.land]
  split
  · exact h.dmaViolation
  · split <;> exact stored

/-- One piece of a transfer. -/
theorem DmaRun.piece_canonical {own : CoreId} {ch : Nat} {o : DmaOp} {f : Fate} {r : DmaRun} {row : DmaRow}
    (h : r.s.canonical) : (r.piece own ch o f row).s.canonical := by
  have ht : (r.take own o row).1.s.canonical := DmaRun.take_canonical h
  simp only [DmaRun.piece]
  split
  · exact DmaRun.land_canonical ht
  · exact DmaRun.land_canonical ht
  · exact ht.hbmWrite
  · split
    · exact ht
    · obtain ⟨hc, hh, hg, hs, hb, hp⟩ := ht
      exact ⟨hc, hh, hg, hs, hb, Memory.wf_write _ _ hp⟩

theorem State.canonical.edgeSend {own : CoreId} {o : DmaOp} {bad : Bool} {ep a : Nat} {bs : List Byte} (h : s.canonical) :
    (s.edgeSend own o bad ep a bs).canonical :=
  .ite h.sendMessage (.ite h.takeStartRecord (.ite (h.setCore (.setFrame (h.core own))) h))

theorem State.canonical.dmaStalls {own : CoreId} {o : DmaOp} (h : s.canonical) : (s.dmaStalls own o).canonical := by
  have own_stalled : (s.setCore own ((s.core own).stalled o.stalls)).canonical := h.setCore (.setFrame (h.core own))
  simp only [State.dmaStalls]
  split
  · exact own_stalled
  · exact own_stalled.setCore (.setFrame (own_stalled.core _))

theorem State.canonical.dmaStatus {own : CoreId} {ch n : Nat} {o : DmaOp} {code : Half} (h : s.canonical) :
    (s.dmaStatus own ch n o code).canonical := by
  have done : ((((s.core own).bump (0x2210 + 32 * ch) 1)).setRf (0x2204 + 32 * ch) 11 0 o.desc).canonical := (h.core own).bump.setRf
  exact h.setCore (.checkRetire (.setRf (.setRf (.ite done done.raise))))

theorem State.canonical.haltChannel {own : CoreId} {ch : Nat} (h : s.canonical) : (s.haltChannel own ch).canonical :=
  h.setCore (h.core own).setRf

/-- The bytes of a descriptor move. -/
theorem State.canonical.transfer {own : CoreId} {ch : Nat} {o : DmaOp} {f : Fate} (h : s.canonical) :
    (s.transfer own ch o f).1.canonical := by
  have moved : ∀ {l : List DmaRow}, (l.foldl (DmaRun.piece own ch o f) ⟨s, [], []⟩).s.canonical :=
    List.foldlRecOn (motive := fun r : DmaRun => r.s.canonical) _ _ h fun _ hr _ _ => DmaRun.piece_canonical hr
  simp only [State.transfer]
  split
  · exact (h.setCore (h.core own).raiseInt.abort).haltChannel
  · have halted : ∀ {b : Bool} {r : DmaRun} {k lines}, r.s.canonical → (if b then r else
        ({ r with s := (r.s.setCore own ((r.s.core own).missFrame k 0x0403#16 o.bundle lines)).haltChannel own ch } : DmaRun).code
          0x0403#16).s.canonical := by
      intro b r k lines hr
      split
      · exact hr
      · exact (hr.setCore (hr.core own).missFrame).haltChannel
    split
    · exact .ite (.edgeSend (halted moved)) (halted moved)
    · exact halted moved

/-- The contract completion of a descriptor. -/
theorem State.canonical.dmaComplete {own : CoreId} {ch n : Nat} (h : s.canonical) : (s.dmaComplete own ch n).canonical := by
  simp only [State.dmaComplete]
  split
  · exact h
  · have started : ∀ {d : List DmaCh}, ((s.atCycle n).tick1.setCore own { (s.atCycle n).tick1.core own with dma := d }).canonical :=
      .setCore h.atCycle (h.atCycle.core own)
    refine .drainReports (.dmaStatus ?_)
    split
    · exact started.dmaStalls
    · exact started.dmaStalls.transfer

/-! ## What falls due -/

theorem State.canonical.fall {c : CoreId} {n : Nat} {d : Due} (h : s.canonical) : (s.fall c n d).canonical := by
  have ht : (s.atCycle n).tick1.canonical := h.atCycle.tick1
  exact (ht.setCore (.doDue (ht.core c))).drainReports

theorem State.canonical.happen {c : CoreId} {n : Nat} {d : DueOf} (h : s.canonical) : (s.happen c n d).canonical := by
  cases d with
  | engine d => exact h.fall
  | dma ch => exact h.dmaComplete

theorem State.canonical.settleUpTo {cs : List CoreId} {t n : Nat} (h : s.canonical) : (State.settleUpTo cs t n s).canonical := by
  induction n generalizing s with
  | zero => exact h
  | succ n ih =>
    simp only [State.settleUpTo]
    split
    · exact .ite (ih h.happen) h
    · exact h

theorem State.canonical.settle {cs : List CoreId} {n : Nat} (h : s.canonical) : (s.settle cs n).canonical := h.settleUpTo

theorem State.canonical.settleAt {a : Nat} (h : s.canonical) : (s.settleAt a).canonical := by
  unfold State.settleAt
  split
  · exact h.settle
  · exact h

end Sys2Proof.Machine
end

section
/-! SUPPORT. What a write through BAR0 or PF1 does to the register, the shadow or the buffer it reaches, case by case (R5, R6, R62, R63,
R241, R340, R345). -/

namespace Sys2Proof.Machine

/-! ## Fields, shadows and buffers -/

/-- A field of one bit is that bit. -/
theorem fld_bit (w : Word) (i : Nat) : fld w i i = (bitAt w i).toNat := by
  have h : (w.toNat >>> i) % 2 = (w.toNat.testBit i).toNat := by rw [Nat.toNat_testBit, Nat.shiftRight_eq_div_pow]
  simpa [fld, fieldOf, bitAt, BitVec.getLsbD] using h

/-- Bit 2, set. -/
theorem fld_setFld_bit2 (w : Word) : fld (setFld w 2 2 1) 2 2 = 1 := by
  simp [fld_bit, bitAt, setFld]

theorem Core.shadowReg_setShadow_self {x : Core} (h : x.canonical) (a : Nat) (w : Word) : (x.setShadow a w).shadowReg a = w :=
  Sparse.get_set_self h.shadow_wf a w

theorem State.gshadowReg_setGshadow_self {s : State} (h : s.canonical) (a : Nat) (w : Word) :
    (s.setGshadow a w).gshadowReg a = w :=
  Sparse.get_set_self h.gshadow_wf a w

@[simp] theorem Core.shadowReg_setReg (x : Core) (a r : Nat) (w : Word) : (x.setReg a w).shadowReg r = x.shadowReg r := rfl

@[simp] theorem State.gshadowReg_setGreg (s : State) (a r : Nat) (w : Word) : (s.setGreg a w).gshadowReg r = s.gshadowReg r := rfl

/-- Bytes written stand where they were written, and nowhere else. -/
theorem Memory.holds_write {m : List (Nat × Byte)} (h : Memory.wf m = true) (a : Nat) (bs : List Byte) :
    Memory.holds m (Memory.write m a bs) a bs := by
  refine ⟨fun i hi => ?_, fun i hi => Memory.byte_write_outside m a bs hi⟩
  rw [Memory.byte_write_inside h a bs hi, List.getD_eq_getElem _ _ hi]

/-- The word-aligned address of a write below 2^28. -/
theorem aligned_setWidth {a : Word} (h : a.toNat / 4 * 4 < 2 ^ 28) : (a.setWidth 28).toNat / 4 * 4 = a.toNat / 4 * 4 := by
  have : a.toNat < 2 ^ 28 := by omega
  rw [BitVec.toNat_setWidth, Nat.mod_eq_of_lt this]

/-! ## The status register of a block's commits (R62) -/

/-- Where CMT_STATUS of a block stands, in the global area or in the core's window. -/
def statusOff : Block → Nat
  | .shutter => 0x40040
  | .link => 0x60004
  | .cpm => 0x30008
  | .core _ => 0x1204

/-- A block of the global area has its status there. -/
theorem blkStatus_of_blockAt {n : Nat} {blk : Block} (h : blockAt n = some blk) (s : State) :
    s.blkStatus blk = s.greg (statusOff blk) ∧ ∀ w, s.setBlkStatus blk w = s.setGreg (statusOff blk) w := by
  simp only [blockAt] at h
  split_ifs at h <;> cases h <;> exact ⟨rfl, fun _ => rfl⟩

/-- The CMT_STATUS registers have no CMT field. -/
theorem globStatus_noCmt : ∀ o ∈ [0x40040, 0x60004, 0x30008], (findReg globRegs o).all fun b => b.mask .cmt = 0#32 := by
  decide +kernel

theorem coreStatus_noCmt : (findReg coreRegs 0x1204).all fun b => b.mask .cmt = 0#32 := by decide +kernel

/-- A global register with CMT fields is no CMT_STATUS. -/
theorem ne_statusOff_of_cmt {n : Nat} {b : RegBlk} {blk : Block} (hb : findReg globRegs n = some b) (hm : b.mask .cmt ≠ 0#32)
    (hk : blockAt n = some blk) : n ≠ statusOff blk := by
  have hmem : statusOff blk ∈ [0x40040, 0x60004, 0x30008] := by
    simp only [blockAt] at hk
    split_ifs at hk <;> cases hk <;> decide
  rintro rfl
  have none := globStatus_noCmt _ hmem
  rw [hb] at none
  exact hm (by simpa using none)

/-- A register of a core's window with CMT fields is not CORE_CMT_STATUS. -/
theorem ne_coreStatus_of_cmt {off : Nat} {b : RegBlk} (hb : findReg coreRegs off = some b) (hm : b.mask .cmt ≠ 0#32) :
    off ≠ 0x1204 := by
  rintro rfl
  have none := coreStatus_noCmt
  rw [hb] at none
  exact hm (by simpa using none)

/-! ## The global area -/

section Global
variable {s : State} {n : Nat} {b : RegBlk} {blk : Block} {w : Word}

/-- A register without CMT fields. -/
theorem State.globPut_noCmt (hm : b.mask .cmt = 0#32) : s.globPut n b w = s.setGreg n (mergeReg b (s.greg n) w) := by
  simp [State.globPut, hm]

/-- A register with CMT fields, no commit of its block pending. -/
theorem State.globPut_cmt (hb : findReg globRegs n = some b) (hm : b.mask .cmt ≠ 0#32) (hk : blockAt n = some blk)
    (hp : s.blkPending blk = false) : s.globPut n b w =
      (s.setGreg n (mergeReg b (s.greg n) w)).setGshadow n ((s.gshadowReg n &&& ~~~b.mask .cmt) ||| (w &&& b.mask .cmt)) := by
  have hp' : (s.setGreg n (mergeReg b (s.greg n) w)).blkPending blk = false := by
    rw [← hp]
    simp only [State.blkPending, (blkStatus_of_blockAt hk _).1, State.greg_setGreg_ne s _ (ne_statusOff_of_cmt hb hm hk)]
  simp [State.globPut, hm, hk, hp']

/-- A register with CMT fields, a commit of its block pending. -/
theorem State.globPut_locked (hb : findReg globRegs n = some b) (hm : b.mask .cmt ≠ 0#32) (hk : blockAt n = some blk)
    (hp : s.blkPending blk = true) : s.globPut n b w =
      (s.setGreg n (mergeReg b (s.greg n) w)).setGreg (statusOff blk) (setFld (s.greg (statusOff blk)) 2 2 1) := by
  have hg : (s.setGreg n (mergeReg b (s.greg n) w)).blkStatus blk = s.greg (statusOff blk) := by
    rw [(blkStatus_of_blockAt hk _).1, State.greg_setGreg_ne s _ (ne_statusOff_of_cmt hb hm hk)]
  have hp' : (s.setGreg n (mergeReg b (s.greg n) w)).blkPending blk = true := by
    rw [← hp, State.blkPending, State.blkPending, hg, (blkStatus_of_blockAt hk s).1]
  simp [State.globPut, hm, hk, hp', State.shadowLocked, hg, (blkStatus_of_blockAt hk _).2]

/-- A register with CMT fields outside every block. -/
theorem State.globPut_noBlock (hk : blockAt n = none) : s.globPut n b w = s.setGreg n (mergeReg b (s.greg n) w) := by
  simp [State.globPut, hk]

/-- The register takes what its access codes say. -/
theorem State.greg_globPut (h : s.canonical) (hb : findReg globRegs n = some b) :
    (s.globPut n b w).greg n = mergeReg b (s.greg n) w := by
  have put := State.greg_setGreg_self h.gregs_wf n (mergeReg b (s.greg n) w)
  by_cases hm : b.mask .cmt = 0#32
  · rw [State.globPut_noCmt hm, put]
  cases hk : blockAt n with
  | none => rw [State.globPut_noBlock hk, put]
  | some blk =>
    cases hp : s.blkPending blk with
    | false => rw [State.globPut_cmt hb hm hk hp, State.greg_congr (State.setGshadow_gregs _ _ _), put]
    | true => rw [State.globPut_locked hb hm hk hp, State.greg_setGreg_ne _ _ (ne_statusOff_of_cmt hb hm hk).symm, put]

/-- The shadow of its CMT fields takes the value written, or the write is discarded and noted. -/
theorem State.shadow_globPut (h : s.canonical) (hb : findReg globRegs n = some b) (hm : b.mask .cmt ≠ 0#32)
    (hk : blockAt n = some blk) :
    if s.blkPending blk then fld ((s.globPut n b w).blkStatus blk) 2 2 = 1 ∧ (s.globPut n b w).gshadow = s.gshadow
    else (s.globPut n b w).gshadowReg n = (s.gshadowReg n &&& ~~~b.mask .cmt) ||| (w &&& b.mask .cmt) := by
  cases hp : s.blkPending blk with
  | false =>
    rw [if_neg (by simp), State.globPut_cmt hb hm hk hp]
    exact State.gshadowReg_setGshadow_self h.setGreg _ _
  | true =>
    rw [if_pos rfl, State.globPut_locked hb hm hk hp]
    refine ⟨?_, rfl⟩
    rw [(blkStatus_of_blockAt hk _).1, State.greg_setGreg_self h.setGreg.gregs_wf, fld_setFld_bit2]

/-- A write to a register whose write is no action of its own. -/
theorem State.globWrite_eq (hn : n < 0x80000 ∨ 0xA0000 ≤ n ∨ 0x1000 < (n - 0x80000) % 0x2000) (hb : findReg globRegs n = some b)
    (hr : keyRole n = none) (hc : commitOf n = none) (hg : htuGuarded n = false) (hd : n ≠ 0x70004) (hs : b.base ≠ 0x70100) :
    s.globWrite n w = s.globPut n b w := by
  have ht : n ≠ 0x20004 := by rintro rfl; simp [htuGuarded] at hg
  by_cases h : 0x80000 ≤ n ∧ n < 0xA0000
  · have h1 : ¬ (n - 0x80000) % 0x2000 < 0x1000 := by omega
    have h2 : (n - 0x80000) % 0x2000 ≠ 0x1000 := by omega
    simp [State.globWrite, h.1, h.2, h1, h2, hb]
  · have hw : (decide (0x80000 ≤ n) && decide (n < 0xA0000)) = false := by simpa using h
    simp [State.globWrite, hw, hr, hc, hg, ht, hd, hb, hs]

/-- A write of a command buffer. -/
theorem State.globWrite_buffer (h1 : 0x80000 ≤ n) (h2 : n < 0xA0000) (h3 : (n - 0x80000) % 0x2000 < 0x1000) :
    s.globWrite n w = s.writeBuffer ((n - 0x80000) / 0x2000) ((n - 0x80000) % 0x2000) w := by
  simp [State.globWrite, h1, h2, h3]

/-- A command buffer takes a write while its mailbox is free. -/
theorem State.writeBuffer_holds (h : s.canonical) {k o : Nat} (hf : s.svc.running.getD k none = none) :
    Memory.holds s.svc.buffers (s.writeBuffer k o w).svc.buffers (k * 0x2000 + o) (leBytes 4 w.toNat) := by
  simp only [State.writeBuffer, hf, Option.isSome_none, Bool.false_eq_true, if_false]
  exact Memory.holds_write h.buffers_wf _ _

end Global

/-! ## A core's window -/

section Window
variable {s : State} {c : CoreId} {off : Nat} {b : RegBlk} {w : Word}

/-- A window lies from 0x1000000 on. -/
theorem winOf_ge {n : Nat} (h : winOf n = some (c, off)) : 0x1000000 ≤ n := by
  by_contra hn
  simp [winOf, Nat.lt_of_not_le hn] at h

/-- A write in the window of an available core, of a unit that no slice tests, finds what has fallen due. -/
theorem State.bar0Write_window {n : Nat} (hw : winOf n = some (c, off)) (ho : off < 0x10000) (ha : s.available c = true)
    (hs : s.slicing c off = false) : s.bar0Write n w = (s.settleAt n).coreWrite c off w := by
  simp [State.bar0Write, Nat.not_lt.2 (winOf_ge hw), hw, ha, hs, Nat.not_le.2 ho]

/-- The bank map, the fences and the carry words take no write while an image is loaded. -/
theorem State.coreWrite_loaderOnly (hg : off ≠ 0x1200) (hc : off ≠ 0x401C) (hb : findReg coreRegs off = some b)
    (hl : s.loaded = true) (ho : loaderOnly off = true) : s.coreWrite c off w = s := by
  simp [State.coreWrite, hg, hc, hb, hl, ho]

variable (hg : off ≠ 0x1200) (hc : off ≠ 0x401C) (hb : findReg coreRegs off = some b) (hf : (s.loaded && loaderOnly off) = false)
include hg hc hb hf

/-- A carry word's shadow takes the value written. -/
theorem State.coreWrite_carry (h : b.base = 0x2040) (hp : bitAt ((s.core c).reg 0x2020) 0 = false) :
    s.coreWrite c off w = s.setCore c ((s.core c).setShadow off w) := by
  simp [State.coreWrite, hg, hc, hb, hf, h, hp]

/-- With a commit of the sequencer's block pending, it is discarded and noted. -/
theorem State.coreWrite_carry_locked (h : b.base = 0x2040) (hp : bitAt ((s.core c).reg 0x2020) 0 = true) :
    s.coreWrite c off w = s.setCore c ((s.core c).setRf 0x2020 2 2 1) := by
  simp [State.coreWrite, hg, hc, hb, hf, h, hp]

/-- A register without CMT fields. -/
theorem State.coreWrite_noCmt (h : b.base ≠ 0x2040) (hm : b.mask .cmt = 0#32) :
    s.coreWrite c off w = s.setCore c ((s.core c).setReg off (mergeReg b ((s.core c).reg off) w)) := by
  simp [State.coreWrite, hg, hc, hb, hf, h, hm]

/-- A register with CMT fields, no commit of the core's block pending. -/
theorem State.coreWrite_cmt (h : b.base ≠ 0x2040) (hm : b.mask .cmt ≠ 0#32) (hp : s.blkPending (.core c) = false) :
    s.coreWrite c off w = s.setCore c (((s.core c).setReg off (mergeReg b ((s.core c).reg off) w)).setShadow off
      (((s.core c).shadowReg off &&& ~~~b.mask .cmt) ||| (w &&& b.mask .cmt))) := by
  simp [State.coreWrite, hg, hc, hb, hf, h, hm, hp]

/-- A register with CMT fields, a commit of the core's block pending. -/
theorem State.coreWrite_locked (h : b.base ≠ 0x2040) (hm : b.mask .cmt ≠ 0#32) (hp : s.blkPending (.core c) = true) :
    (s.coreWrite c off w).core c = ((s.core c).setReg off (mergeReg b ((s.core c).reg off) w)).setReg 0x1204
      (setFld ((s.core c).reg 0x1204) 2 2 1) := by
  simp [State.coreWrite, hg, hc, hb, hf, h, hm, hp, State.shadowLocked, State.setBlkStatus, State.blkStatus,
    Core.reg_setReg_ne _ _ (ne_coreStatus_of_cmt hb hm)]

/-- The carry words: the shadow takes the value written, or, with a commit pending, is left and the write noted. -/
theorem State.coreWrite_carry_spec (hx : (s.core c).canonical) (h : b.base = 0x2040) :
    ((s.core c).rf 0x2020 0 0 = 0 → ((s.coreWrite c off w).core c).shadowReg off = w) ∧
      ((s.core c).rf 0x2020 0 0 = 1 → ((s.coreWrite c off w).core c).shadow = (s.core c).shadow ∧
        ((s.coreWrite c off w).core c).rf 0x2020 2 2 = 1) := by
  simp only [Core.rf, fld_bit ((s.core c).reg 0x2020) 0]
  cases hp : bitAt ((s.core c).reg 0x2020) 0 with
  | false =>
    rw [State.coreWrite_carry hg hc hb hf h hp, State.core_setCore_self]
    exact ⟨fun _ => Core.shadowReg_setShadow_self hx off w, fun h => absurd h (by simp)⟩
  | true =>
    rw [State.coreWrite_carry_locked hg hc hb hf h hp, State.core_setCore_self]
    refine ⟨fun h => absurd h (by simp), fun _ => ⟨rfl, ?_⟩⟩
    rw [Core.setRf, Core.reg_setReg_self hx.regs_wf, fld_setFld_bit2]

/-- Every other register takes what its access codes say. -/
theorem State.reg_coreWrite (hx : (s.core c).canonical) (h : b.base ≠ 0x2040) :
    ((s.coreWrite c off w).core c).reg off = mergeReg b ((s.core c).reg off) w := by
  have put := Core.reg_setReg_self hx.regs_wf off (mergeReg b ((s.core c).reg off) w)
  by_cases hm : b.mask .cmt = 0#32
  · rw [State.coreWrite_noCmt hg hc hb hf h hm, State.core_setCore_self, put]
  cases hp : s.blkPending (.core c) with
  | false => rw [State.coreWrite_cmt hg hc hb hf h hm hp, State.core_setCore_self]; exact put
  | true => rw [State.coreWrite_locked hg hc hb hf h hm hp, Core.reg_setReg_ne _ _ (ne_coreStatus_of_cmt hb hm).symm, put]

/-- The shadow of its CMT fields takes the value written, or the write is discarded and noted. -/
theorem State.shadow_coreWrite (hx : (s.core c).canonical) (h : b.base ≠ 0x2040) (hm : b.mask .cmt ≠ 0#32) :
    if s.blkPending (.core c) then
      ((s.coreWrite c off w).core c).rf 0x1204 2 2 = 1 ∧ ((s.coreWrite c off w).core c).shadow = (s.core c).shadow
    else ((s.coreWrite c off w).core c).shadowReg off = ((s.core c).shadowReg off &&& ~~~b.mask .cmt) ||| (w &&& b.mask .cmt) := by
  cases hp : s.blkPending (.core c) with
  | false =>
    rw [if_neg (by simp), State.coreWrite_cmt hg hc hb hf h hm hp, State.core_setCore_self]
    exact Core.shadowReg_setShadow_self hx.setReg _ _
  | true =>
    rw [if_pos rfl, State.coreWrite_locked hg hc hb hf h hm hp]
    refine ⟨?_, rfl⟩
    rw [Core.rf, Core.reg_setReg_self hx.setReg.regs_wf, fld_setFld_bit2]

end Window

/-! ## REGISTER_WRITE -/

section Command
variable {s : State} {a w : Word}

/-- A write below 2^28 through PF0 that leaves every reserved field 0. -/
theorem State.gives_write {p : State → Prop} (ha : s.accessible = true) (hn : a.toNat / 4 * 4 < 2 ^ 28)
    (hr : s.reservedOnes (a.toNat / 4 * 4) w = false) (hp : p (s.bar0Write (a.toNat / 4 * 4) w)) :
    s.gives (.registerWrite ⟨false, a.setWidth 28⟩ w) p := by
  refine ⟨_, exec_registerWrite ha ?_, ?_⟩ <;> rwa [aligned_setWidth hn]

/-- A write below 2^28 through PF1 that is not one of the mailbox's STATUS. -/
theorem State.gives_write_pf1 {p : State → Prop} (ha : s.accessible = true) (hn : a.toNat / 4 * 4 < 2 ^ 28)
    (h : a.toNat / 4 * 4 ≠ 0x1004) (hp : p (s.pf1Write (a.toNat / 4 * 4) w)) :
    s.gives (.registerWrite ⟨true, a.setWidth 28⟩ w) p := by
  refine ⟨_, exec_registerWrite_pf1 ha ?_, ?_⟩ <;> rw [aligned_setWidth hn]
  · simp [pf1Reserved, h]
  · exact hp

end Command

end Sys2Proof.Machine
end

section
/-! The register writes of chapter 00 (R5–R7). -/

namespace Sys2Proof.Machine

/-- Settles O40: every command's arm but those of REGISTER_WRITE and POKE is a next state as it stands. -/
theorem onlyReservedFieldsStop : Obligations.OnlyReservedFieldsStop := by
  unfold Obligations.OnlyReservedFieldsStop
  refine ⟨fun s a w => exec_registerWrite_reserved, fun s w ha hw => ?_, fun s i f h => ?_, fun s i r h => ?_⟩
  · exact exec_registerWrite_pf1_reserved ha (by simpa [pf1Reserved] using hw)
  · obtain ⟨t, ht⟩ | ⟨a, w, hi, hf⟩ := exec_cases i s
    · simp [ht] at h
    · exact ⟨a, w, hi, by simpa [hf] using h.symm⟩
  · obtain ⟨t, ht⟩ | ⟨a, w, -, hf⟩ := exec_cases i s
    · simp [ht] at h
    · simp [hf] at h

/-- Settles O39: a write's cases in the global area, in a core's window and in a mailbox, each by its lemma; what has fallen due by a
write in a window leaves the core's maps in canonical form, so that what is written is read back. -/
theorem registerWrites : Obligations.RegisterWrites := by
  unfold Obligations.RegisterWrites
  intro s a w c b hs ha n off m u x
  have hu : u.canonical := hs.settleAt
  refine ⟨fun hn hlt hb hr hc hg hd hseg hres => ?_, fun hw ho hlt hb hg hc hav hsl hres => ?_,
    fun k h1 h2 hk h3 hres hfree => ?_, fun hlt hfree => ?_, fun hres => ?_, fun hge hlt => ?_⟩
  · refine State.gives_write ha (by omega) hres ?_
    have hput : s.bar0Write n w = s.globPut n b w := by
      rw [State.bar0Write, if_pos hlt, State.globWrite_eq hn hb hr hc hg hd hseg]
    rw [hput]
    refine ⟨State.greg_globPut hs hb, fun hm => ?_, fun blk hm hk => State.shadow_globPut hs hb hm hk⟩
    rw [State.globPut_noCmt hm]
    exact ⟨rfl, fun r hr => State.greg_setGreg_ne s _ hr.symm⟩
  · have step {p : State → Prop} (hp : p (u.coreWrite c off w)) : s.gives (.registerWrite ⟨false, a.setWidth 28⟩ w) p :=
      State.gives_write ha hlt hres (by rwa [State.bar0Write_window hw ho hav hsl])
    have notLoaders (hf : u.loaded = false ∨ loaderOnly off = false) : (u.loaded && loaderOnly off) = false := by
      rcases hf with h | h <;> simp [h]
    refine ⟨fun hl hlo => step (State.coreWrite_loaderOnly hg hc hb hl hlo), fun hf hbase => ?_, fun hf hbase => ?_⟩
    · obtain ⟨h0, h1⟩ := State.coreWrite_carry_spec hg hc hb (notLoaders hf) (w := w) (hu.core c) hbase
      exact ⟨fun h => step (h0 h), fun h => step (h1 h)⟩
    · refine step ⟨State.reg_coreWrite hg hc hb (notLoaders hf) (hu.core c) hbase, fun hm => ?_,
        State.shadow_coreWrite hg hc hb (notLoaders hf) (hu.core c) hbase⟩
      rw [State.coreWrite_noCmt hg hc hb (notLoaders hf) hbase hm, State.core_setCore_self]
      exact ⟨rfl, fun r hr => Core.reg_setReg_ne _ _ hr.symm⟩
  · refine State.gives_write ha (by omega) hres ?_
    have hbuf : (n - 0x80000) / 0x2000 = k := by omega
    rw [State.bar0Write, if_pos (by omega), State.globWrite_buffer h1 h2 h3, hbuf]
    have hold := State.writeBuffer_holds (w := w) (o := (n - 0x80000) % 0x2000) hs hfree
    rwa [show k * 0x2000 + (n - 0x80000) % 0x2000 = n - 0x80000 by omega] at hold
  · refine State.gives_write_pf1 ha (by omega) (by omega) ?_
    rw [State.pf1Write, if_pos hlt]
    exact State.writeBuffer_holds hs hfree
  · refine ⟨_, exec_registerWrite_pf1 ha (by simpa [pf1Reserved] using hres), ?_⟩
    exact State.greg_setGreg_self hs.gregs_wf _ _
  · refine State.gives_write_pf1 ha hlt (by omega) ?_
    have h1 : ¬ n < 0x1000 := by omega
    have h2 : n ≠ 0x1000 := by omega
    have h3 : n ≠ 0x1004 := by omega
    simp [State.pf1Write, n, h1, h2, h3]

end Sys2Proof.Machine
end

section
/-! SUPPORT. The fields of a register word: a field reads what was written to it, and a write leaves every other field alone. -/

namespace Sys2Proof.Machine

/-! ## Fields of a word -/

/-- A bit of a word with a field replaced: the field's own bits are those of the value. -/
theorem bitAt_setFld (w : Word) {hi lo i : Nat} (v : Nat) (h : lo ≤ hi) (hh : hi < 32) :
    bitAt (setFld w hi lo v) i = if lo ≤ i ∧ i ≤ hi then v.testBit (i - lo) else bitAt w i := by
  simp only [bitAt, setFld, BitVec.getLsbD_or, BitVec.getLsbD_and, BitVec.getLsbD_not, BitVec.getLsbD_ofNat,
    Nat.testBit_shiftLeft, Nat.testBit_mod_two_pow, Nat.testBit_two_pow_sub_one]
  by_cases h1 : lo ≤ i
  · by_cases h2 : i ≤ hi
    · simp [h1, h2, show i < 32 by omega, show i - lo < hi + 1 - lo by omega]
    · simp only [h1, h2, show ¬ i - lo < hi + 1 - lo by omega]
      simpa using fun h5 => BitVec.lt_of_getLsbD h5
  · simpa [h1] using fun h5 => BitVec.lt_of_getLsbD h5

theorem testBit_fld (w : Word) (hi lo i : Nat) : (fld w hi lo).testBit i = (decide (i < hi + 1 - lo) && bitAt w (lo + i)) := by
  simp [fld, fieldOf, bitAt, BitVec.getLsbD, Nat.testBit_mod_two_pow, Nat.testBit_shiftRight]

/-- A field reads the low bits of what was written to it. -/
theorem fld_setFld_self (w : Word) {hi lo : Nat} (v : Nat) (h : lo ≤ hi) (hh : hi < 32) :
    fld (setFld w hi lo v) hi lo = v % 2 ^ (hi + 1 - lo) := by
  refine Nat.eq_of_testBit_eq fun i => ?_
  rw [testBit_fld, bitAt_setFld w v h hh, Nat.testBit_mod_two_pow]
  by_cases hi' : i < hi + 1 - lo
  · simp [hi', show lo + i ≤ hi by omega]
  · simp [hi']

/-- A field reads as before after a write to a field apart from it. -/
theorem fld_setFld_ne (w : Word) {hi lo hi' lo' : Nat} (v : Nat) (h : lo ≤ hi) (hh : hi < 32) (hd : hi' < lo ∨ hi < lo') :
    fld (setFld w hi lo v) hi' lo' = fld w hi' lo' := by
  refine Nat.eq_of_testBit_eq fun i => ?_
  rw [testBit_fld, testBit_fld, bitAt_setFld w v h hh]
  by_cases hi2 : i < hi' + 1 - lo'
  · rw [if_neg (by omega)]
  · simp [hi2]

theorem bitAt_setFld_ne (w : Word) {hi lo i : Nat} (v : Nat) (h : lo ≤ hi) (hh : hi < 32) (hd : i < lo ∨ hi < i) :
    bitAt (setFld w hi lo v) i = bitAt w i := by
  rw [bitAt_setFld w v h hh, if_neg (by omega)]

/-- A bit is set where its field is 1. -/
theorem fld_eq_one_iff (w : Word) (i : Nat) : fld w i i = 1 ↔ bitAt w i = true := by
  rw [fld_bit]; cases bitAt w i <;> simp

theorem fld_eq_zero_iff (w : Word) (i : Nat) : fld w i i = 0 ↔ bitAt w i = false := by
  rw [fld_bit]; cases bitAt w i <;> simp

/-- A field holds less than its bits can count. -/
theorem fld_lt (w : Word) (hi lo : Nat) : fld w hi lo < 2 ^ (hi + 1 - lo) := Nat.mod_lt _ (Nat.two_pow_pos _)

/-! ## Fields of the global area -/

section Global
variable {s : State} {a b hi lo hi' lo' v : Nat}

theorem State.gf_congr {s t : State} (h : t.gregs = s.gregs) (a hi lo : Nat) : t.gf a hi lo = s.gf a hi lo := by
  rw [State.gf, State.gf, State.greg_congr h]

theorem State.gbit_congr {s t : State} (h : t.gregs = s.gregs) (a i : Nat) : t.gbit a i = s.gbit a i := by
  rw [State.gbit, State.gbit, State.greg_congr h]

theorem State.greg_setGf_ne (s : State) (h : a ≠ b) : (s.setGf a hi lo v).greg b = s.greg b := State.greg_setGreg_ne s _ h

theorem State.gf_setGf_self (hs : s.canonical) (h : lo ≤ hi) (hh : hi < 32) :
    (s.setGf a hi lo v).gf a hi lo = v % 2 ^ (hi + 1 - lo) := by
  rw [State.gf, State.setGf, State.greg_setGreg_self hs.gregs_wf, fld_setFld_self _ _ h hh]

/-- Another register, or a field of the same register apart from the one written. -/
theorem State.gf_setGf_ne (hs : s.canonical) (h : lo ≤ hi) (hh : hi < 32) (hd : a ≠ b ∨ hi' < lo ∨ hi < lo') :
    (s.setGf a hi lo v).gf b hi' lo' = s.gf b hi' lo' := by
  by_cases hab : a = b
  · subst hab
    rw [State.gf, State.gf, State.setGf, State.greg_setGreg_self hs.gregs_wf,
      fld_setFld_ne _ _ h hh (hd.resolve_left fun h => h rfl)]
  · rw [State.gf, State.gf, State.greg_setGf_ne s hab]

theorem State.gf_setGreg_ne (s : State) {w : Word} (h : a ≠ b) : (s.setGreg a w).gf b hi lo = s.gf b hi lo := by
  rw [State.gf, State.gf, State.greg_setGreg_ne s w h]

theorem State.gf_setGf_reg_ne (s : State) (h : a ≠ b) : (s.setGf a hi lo v).gf b hi' lo' = s.gf b hi' lo' :=
  State.gf_setGreg_ne s h

theorem State.gbit_setGf_reg_ne (s : State) (h : a ≠ b) {i : Nat} : (s.setGf a hi lo v).gbit b i = s.gbit b i := by
  rw [State.gbit, State.gbit, State.greg_setGf_ne s h]

theorem State.gbit_setGreg_ne (s : State) {w : Word} (h : a ≠ b) {i : Nat} : (s.setGreg a w).gbit b i = s.gbit b i := by
  rw [State.gbit, State.gbit, State.greg_setGreg_ne s w h]

theorem State.gbit_setGf_self (hs : s.canonical) (b : Bool) {i : Nat} (hi : i < 32) :
    (s.setGf a i i (bit b)).gbit a i = b := by
  rw [State.gbit, State.setGf, State.greg_setGreg_self hs.gregs_wf, bitAt_setFld _ _ (Nat.le_refl i) hi]
  cases b <;> simp [bit]

/-- A bit of another register, or of the same register apart from the field written. -/
theorem State.gbit_setGf_ne (hs : s.canonical) (h : lo ≤ hi) (hh : hi < 32) {i : Nat} (hd : a ≠ b ∨ i < lo ∨ hi < i) :
    (s.setGf a hi lo v).gbit b i = s.gbit b i := by
  by_cases hab : a = b
  · subst hab
    rw [State.gbit, State.gbit, State.setGf, State.greg_setGreg_self hs.gregs_wf,
      bitAt_setFld_ne _ _ h hh (hd.resolve_left fun h => h rfl)]
  · exact State.gbit_setGf_reg_ne s hab

end Global

/-! ## Fields of a core's window -/

/-- A register of a core's window depends on its registers alone. -/
theorem Core.reg_congr {x y : Core} (h : y.regs = x.regs) (r : Nat) : y.reg r = x.reg r := by rw [Core.reg, Core.reg, h]

theorem Core.rf_congr {x y : Core} (h : y.regs = x.regs) (r hi lo : Nat) : y.rf r hi lo = x.rf r hi lo := by
  rw [Core.rf, Core.rf, Core.reg_congr h]

section Window
variable {x : Core} {a b hi lo hi' lo' v : Nat}

theorem Core.rf_setRf_self (hx : x.canonical) (h : lo ≤ hi) (hh : hi < 32) :
    (x.setRf a hi lo v).rf a hi lo = v % 2 ^ (hi + 1 - lo) := by
  rw [Core.rf, Core.setRf, Core.reg_setReg_self hx.regs_wf, fld_setFld_self _ _ h hh]

/-- Another register, or a field of the same register apart from the one written. -/
theorem Core.rf_setRf_ne (hx : x.canonical) (h : lo ≤ hi) (hh : hi < 32) (hd : a ≠ b ∨ hi' < lo ∨ hi < lo') :
    (x.setRf a hi lo v).rf b hi' lo' = x.rf b hi' lo' := by
  by_cases hab : a = b
  · subst hab
    rw [Core.rf, Core.rf, Core.setRf, Core.reg_setReg_self hx.regs_wf, fld_setFld_ne _ _ h hh (hd.resolve_left fun h => h rfl)]
  · rw [Core.rf, Core.rf, Core.reg_setRf_ne x _ _ _ hab]

end Window

/-! ## What a command answers -/

/-- A command that answers a state of which something holds. -/
theorem State.gives_of {s t : State} {i : Instr} {p : State → Prop} (h : exec i s = .next t) (hp : p t) : s.gives i p := ⟨t, h, hp⟩

/-- A command answers one state. -/
theorem State.gives_iff {s t : State} {i : Instr} {p : State → Prop} (h : exec i s = .next t) : s.gives i p ↔ p t := by
  simp [State.gives, h]

/-! ## Operations repeated over a list -/

/-- What one operation leaves alone, its repetition leaves alone. -/
theorem foldl_keeps {α β γ : Type} {f : β → α → β} {g : β → γ} {l : List α} (h : ∀ b, ∀ a ∈ l, g (f b a) = g b) (b : β) :
    g (l.foldl f b) = g b :=
  List.foldlRecOn (motive := fun x => g x = g b) l f rfl fun x hx a ha => (h x a ha).trans hx

/-- Where every element of a list but one leaves something alone, the repetition does to it what that one does after some of the
others. -/
theorem foldl_once {α β γ : Type} {f : β → α → β} {g : β → γ} {l : List α} {i : α} (hi : i ∈ l) (hn : l.Nodup)
    (h : ∀ b, ∀ a ∈ l, a ≠ i → g (f b a) = g b) (b : β) :
    ∃ l1 : List α, (∀ a ∈ l1, a ∈ l ∧ a ≠ i) ∧ g (l.foldl f b) = g (f (l1.foldl f b) i) := by
  obtain ⟨l1, l2, rfl⟩ := List.append_of_mem hi
  obtain ⟨-, hn2, hn12⟩ := List.nodup_append.1 hn
  refine ⟨l1, fun a ha => ⟨List.mem_append_left _ ha, hn12 a ha i (by simp)⟩, ?_⟩
  rw [List.foldl_append, List.foldl_cons]
  exact foldl_keeps (fun b a ha => h b a (by simp [ha]) fun e => (List.nodup_cons.1 hn2).1 (e ▸ ha)) _

end Sys2Proof.Machine
end

section
/-! Reset (R27, R88 and the register tables): what the registers of the global area and of a core hold. -/

namespace Sys2Proof.Machine

/-! ## A core after reset -/

theorem State.core_reset (c : CoreId) : State.reset.core c = Core.atReset c.val := by
  show (Vector.ofFn fun n : Fin 144 => Core.atReset n.val)[c.val] = _
  simp

/-- Every register of a core but CORE_ID reads its table's value. -/
theorem Core.reg_atReset (n : Nat) {r : Nat} (h : r ≠ 0) : (Core.atReset n).reg r = coreReset r :=
  Core.reg_setReg_ne Core.reset _ h.symm

/-- The bank maps, and the control words of the fences. -/
theorem coreReset_banks : ∀ n, n < 16 → coreReset (0x1000 + 4 * n) = 0xFFFFFFFF#32 := by decide +kernel

theorem coreReset_fences : ∀ i, i < 8 → coreReset (0x1108 + 16 * i) = 0#32 := by decide +kernel

/-- The print descriptors. -/
theorem coreReset_printDescs : ∀ n, n < 64 → coreReset (0x4800 + 32 * n) = 0#32 ∧ coreReset (0x4800 + 32 * n + 4) = 0x3F800000#32 ∧
    coreReset (0x4800 + 32 * n + 8) = 0xFF800000#32 ∧ coreReset (0x4800 + 32 * n + 12) = 0x7F800000#32 := by decide +kernel

/-- No fence is enabled. -/
theorem Core.fenceOn_atReset (n : Nat) {i : Nat} (hi : i < 8) (a : Nat) : (Core.atReset n).fenceOn i a = false := by
  have h : (Core.atReset n).reg (0x1108 + 16 * i) = 0#32 := by rw [Core.reg_atReset n (by omega), coreReset_fences i hi]
  simp [Core.fenceOn, h, bitAt]

/-- No access to a memory is denied. -/
theorem Core.denies_atReset (n m : Nat) (wr : Bool) {a : Nat} (ha : a < 0x5A0000) : (Core.atReset n).denies m wr a = false := by
  simp only [Core.denies, Bool.or_eq_false_iff, decide_eq_false_iff_not, Nat.not_le, List.any_eq_false, List.mem_range]
  exact ⟨ha, fun i hi => by simp [Core.fenceOn_atReset n hi a]⟩

/-- A print descriptor is a plain copy to FP32. -/
theorem Core.printDesc_atReset (c : Nat) {n : Nat} (hn : n < 64) : let d := (Core.atReset c).printDesc n
    d.ofmt = 0 ∧ d.biasEn = false ∧ d.ssrc = false ∧ d.qexp = 0 ∧ d.cap = false ∧ d.hpush = false ∧
      d.oscale = 0x3F800000#32 ∧ d.clipLo = 0xFF800000#32 ∧ d.clipHi = 0x7F800000#32 := by
  obtain ⟨h0, h1, h2, h3⟩ := coreReset_printDescs n hn
  simp only [Core.printDesc, Core.reg_atReset c (show 0x4800 + 32 * n ≠ 0 by omega),
    Core.reg_atReset c (show 0x4800 + 32 * n + 4 ≠ 0 by omega), Core.reg_atReset c (show 0x4800 + 32 * n + 8 ≠ 0 by omega),
    Core.reg_atReset c (show 0x4800 + 32 * n + 12 ≠ 0 by omega), h0, h1, h2, h3]
  decide

/-! ## The global area after reset -/

theorem globReset_table : ∀ r ∈ [(0x40000, 0xF4240#32), (0x40004, 0#32), (0x40020, 0#32), (0x40028, 0x14#32), (0x40038, 0x1B774#32),
    (0x4010C, 0x10#32), (0x50000, 0#32), (0x60804, 0#32), (0x3000C, 0#32)], globReset r.1 = r.2 := by decide +kernel

theorem globReset_segments : ∀ n, n < 16 → globReset (0x70100 + 4 * n) = BitVec.ofNat 32 (2 ^ 31 + n) := by decide +kernel

/-- Settles O2: a register after reset reads its table's value, and every clause is read off the tables. -/
theorem resetHoldsSpecValues : Obligations.ResetHoldsSpecValues := by
  unfold Obligations.ResetHoldsSpecValues
  have table {a : Nat} {w : Word} (h : globReset a = w) : State.reset.greg a = w := h
  have off {a i : Nat} (h : State.reset.greg a = 0#32) : State.reset.gbit a i = false := by simp [State.gbit, h, bitAt]
  refine ⟨rfl, rfl, off (table (globReset_table (0x50000, 0#32) (by simp))), rfl, off (table (globReset_table (0x40004, 0#32) (by simp))),
    off (table (globReset_table (0x3000C, 0#32) (by simp))), fun r hr => globReset_table r (by simp at hr ⊢; tauto), ?_, globReset_segments, fun c => ?_⟩
  · rw [State.gf, table (globReset_table (0x40028, 0x14#32) (by simp))]
    decide
  · rw [State.core_reset]
    refine ⟨rfl, rfl, ?_, fun n hn => ?_, fun m wr a ha => Core.denies_atReset _ m wr ha, fun n hn => Core.printDesc_atReset _ hn⟩
    · rw [Core.reg_atReset _ (by decide)]
      decide +kernel
    · rw [Core.reg_atReset _ (by omega), coreReset_banks n hn]

end Sys2Proof.Machine
end

section
/-! Keys, doorbells, the saturation counts and the frame-number latch (R16, R35, R74, R337, R347, R404, R442). -/

namespace Sys2Proof.Machine

/-! ## Event counters (R238) -/

/-- Events of a source at one counter: they count where it is bound to the source. -/
def Core.countEvents (src n : Nat) (x : Core) (i : Nat) : Core :=
  if src ≠ 0 && x.rf (0x2080 + 4 * i) 7 0 = src then x.bump (0x20C0 + 4 * i) n else x

theorem Core.addEvents_eq (src n : Nat) (x : Core) : x.addEvents src n = (List.range 16).foldl (Core.countEvents src n) x := rfl

theorem Core.reg_countEvents_ne (src n : Nat) (x : Core) {i r : Nat} (h : 0x20C0 + 4 * i ≠ r) :
    (x.countEvents src n i).reg r = x.reg r := by
  unfold Core.countEvents
  split
  · exact Core.reg_bump_ne x n h
  · rfl

theorem Core.canonical.countEvents {x : Core} {src n i : Nat} (h : x.canonical) : (x.countEvents src n i).canonical := .ite h.bump h

/-- Events of a source reach no register but the event counters. -/
theorem Core.reg_addEvents_ne (src n : Nat) (x : Core) {r : Nat} (h : ∀ i, i < 16 → 0x20C0 + 4 * i ≠ r) :
    (x.addEvents src n).reg r = x.reg r :=
  foldl_keeps (g := fun y : Core => y.reg r) (fun y _ hi => Core.reg_countEvents_ne src n y (h _ (List.mem_range.1 hi))) x

/-- An event of a source counts in each counter that is bound to it, and in no other. -/
theorem Core.reg_addEvents {src : Nat} (hsrc : src ≠ 0) {x : Core} (hx : x.canonical) {i : Nat} (hi : i < 16) :
    (x.addEvents src 1).reg (0x20C0 + 4 * i) =
      if x.rf (0x2080 + 4 * i) 7 0 = src then satAdd32 (x.reg (0x20C0 + 4 * i)) 1 else x.reg (0x20C0 + 4 * i) := by
  obtain ⟨l, hl, he⟩ := foldl_once (f := Core.countEvents src 1) (g := fun y : Core => y.reg (0x20C0 + 4 * i))
    (List.mem_range.2 hi) List.nodup_range (fun y j _ hj => Core.reg_countEvents_ne src 1 y (by omega)) x
  have others {r : Nat} (hr : ∀ j, j < 16 → j ≠ i → 0x20C0 + 4 * j ≠ r) : (l.foldl (Core.countEvents src 1) x).reg r = x.reg r :=
    foldl_keeps (g := fun y : Core => y.reg r)
      (fun y j hj => Core.reg_countEvents_ne src 1 y (hr j (List.mem_range.1 (hl j hj).1) (hl j hj).2)) x
  have hbind : (l.foldl (Core.countEvents src 1) x).rf (0x2080 + 4 * i) 7 0 = x.rf (0x2080 + 4 * i) 7 0 := by
    rw [Core.rf, others (by omega), ← Core.rf]
  have hcnt := others (r := 0x20C0 + 4 * i) (by omega)
  rw [Core.addEvents_eq, he, Core.countEvents]
  simp only [hbind, ne_eq, hsrc, not_false_eq_true, decide_true, Bool.true_and, decide_eq_true_eq]
  split
  · rw [Core.bump, Core.reg_setReg_self (hx.foldl .countEvents).regs_wf, hcnt]
  · exact hcnt

/-- A counter that saturates. -/
theorem toNat_satAdd32_one (w : Word) : (satAdd32 w 1).toNat = min (w.toNat + 1) 0xFFFFFFFF := by
  have := w.isLt
  unfold satAdd32
  split
  · simp; omega
  · rw [BitVec.toNat_ofNat]; omega

/-! ## Doorbells (R347) -/

/-- One doorbell of a write, as a core sees it. -/
def Core.ring (w : Word) (x : Core) (n : Nat) : Core := if bitAt w n then x.addEvents (0x30 + n) 1 else x

theorem State.core_ringDoorbells {s : State} (w : Word) (h : s.gbit 0x70008 0 = true) (c : CoreId) :
    (s.ringDoorbells w).core c = (List.range 16).foldl (Core.ring w) (s.core c) := by
  rw [State.ringDoorbells, if_neg (by simp [h])]
  refine (List.foldl_hom (fun s : State => s.core c) fun s n => ?_).symm
  unfold Core.ring
  split
  · simp [State.event]
  · rfl

/-- One doorbell at a counter: it counts where the counter is bound to it. -/
theorem Core.reg_ring {x : Core} (hx : x.canonical) (w : Word) (n : Nat) {i : Nat} (hi : i < 16) :
    (x.ring w n).reg (0x20C0 + 4 * i) = if bitAt w n = true ∧ x.rf (0x2080 + 4 * i) 7 0 = 0x30 + n then
      satAdd32 (x.reg (0x20C0 + 4 * i)) 1 else x.reg (0x20C0 + 4 * i) := by
  unfold Core.ring
  split
  · next hb => rw [Core.reg_addEvents (by omega) hx hi]; simp [hb]
  · next hb => simp [hb]

theorem Core.rf_ring_bind (x : Core) (w : Word) (n : Nat) {i : Nat} (hi : i < 16) :
    (x.ring w n).rf (0x2080 + 4 * i) 7 0 = x.rf (0x2080 + 4 * i) 7 0 := by
  unfold Core.ring
  split
  · rw [Core.rf, Core.rf, Core.reg_addEvents_ne _ _ _ (by omega)]
  · rfl

/-- Some doorbells count 1 in a counter that is bound to one of them. -/
theorem Core.reg_rings {l : List Nat} (hl : l.Nodup) {x : Core} (hx : x.canonical) (w : Word) {i : Nat} (hi : i < 16) :
    let src := x.rf (0x2080 + 4 * i) 7 0
    (l.foldl (Core.ring w) x).reg (0x20C0 + 4 * i) =
      if 0x30 ≤ src ∧ src - 0x30 ∈ l ∧ bitAt w (src - 0x30) = true then satAdd32 (x.reg (0x20C0 + 4 * i)) 1
      else x.reg (0x20C0 + 4 * i) := by
  induction l generalizing x with
  | nil => simp
  | cons n l ih =>
    obtain ⟨hn, hl⟩ := List.nodup_cons.1 hl
    have hy : (x.ring w n).canonical := .ite hx.addEvents hx
    have := ih hl hy
    simp only [Core.rf_ring_bind x w n hi, Core.reg_ring hx w n hi] at this
    rw [List.foldl_cons, this]
    by_cases hs : x.rf (0x2080 + 4 * i) 7 0 = 0x30 + n
    · simp [hs, hn]
    · simp only [hs, and_false, if_false, List.mem_cons]
      refine if_congr (and_congr_right fun h => and_congr_left fun _ => ?_) rfl rfl
      simp [show x.rf (0x2080 + 4 * i) 7 0 - 0x30 ≠ n by omega]

/-! ## KEY registers (R35, R337, R347, R404, R442) -/

/-- A write of a KEY register sets OK to whether the handle is that of an open session of the role. -/
theorem State.greg_writeKey {s : State} (hs : s.canonical) (off role : Nat) (w : Word) :
    (s.writeKey off role w).greg off = if s.holds w role then 1#32 else 0#32 := by
  unfold State.writeKey
  refine State.greg_setGreg_self ?_ _ _
  split <;> exact hs.gregs_wf

/-- A write of a KEY register through BAR0. -/
theorem State.regWrite_key {s : State} {off role : Nat} {w : Word} (ha : s.accessible = true) (hlt : off < 0x80000)
    (hk : keyRole off = some role) : s.regWrite off w = s.writeKey off (if off = 0x2000C then s.testRole else role) w := by
  have hw : ¬ 0x80000 ≤ off := by omega
  simp [State.regWrite, ha, State.bar0Write, show off < 0x1000000 by omega, State.globWrite, hw, hk]

/-- A write of HIF_DOORBELL through BAR0. -/
theorem State.regWrite_doorbell {s : State} (ha : s.accessible = true) (w : Word) : s.regWrite 0x70004 w = s.ringDoorbells w := by
  simp [State.regWrite, ha, State.bar0Write, State.globWrite, keyRole, commitOf, htuGuarded]

/-! ## The saturation counts and the latch (R16, R74) -/

/-- NUM_CLR clears each of the eleven counts. -/
theorem Core.reg_clearSat {x : Core} (hx : x.canonical) {f : Nat} (hf : f < 11) : x.clearSat.reg (0x4044 + 4 * f) = 0#32 := by
  obtain ⟨l, -, he⟩ := foldl_once (f := fun (y : Core) f => y.setReg (0x4044 + 4 * f) 0#32) (g := fun y : Core => y.reg (0x4044 + 4 * f))
    (List.mem_range.2 hf) List.nodup_range (fun y j _ hj => Core.reg_setReg_ne y _ (by omega)) x
  rw [Core.clearSat, he]
  exact Core.reg_setReg_self (hx.foldl .setReg).regs_wf _ _

/-- It writes no other register. -/
theorem Core.reg_clearSat_ne (x : Core) {r : Nat} (h : r < 0x4044 ∨ 0x4070 ≤ r) : x.clearSat.reg r = x.reg r :=
  foldl_keeps (g := fun y : Core => y.reg r) (fun y j hj => Core.reg_setReg_ne y _ (by have := List.mem_range.1 hj; omega)) x

theorem winBase_split (c : CoreId) {off : Nat} (ho : off < 0x100000) : ¬ winBase c + off < 0x1000000 ∧
    (winBase c + off - 0x1000000) / 0x100000 = c.val ∧ (winBase c + off - 0x1000000) % 0x100000 = off := by
  unfold winBase; omega

/-- An address in the window of a core. -/
theorem winOf_winBase (c : CoreId) {off : Nat} (ho : off < 0x100000) : winOf (winBase c + off) = some (c, off) := by
  obtain ⟨h1, h2, h3⟩ := winBase_split c ho
  unfold winOf
  rw [if_neg h1, h3]
  dsimp only
  rw [dif_pos (by rw [h2]; exact c.isLt)]
  simp [h2]

/-- What falls due by a write in a core's window does so on that core. -/
theorem State.settleAt_eq {s : State} {a off : Nat} {c : CoreId} (h : winOf a = some (c, off)) : s.settleAt a = s.settle [c] s.clock := by
  simp [State.settleAt, h]

theorem winOf_winBase_zero (c : CoreId) : winOf (winBase c) = some (c, 0) :=
  (congrArg winOf (Nat.add_zero (winBase c))).symm.trans (winOf_winBase c (by decide))

theorem State.settleAt_winBase (s : State) (c : CoreId) {off : Nat} (ho : off < 0x100000) :
    s.settleAt (winBase c + off) = s.settleAt (winBase c) := by
  rw [State.settleAt_eq (winOf_winBase c ho), State.settleAt_eq (winOf_winBase_zero c)]

/-- A write of NUM_CLR in the window of an available core, of a unit that no slice tests. -/
theorem State.regWrite_numClr {s : State} {c : CoreId} (ha : s.accessible = true) (hv : s.available c = true)
    (hsl : s.slicing c 0x401C = false) : s.regWrite (winBase c + 0x401C) 1#32 =
      (s.settleAt (winBase c)).setCore c ((s.settleAt (winBase c)).core c).clearSat := by
  rw [State.regWrite, if_pos ha, State.bar0Write_window (winOf_winBase c (by decide)) (by decide) hv hsl,
    State.settleAt_winBase s c (by decide)]
  simp [State.coreWrite, bitAt]

/-- A read of SHT_FN_LO gives FN's low word and latches its high bits. -/
theorem State.bar0Read_fnLo (s : State) : s.bar0Read 0x40010 =
    (s.tick1.setGreg 0x40014 (BitVec.ofNat 32 (s.shutter.fn.toNat / 2 ^ 32)), s.shutter.fn.setWidth 32) := by
  have hw : winOf 0x40010 = none := by simp [winOf]
  simp [State.bar0Read, State.settleAt, hw, State.bar0Value, State.globRead, State.tick1]

theorem exec_shtFnLoRead {s : State} (ha : s.accessible = true) : exec .shtFnLoRead s = .next
    ((s.tick1.setGreg 0x40014 (BitVec.ofNat 32 (s.shutter.fn.toNat / 2 ^ 32))).emit
      (.read (leBytes 4 (s.shutter.fn.toNat % 2 ^ 32)))) := by
  show execShtFnLoRead s = _
  simp [execShtFnLoRead, ha, State.bar0Read_fnLo]

/-- Settles O38: a KEY register by what its write sets, the doorbells by what they count, NUM_CLR and SHT_FN_LO by what they change. -/
theorem keysDoorbellsAndLatches : Obligations.KeysDoorbellsAndLatches := by
  unfold Obligations.KeysDoorbellsAndLatches
  intro s c w bits hs ha hv hsl
  have key (off : Nat) {role r : Nat} {i : Instr} (hlt : off < 0x80000) (hk : keyRole off = some role)
      (hi : exec i s = .next (s.regWrite off w)) (hr : (if off = 0x2000C then s.testRole else role) = r) :
      (s.holds w r = true → s.gives i fun t => t.greg off = 1#32) ∧ (s.holds w r = false → s.gives i fun t => t.greg off = 0#32) := by
    simp only [State.gives_iff hi, State.regWrite_key ha hlt hk, State.greg_writeKey hs, hr]
    exact ⟨fun h => if_pos h, fun h => if_neg (by simp [h])⟩
  refine ⟨?_, fun h => ⟨_, rfl, ?_⟩, fun h => State.gives_of rfl fun i hi => ?_, State.gives_of rfl ?_,
    State.gives_of (exec_shtFnLoRead ha) ⟨?_, rfl⟩⟩
  · simp only [List.forall_mem_cons, List.not_mem_nil, false_imp_iff, implies_true, and_true]
    exact ⟨key 0x40044 (by decide) rfl rfl rfl, key 0x60008 (by decide) rfl rfl rfl, key 0x3001C (by decide) rfl rfl rfl,
      key 0x2000C (by decide) rfl rfl rfl, key 0x70008 (by decide) rfl rfl rfl⟩
  · rw [State.regWrite_doorbell ha, State.ringDoorbells, if_pos (by simp [h])]
  · intro src old
    have hb : 0x30 ≤ src ∧ src - 0x30 ∈ List.range 16 ∧ bitAt (bits.setWidth 32) (src - 0x30) = true ↔
        0x30 ≤ src ∧ src < 0x40 ∧ bits.getLsbD (src - 0x30) = true := by
      simp only [List.mem_range, bitAt, BitVec.getLsbD_setWidth]
      constructor <;> rintro ⟨h1, h2, h3⟩ <;> refine ⟨h1, by omega, ?_⟩
      · simpa using (Bool.and_eq_true _ _ ▸ h3).2
      · simp [h3, show src - 0x30 < 32 by omega]
    rw [State.regWrite_doorbell ha, State.core_ringDoorbells _ h, Core.reg_rings (List.nodup_range (n := 16)) (hs.core c) _ hi,
      if_congr hb rfl rfl]
    split
    · exact toNat_satAdd32_one _
    · rfl
  · rw [State.regWrite_numClr ha hv hsl, State.core_setCore_self]
    exact ⟨fun f hf => Core.reg_clearSat (hs.settleAt.core c) hf, fun r hr => Core.reg_clearSat_ne _ hr⟩
  · exact State.greg_setGreg_self (s := s.tick1) hs.gregs_wf _ _

end Sys2Proof.Machine
end

section
/-! The events of a tick (R13, R155, R200, R290, R441, R442): power class, global step, predictor enables and derate steps. -/

namespace Sys2Proof.Machine

/-! ## Time -/

@[simp] theorem State.greg_atCycle (s : State) (n a : Nat) : (s.atCycle n).greg a = s.greg a := State.greg_congr (by simp) a

@[simp] theorem State.gf_atCycle (s : State) (n a hi lo : Nat) : (s.atCycle n).gf a hi lo = s.gf a hi lo := by
  simp [State.gf]

@[simp] theorem State.core_atCycle (s : State) (n : Nat) (c : CoreId) : (s.atCycle n).core c = s.core c := State.core_congr (by simp) c

/-- The token meter leaves the power manager alone. -/
theorem State.meter_power (s : State) (t : Nat) : (s.meter t).power = s.power := by
  simp only [State.meter]
  split
  · split <;> rfl
  · rfl

/-! ## Power class (R441, R442) -/

theorem State.strapClass_le (s : State) : s.strapClass ≤ 2 := by
  have : s.gf 0x30014 3 2 < 4 := fld_lt (s.greg 0x30014) 3 2
  unfold State.strapClass
  dsimp only
  split <;> omega

/-- The class due is the lowest of the committed and the forced class, which is no higher than the strap's. -/
theorem State.classDue_eq (s : State) : s.classDue = min (s.gf 0x30000 1 0) s.forceLimit := by
  unfold State.classDue
  dsimp only
  split <;> omega

theorem State.classDue_le (s : State) : s.classDue ≤ 2 := by
  have := s.strapClass_le
  have : s.forceLimit ≤ s.strapClass := by unfold State.forceLimit; split <;> omega
  rw [State.classDue_eq]
  omega

theorem poolOf_lt (cls : Nat) : poolOf cls < 2 ^ 10 := by
  unfold poolOf
  split
  · decide
  · split <;> decide

theorem poolOf_eq_getD {cls : Nat} (h : cls ≤ 2) : poolOf cls = [480, 600, 720].getD cls 0 := by
  match cls, h with
  | 0, _ => rfl
  | 1, _ => rfl
  | 2, _ => rfl

/-- The class due and its pool are in force together, and no change is pending. -/
theorem State.setClass_spec {s : State} (h : s.canonical) : s.setClass.gf 0x3000C 1 0 = s.classDue ∧
    s.setClass.gf 0x3000C 25 16 = poolOf s.classDue ∧ s.setClass.power.pending = none := by
  have hs : ({ s with power := { s.power with pending := none } } : State).canonical := h
  refine ⟨?_, ?_, rfl⟩
  · rw [State.setClass, State.gf_setGf_ne hs.setGf (by decide) (by decide) (.inr (.inl (by decide))),
      State.gf_setGf_self hs (by decide) (by decide), Nat.mod_eq_of_lt]
    have := s.classDue_le
    omega
  · rw [State.setClass, State.gf_setGf_self hs.setGf (by decide) (by decide), Nat.mod_eq_of_lt (poolOf_lt _)]

/-! ## Global step (R200) -/

theorem State.core_recordCursor (s : State) (step : Nat) (c : CoreId) : (s.recordCursor step).core c = s.core c := by
  unfold State.recordCursor
  split
  · rfl
  · split <;> rfl

theorem State.core_freezeCore (s : State) (c d : CoreId) : (s.freezeCore c).core d = s.core d := by
  unfold State.freezeCore
  split
  · rfl
  · split <;> rfl

/-- A step in two registers: its low word, and the bits above with the flag UADV cleared. -/
theorem gstep_split {t : Nat} (ht : t < 2 ^ 40) :
    (BitVec.ofNat 32 t : Word).toNat + fld (BitVec.ofNat 32 (t / 2 ^ 32)) 7 0 * 2 ^ 32 = t ∧ fld (BitVec.ofNat 32 (t / 2 ^ 32)) 8 8 = 0 := by
  simp only [fld, fieldOf, BitVec.toNat_ofNat, Nat.shiftRight_eq_div_pow]
  omega

/-- A core at a global step. -/
def Core.atStep (x : Core) (t : Nat) : Core := (x.setReg 0x6004 (BitVec.ofNat 32 t)).setReg 0x6008 (BitVec.ofNat 32 (t / 2 ^ 32))

/-- A core at its next step, with no factor set valid and its filter empty. -/
def Core.stepped (x : Core) : Core :=
  { x.atStep ((x.gstep + 1) % 2 ^ 40) with factors := List.replicate 16 none, filter := [] }

theorem Core.reg_stepped (x : Core) (r : Nat) : x.stepped.reg r = (x.atStep ((x.gstep + 1) % 2 ^ 40)).reg r :=
  Core.reg_congr (by simp only [Core.stepped]) r

/-- What a core that takes its step changes beside: the update engine's counts, the plates in force, and the step that a plate change
shows. -/
theorem Core.advance_eq {x : Core} (hu : bitAt (x.reg 0x6008) 8 = true) (hl : x.frame.live = false) :
    (∃ w, x.advance = ((x.stepped.setRf 0x6050 15 0 0).setRf 0x6054 15 0 0).setReg 0x6020 w) ∨
      ∃ w u v, x.advance = ((((x.stepped.setRf 0x6050 15 0 0).setRf 0x6054 15 0 0).setReg 0x6020 w).setReg 0x6034 u).setReg 0x6038 v := by
  rw [Core.advance, if_neg (by simp [hu, hl])]
  dsimp only
  split
  · exact .inr ⟨_, _, _, rfl⟩
  · exact .inl ⟨_, rfl⟩

/-- The registers of a core that a step may change. -/
def stepRegs : List Nat := [0x6004, 0x6008, 0x6050, 0x6054, 0x6020, 0x6034, 0x6038]

theorem Core.reg_advance_ne {x : Core} {r : Nat} (hr : r ∉ stepRegs) : x.advance.reg r = x.reg r := by
  simp only [stepRegs, List.mem_cons, List.not_mem_nil, or_false, not_or] at hr
  obtain ⟨h1, h2, h3, h4, h5, h6, h7⟩ := hr
  have stepped : x.stepped.reg r = x.reg r :=
    (x.reg_stepped r).trans ((Core.reg_setReg_ne _ _ (Ne.symm h2)).trans (Core.reg_setReg_ne _ _ (Ne.symm h1)))
  by_cases hg : bitAt (x.reg 0x6008) 8 = true ∧ x.frame.live = false
  · obtain ⟨w, h⟩ | ⟨w, u, v, h⟩ := Core.advance_eq hg.1 hg.2 <;> rw [h]
    · rw [Core.reg_setReg_ne _ _ (Ne.symm h5), Core.reg_setRf_ne _ _ _ _ (Ne.symm h4), Core.reg_setRf_ne _ _ _ _ (Ne.symm h3), stepped]
    · rw [Core.reg_setReg_ne _ _ (Ne.symm h7), Core.reg_setReg_ne _ _ (Ne.symm h6), Core.reg_setReg_ne _ _ (Ne.symm h5),
        Core.reg_setRf_ne _ _ _ _ (Ne.symm h4), Core.reg_setRf_ne _ _ _ _ (Ne.symm h3), stepped]
  · rw [Core.advance, if_pos (by simpa [imp_iff_not_or] using hg)]

/-- A core that takes the step of its UADV. -/
theorem Core.advance_spec {x : Core} (hx : x.canonical) (hu : x.rf 0x6008 8 8 = 1) (hl : x.frame.live = false) :
    x.advance.gstep = (x.gstep + 1) % 2 ^ 40 ∧ x.advance.rf 0x6008 8 8 = 0 ∧ x.advance.factors = List.replicate 16 none ∧
      x.advance.filter = [] := by
  obtain ⟨hsplit, hflag⟩ := gstep_split (Nat.mod_lt (x.gstep + 1) (by decide : 0 < 2 ^ 40))
  have low : x.stepped.reg 0x6004 = BitVec.ofNat 32 ((x.gstep + 1) % 2 ^ 40) :=
    (x.reg_stepped _).trans ((Core.reg_setReg_ne _ _ (by decide)).trans (Core.reg_setReg_self hx.regs_wf _ _))
  have high : x.stepped.reg 0x6008 = BitVec.ofNat 32 ((x.gstep + 1) % 2 ^ 40 / 2 ^ 32) :=
    (x.reg_stepped _).trans (Core.reg_setReg_self hx.setReg.regs_wf _ _)
  have regs : x.advance.reg 0x6004 = x.stepped.reg 0x6004 ∧ x.advance.reg 0x6008 = x.stepped.reg 0x6008 ∧
      x.advance.factors = x.stepped.factors ∧ x.advance.filter = x.stepped.filter := by
    obtain ⟨w, h⟩ | ⟨w, u, v, h⟩ := Core.advance_eq ((fld_eq_one_iff _ _).1 hu) hl <;> rw [h] <;>
      simp (disch := decide) only [Core.reg_setReg_ne, Core.reg_setRf_ne] <;> exact ⟨trivial, trivial, rfl, rfl⟩
  obtain ⟨h4, h8, hf, hfilter⟩ := regs
  exact ⟨by rw [Core.gstep, Core.rf, h4, h8, low, high, hsplit], by rw [Core.rf, h8, high, hflag], hf, hfilter⟩

/-! ## Predictor entries (R155) -/

/-- The register of a predictor entry that has its enable bits. -/
theorem Core.predictorSet_spec {x : Core} (hx : x.canonical) (j : BitVec 4) :
    let pe := 0x7C10 + 32 * j.toNat
    (x.predictorSet j).frame.pctl = x.frame.pctl.filter (fun r => r.1 ≠ j) ∧
      match (x.frame.pctl.filter fun r => r.1 = j).getLast? with
      | some (_, true) => (x.predictorSet j).rf pe 0 0 = 1 ∧ (x.predictorSet j).rf pe 1 1 = 0
      | some (_, false) => (x.predictorSet j).rf pe 0 0 = 0
      | none => (x.predictorSet j).reg pe = x.reg pe := by
  intro pe
  unfold Core.predictorSet
  dsimp only
  generalize (x.frame.pctl.filter fun r => r.1 = j).getLast? = l
  have hx' : ({ x with frame := { x.frame with pctl := x.frame.pctl.filter fun r => r.1 ≠ j } } : Core).canonical :=
    ⟨hx.mem_wf, hx.regs_wf, hx.shadow_wf⟩
  rcases l with _ | ⟨i, _ | _⟩
  · exact ⟨rfl, rfl⟩
  · exact ⟨rfl, Core.rf_setRf_self hx' (by decide) (by decide)⟩
  · refine ⟨rfl, ?_, Core.rf_setRf_self hx'.setRf (by decide) (by decide)⟩
    exact (Core.rf_setRf_ne hx'.setRf (by decide) (by decide) (.inr (.inl (by decide)))).trans
      (Core.rf_setRf_self hx' (by decide) (by decide))

/-! ## Derate steps (R13, R290) -/

/-- A derate step of the module's own count, at its tick. -/
def State.stepped (s : State) : State :=
  let u := (s.atCycle s.shutter.nextTick).setGf 0x20024 8 6 (s.gf 0x20024 8 6 + 1)
  { u with shutter := { u.shutter with derates := u.shutter.derates - 1 } }

/-- The state at a derate step's tick, the step and the frequency in force. -/
def State.slowed (s : State) : State := s.stepped.setFreq (derated (s.gf 0x20024 8 6 + 1))

theorem State.canonical.setFreq {s : State} {f : Nat} (h : s.canonical) : (s.setFreq f).canonical :=
  State.canonical.setGreg (s := { s with shutter := _ }) h

theorem State.greg_setFreq_ne (s : State) (f : Nat) {r : Nat} (h : r ≠ 0x40038) : (s.setFreq f).greg r = s.greg r :=
  State.greg_setGreg_ne { s with shutter := _ } _ (Ne.symm h)

theorem State.slowed_shutter (s : State) : s.slowed.shutter.freq2 = 3600 - 180 * (s.gf 0x20024 8 6 + 1) ∧
    s.slowed.shutter.derates = s.shutter.derates - 1 := by
  refine ⟨show s.slowed.shutter.freq2 = derated _ from rfl, ?_⟩
  show (s.atCycle s.shutter.nextTick).shutter.derates - 1 = _
  rw [State.atCycle_shutter]

theorem State.greg_slowed_ne (s : State) {r : Nat} (h1 : r ≠ 0x20024) (h2 : r ≠ 0x40038) : s.slowed.greg r = s.greg r := by
  rw [State.slowed, State.greg_setFreq_ne _ _ h2, ← State.greg_atCycle s s.shutter.nextTick, State.stepped]
  exact State.greg_setGf_ne (s.atCycle s.shutter.nextTick) (Ne.symm h1)

theorem State.canonical.stepped {s : State} (h : s.canonical) : s.stepped.canonical :=
  State.canonical.setGf (s := s.atCycle s.shutter.nextTick) h.atCycle

theorem State.canonical.slowed {s : State} (h : s.canonical) : s.slowed.canonical := h.stepped.setFreq

theorem State.derateTick_eq {s : State} (ht : s.ticking = true) (hd : 0 < s.shutter.derates) :
    s.derateTick = if !s.slowed.loaded then s.slowed
      else if s.slowed.gf 0x50020 23 16 = 0 then (s.slowed.raiseHtu 0x0701#16).stopBath
        else s.slowed.setGf 0x50020 23 16 (s.slowed.gf 0x50020 23 16 - 1) := by
  rw [State.derateTick, if_neg (by simp [ht]; omega), State.slowed, State.stepped]
  simp only [State.gf_atCycle]

theorem State.derateTick_spec {s : State} (h : s.canonical) (ht : s.ticking = true) (hd : 0 < s.shutter.derates) :
    let t := s.derateTick
    t.shutter.freq2 = 3600 - 180 * (s.gf 0x20024 8 6 + 1) ∧ t.shutter.derates = s.shutter.derates - 1 ∧
      (s.loaded = true → if s.gf 0x50020 23 16 = 0 then t.shutter.stopNext = true
        else t.gf 0x50020 23 16 = s.gf 0x50020 23 16 - 1) := by
  intro t
  obtain ⟨hf, hk⟩ := s.slowed_shutter
  have hl : s.slowed.loaded = s.loaded := by
    rw [State.loaded, State.loaded, State.gbit, State.gbit, State.greg_slowed_ne s (by decide) (by decide)]
  have hb : s.slowed.gf 0x50020 23 16 = s.gf 0x50020 23 16 := by
    rw [State.gf, State.gf, State.greg_slowed_ne s (by decide) (by decide)]
  have hlt : s.gf 0x50020 23 16 < 256 := fld_lt _ _ _
  have he : t = _ := State.derateTick_eq ht hd
  rw [hl, hb] at he
  rw [he]
  cases s.loaded
  · exact ⟨hf, hk, fun h => nomatch h⟩
  · simp only [Bool.not_true, Bool.false_eq_true, if_false, forall_const]
    split
    · exact ⟨hf, hk, rfl⟩
    · refine ⟨hf, hk, ?_⟩
      rw [State.gf_setGf_self h.slowed (by decide) (by decide), Nat.mod_eq_of_lt (by omega)]

/-- Settles O34: each clause is the law of the event that it names. -/
theorem eventsOfTick : Obligations.EventsOfTick := by
  intro s c j hs
  refine ⟨fun ht hp => ?_, fun ht hu hl => ?_, ?_, fun ht hd => ?_⟩
  · have hc := hs.atCycle (n := s.shutter.nextTick)
    obtain ⟨hclass, hpool, hnone⟩ := State.setClass_spec hc
    refine State.gives_of (by exact congrArg Host.Outcome.next (if_pos (by simp [ht, hp]))) ?_
    have hm {r hi lo : Nat} (h1 : r ≠ 0x50024) (h2 : r ≠ 0x50028) (u : State) (n : Nat) : (u.meter n).gf r hi lo = u.gf r hi lo := by
      rw [State.gf, State.gf, (State.meter_spec u n).2.2.2.2 r h1 h2]
    rw [hm (by decide) (by decide), hm (by decide) (by decide), State.meter_power, hclass, hpool, hnone]
    have hdue : (s.atCycle s.shutter.nextTick).classDue = min (s.gf 0x30000 1 0) s.forceLimit := by
      rw [State.classDue_eq, State.gf_atCycle, State.forceLimit, State.forceLimit, State.strapClass, State.strapClass,
        State.gf_atCycle, State.atCycle_power]
    exact ⟨hdue, poolOf_eq_getD (State.classDue_le _), rfl⟩
  · have hb : bitAt ((s.core c).reg 0x6008) 8 = true := (fld_eq_one_iff _ _).1 hu
    refine State.gives_of (t := s.stepAdvance c) rfl ?_
    have he : (s.stepAdvance c).core c = (s.core c).advance := by
      rw [State.stepAdvance, if_neg (by simp [ht, hb, hl]), State.stepCore, if_neg (by simp [hb]), State.core_freezeCore,
        State.core_setCore_self, State.core_atCycle]
    rw [he]
    exact Core.advance_spec (hs.core c) hu hl
  · refine State.gives_of (t := s.setCore c ((s.core c).predictorSet j)) rfl ?_
    rw [State.core_setCore_self]
    exact Core.predictorSet_spec (hs.core c) j
  · exact State.gives_of (t := s.derateTick) rfl (State.derateTick_spec hs ht hd)

end Sys2Proof.Machine
end

section
/-! The commands that load, start and stop a job (R346, R375): a LOAD whose image cannot be read begins no load. -/

namespace Sys2Proof.Machine

/-- A LOAD of an installer's session, from mailbox 0, of an image behind BAR2. -/
def loadHdr : MboxHdr := ⟨0#8, false, 0#32, 7#32, 0#32, 0#32, 0#32, false, List.replicate 24 0#8, false, false⟩

/-- An image behind BAR2 whose read is uncorrectable. -/
def unreadableImage : ImageSource := .bar2 0#36 0 true

/-- A module that is READY, with the session of the LOAD open and no image loaded. -/
def readyToLoad : State :=
  let s := State.reset.setGreg 0x3000C 0x20#32
  { s with power := { s.power with phase := .ready }, sec := { s.sec with sessions := [⟨7#32, 1, 0, 0#32, 0⟩] } }

theorem State.canonical_reset : State.reset.canonical := by
  refine ⟨fun c => ?_, rfl, rfl, rfl, rfl, rfl⟩
  rw [State.core_reset]
  exact Core.canonical.setReg (x := Core.reset) ⟨rfl, rfl, rfl⟩

theorem readyToLoad_canonical : readyToLoad.canonical :=
  State.canonical.setGreg (s := State.reset) (a := 0x3000C) (w := 0x20#32) State.canonical_reset

theorem readyToLoad_admits : readyToLoad.admits loadHdr 1 false false := by
  refine ⟨by decide +kernel, by decide +kernel, ?_, by decide +kernel, .inr (by decide +kernel)⟩
  intro n hn
  cases hn
  decide +kernel

/-- The source holds the image and the loader is free, so that only the uncorrectable read keeps the load from beginning. -/
theorem readyToLoad_source : readyToLoad.imageFrom unreadableImage = some [] ∧ readyToLoad.loaderFree = true := by decide +kernel

/-- The command completes with 0x040A and no load is under way. -/
theorem readyToLoad_loads_nothing : (match exec (.load loadHdr unreadableImage) readyToLoad with
    | .next t => t.loading.isNone
    | _ => false) = true := by decide +kernel

/-- Refutes O47: the statement has every LOAD of an image that its source holds begin the load, while a LOAD whose read behind BAR2 is
uncorrectable completes with 0x040A (R375) and begins none. -/
theorem not_jobCommands : ¬ Obligations.JobCommands := by
  intro h
  obtain ⟨loads, -⟩ := h readyToLoad loadHdr unreadableImage 0#48 [] readyToLoad_canonical
  obtain ⟨begins, -⟩ := loads readyToLoad_admits
  obtain ⟨t, ht, hload, -⟩ := begins [] readyToLoad_source.1 readyToLoad_source.2
  have none := readyToLoad_loads_nothing
  rw [ht] at none
  simp [hload] at none

end Sys2Proof.Machine
end

section
/-! Tick synchronisation (R29–R34, R316, R317): the symbols of a follower, lock and its loss, reports and echoes. -/

namespace Sys2Proof.Machine

/-! ## Blocks that leave -/

/-- A block that leaves on a port changes only what has been sent. -/
theorem State.sendTick_eq (s : State) (p : Nat) (b : TickBlock) : s.sendTick p b = { s with sent := (s.sendTick p b).sent } := by
  unfold State.sendTick
  split <;> rfl

theorem State.sendTicks_eq (b : TickBlock) (l : List Nat) (s : State) :
    l.foldl (fun s p => s.sendTick p b) s = { s with sent := (l.foldl (fun s p => s.sendTick p b) s).sent } := by
  induction l generalizing s with
  | nil => rfl
  | cons p l ih =>
    rw [List.foldl_cons, ih]
    rw [State.sendTick_eq]

theorem State.sendDown_eq (s : State) (b : TickBlock) : s.sendDown b = { s with sent := (s.sendDown b).sent } := State.sendTicks_eq b _ s

/-- On a port that runs at x4 a block leaves. -/
theorem State.sendTick_sent {s : State} {p : Nat} (b : TickBlock) (h : s.tickPort p = true) :
    ∃ f, (s.sendTick p b).sent = s.sent ++ [.flit p f] := by
  rw [State.sendTick, if_pos h]
  exact ⟨_, rfl⟩

/-! ## A symbol (R30–R34) -/

/-- The next tick moved by `ns` nanoseconds, but not into the past. -/
def State.movedBy (s : State) (ns : Int) (t : State) : Prop :=
  t.shutter.nextTick = max s.clock ((s.shutter.nextTick : Int) + ((s.shutter.fraction : Int) + ns * s.shutter.freq2) / 2000).toNat

/-- The phase error shown, the next tick slewed, and lock reached or lost. -/
def State.tracked (s : State) (err : Int) (t : State) : Prop :=
  s.movedBy (max (-8) (min 8 err)) t ∧ t.gf 0x4002C 15 0 = twosOf 16 err ∧
    (s.locked = true → (t.locked = false ↔ 50 < err.natAbs ∧ 1 ≤ s.shutter.sync.bad) ∧
      (t.locked = false → t.shutter.stopNext = true ∧ t.gf 0x40020 31 16 = 0x0503)) ∧
    (s.locked = false → (t.locked = true ↔ err.natAbs ≤ 20 ∧ 15 ≤ s.shutter.sync.good))

/-- What a follower makes of a symbol: the first, the second at the interval of a period, and those after. -/
def State.followed (s : State) (err : Int) (interval : Nat) (fn : BitVec 48) (t : State) : Prop :=
  (s.shutter.sync.symbols = 0 → t.shutter.sync.symbols = 1 ∧ t.shutter.nextTick = s.shutter.nextTick) ∧
  (s.shutter.sync.symbols = 1 → ((interval : Int) - (s.greg 0x40000).toNat).natAbs ≤ 1000 →
    t.shutter.sync.symbols = 2 ∧ s.movedBy err t ∧ t.shutter.fn = fn) ∧
  (2 ≤ s.shutter.sync.symbols → s.tracked err t)

theorem slewOf_eq (x : Int) : slewOf x = max (-8) (min 8 x) := by
  unfold slewOf
  split
  · omega
  · split <;> omega

theorem twosOf_lt (n : Nat) (x : Int) : twosOf n x < 2 ^ n := by
  have : (0 : Int) < 2 ^ n := by positivity
  have h1 := Int.emod_nonneg x this.ne'
  have h2 := Int.emod_lt_of_pos x this
  unfold twosOf
  zify
  omega

/-- The loss of lock. -/
theorem State.syncLost_spec {s : State} (h : s.canonical) : s.syncLost.locked = false ∧ s.syncLost.gf 0x40020 31 16 = 0x0503 ∧
    s.syncLost.shutter.stopNext = true ∧ s.syncLost.shutter.nextTick = s.shutter.nextTick ∧
    ∀ r, r ≠ 0x40020 → s.syncLost.greg r = s.greg r := by
  have h0 : (s.setGf 0x40020 0 0 0).canonical := h.setGf
  have h1 : ((s.setGf 0x40020 0 0 0).setGf 0x40020 1 1 1).canonical := h0.setGf
  have hg : s.syncLost.gregs = (((s.setGf 0x40020 0 0 0).setGf 0x40020 1 1 1).setGf 0x40020 31 16 0x0503).gregs := rfl
  refine ⟨?_, ?_, rfl, rfl, fun r hr => ?_⟩
  · rw [State.locked, State.gbit_congr hg, State.gbit_setGf_ne h1 (by decide) (by decide) (.inr (.inl (by decide))),
      State.gbit_setGf_ne h0 (by decide) (by decide) (.inr (.inl (by decide)))]
    exact State.gbit_setGf_self h false (by decide)
  · rw [State.gf_congr hg, State.gf_setGf_self h1 (by decide) (by decide)]
    rfl
  · rw [State.greg_congr hg, State.greg_setGf_ne _ hr.symm, State.greg_setGf_ne _ hr.symm, State.greg_setGf_ne _ hr.symm]

/-- The follower's counts of good and bad symbols after an error. -/
def Sync.counted (y : Sync) (err : Int) : Sync :=
  { y with gotSymbol := true, missing := 0, good := if within err 20 then y.good + 1 else 0, bad := if within err 50 then 0 else y.bad + 1 }

/-- The error shown, the next tick slewed and the counts kept, before lock is judged. -/
def State.slewed (s : State) (err : Int) : State :=
  ((s.setGf 0x4002C 15 0 (twosOf 16 err)).moveBase (slewOf err)).setSync (s.shutter.sync.counted err)

theorem State.symbol_eq {s : State} (hy : 2 ≤ s.shutter.sync.symbols) (err : Int) (interval : Nat) (fn : Option (BitVec 48)) :
    s.symbol err interval fn = if (s.slewed err).locked then
        (if 2 ≤ (s.shutter.sync.counted err).bad then (s.slewed err).syncLost else s.slewed err)
      else if 16 ≤ (s.shutter.sync.counted err).good then (s.slewed err).setGf 0x40020 0 0 1 else s.slewed err := by
  unfold State.symbol
  dsimp only
  rw [if_neg (by omega), if_neg (by omega)]
  rfl

theorem State.symbol_tracked {s : State} (h : s.canonical) (hy : 2 ≤ s.shutter.sync.symbols) (err : Int) (interval : Nat)
    (fn : Option (BitVec 48)) : s.tracked err (s.symbol err interval fn) := by
  have hw : (s.setGf 0x4002C 15 0 (twosOf 16 err)).canonical := h.setGf
  have hg : (s.slewed err).gregs = (s.setGf 0x4002C 15 0 (twosOf 16 err)).gregs := rfl
  have hv : (s.slewed err).canonical := hw
  have hl : (s.slewed err).locked = s.locked := by
    rw [State.locked, State.gbit_congr hg, State.gbit_setGf_reg_ne _ (by decide), State.locked]
  have moved : s.movedBy (max (-8) (min 8 err)) (s.slewed err) := by rw [← slewOf_eq]; rfl
  have shown : (s.slewed err).gf 0x4002C 15 0 = twosOf 16 err := by
    rw [State.gf_congr hg, State.gf_setGf_self h (by decide) (by decide), Nat.mod_eq_of_lt (twosOf_lt 16 err)]
  have bad : 2 ≤ (s.shutter.sync.counted err).bad ↔ 50 < err.natAbs ∧ 1 ≤ s.shutter.sync.bad := by
    simp only [Sync.counted, within, decide_eq_true_eq]
    split <;> omega
  have good : 16 ≤ (s.shutter.sync.counted err).good ↔ err.natAbs ≤ 20 ∧ 15 ≤ s.shutter.sync.good := by
    simp only [Sync.counted, within, decide_eq_true_eq]
    split <;> omega
  rw [State.symbol_eq hy, hl]
  simp only [bad, good]
  cases hs : s.locked
  · rw [if_neg (by decide)]
    have hl0 : (s.slewed err).locked = false := hl.trans hs
    split
    · next hgood =>
      have hlock : ((s.slewed err).setGf 0x40020 0 0 1).locked = true := State.gbit_setGf_self hv true (by decide)
      have hshow : ((s.slewed err).setGf 0x40020 0 0 1).gf 0x4002C 15 0 = twosOf 16 err :=
        (State.gf_setGf_reg_ne _ (by decide)).trans shown
      exact ⟨moved, hshow, by simp [hs], fun _ => by simp [hlock, hgood]⟩
    · next hgood => exact ⟨moved, shown, by simp [hs], fun _ => by simp [hl0, hgood]⟩
  · rw [if_pos rfl]
    have hl1 : (s.slewed err).locked = true := hl.trans hs
    split
    · next hbad =>
      obtain ⟨hlost, hcode, hstop, hnext, hregs⟩ := State.syncLost_spec hv
      have hshow : (s.slewed err).syncLost.gf 0x4002C 15 0 = twosOf 16 err := by
        rw [State.gf, hregs _ (by decide)]
        exact shown
      exact ⟨hnext.trans moved, hshow, fun _ => ⟨by simp [hlost, hbad], fun _ => ⟨hstop, hcode⟩⟩, by simp [hs]⟩
    · next hbad => exact ⟨moved, shown, fun _ => ⟨by simp [hl1, hbad], by simp [hl1]⟩, by simp [hs]⟩

theorem State.symbol_followed {s : State} (h : s.canonical) (err : Int) (interval : Nat) (fn : Option (BitVec 48)) :
    s.followed err interval (fn.getD s.shutter.fn) (s.symbol err interval fn) := by
  refine ⟨fun hy => ?_, fun hy hi => ?_, fun hy => s.symbol_tracked h hy err interval fn⟩
  · simp only [State.symbol, hy]
    exact ⟨rfl, rfl⟩
  · have hw : within ((interval : Int) - (s.greg 0x40000).toNat) 1000 = true := decide_eq_true hi
    simp only [State.symbol, hy, hw]
    cases fn <;> exact ⟨rfl, rfl, rfl⟩

/-! ## A symbol on the link -/

/-- What follows a symbol leaves the time base and lock alone: it counts a roster skew and owes reports and a stop bath. -/
def State.sameTime (s t : State) : Prop :=
  t.shutter.nextTick = s.shutter.nextTick ∧ t.shutter.fn = s.shutter.fn ∧ t.shutter.sync.symbols = s.shutter.sync.symbols ∧
    (s.shutter.stopNext = true → t.shutter.stopNext = true) ∧ ∀ r, r ≠ 0x60818 → t.greg r = s.greg r

theorem State.sameTime.refl (s : State) : s.sameTime s := ⟨rfl, rfl, rfl, id, fun _ _ => rfl⟩

theorem State.sameTime.trans {s t u : State} (h : s.sameTime t) (h' : t.sameTime u) : s.sameTime u := by
  obtain ⟨hn, hf, hy, hstop, hr⟩ := h
  obtain ⟨hn', hf', hy', hstop', hr'⟩ := h'
  exact ⟨hn'.trans hn, hf'.trans hf, hy'.trans hy, hstop' ∘ hstop, fun r h => (hr' r h).trans (hr r h)⟩

theorem State.sameTime_rosterSkew (s : State) : s.sameTime (s.rosterSkew true) :=
  ⟨rfl, rfl, rfl, fun _ => rfl, fun r hr => (State.greg_congr (s := s.bumpG 0x60818 1) rfl r).trans (State.greg_setGreg_ne _ _ hr.symm)⟩

theorem State.followed.after {s u t : State} {err : Int} {interval : Nat} {fn : BitVec 48} (h : s.followed err interval fn u)
    (hs : u.sameTime t) : s.followed err interval fn t := by
  obtain ⟨hn, hf, hy, hstop, hr⟩ := hs
  obtain ⟨first, second, later⟩ := h
  have hg (r hi lo : Nat) (h : r ≠ 0x60818) : t.gf r hi lo = u.gf r hi lo := by rw [State.gf, State.gf, hr r h]
  have hl : t.locked = u.locked := by rw [State.locked, State.locked, State.gbit, State.gbit, hr _ (by decide)]
  simp only [State.followed, State.tracked, State.movedBy, hn, hf, hy, hl, hg 0x4002C 15 0 (by decide), hg 0x40020 31 16 (by decide)]
  refine ⟨first, second, fun h2 => ?_⟩
  obtain ⟨moved, shown, lost, locks⟩ := later h2
  exact ⟨moved, shown, fun h => ⟨(lost h).1, fun h' => ⟨hstop ((lost h).2 h').1, ((lost h).2 h').2⟩⟩, locks⟩

/-- A HALT that a symbol brings, and the check of the epoch it names. -/
theorem State.sameTime_reports (s : State) (halt : Bool) (rec : Option RosterRec) (repoch : Word) :
    s.sameTime (let t := if halt then s.setSync { s.shutter.sync with haltSeen := true } else s
      match rec with
      | some r => if r.epoch = repoch then t else t.rosterSkew true
      | none => t) := by
  have hh : s.sameTime (if halt then s.setSync { s.shutter.sync with haltSeen := true } else s) := by
    cases halt
    · exact State.sameTime.refl s
    · exact ⟨rfl, rfl, rfl, id, fun _ _ => State.greg_congr rfl _⟩
  generalize (if halt then s.setSync { s.shutter.sync with haltSeen := true } else s) = t at hh ⊢
  cases rec with
  | none => exact hh
  | some r =>
    dsimp only
    split
    · exact hh
    · exact hh.trans t.sameTime_rosterSkew

/-- A symbol on the upstream port is forwarded, and the time base follows it. -/
theorem State.tickSymbol_followed {s : State} (h : s.canonical) (ht : s.ticking = true) (b : TickBlock) (arrive : Int) (interval : Nat) :
    s.followed (arrive - (b.stamp.toNat / 4 : Nat) - (s.gf 0x4002C 31 16 : Nat)) interval b.fn (s.tickSymbol b arrive interval) := by
  unfold State.tickSymbol
  dsimp only
  generalize hb : ({ b with stamp := _ } : TickBlock) = fwd
  have he := State.sendDown_eq s.tick1 fwd
  generalize s.tick1.sendDown fwd = u at he ⊢
  generalize u.sent = sent at he
  subst he
  have hy : State.ticking { s.tick1 with sent := sent } = true := ht
  have hd : State.gf { s.tick1 with sent := sent } 0x4002C 31 16 = s.gf 0x4002C 31 16 := State.gf_congr rfl _ _ _
  rw [hy, hd]
  have hfol := State.symbol_followed (s := { s.tick1 with sent := sent }) h
    (arrive - (b.stamp.toNat / 4 : Nat) - (s.gf 0x4002C 31 16 : Nat)) interval (some b.fn)
  exact State.followed.after (s := s) hfol (State.sameTime_reports _ _ _ _)

/-! ## Reports on their way to the master (R316) -/

/-- A block brings no report where neither of its report flags is set. -/
theorem reports_iff (flags : Half) : fld (flags.setWidth 32) 3 2 = 0 ↔ (flags.getLsbD 2 || flags.getLsbD 3) = false := by
  simp only [fld, fieldOf, BitVec.getLsbD, Nat.testBit, BitVec.toNat_setWidth, Nat.shiftRight_eq_div_pow,
    Nat.one_and_eq_mod_two]
  have := flags.isLt
  simp only [Bool.or_eq_false_iff, bne_eq_false_iff_eq]
  omega

theorem State.upstream_master {s : State} {port : BitVec 4} {b : TickBlock} (hr : (b.flags.getLsbD 2 || b.flags.getLsbD 3) = true)
    (hd : s.gbit 0x40030 (16 + port.toNat) = true) (hp : s.tickPort port.toNat = true) (hm : s.master = true) :
    s.gives (.upstreamTickFlit port b) fun t => t.shutter.masterHalt = true := by
  have hf : ¬ fld (b.flags.setWidth 32) 3 2 = 0 := by simp only [reports_iff, hr, Bool.true_eq_false, not_false_eq_true]
  refine ⟨_, rfl, ?_⟩
  rw [if_neg (by simp [hf, hd, hp]), if_pos hm]

theorem State.upstream_forwards {s : State} {port : BitVec 4} {b : TickBlock} (hr : (b.flags.getLsbD 2 || b.flags.getLsbD 3) = true)
    (hd : s.gbit 0x40030 (16 + port.toNat) = true) (hp : s.tickPort port.toNat = true) (hm : s.master = false) (hs : s.source = 1)
    (hu : s.tickPort (s.gf 0x40030 3 0) = true) :
    s.gives (.upstreamTickFlit port b) fun t => ∃ f, t.sent = s.sent ++ [.flit (s.gf 0x40030 3 0) f] := by
  have hf : ¬ fld (b.flags.setWidth 32) 3 2 = 0 := by simp only [reports_iff, hr, Bool.true_eq_false, not_false_eq_true]
  refine ⟨_, rfl, ?_⟩
  rw [if_neg (by simp [hf, hd, hp]), if_neg (by simp [hm]), if_pos hs]
  exact State.sendTick_sent (s := s.tick1) _ hu

/-! ## Echoes (R30, R317) -/

theorem State.echoMeasurement_due {s : State} {port : BitVec 4} (hl : s.ports.length = 16) (hd : s.echoDue port.toNat = true) :
    s.gives (.echoMeasurement port) fun t => t.shutter.sync.echoId = s.shutter.sync.echoId + 1#16 ∧
      (t.port port.toNat).echo = some (s.shutter.sync.echoId + 1#16) ∧ ∃ f, t.sent = s.sent ++ [.flit port.toNat f] := by
  refine State.gives_of (by exact congrArg Host.Outcome.next (if_neg (by simp [hd]))) ⟨rfl, ?_, _, rfl⟩
  exact congrArg Port.echo (getD_setAt_self s.ports _ Port.reset (by rw [hl]; exact port.isLt))

/-- A measured delay is shown at the port, and at the upstream port as the delay of the tick. -/
theorem State.echo_answer {s : State} (h : s.canonical) (port : BitVec 4) {id : Half} (res : Half) (rtt : Word)
    (he : (s.port port.toNat).echo = some id) :
    s.gives (.echo port true id res rtt) fun t =>
      t.gf (portOff port.toNat + 12) 15 0 = (rtt.toNat - res.toNat + 1) / 2 % 65536 ∧
        (s.source = 1 → s.gf 0x40030 3 0 = port.toNat → t.gf 0x4002C 31 16 = (rtt.toNat - res.toNat + 1) / 2 % 65536) := by
  let d := (rtt.toNat - res.toNat + 1) / 2
  let u := (s.setPort port.toNat { s.port port.toNat with echo := none }).setGf (portOff port.toNat + 12) 15 0 d
  have hpo : 0x61000 ≤ portOff port.toNat := Nat.le_add_right _ _
  have hs' : (s.setPort port.toNat { s.port port.toNat with echo := none }).canonical := h
  have hu : u.canonical := hs'.setGf
  have shown : u.gf (portOff port.toNat + 12) 15 0 = d % 65536 := State.gf_setGf_self hs' (by decide) (by decide)
  have kept {a hi lo : Nat} (ha : a < 0x61000) : u.gf a hi lo = s.gf a hi lo :=
    (State.gf_setGf_reg_ne _ (by omega)).trans (State.gf_congr rfl _ _ _)
  have hsrc : u.source = s.source := kept (by decide)
  refine State.gives_of (t := if u.source = 1 && decide (u.gf 0x40030 3 0 = port.toNat) then u.setGf 0x4002C 31 16 d else u) ?_ ?_
  · show execEcho port true id res rtt s = _
    simp only [execEcho, he, Bool.not_true, Bool.false_eq_true, if_false, ne_eq, not_true_eq_false]
    rfl
  · rw [hsrc, kept (by decide)]
    split
    · exact ⟨(State.gf_setGf_reg_ne _ (by omega)).trans shown, fun _ _ => State.gf_setGf_self hu (by decide) (by decide)⟩
    · next hn => exact ⟨shown, fun h1 h2 => absurd (by simp [h1, h2]) hn⟩

/-- Settles O36: a symbol is followed, late or missing ones lose lock, reports go upstream, and echoes are answered or measured. -/
theorem tickSynchronisation : Obligations.TickSynchronisation := by
  refine ⟨fun s port b arrive off interval h ht => ⟨fun hs => ?_, fun hs hp hport => ?_⟩,
    fun s port b id res rtt h hl => ⟨fun hs hk hy hn => ?_, fun hs hk hn => ?_, fun hr hd hp => ⟨fun hm => ?_, fun hm hs hu => ?_⟩,
      fun hr => ?_, fun hd => ?_, fun hd => ?_, ?_, fun he => ?_, fun he => ?_⟩⟩
  · have hx : exec (.tickInEdge off interval) s = .next (s.symbol off interval none) := by
      show execTickInEdge off interval s = _
      rw [execTickInEdge, if_pos (by simp [ht, hs])]
    obtain ⟨first, second, later⟩ := s.symbol_followed h off interval none
    exact ⟨fun h0 => State.gives_of hx (first h0), fun h1 hi => State.gives_of hx (second h1 hi), fun h2 => State.gives_of hx (later h2)⟩
  · have hx : exec (.tickFlit port b arrive interval) s = .next (s.tickSymbol b arrive interval) := by
      show execTickFlit port b arrive interval s = _
      rw [execTickFlit, if_pos (by simp [hs, hp, hport])]
    obtain ⟨first, second, later⟩ := s.tickSymbol_followed h ht b arrive interval
    exact ⟨fun h0 => State.gives_of hx (first h0), fun h1 hi => State.gives_of hx (second h1 hi), fun h2 => State.gives_of hx (later h2)⟩
  · obtain ⟨hlost, hcode, hstop, -⟩ := State.syncLost_spec h
    exact State.gives_of (by exact congrArg Host.Outcome.next (if_pos (by simp [hs, hk, hy, hn]))) ⟨hlost, hcode, hstop⟩
  · obtain ⟨hlost, hcode, hstop, -⟩ := State.syncLost_spec h
    exact State.gives_of (by exact congrArg Host.Outcome.next (if_pos (by simp [hs, hk, hn]))) ⟨hlost, hcode, hstop⟩
  · exact State.upstream_master hr hd hp hm
  · exact State.upstream_forwards hr hd hp hm hs hu
  · exact State.gives_of (by exact congrArg Host.Outcome.next (if_pos (by simp [(reports_iff b.flags).2 hr]))) rfl
  · exact State.echoMeasurement_due hl hd
  · exact State.gives_of (by exact congrArg Host.Outcome.next (if_pos (by simp [hd]))) rfl
  · exact State.gives_of rfl ⟨_, rfl⟩
  · exact State.echo_answer h port res rtt he
  · exact State.gives_of (by exact congrArg Host.Outcome.next ((if_neg (by decide)).trans (if_pos he))) rfl

end Sys2Proof.Machine
end

section
/-! SUPPORT. What a message on the link, and the reports of a core's integrity logic, leave alone. -/

namespace Sys2Proof.Machine

/-! ## Messages on the link (R304, R307) -/

/-- The map of the global area's registers has its canonical form. -/
def State.gregsWf (s : State) : Prop := Sparse.wf globReset s.gregs = true

/-- `t` is `s` after flits have left: of the global area only ports' counts of flits and key generations differ. -/
def State.onLine (s t : State) : Prop :=
  ∃ ps gs out, t = { s with ports := ps, gregs := gs, sent := out } ∧
    (∀ r, (∀ p, r ≠ portOff p + 0x28 ∧ r ≠ portOff p + 0x2C) → t.greg r = s.greg r) ∧ (s.gregsWf → t.gregsWf)

theorem State.onLine.refl (s : State) : s.onLine s := ⟨_, _, _, rfl, fun _ _ => rfl, id⟩

theorem State.onLine.trans {s t u : State} (h : s.onLine t) (h' : t.onLine u) : s.onLine u := by
  obtain ⟨ps, gs, out, rfl, hr, hw⟩ := h
  obtain ⟨ps', gs', out', rfl, hr', hw'⟩ := h'
  exact ⟨ps', gs', out', rfl, fun r hp => (hr' r hp).trans (hr r hp), hw' ∘ hw⟩

theorem State.onLine.greg {s t : State} (h : s.onLine t) {r : Nat} (hr : r % 0x40 < 0x28) : t.greg r = s.greg r := by
  obtain ⟨_, _, _, -, hg, -⟩ := h
  exact hg r fun p => by unfold portOff; omega

theorem State.onLine.gf {s t : State} (h : s.onLine t) {r hi lo : Nat} (hr : r % 0x40 < 0x28) : t.gf r hi lo = s.gf r hi lo := by
  rw [State.gf, State.gf, h.greg hr]

theorem State.onLine.shutter {s t : State} (h : s.onLine t) : t.shutter = s.shutter := by obtain ⟨_, _, _, rfl, -⟩ := h; rfl
theorem State.onLine.roster {s t : State} (h : s.onLine t) : t.roster = s.roster := by obtain ⟨_, _, _, rfl, -⟩ := h; rfl
theorem State.onLine.cores {s t : State} (h : s.onLine t) : t.cores = s.cores := by obtain ⟨_, _, _, rfl, -⟩ := h; rfl
theorem State.onLine.svc {s t : State} (h : s.onLine t) : t.svc = s.svc := by obtain ⟨_, _, _, rfl, -⟩ := h; rfl

theorem State.onLine_foldl {α : Type} {f : State → α → State} (l : List α) (h : ∀ (s : State) (a : α), s.onLine (f s a)) (s : State) :
    s.onLine (l.foldl f s) :=
  List.foldlRecOn l f (State.onLine.refl s) fun _ ht a _ => ht.trans (h _ a)

theorem State.onLine_setPort (s : State) (p : Nat) (x : Port) : s.onLine (s.setPort p x) :=
  ⟨_, _, _, rfl, fun _ _ => State.greg_congr rfl _, id⟩

theorem State.onLine_emit (s : State) (o : Output) : s.onLine (s.emit o) := ⟨_, _, _, rfl, fun _ _ => State.greg_congr rfl _, id⟩

theorem State.onLine_setGreg (s : State) {a : Nat} (w : Word) (h : ∃ p, a = portOff p + 0x28 ∨ a = portOff p + 0x2C) :
    s.onLine (s.setGreg a w) := by
  refine ⟨_, _, _, rfl, fun r hr => State.greg_setGreg_ne s w ?_, fun hw => State.wf_setGreg hw a w⟩
  obtain ⟨p, rfl | rfl⟩ := h
  · exact (hr p).1.symm
  · exact (hr p).2.symm

theorem State.onLine_firstSend (p : Nat) (s : State) (f : List Byte) : s.onLine (State.firstSend p s f) :=
  ((s.onLine_setPort p _).trans (State.onLine_setGreg _ _ ⟨p, .inl rfl⟩)).trans (State.onLine_emit _ _)

theorem State.onLine_pushFlit (p : Nat) (s : State) (f : List Byte) : s.onLine (State.pushFlit p s f) := by
  unfold State.pushFlit
  dsimp only
  split
  · exact (s.onLine_setPort p _).trans (State.onLine_firstSend p _ f)
  · exact (s.onLine_setPort p _).trans (State.onLine_setPort _ p _)

theorem State.onLine_sendGroup (p : Nat) (s : State) (l : List (List Byte × Bool × Bool)) : s.onLine (State.sendGroup p s l) := by
  unfold State.sendGroup
  dsimp only
  split
  · exact State.onLine.refl s
  · exact ((s.onLine_setPort p _).trans (State.onLine_foldl _ (State.onLine_pushFlit p) _)).trans
      (State.onLine_setGreg _ _ ⟨p, .inr rfl⟩)

theorem State.onLine_sendMessage (s : State) (p : Nat) (msg : List Byte) : s.onLine (s.sendMessage p msg) := by
  unfold State.sendMessage
  split
  · exact State.onLine.refl s
  · exact State.onLine_foldl _ (State.onLine_sendGroup p) s

theorem State.onLine_sendRoster (s : State) (dst : Word) (body : List Byte) : s.onLine (s.sendRoster dst body) := by
  unfold State.sendRoster
  split
  · exact s.onLine_sendMessage _ _
  · exact State.onLine.refl s

theorem State.onLine_sendAll (s : State) (body : List Byte) : s.onLine (s.sendAll body) :=
  State.onLine_foldl _ (fun s m => s.onLine_sendRoster m body) s

/-! ## Reports of the integrity logic -/

/-- What runs a frame from outside the cores: the shutter, the image, time and the registers of the global area. -/
def State.outside (s : State) : Shutter × Option Image × Nat × List (Nat × Word) := (s.shutter, s.image, s.clock, s.gregs)

theorem State.outside_eq_iff {s t : State} :
    t.outside = s.outside ↔ t.shutter = s.shutter ∧ t.image = s.image ∧ t.clock = s.clock ∧ t.gregs = s.gregs := by
  simp only [State.outside, Prod.mk.injEq]

theorem State.outside_setHealth (s : State) (u st fl : Nat) (code : Half) : (s.setHealth u st fl code).outside = s.outside := by
  simp only [State.setHealth, State.vector, State.emit, State.alertFor]
  split <;> rfl

theorem State.outside_takeReport (c : CoreId) (s : State) (r : Nat × Half) : (State.takeReport c s r).outside = s.outside := by
  unfold State.takeReport
  dsimp only
  split
  · rfl
  · split
    · exact State.outside_setHealth _ _ _ _ _
    · exact State.outside_setHealth _ _ _ _ _

theorem State.outside_drainReports (s : State) (c : CoreId) : (s.drainReports c).outside = s.outside :=
  foldl_keeps (g := State.outside) (fun s r _ => State.outside_takeReport c s r) _

/-- An operation on a core touches nothing outside the cores but what its reports reach. -/
theorem State.outside_onCore (s : State) (c : CoreId) (f : Ctx → Core → Core) : (s.onCore c f).outside = s.outside := by
  unfold State.onCore
  dsimp only
  split
  · rfl
  · exact State.outside_drainReports _ c

end Sys2Proof.Machine
end

section
/-! A job's start, the link plan check before it, and the roster epoch in force (R17, R320, R321, R323). -/

namespace Sys2Proof.Machine

/-! ## The start of a frame (R227) -/

/-- A core that enters a scheduled slot runs the frame that the slot and the start name. -/
theorem Core.enter_frame {x : Core} {l : FrameStart} {e : SchedEntry} (h : x.sched[l.slot]? = some e) (start : Nat) (shift : Bool) :
    (x.enter l start shift).frame = frameOf e l start (shift && decide (0 < x.behind)) (x.bypasses e) := by
  unfold Core.enter
  rw [h]
  dsimp only
  split
  · rfl
  · refine (foldl_keeps (g := Core.frame) (f := fun (c : Core) ch => c.setRf (0x2200 + 32 * ch) 5 5 0) (fun _ _ _ => rfl) _).trans ?_
    split <;> rfl

theorem State.core_startCore_ne (s : State) (l : FrameStart) (start : Nat) {c d : CoreId} (h : d ≠ c) :
    (State.startCore l start s c).core d = s.core d := (s.onCore_spec c _).2.1 d h

/-- A frame that starts on a core runs there from that cycle. -/
theorem State.startCore_frame {s : State} {c : CoreId} {l : FrameStart} {e : SchedEntry} (h : (s.core c).sched[l.slot]? = some e)
    (start : Nat) : ((State.startCore l start s c).core c).frame =
      frameOf e l start (s.shiftOpen && decide (0 < (s.core c).behind)) ((s.core c).bypasses e) := by
  obtain ⟨hc, -⟩ := s.onCore_spec c fun k x => x.enter l start k.shift
  rw [State.startCore, hc]
  exact (s.coreAfter_fields c fun k x => x.enter l start k.shift).2.2.2.2.1.trans (Core.enter_frame h start _)

/-! ## Every core in turn -/

/-- An operation on every core in turn that, at each, leaves the other cores alone and keeps `g`: what it does to one core is what it does
to it in a state where that core, and `g`, are as they were. -/
theorem State.core_eachCore {γ : Type} {g : State → γ} {p : State → CoreId → Bool} {f : State → CoreId → State} (s : State) (c : CoreId)
    (hc : ∀ u d, d ≠ c → (f u d).core c = u.core c) (hg : ∀ u d, g (f u d) = g u) :
    ∃ u : State, u.core c = s.core c ∧ g u = g s ∧ (s.eachCore p f).core c = (if p u c then f u c else u).core c := by
  have others (u : State) (d : CoreId) (hd : d ≠ c) : (if p u d then f u d else u).core c = u.core c := by
    split
    · exact hc u d hd
    · rfl
  obtain ⟨l, hl, he⟩ := foldl_once (f := fun u d => if p u d then f u d else u) (g := fun u : State => u.core c)
    (List.mem_finRange c) (List.nodup_finRange 144) (fun u d _ hd => others u d hd) s
  refine ⟨l.foldl (fun u d => if p u d then f u d else u) s, ?_, ?_, he⟩
  · exact foldl_keeps (g := fun u : State => u.core c) (fun u d hd => others u d (hl d hd).2) s
  · refine foldl_keeps (g := g) (fun u d _ => ?_) s
    split
    · exact hg u d
    · rfl

/-- What every step keeps, an operation on every core in turn keeps. -/
theorem State.eachCore_keeps {γ : Type} {g : State → γ} {p : State → CoreId → Bool} {f : State → CoreId → State} (s : State)
    (hg : ∀ u d, g (f u d) = g u) : g (s.eachCore p f) = g s := by
  refine foldl_keeps (g := g) (fun u d _ => ?_) s
  split
  · exact hg u d
  · rfl

/-! ## The start of a job (R17) -/

theorem State.jobStart_spec {s : State} (ht : s.ticking = true) (hl : s.loaded = true) (hst : s.shutter.started = false)
    (hh : s.halted = false) (hn : s.shutter.noStart = false) (hk : s.locked = true) (hf : s.shutter.fn.toNat = s.startFn)
    (hoff : ∀ n, s.power.phase ≠ .shutdown n) :
    s.jobStart.shutter.started = true ∧ s.jobStart.shutter.ringPos = 1 % s.ring ∧ ∀ c e, (s.core c).sched[0]? = some e →
      (s.jobStart.core c).frame.live = true ∧ (s.jobStart.core c).frame.fn = s.shutter.fn ∧ (s.jobStart.core c).frame.entry = 0 ∧
        (s.jobStart.core c).frame.kind = e.kind := by
  let u : State := { s with shutter := { s.shutter with started := true, ringPos := 1 % s.ring } }
  let f (v : State) (c : CoreId) : State := State.startCore (v.shutter.startAt 0 v.shutter.fn false) v.shutter.lastTick v c
  have he : s.jobStart = (u.eachCore (fun v c => (v.core c).scheduled) f).showSlot := by
    unfold State.jobStart
    dsimp only
    refine if_pos ?_
    cases hp : s.power.phase with
    | shutdown n => exact absurd hp (hoff n)
    | _ => simp [ht, hl, hst, hh, hn, hk, hf]
  have hout (v : State) (d : CoreId) : State.shutter (f v d) = v.shutter :=
    (State.outside_eq_iff.1 (State.outside_onCore v d _)).1
  have hshow (w : State) : w.showSlot.core = w.core ∧ w.showSlot.shutter = w.shutter := ⟨rfl, rfl⟩
  rw [he, (hshow _).1, (hshow _).2]
  have hsh : (u.eachCore (fun v c => (v.core c).scheduled) f).shutter = u.shutter := State.eachCore_keeps (g := State.shutter) u hout
  rw [hsh]
  refine ⟨rfl, rfl, fun c e hce => ?_⟩
  obtain ⟨v, hv, hvs, hvc⟩ := State.core_eachCore (g := State.shutter) (p := fun v c => (v.core c).scheduled) u c
    (fun w d hd => State.core_startCore_ne w _ _ hd.symm) hout
  have hslot : (v.core c).sched[(v.shutter.startAt 0 v.shutter.fn false).slot]? = some e := by rw [hv]; exact hce
  have hframe := State.startCore_frame hslot v.shutter.lastTick
  have hp : (v.core c).scheduled = true := by
    cases hs : (v.core c).sched with
    | nil => simp [hs] at hslot
    | cons => simp [Core.scheduled, hs]
  rw [hvc, if_pos hp, hframe, hvs]
  exact ⟨rfl, rfl, rfl, rfl⟩

/-! ## The link plan check (R323) -/

theorem State.showRoster_keeps (s : State) : s.showRoster.roster = s.roster ∧ s.showRoster.shutter = s.shutter := by
  have keeps (u : State) (a : Nat) (w : Word) : (u.setGreg a w).roster = u.roster ∧ (u.setGreg a w).shutter = u.shutter := ⟨rfl, rfl⟩
  have field (u : State) (a hi lo v : Nat) : (u.setGf a hi lo v).roster = u.roster ∧ (u.setGf a hi lo v).shutter = u.shutter := ⟨rfl, rfl⟩
  unfold State.showRoster
  dsimp only
  split <;> simp only [keeps, field, and_self]

theorem State.withdraw_noStart {s : State} (h : s.shutter.noStart = true) : s.withdraw.shutter.noStart = true := by
  have noStart (u : State) (hu : u.shutter.noStart = true) : (if u.startNear then u.noStart else u).shutter.noStart = true := by
    split
    · rfl
    · exact hu
  unfold State.withdraw
  refine noStart _ ?_
  split
  · rw [(State.showRoster_keeps _).2]
    exact h
  · rfl
  · exact h

/-- A withdrawn proposal shows in the roster's registers alone. -/
theorem State.greg_showRoster_ne (s : State) {r : Nat} (h : 0x61000 ≤ r) : s.showRoster.greg r = s.greg r := by
  unfold State.showRoster
  dsimp only
  split <;> simp (disch := omega) only [State.greg_setGreg_ne, State.greg_setGf_ne]

theorem State.greg_withdraw_ne (s : State) {r : Nat} (h : 0x61000 ≤ r) : s.withdraw.greg r = s.greg r := by
  have noStart (u : State) : (if u.startNear then u.noStart else u).greg r = u.greg r := by split <;> rfl
  unfold State.withdraw
  refine (noStart _).trans ?_
  split
  · exact (State.greg_showRoster_ne _ h).trans (State.greg_congr rfl r)
  · exact State.greg_congr rfl r
  · rfl

/-- Ports that fail the check show it, and no other port does. -/
theorem State.gf_raisePorts {s : State} (h : s.canonical) {p : Nat} {l : List Nat} (hl : p ∈ l) (hn : l.Nodup) (code : Half) :
    (l.foldl (fun s p => s.raisePort p code) s).gf (portOff p + 4) 31 16 = code.toNat := by
  have others (u : State) (q : Nat) (hq : q ≠ p) : (u.raisePort q code).gf (portOff p + 4) 31 16 = u.gf (portOff p + 4) 31 16 :=
    (State.gf_congr (s := u.setGf (portOff q + 4) 31 16 code.toNat) rfl _ _ _).trans
      (State.gf_setGf_reg_ne u (by unfold portOff; omega))
  obtain ⟨l', -, he⟩ := foldl_once (f := fun s p => s.raisePort p code) (g := fun u : State => u.gf (portOff p + 4) 31 16) hl hn
    (fun u q _ hq => others u q hq) s
  have hc : (l'.foldl (fun s p => s.raisePort p code) s).canonical := h.foldl fun {u q} hu =>
    State.canonical.setGf (s := u) (a := portOff q + 4) (hi := 31) (lo := 16) (v := code.toNat) hu
  refine he.trans ?_
  refine (State.gf_congr (s := State.setGf _ (portOff p + 4) 31 16 code.toNat) rfl _ _ _).trans ?_
  rw [State.gf_setGf_self hc (by decide) (by decide), Nat.mod_eq_of_lt]
  exact code.isLt

/-- The ports that fail the check. -/
def State.planFails (s : State) (i : Image) : List Nat :=
  (List.range 16).filter fun p => !(s.planMet p (i.plan.ports.getD p ⟨0, 0, 0#32⟩) && s.syncMet p)

theorem State.mem_planFails {s : State} {i : Image} {p : Nat} :
    p ∈ s.planFails i ↔ p < 16 ∧ (s.planMet p (i.plan.ports.getD p ⟨0, 0, 0#32⟩) && s.syncMet p) = false := by
  rw [State.planFails, List.mem_filter, List.mem_range, Bool.not_eq_true']

/-- A report of the check to the member that announced the start leaves what it shows. -/
theorem State.reported_keeps {s t : State} (h : s.shutter.noStart = true)
    (ht : t = (match s.roster.starter with
      | some from_ =>
        if from_ = s.greg 0x60800 then s.cancelAll none 0x0504#16 else s.sendRoster from_ (leBytes 4 3 ++ leBytes 2 0x0504)
      | none => s)) :
    t.shutter.noStart = true ∧ ∀ p, t.gf (portOff p + 4) 31 16 = s.gf (portOff p + 4) 31 16 := by
  have hp (p : Nat) : (portOff p + 4) % 0x40 < 0x28 := by unfold portOff; omega
  subst ht
  cases s.roster.starter with
  | none => exact ⟨h, fun _ => rfl⟩
  | some m =>
    dsimp only
    split
    · have hs := s.onLine_sendAll (leBytes 4 4)
      have hn : (s.sendAll (leBytes 4 4)).shutter.noStart = true := by rw [hs.shutter]; exact h
      refine ⟨State.withdraw_noStart hn, fun p => ?_⟩
      show State.gf (s.sendAll (leBytes 4 4)).withdraw _ _ _ = _
      rw [State.gf, State.greg_withdraw_ne _ (by unfold portOff; omega), hs.greg (hp p), State.gf]
    · have hs := s.onLine_sendRoster m (leBytes 4 3 ++ leBytes 2 0x0504)
      exact ⟨by rw [hs.shutter]; exact h, fun p => hs.gf (hp p)⟩

theorem State.linkPlan_spec {s : State} (h : s.canonical) {i : Image} (hi : s.image = some i) (hst : s.shutter.started = false)
    (hf : s.shutter.fn.toNat + 16 = s.startFn) (hn : s.shutter.noStart = false) : s.gives .linkPlanCheck fun t =>
      (s.planFails i = [] → t = s) ∧ ∀ p ∈ s.planFails i, t.shutter.noStart = true ∧ t.gf (portOff p + 4) 31 16 = 0x0504 := by
  have hcheck : s.linkPlanCheck = if (s.planFails i).isEmpty then s
      else ((s.planFails i).foldl (fun s p => s.raisePort p 0x0504#16) s).noStart := by
    simp only [State.linkPlanCheck, hi, hst, hf, State.planFails, ne_eq, not_true_eq_false, decide_false, Bool.or_false,
      Bool.false_eq_true, if_false]
    rfl
  refine ⟨_, rfl, ?_⟩
  rw [hcheck]
  dsimp only
  cases hb : (s.planFails i).isEmpty
  · simp only [Bool.false_eq_true, if_false]
    obtain ⟨hno, hshow⟩ := State.reported_keeps (s := ((s.planFails i).foldl (fun s p => s.raisePort p 0x0504#16) s).noStart) rfl rfl
    rw [if_neg (by simp [State.noStart, hn])]
    refine ⟨fun he => by simp [he] at hb, fun p hp => ⟨hno, (hshow p).trans ?_⟩⟩
    refine (State.gf_congr (s := (s.planFails i).foldl (fun s p => s.raisePort p 0x0504#16) s) rfl _ _ _).trans ?_
    exact State.gf_raisePorts h hp (List.nodup_range.filter _) _
  · simp only [if_true, hn, Bool.not_false, Bool.true_or]
    exact ⟨fun _ => trivial, fun p hp => absurd hp (by rw [List.isEmpty_iff.1 hb]; exact List.not_mem_nil)⟩

/-! ## Roster epochs (R320, R321) -/

theorem State.greg_showRoster_epoch {s : State} (h : s.canonical) : s.showRoster.greg 0x60804 = s.epoch := by
  have hs : (s.setGreg 0x60804 s.epoch).greg 0x60804 = s.epoch := State.greg_setGreg_self h.gregs_wf _ _
  unfold State.showRoster
  dsimp only
  split <;> simp (disch := decide) only [State.greg_setGreg_ne, State.greg_setGf_ne] <;> exact hs

/-- Settles O35: the job's start on every core, the check of the link plan before it, and the epoch at its boundary. -/
theorem jobStartAndEpochs : Obligations.JobStartAndEpochs := by
  intro s h
  refine ⟨fun ht hl hst hh hn hk hf hoff => ?_, fun i hi hst hf hn => ?_, fun r hr => ?_, fun hr => ?_⟩
  · exact State.gives_of (t := s.jobStart) rfl (State.jobStart_spec ht hl hst hh hn hk hf hoff)
  · obtain ⟨t, ht, hsame, hfail⟩ := State.linkPlan_spec h hi hst hf hn
    refine ⟨t, ht, fun hmet => hsame ?_, fun p hp hnot => hfail p (State.mem_planFails.2 ⟨hp, hnot⟩)⟩
    refine List.eq_nil_iff_forall_not_mem.2 fun p hp => ?_
    obtain ⟨hlt, hnot⟩ := State.mem_planFails.1 hp
    exact Bool.false_ne_true (hnot.symm.trans (hmet p hlt))
  · refine State.gives_of (t := s.rosterSwitch) rfl ?_
    unfold State.rosterSwitch
    rw [hr]
    dsimp only
    split
    · next hb =>
      rw [if_neg (by simp [hb]), (State.showRoster_keeps _).1]
      exact ⟨rfl, rfl, State.greg_showRoster_epoch (s := { s with roster := { s.roster with
        inForce := some r, staged := none, lastSwitch := some (s.roster.inForce, r.boundary) } }) h⟩
    · rfl
  · refine State.gives_of (t := s.rosterSkew false) ?_ ⟨rfl, rfl, rfl⟩
    show Host.Outcome.next s.rosterSwitch = _
    rw [State.rosterSwitch, hr]

end Sys2Proof.Machine
end

section
/-! The roster agents (R17, R318–R321, R356, R359): proposals, their answers, and the orders to freeze and to fix. -/

namespace Sys2Proof.Machine

/-! ## What a command's end leaves alone -/

theorem State.roster_audit (s : State) (n : AuditNote) : (s.audit n).roster = s.roster := by
  unfold State.audit
  split
  · rfl
  · simp only [State.append, State.setGreg_roster]

theorem State.roster_complete (s : State) (h : MboxHdr) (code : Half) (resp : List Byte) : (s.complete h code resp).roster = s.roster := by
  unfold State.complete
  dsimp only
  split
  · rfl
  · split
    · rfl
    · split
      · split <;> rfl
      · rfl

theorem State.roster_finishOpt (s : State) (h : Option MboxHdr) (op : Nat) (code : Half) (resp : List Byte) :
    (s.finishOpt h op code resp).roster = s.roster := by
  cases h with
  | none => rfl
  | some h =>
    refine (State.roster_complete _ h code resp).trans ?_
    split
    · rfl
    · exact State.roster_audit _ _

/-! ## Records and orders that a member takes -/

theorem State.stage_roster (s : State) (r : RosterRec) : (s.stage r).roster = { s.roster with staged := some r } := by
  unfold State.stage
  dsimp only
  rw [(State.showRoster_keeps _).1]
  split <;> rfl

theorem State.refuseRecord_onLine (s : State) (src : Word) (r : RosterRec) : s.onLine (s.refuseRecord src r) := by
  unfold State.refuseRecord
  dsimp only
  split
  · exact s.onLine_sendMessage _ _
  · exact s.onLine_sendRoster _ _

/-- A freeze or fix step armed in its two registers of every core. -/
theorem State.armCores_spec {s : State} (h : s.canonical) (off : Nat) (step : BitVec 40) (c : CoreId) :
    ((s.armCores off step.toNat).core c).reg off = BitVec.ofNat 32 step.toNat ∧
      ((s.armCores off step.toNat).core c).rf (off + 4) 31 31 = 1 := by
  have hc : (s.armCores off step.toNat).core c = ((s.core c).setReg off (BitVec.ofNat 32 step.toNat)).setReg (off + 4)
      (BitVec.ofNat 32 (2 ^ 31 + step.toNat / 2 ^ 32 % 256)) := State.core_mapCores _ _ _
  have hs := (h.core c).setReg (a := off) (w := BitVec.ofNat 32 step.toNat)
  refine ⟨?_, ?_⟩
  · rw [hc, Core.reg_setReg_ne _ _ (by omega), Core.reg_setReg_self (h.core c).regs_wf]
  · rw [hc, Core.rf, Core.reg_setReg_self hs.regs_wf]
    simp only [fld, fieldOf, BitVec.toNat_ofNat, Nat.shiftRight_eq_div_pow]
    omega

theorem State.takeStart_spec {s : State} (h : s.canonical) (src : Word) (fn : BitVec 48) :
    (s.takeStart src fn).greg 0x40018 = fn.setWidth 32 ∧
      (s.takeStart src fn).greg 0x4001C = BitVec.ofNat 32 (fn.toNat / 2 ^ 32) ∧ (s.takeStart src fn).shutter.noStart = false := by
  let u := (s.setGreg 0x40018 (fn.setWidth 32)).setGreg 0x4001C (BitVec.ofNat 32 (fn.toNat / 2 ^ 32))
  have hg : (s.takeStart src fn).gregs = u.gregs := by simp only [State.takeStart, State.setGshadow_gregs, u]
  have hu : (s.setGreg 0x40018 (fn.setWidth 32)).canonical := h.setGreg
  refine ⟨?_, ?_, rfl⟩
  · rw [State.greg_congr hg, State.greg_setGreg_ne _ _ (by decide), State.greg_setGreg_self h.gregs_wf]
  · rw [State.greg_congr hg, State.greg_setGreg_self hu.gregs_wf]

/-! ## Proposals withdrawn -/

theorem State.withdraw_awaiting (s : State) : s.withdraw.roster.awaiting = s.roster.awaiting := by
  have noStart (u : State) : (if u.startNear then u.noStart else u).roster = u.roster := by split <;> rfl
  unfold State.withdraw
  rw [noStart]
  split
  · rw [(State.showRoster_keeps _).1]
  · rfl
  · rfl

theorem State.withdraw_staged {s : State} {src : Word} {r : RosterRec} (h : s.roster.taken = some (src, .epoch r)) :
    s.withdraw.roster.staged = none := by
  have noStart (u : State) : (if u.startNear then u.noStart else u).roster = u.roster := by split <;> rfl
  unfold State.withdraw
  rw [noStart, h]
  exact congrArg Roster.staged (State.showRoster_keeps _).1

/-- A proposal withdrawn everywhere is no longer awaited. -/
theorem State.cancelAll_awaiting (s : State) (a : Awaiting) (code : Half) :
    (s.cancelAll (some a) code).roster.awaiting = s.roster.awaiting.erase a := by
  have hw : (s.sendAll (leBytes 4 4)).withdraw.roster.awaiting = s.roster.awaiting := by
    rw [State.withdraw_awaiting, (s.onLine_sendAll _).roster]
  unfold State.cancelAll
  dsimp only
  rw [State.roster_finishOpt, hw]

/-! ## Announcements and answers -/

theorem State.announce_taken {s : State} {src : Word} {rec : List Byte} (hok : s.rosterOk (rosterRec rec) = true)
    (hb : s.shutter.fn.toNat + 16 ≤ (rosterRec rec).boundary.toNat) : s.gives (.announce src rec) fun t =>
      t.roster.staged = some (rosterRec rec) ∧ t.roster.taken = some (src, .epoch (rosterRec rec)) ∧ t.roster.inForce = s.roster.inForce := by
  refine State.gives_of (t := (s.takeProposal src (.epoch (rosterRec rec))).answerStaged src) ?_ ?_
  · show execAnnounce src rec s = _
    simp only [execAnnounce, hok, Bool.not_true, Bool.false_eq_true, if_false]
    rw [if_neg (by omega)]
  · rw [State.answerStaged, (State.onLine_sendRoster _ _ _).roster, State.takeProposal]
    dsimp only
    rw [State.stage_roster]
    exact ⟨rfl, rfl, rfl⟩

theorem State.announce_refused {s : State} {src : Word} {rec : List Byte} (hok : s.rosterOk (rosterRec rec) = false) :
    s.gives (.announce src rec) fun t => t.roster = s.roster ∧ t.htu.events = s.htu.events ++ [(0x0507#16, s.shutter.fn)] := by
  refine State.gives_of (t := (s.logEvent 0x0507#16).refuseRecord src (rosterRec rec)) ?_ ?_
  · show execAnnounce src rec s = _
    simp only [execAnnounce, hok, Bool.not_false, if_true]
  · obtain ⟨_, _, _, he, -⟩ := (s.logEvent 0x0507#16).refuseRecord_onLine src (rosterRec rec)
    rw [he]
    exact ⟨rfl, rfl⟩

theorem State.staged_answer {s : State} {src : Word} {a : Awaiting} (ha : s.awaitedFrom src = some a) :
    (s.others.all (a.stagedBy ++ [src]).contains = true →
      s.gives (.staged src) fun t => t.roster.awaiting = s.roster.awaiting.erase a) ∧
    (s.others.all (a.stagedBy ++ [src]).contains = false → s.gives (.staged src) fun t =>
      { a with stagedBy := a.stagedBy ++ [src] } ∈ t.roster.awaiting) := by
  refine ⟨fun hall => ⟨_, rfl, ?_⟩, fun hall => ⟨_, rfl, ?_⟩⟩
  · rw [ha]
    dsimp only
    rw [if_pos hall, State.roster_finishOpt]
  · rw [ha]
    dsimp only
    rw [if_neg (by simp only [hall, Bool.false_eq_true, not_false_eq_true])]
    exact List.mem_map.2 ⟨a, List.mem_of_find?_eq_some ha, if_pos rfl⟩

/-! ## Orders -/

theorem State.rosterStart_taken {s : State} (h : s.canonical) (src : Word) (fn : BitVec 48) :
    s.gives (.rosterStart src fn) fun t => t.greg 0x40018 = fn.setWidth 32 ∧
      t.greg 0x4001C = BitVec.ofNat 32 (fn.toNat / 2 ^ 32) ∧ t.shutter.noStart = false := by
  refine State.gives_of (t := (s.takeProposal src (.start fn)).answerStaged src) rfl ?_
  have ht := State.takeStart_spec (s := { s with roster := { s.roster with taken := some (src, .start fn) } }) h src fn
  have hl := State.onLine_sendRoster (s.takeProposal src (.start fn)) src (leBytes 4 2)
  rw [State.answerStaged, hl.greg (by decide), hl.greg (by decide), hl.shutter]
  exact ht

theorem State.freeze_armed {s : State} (h : s.canonical) (src : Word) (step : BitVec 40) (tgt : Target) :
    s.gives (.freeze src step tgt) fun t => t.svc.ckpt.isSome = true ∧ ∀ c,
      (t.core c).reg 0x6024 = BitVec.ofNat 32 step.toNat ∧ (t.core c).rf 0x6028 31 31 = 1 := by
  refine ⟨_, rfl, ?_⟩
  generalize hu : (if s.svc.ckpt.isSome then s else { s with svc := { s.svc with ckpt := some (newCkpt step.toNat tgt none) } }) = u
  have hc : u.canonical := by rw [← hu]; exact h.ite h
  have hk : u.svc.ckpt.isSome = true := by
    rw [← hu]
    split
    · assumption
    · rfl
  have hl := State.onLine_sendRoster (u.takeProposal src (.freeze step)) src (leBytes 4 2)
  rw [State.answerStaged, hl.svc]
  refine ⟨hk, fun c => ?_⟩
  rw [State.core_congr hl.cores]
  exact State.armCores_spec (s := { u with roster := { u.roster with taken := some (src, .freeze step) } }) hc 0x6024 step c

theorem State.fix_armed {s : State} (h : s.canonical) (src : Word) (step : BitVec 40) :
    s.gives (.fix src step) fun t => ∀ c, if s.draining then t.core c = s.core c
      else (t.core c).reg 0x602C = BitVec.ofNat 32 step.toNat ∧ (t.core c).rf 0x6030 31 31 = 1 := by
  refine ⟨_, rfl, fun c => ?_⟩
  let u : State := { s with roster := { s.roster with taken := some (src, .fix step) } }
  have hd : u.draining = s.draining := rfl
  have ht : s.takeProposal src (.fix step) = if u.draining then u else u.armCores 0x602C step.toNat := rfl
  have hl := State.onLine_sendRoster (s.takeProposal src (.fix step)) src (leBytes 4 2)
  rw [State.answerStaged, State.core_congr hl.cores, ht, hd]
  split
  · rfl
  · exact State.armCores_spec (s := u) h 0x602C step c

/-- Settles O45: what a member, and the leader, make of a proposal and of its answers. -/
theorem rosterAgents : Obligations.RosterAgents := by
  intro s src rec fn step tgt code h
  refine ⟨State.announce_taken, State.announce_refused, fun a ha => ⟨(State.staged_answer ha).1, (State.staged_answer ha).2, fun ho => ?_⟩,
    fun ho => ?_, ?_, fun x hx => ?_, fun m x hx hm => ?_, ?_, ?_, ?_⟩
  · exact State.gives_of (by exact congrArg Host.Outcome.next (if_pos ho)) (by rw [ha]; exact s.cancelAll_awaiting a code)
  · exact State.gives_of (by exact congrArg Host.Outcome.next (if_neg (by rw [ho]; decide))) rfl
  · refine ⟨_, rfl, fun a ha => ?_⟩
    rw [ha]
    exact s.cancelAll_awaiting a _
  · refine ⟨_, rfl, ?_⟩
    rw [hx]
    dsimp only
    rw [if_pos rfl]
    exact State.withdraw_staged hx
  · refine ⟨_, rfl, ?_⟩
    rw [hx]
    exact if_neg hm
  · exact State.rosterStart_taken h src fn
  · exact State.freeze_armed h src step tgt
  · exact State.fix_armed h src step

end Sys2Proof.Machine
end

section
/-! SUPPORT. What a miss of a line's CRC does to a core (R365, R370, R377–R380), and when a frame retires (R12). -/

namespace Sys2Proof.Machine

/-! ## The integrity logic -/

/-- `y` is `x` after the integrity logic has acted: of the frame only the stop bath that it asks for may differ, and of the registers
only those from 0x8000 on. -/
def Core.worn (x y : Core) : Prop :=
  (∃ b, y.frame = { x.frame with haltNext := b } ∧ (x.frame.haltNext = true → b = true)) ∧ y.seq = x.seq ∧ y.inflight = x.inflight ∧
    y.dma = x.dma ∧ ∀ r, r < 0x8000 → y.reg r = x.reg r

section Worn
variable {x y z : Core}

theorem Core.worn.refl (x : Core) : x.worn x := ⟨⟨_, rfl, id⟩, rfl, rfl, rfl, fun _ _ => rfl⟩

theorem Core.worn.trans (h : x.worn y) (h' : y.worn z) : x.worn z := by
  obtain ⟨⟨b, hf, hb⟩, hs, hi, hd, hr⟩ := h
  obtain ⟨⟨b', hf', hb'⟩, hs', hi', hd', hr'⟩ := h'
  refine ⟨⟨b', by rw [hf', hf], fun hx => hb' ?_⟩, hs'.trans hs, hi'.trans hi, hd'.trans hd, fun r h => (hr' r h).trans (hr r h)⟩
  rw [hf]
  exact hb hx

theorem Core.worn.ite {p : Prop} [Decidable p] (h : x.worn y) (h' : x.worn z) : x.worn (if p then y else z) := by
  split <;> assumption

theorem Core.worn.foldl {α : Type} {f : Core → α → Core} {l : List α} (h : x.worn y) (hf : ∀ (z : Core) (a : α), z.worn (f z a)) :
    x.worn (l.foldl f y) :=
  List.foldlRecOn l f h fun _ hz _ _ => hz.trans (hf _ _)

theorem Core.worn.setReg {a : Nat} {w : Word} (h : x.worn y) (ha : 0x8000 ≤ a) : x.worn (y.setReg a w) :=
  h.trans ⟨⟨_, rfl, id⟩, rfl, rfl, rfl, fun _ hr => Core.reg_setReg_ne y w (by omega)⟩

theorem Core.worn.setRf {a hi lo v : Nat} (h : x.worn y) (ha : 0x8000 ≤ a) : x.worn (y.setRf a hi lo v) := h.setReg ha

theorem Core.worn.bump {a n : Nat} (h : x.worn y) (ha : 0x8000 ≤ a) : x.worn (y.bump a n) := h.setReg ha

theorem Core.worn.raiseInt {code : Half} (h : x.worn y) : x.worn (y.raiseInt code) := h.setRf (Nat.le_refl _)

theorem Core.worn.setInteg {g : Integ} (h : x.worn y) : x.worn { y with integ := g } :=
  h.trans ⟨⟨_, rfl, id⟩, rfl, rfl, rfl, fun r _ => Core.reg_congr (x := y) rfl r⟩

theorem Core.worn.askStop (h : x.worn y) : x.worn y.askStop :=
  h.trans ⟨⟨_, rfl, fun _ => rfl⟩, rfl, rfl, rfl, fun r _ => Core.reg_congr (x := y) rfl r⟩

theorem Core.worn.write {a : Nat} {bs : List Byte} (h : x.worn y) : x.worn (y.write a bs) :=
  h.trans ⟨⟨_, rfl, id⟩, rfl, rfl, rfl, fun r _ => Core.reg_congr (x := y) rfl r⟩

theorem Core.worn.showRemaps (h : x.worn y) : x.worn y.showRemaps :=
  h.foldl fun z r => (Core.worn.refl z).setReg (Nat.le_trans (by decide) (Nat.le_add_right 0x8100 (4 * r.entry)))

theorem Core.worn.showFills (h : x.worn y) : x.worn y.showFills := (h.setRf (Nat.le_refl _)).setRf (Nat.le_refl _)

theorem Core.worn.uncontained (h : x.worn y) : x.worn y.uncontained := (h.raiseInt.setRf (Nat.le_refl _)).askStop

theorem Core.worn.corrected {m : Nat} (h : x.worn y) : x.worn (y.corrected m) := by
  have hm : 0x8000 ≤ 0x8044 + 8 * m := Nat.le_trans (by decide) (Nat.le_add_right 0x8044 (8 * m))
  unfold Core.corrected
  exact .ite (.setInteg (.setRf (.raiseInt ((h.setRf hm).setRf hm)) (Nat.le_refl _))) ((h.setRf hm).setRf hm)

theorem Core.worn.remapLine {ctr line : Nat} (h : x.worn y) : x.worn (y.remapLine ctr line) := by
  simp only [Core.remapLine]
  split
  · have full : ∀ {g}, x.worn { ((y.raiseInt 0x0405#16).setRf 0x8000 3 3 1).report line 0x0405#16 with integ := g } :=
      .setInteg (.setInteg (h.raiseInt.setRf (Nat.le_refl _)))
    exact .ite full.askStop full
  · have hw : ∀ {g l}, x.worn ((({ y with integ := g } : Core).report line 0x040C#16).write line l) := .write (.setInteg h.setInteg)
    refine .showFills (.showRemaps ?_)
    split
    · exact hw.setInteg
    · exact .raiseInt hw.setInteg
    · exact .uncontained hw

theorem Core.worn.refetch {line : Nat} (h : x.worn y) : x.worn (y.refetch line) := by
  unfold Core.refetch
  exact .setInteg (.corrected (h.raiseInt.bump (by decide)))

theorem Core.worn.lastMiss {line : Nat} {p l : Bool} (h : x.worn y) : x.worn (y.lastMiss line p l) := .ite h (h.setReg (by decide))

theorem Core.worn.miss {k : Ctx} {line : Nat} {p : Bool} (h : x.worn y) : x.worn (y.miss k line p) := by
  have counted : ∀ {l}, x.worn ((y.bump 0x8008 1).lastMiss line p l) := (h.bump (by decide)).lastMiss
  have patrolled : ∀ {z : Core}, x.worn z → x.worn (if p then z.bump 0x8010 1 else z) := fun hz => .ite (hz.bump (by decide)) hz
  have filled : ∀ {z : Core} {b : Bool}, x.worn z → x.worn (if b then z.uncontained else z) := fun hz => .ite hz.uncontained hz
  have refetched : ∀ {z : Core}, x.worn z → x.worn (if z.isClean line then z.refetch line else z) := fun hz => .ite hz.refetch hz
  unfold Core.miss
  refine .ite h.lastMiss (refetched (.ite ?_ (.ite (.remapLine (.raiseInt (.setInteg ?_))) (.setInteg ?_))))
  all_goals exact filled (.setInteg (patrolled counted))

end Worn

/-! ## Misses that a frame met (R370) -/

/-- A frame that may be replayed is due for replay, any other is aborted; nothing more issues, and no register below 0x8000 changes. -/
theorem Core.missFrame_spec (k : Ctx) (x : Core) (code : Half) (bundle : BitVec 13) {lines : List Nat} (hl : lines ≠ []) :
    let y := x.missFrame k code bundle lines
    y.seq.stopped = true ∧ (∀ r, r < 0x8000 → y.reg r = x.reg r) ∧
      if x.canReplay k then y.frame.replayDue = true ∧ y.frame.aborted = x.frame.aborted
      else y.frame.aborted = true ∧ (x.frame.aborted = false → y.frame.faultCode = code ∧ y.frame.faultBundle = bundle) := by
  intro y
  let z := lines.foldl (fun c l => c.miss k l false) x
  let u : Core := ({ z with frame := { z.frame with crcEvents := z.frame.crcEvents + lines.length } } : Core).raiseInt code
  have hz : x.worn z := (Core.worn.refl x).foldl fun z l => (Core.worn.refl z).miss
  obtain ⟨⟨b, hf, -⟩, -, -, -, hr⟩ := hz
  have hu : ∀ r, r < 0x8000 → u.reg r = x.reg r := fun r h =>
    (Core.reg_setRf_ne _ _ _ _ (by omega)).trans ((Core.reg_congr (x := z) rfl r).trans (hr r h))
  have huf : u.frame = { x.frame with haltNext := b, crcEvents := x.frame.crcEvents + lines.length } := by
    have he : u.frame = { z.frame with crcEvents := z.frame.crcEvents + lines.length } := rfl
    rw [he, hf]
  have hy : y = if x.canReplay k then
      (let c := if u.frame.replayDue then u else (u.corrected (memCode (lines.headD 0))).raiseInt 0x0408#16
      { c with frame := { c.frame with replayDue := true }, seq := { c.seq with stopped := true } })
      else u.abort code bundle := if_neg (by simp [hl])
  rw [hy]
  split
  · let c := if u.frame.replayDue then u else (u.corrected (memCode (lines.headD 0))).raiseInt 0x0408#16
    have hc : u.worn c := .ite (Core.worn.refl u) (Core.worn.refl u).corrected.raiseInt
    obtain ⟨⟨b', hf', -⟩, -, -, -, hr'⟩ := hc
    refine ⟨rfl, fun r h => (Core.reg_congr (x := c) rfl r).trans ((hr' r h).trans (hu r h)), rfl, ?_⟩
    show c.frame.aborted = _
    rw [hf', huf]
  · have ha : u.frame.aborted = x.frame.aborted := by rw [huf]
    refine ⟨rfl, fun r h => (Core.reg_congr (x := u) rfl r).trans (hu r h), ?_, fun hx => ?_⟩
    · show (if u.frame.aborted then u.frame else _).aborted = true
      split
      · assumption
      · rfl
    · have : u.frame.aborted = false := ha.trans hx
      simp [Core.abort, this]

/-! ## Retirement (R12) -/

/-- The words that have yet to arrive arrive as a frame retires. -/
def Core.lastWords (x : Core) : Seq := x.seq.coming.foldl (fun q w => q.put w.dst w.val) { x.seq with coming := [] }

/-- A core as its frame retires. -/
def Core.retiring (k : Ctx) (x : Core) : Core :=
  let c := x.waitAbandoned k.clock
  { c with seq := c.lastWords, frame := { c.frame with
    retiredAt := some (if c.seq.busyUntil < k.clock then k.clock else c.seq.busyUntil) } }

/-- The sequencer's words in their registers. -/
def Core.showWords (x : Core) : Core :=
  (List.range 32).foldl (fun c i => c.setReg (0x2100 + 4 * i) (if i = 0 then 0#32 else x.seq.sregs.getD i 0#32)) x

/-- The sequencer's registers show what it held, and RUN is 0. -/
def Core.showRetired (x : Core) : Core := (x.showWords.setRf 0x2180 7 0 (x.seq.preds ||| 1#8).toNat).setRf 0x2000 0 0 0

theorem Core.showWords_keeps (x : Core) : x.showWords.frame = x.frame ∧ x.showWords.seq = x.seq :=
  ⟨foldl_keeps (g := Core.frame) (fun c _ _ => Core.setReg_frame c _ _) x, foldl_keeps (g := Core.seq) (fun c _ _ => Core.setReg_seq c _ _) x⟩

theorem Core.reg_showWords_ne (x : Core) {r : Nat} (h : r < 0x2100 ∨ 0x2180 ≤ r) : x.showWords.reg r = x.reg r := by
  refine foldl_keeps (g := fun c : Core => c.reg r) (fun c i hi => Core.reg_setReg_ne _ _ ?_) x
  have := List.mem_range.1 hi
  omega

theorem Core.canonical.showWords {x : Core} (h : x.canonical) : x.showWords.canonical := h.foldl .setReg

theorem Core.checkRetire_eq {k : Ctx} {x : Core} (h : (x.frame.live && x.frame.retiredAt.isNone && x.quietEnd) = true) :
    x.checkRetire k = (x.retiring k).showRetired := by
  rw [Core.checkRetire, if_pos h]
  rfl

theorem Core.checkRetire_eq_self {k : Ctx} {x : Core} (h : (x.frame.live && x.frame.retiredAt.isNone && x.quietEnd) = false) :
    x.checkRetire k = x := by
  rw [Core.checkRetire, if_neg (by rw [h]; decide)]

theorem Seq.put_keeps (q : Seq) (d : SeqDst) (v : Word) : (q.put d v).ended = q.ended ∧ (q.put d v).stopped = q.stopped := by
  unfold Seq.put
  split
  · split <;> exact ⟨rfl, rfl⟩
  · split <;> exact ⟨rfl, rfl⟩
  · exact ⟨rfl, rfl⟩

theorem Core.lastWords_keeps (x : Core) : x.lastWords.ended = x.seq.ended ∧ x.lastWords.stopped = x.seq.stopped :=
  ⟨foldl_keeps (g := Seq.ended) (fun q w _ => (q.put_keeps w.dst w.val).1) _,
    foldl_keeps (g := Seq.stopped) (fun q w _ => (q.put_keeps w.dst w.val).2) _⟩

theorem Core.showRetired_keeps (x : Core) : x.showRetired.frame = x.frame ∧ x.showRetired.seq = x.seq ∧
    ∀ r, r < 0x2000 ∨ 0x2184 ≤ r → x.showRetired.reg r = x.reg r := by
  obtain ⟨hf, hq⟩ := x.showWords_keeps
  refine ⟨?_, ?_, fun r hr => ?_⟩
  · rw [Core.showRetired, Core.setRf, Core.setReg_frame, Core.setRf, Core.setReg_frame, hf]
  · rw [Core.showRetired, Core.setRf, Core.setReg_seq, Core.setRf, Core.setReg_seq, hq]
  refine (Core.reg_setRf_ne _ _ _ _ (by omega)).trans ((Core.reg_setRf_ne _ _ _ _ (by omega)).trans ?_)
  exact x.reg_showWords_ne (by omega)

theorem Core.canonical.retiring {k : Ctx} {x : Core} (h : x.canonical) : (x.retiring k).canonical := h.waitAbandoned (now := k.clock)

/-- RUN is 0, and the status field above it is as it was. -/
theorem Core.showRetired_status {x : Core} (h : x.canonical) :
    x.showRetired.rf 0x2000 0 0 = 0 ∧ x.showRetired.rf 0x2000 31 16 = x.rf 0x2000 31 16 := by
  have hy : (x.showWords.setRf 0x2180 7 0 (x.seq.preds ||| 1#8).toNat).canonical := h.showWords.setRf
  refine ⟨Core.rf_setRf_self hy (by decide) (by decide), ?_⟩
  refine (Core.rf_setRf_ne hy (by decide) (by decide) (.inr (.inr (by decide)))).trans ?_
  rw [Core.rf, Core.reg_setRf_ne _ _ _ _ (by decide), x.reg_showWords_ne (by decide), Core.rf]

/-- A wait ends with its frame; only its status bit and the frame's lateness change. -/
theorem Core.waitAbandoned_keeps (x : Core) (now : Nat) : (∃ w, (x.waitAbandoned now).frame = { x.frame with waitLate := w }) ∧
    (∃ w, (x.waitAbandoned now).seq = { x.seq with waiting := w }) ∧ ((x.waitAbandoned now).regs = x.regs ∨
      (x.waitAbandoned now).regs = (x.setRf 0x2000 1 1 0).regs) := by
  unfold Core.waitAbandoned
  split
  · exact ⟨⟨_, rfl⟩, ⟨_, rfl⟩, .inl rfl⟩
  · exact ⟨⟨_, rfl⟩, ⟨_, rfl⟩, .inr rfl⟩

theorem Core.waitAbandoned_status {x : Core} (h : x.canonical) (now : Nat) :
    (x.waitAbandoned now).rf 0x2000 31 16 = x.rf 0x2000 31 16 := by
  obtain ⟨-, -, hr | hr⟩ := x.waitAbandoned_keeps now
  · exact Core.rf_congr hr _ _ _
  · exact (Core.rf_congr hr _ _ _).trans (Core.rf_setRf_ne h (by decide) (by decide) (.inr (.inr (by decide))))

/-- A frame that retires. -/
theorem Core.checkRetire_quiet {k : Ctx} {x : Core} (hx : x.canonical)
    (h : (x.frame.live && x.frame.retiredAt.isNone && x.quietEnd) = true) :
    (x.checkRetire k).frame.retiredAt = some (if x.seq.busyUntil < k.clock then k.clock else x.seq.busyUntil) ∧
      (x.checkRetire k).rf 0x2000 0 0 = 0 := by
  have hs := Core.showRetired_status (hx.retiring (k := k))
  rw [Core.checkRetire_eq h, (Core.showRetired_keeps _).1, hs.1]
  obtain ⟨-, ⟨w, hw⟩, -⟩ := x.waitAbandoned_keeps k.clock
  refine ⟨?_, rfl⟩
  show some (if (x.waitAbandoned k.clock).seq.busyUntil < k.clock then k.clock else (x.waitAbandoned k.clock).seq.busyUntil) = _
  rw [hw]

theorem Core.retiring_frame (k : Ctx) (x : Core) : ∃ r w, (x.retiring k).frame = { x.frame with retiredAt := r, waitLate := w } := by
  obtain ⟨⟨w, hw⟩, -⟩ := x.waitAbandoned_keeps k.clock
  unfold Core.retiring
  dsimp only
  rw [hw]
  exact ⟨_, _, rfl⟩

theorem Core.retiring_seq (k : Ctx) (x : Core) : (x.retiring k).seq.ended = x.seq.ended ∧ (x.retiring k).seq.stopped = x.seq.stopped := by
  obtain ⟨-, ⟨v, hv⟩, -⟩ := x.waitAbandoned_keeps k.clock
  obtain ⟨he, hs⟩ := (x.waitAbandoned k.clock).lastWords_keeps
  exact ⟨he.trans (by rw [hv]), hs.trans (by rw [hv])⟩

/-- What retirement leaves: of the frame all but its time and its wait's lateness, and the sequencer's end. -/
theorem Core.checkRetire_keeps (k : Ctx) (x : Core) :
    (∃ r w, (x.checkRetire k).frame = { x.frame with retiredAt := r, waitLate := w }) ∧
      (x.checkRetire k).seq.ended = x.seq.ended ∧ (x.checkRetire k).seq.stopped = x.seq.stopped := by
  cases h : x.frame.live && x.frame.retiredAt.isNone && x.quietEnd
  · rw [Core.checkRetire_eq_self h]
    exact ⟨⟨_, _, rfl⟩, rfl, rfl⟩
  · obtain ⟨hf, hq, -⟩ := (x.retiring k).showRetired_keeps
    rw [Core.checkRetire_eq h, hf, hq]
    exact ⟨x.retiring_frame k, x.retiring_seq k⟩

theorem Core.checkRetire_status {x : Core} (hx : x.canonical) (k : Ctx) : (x.checkRetire k).rf 0x2000 31 16 = x.rf 0x2000 31 16 := by
  cases h : x.frame.live && x.frame.retiredAt.isNone && x.quietEnd
  · rw [Core.checkRetire_eq_self h]
  · rw [Core.checkRetire_eq h, (Core.showRetired_status hx.retiring).2]
    exact (Core.rf_congr (x := x.waitAbandoned k.clock) rfl _ _ _).trans (Core.waitAbandoned_status hx _)

end Sys2Proof.Machine
end

section
/-! END, and a CRC miss on a bundle's line (R12, R228, R251, R370). -/

namespace Sys2Proof.Machine

/-! ## The sequencer arrives at a bundle (R222, R223) -/

theorem Seq.busyUntil_after (q : Seq) (x : Nat) (l : List LoopFrame) : (q.after x l).busyUntil = q.busyUntil := by
  induction l with
  | nil => rfl
  | cons f l ih =>
    unfold Seq.after
    split
    · split
      · rfl
      · exact ih
    · rfl

theorem Core.busyUntil_goTo {c : Core} {b n : Nat} {q : Seq} {t : Nat} {r : Seq × Nat} (h : c.goTo b n q t = some r) :
    r.1.busyUntil = q.busyUntil := by
  induction n generalizing q t with
  | zero => cases h
  | succ n ih =>
    unfold Core.goTo at h
    split at h
    · cases h; rfl
    · split at h
      · exact (ih h).trans (q.busyUntil_after _ _)
      · cases h

/-- A sequencer that comes to a new bundle shows it, and its own instructions run on. -/
theorem Core.arrive_new (k : Ctx) {x : Core} {b : BitVec 13} {slot : Nat} (h : x.sameIssue b slot = false) :
    ∃ q, x.arrive k b slot = { x.setRf 0x2004 12 0 b.toNat with seq := q } ∧ q.busyUntil = x.seq.busyUntil := by
  unfold Core.arrive
  rw [if_neg (by rw [h]; decide)]
  refine ⟨_, rfl, ?_⟩
  cases hl : x.inLine b.toNat with
  | none => rfl
  | some r => exact (Core.busyUntil_goTo hl).trans (Seq.busyUntil_after _ _ _)

/-! ## Ports (R49) -/

/-- Taking its ports changes only whether other instructions meet it there. -/
theorem Core.joinPorts_keeps (x : Core) (i : Instr) (n : Nat) :
    (x.joinPorts i n).frame = x.frame ∧ (x.joinPorts i n).seq = x.seq ∧ (x.joinPorts i n).regs = x.regs := by
  unfold Core.joinPorts
  split
  · dsimp only
    split <;> exact ⟨rfl, rfl, rfl⟩
  · exact ⟨rfl, rfl, rfl⟩

theorem Core.joinPorts_inflight (x : Core) {i : Instr} (h : channelOf i = none) (n : Nat) :
    (x.joinPorts i n).inflight.isEmpty = x.inflight.isEmpty := by
  have hl : (x.joinPorts i n).inflight.length = x.inflight.length := by
    unfold Core.joinPorts
    rw [h]
    simp only [Core.crowd, List.length_append, List.length_map, List.length_take, List.length_drop]
    omega
  rw [Bool.eq_iff_iff, List.isEmpty_iff_length_eq_zero, List.isEmpty_iff_length_eq_zero, hl]

/-! ## END -/

/-- A running core has a frame that has not retired, and its sequencer has not ended. -/
theorem Core.running_iff (x : Core) : x.running = true ↔
    x.frame.live = true ∧ x.frame.retiredAt = none ∧ x.seq.stopped = false ∧ x.seq.ended = false ∧ x.seq.waiting = none := by
  simp only [Core.running, Bool.and_eq_true, Bool.not_eq_true', Option.isNone_iff_eq_none, and_assoc]

/-- An instruction that opens its bundle issues only where the core runs. -/
theorem Core.running_of_issueCycle {x : Core} {a : Site} {i : Instr} {t : Nat} (h : x.issueCycle a i = some t)
    (hs : x.sameIssue a.bundle (slotNo i) = false) : x.running = true := by
  unfold Core.issueCycle at h
  rw [if_neg (by rw [hs]; decide)] at h
  cases hr : x.running
  · rw [hr] at h
    cases h
  · rfl

/-- What END leaves of its core. -/
theorem Core.performed_end {x : Core} (hx : x.canonical) (hr : x.running = true) (k : Ctx) (a : Site) :
    let y := Core.performed k a (.end_ a) (fun k c _ => Core.endFrame k c) x
    y.seq.ended = true ∧
      (x.inflight = [] → (∀ ch ∈ x.dma, ch.inflight = []) →
        y.frame.retiredAt = some (if x.seq.busyUntil < k.clock then k.clock else x.seq.busyUntil) ∧ y.rf 0x2000 0 0 = 0) ∧
      (x.inflight ≠ [] → y.frame = x.frame) := by
  intro y
  obtain ⟨hlive, hret, -, -, -⟩ := x.running_iff.1 hr
  have hsame : x.sameIssue a.bundle (slotNo (.end_ a)) = false := by
    have : slotNo (.end_ a) = 0 := rfl
    rw [Core.sameIssue, this]
    simp
  have hopen : x.reopen a.bundle (slotNo (.end_ a)) = x := by rw [Core.reopen, if_neg (by rw [hsame]; simp)]
  obtain ⟨q, harr, hbusy⟩ := Core.arrive_new k hsame
  let e : Core := { x.setRf 0x2004 12 0 a.bundle.toNat with seq := { q with ended := true } }
  have he : e.canonical := hx.setRf (a := 0x2004) (hi := 12) (lo := 0) (v := a.bundle.toNat)
  have hquiet : (e.frame.live && e.frame.retiredAt.isNone && e.quietEnd) = (x.inflight.isEmpty && x.dma.all (·.inflight.isEmpty)) := by
    show (x.frame.live && x.frame.retiredAt.isNone && ((true || q.stopped) && x.inflight.isEmpty && x.dma.all (·.inflight.isEmpty))) = _
    rw [hlive, hret]
    rfl
  let z := (e.checkRetire k).joinPorts (.end_ a) x.inflight.length
  have hy : y = (if decide (slotNo (.end_ a) ≠ 0) || z.seq.stopped then z.checkRetire k else z).drained := by
    show Core.drained _ = _
    rw [hopen, harr]
    rfl
  obtain ⟨hzf, hzq, hzr⟩ := (e.checkRetire k).joinPorts_keeps (.end_ a) x.inflight.length
  obtain ⟨-, hend, -⟩ := e.checkRetire_keeps k
  refine ⟨?_, fun hi hd => ?_, fun hi => ?_⟩
  · rw [hy]
    show (if decide (slotNo (.end_ a) ≠ 0) || z.seq.stopped then z.checkRetire k else z).seq.ended = true
    have hz : z.seq.ended = true := by rw [hzq, hend]
    split
    · exact (z.checkRetire_keeps k).2.1.trans hz
    · exact hz
  · have hq : (e.frame.live && e.frame.retiredAt.isNone && e.quietEnd) = true := by
      rw [hquiet, hi]
      simpa [List.all_eq_true] using hd
    obtain ⟨hretired, hrun⟩ := Core.checkRetire_quiet (k := k) he hq
    have hzret : z.frame.retiredAt = some (if q.busyUntil < k.clock then k.clock else q.busyUntil) := by rw [hzf]; exact hretired
    have hself : (if decide (slotNo (.end_ a) ≠ 0) || z.seq.stopped then z.checkRetire k else z) = z := by
      rw [Core.checkRetire_eq_self (by rw [hzret]; simp)]
      exact ite_self z
    rw [hy, hself, ← hbusy]
    exact ⟨hzret, (Core.rf_congr (x := e.checkRetire k) hzr _ _ _).trans hrun⟩
  · have hne : x.inflight.isEmpty = false := by simpa using hi
    have heself : e.checkRetire k = e := Core.checkRetire_eq_self (by rw [hquiet, hne]; rfl)
    have hzne : z.inflight.isEmpty = false := by
      rw [Core.joinPorts_inflight _ rfl, heself]
      exact hne
    have hzself : z.checkRetire k = z := Core.checkRetire_eq_self (by rw [Core.quietEnd, hzne]; simp)
    rw [hy, hzself, ite_self]
    show z.frame = x.frame
    rw [hzf, heself]
    rfl

/-! ## A CRC miss on a bundle's line (R251, R370) -/

/-- An operation on a core at a cycle leaves, of what the frame, the sequencer and the registers say, what it says. -/
theorem State.onCoreAt_fields (s : State) (c : CoreId) (t : Nat) (f : Ctx → Core → Core) :
    let x := f (s.ctxAt c t) (s.core c)
    let y := (s.onCoreAt c t f).core c
    y.regs = x.regs ∧ y.seq = x.seq ∧ y.frame = x.frame := by
  intro x y
  have hcore : ((s.atCycle t).tick1).core c = s.core c := State.core_congr (by simp) c
  have hu : s.onCoreAt c t f = if x.integ.reports.isEmpty then ((s.atCycle t).tick1).setCore c x
      else (((s.atCycle t).tick1).setCore c x).drainReports c := by
    unfold State.onCoreAt
    dsimp only
    rw [hcore]
    rfl
  have hy : y = x ∨ y = x.drained := by
    show (s.onCoreAt c t f).core c = _ ∨ (s.onCoreAt c t f).core c = _
    rw [hu]
    split
    · exact .inl (State.core_setCore_self _ _ _)
    · refine .inr ((State.core_congr (State.drainReports_spec _ c).1 c).trans ?_)
      rw [State.core_setCore_self, State.core_setCore_self]
  rcases hy with hy | hy <;> rw [hy] <;> exact ⟨rfl, rfl, rfl⟩

/-- Where a bundle's miss can be met, the core runs. -/
theorem Core.running_of_trapCycle {x : Core} {b t : Nat} (h : x.trapCycle b = some t) : x.running = true := by
  unfold Core.trapCycle at h
  cases hr : x.running
  · rw [hr] at h
    cases h
  · rfl

/-- A miss as issue reaches a bundle: issue stops with the sequencer's code, and the frame is due for replay or aborted. -/
theorem Core.fetchTrap_spec {x : Core} (hx : x.canonical) (ha : x.frame.aborted = false) (k : Ctx) (b : BitVec 13) (line : Nat) :
    let y := x.fetchTrap k b.toNat [line]
    y.seq.stopped = true ∧ y.rf 0x2000 31 16 = 0x0402 ∧
      if x.canReplay k then y.frame.replayDue = true ∧ y.frame.aborted = false
      else y.frame.aborted = true ∧ y.frame.faultCode = 0x0402#16 ∧
        y.frame.faultBundle = if x.atEntry && decide (line ≤ bundleAddr x.seq.prev) then BitVec.ofNat 13 (x.seq.prev - 3) else b := by
  let head := x.atEntry && decide (line ≤ bundleAddr x.seq.prev)
  obtain ⟨q, hy⟩ : ∃ q, x.fetchTrap k b.toNat [line] = Core.checkRetire k ((({ x with seq := q } : Core).raise 0 0x0402#16).missFrame k
      0x0402#16 (if head then BitVec.ofNat 13 (x.seq.prev - 3) else b) [line]) := by
    have hhead : (x.atEntry && [line].any fun l => decide (l ≤ bundleAddr x.seq.prev)) = head := by
      simp only [List.any_cons, List.any_nil, Bool.or_false, head]
    have hb : BitVec.ofNat 13 (if head then x.seq.prev - 3 else b.toNat) = if head then BitVec.ofNat 13 (x.seq.prev - 3) else b := by
      split
      · rfl
      · exact BitVec.ofNat_toNat ..
    unfold Core.fetchTrap Core.frameMiss
    dsimp only
    rw [hhead, hb]
    exact ⟨_, rfl⟩
  let u : Core := ({ x with seq := q } : Core).raise 0 0x0402#16
  have hxq : ({ x with seq := q } : Core).canonical := hx
  have hu : u.canonical := hxq.raise
  obtain ⟨hstop, hreg, hframe⟩ := Core.missFrame_spec k u 0x0402#16 (if head then BitVec.ofNat 13 (x.seq.prev - 3) else b)
    (lines := [line]) (by simp)
  have hcan : u.canReplay k = x.canReplay k := rfl
  have hab : u.frame.aborted = false := ha
  rw [hcan, hab] at hframe
  obtain ⟨⟨r, w, hf⟩, -, hs⟩ := Core.checkRetire_keeps k
    (u.missFrame k 0x0402#16 (if head then BitVec.ofNat 13 (x.seq.prev - 3) else b) [line])
  intro y
  have hstatus : y.rf 0x2000 31 16 = 0x0402 := by
    show Core.rf (x.fetchTrap k b.toNat [line]) 0x2000 31 16 = _
    rw [hy, Core.checkRetire_status hu.missFrame, Core.rf, hreg _ (by decide)]
    exact Core.rf_setRf_self (x := { x with seq := q }) hx (by decide) (by decide)
  have hyf : y.frame = _ := (congrArg Core.frame hy).trans hf
  rw [hyf]
  refine ⟨(congrArg (fun c : Core => c.seq.stopped) hy).trans (hs.trans hstop), hstatus, ?_⟩
  split
  · next h => rw [if_pos h] at hframe; exact hframe
  · next h =>
    rw [if_neg h] at hframe
    exact ⟨hframe.1, (hframe.2 rfl).1, (hframe.2 rfl).2⟩

/-- Settles O12: END by what issuing it does to its core, the trap by what a miss does to the frame it stops. -/
theorem endAndFetchTrap : Obligations.EndAndFetchTrap := by
  refine ⟨fun s a cyc hx hr => ?_, fun s c b cyc hx ha => ⟨fun ht => ?_, fun ht hd => ?_⟩⟩
  · obtain ⟨hc, hd, -, -, hl⟩ := hr
    have hsame : (s.core a.core).sameIssue a.bundle (slotNo (.end_ a)) = false := by
      have : slotNo (.end_ a) = 0 := rfl
      rw [Core.sameIssue, this]
      simp
    refine State.gives_of (t := s.issue a (.end_ a) fun k c _ => Core.endFrame k c) rfl ?_
    rw [State.issue, State.issueWith_eq _ hc hd hl, (State.perform_spec s a (.end_ a) cyc fun k c _ => Core.endFrame k c).1]
    exact Core.performed_end hx (Core.running_of_issueCycle hc hsame) _ a
  · refine ⟨_, rfl, ?_⟩
    rw [ht]
  · refine ⟨_, rfl, ?_⟩
    rw [ht]
    dsimp only
    rw [State.settle_eq_self fun d h => by rw [List.mem_singleton] at h; subst h; exact hd, if_pos (Core.running_of_trapCycle ht)]
    obtain ⟨hr, hq, hf⟩ := s.onCoreAt_fields c cyc fun k x => x.fetchTrap k b.toNat [lineOf (bundleAddr b.toNat)]
    rw [hq, hf, Core.rf_congr hr]
    exact Core.fetchTrap_spec hx ha _ b _

end Sys2Proof.Machine
end

section
/-! SUPPORT. The guard-band work of a core (R12, R80, R81, R125, R154, R240, R241, R371, R379): what it changes, and what it leaves. -/

namespace Sys2Proof.Machine

/-! ## What the merge, the record and the fills change -/

/-- `y` is `x` after work on its registers, its memory and its integrity logic that leaves the registers below `n` as they are but
SEQ_STALLS, and of the frame touches the numeric flags, the predictor's events and the pending PCTLs alone. -/
def Core.worked (n : Nat) (x y : Core) : Prop :=
  ∃ regs mem integ flags events pctl, y = { x with
      regs := regs, mem := mem, integ := integ, frame := { x.frame with numFlags := flags, predEvents := events, pctl := pctl } } ∧
    (∀ r, r < n → r ≠ 0x1230 → y.reg r = x.reg r) ∧ (x.canonical → y.canonical)

section Worked
variable {n : Nat} {x y z : Core}

theorem Core.worked.refl (n : Nat) (x : Core) : x.worked n x := ⟨_, _, _, _, _, _, rfl, fun _ _ _ => rfl, id⟩

theorem Core.worked.trans (h : x.worked n y) (h' : y.worked n z) : x.worked n z := by
  obtain ⟨_, _, _, _, _, _, rfl, hr, hc⟩ := h
  obtain ⟨_, _, _, _, _, _, rfl, hr', hc'⟩ := h'
  exact ⟨_, _, _, _, _, _, rfl, fun r hn h => (hr' r hn h).trans (hr r hn h), fun hx => hc' (hc hx)⟩

theorem Core.worked.ite {p : Prop} [Decidable p] (h : x.worked n y) (h' : x.worked n z) : x.worked n (if p then y else z) := by
  split <;> assumption

theorem Core.worked.foldl {α : Type} {f : Core → α → Core} {l : List α} (h : x.worked n y)
    (hf : ∀ (z : Core), ∀ a ∈ l, z.worked n (f z a)) : x.worked n (l.foldl f y) :=
  List.foldlRecOn l f h fun _ hz _ ha => hz.trans (hf _ _ ha)

theorem Core.worked.setReg {a : Nat} {w : Word} (h : x.worked n y) (ha : n ≤ a ∨ a = 0x1230) : x.worked n (y.setReg a w) :=
  h.trans ⟨_, _, _, _, _, _, rfl, fun _ hr hs => Core.reg_setReg_ne y w (by omega), .setReg⟩

theorem Core.worked.setRf {a hi lo v : Nat} (h : x.worked n y) (ha : n ≤ a) : x.worked n (y.setRf a hi lo v) := h.setReg (.inl ha)

theorem Core.worked.bump {a m : Nat} (h : x.worked n y) (ha : n ≤ a) : x.worked n (y.bump a m) := h.setReg (.inl ha)

theorem Core.worked.write {a : Nat} {bs : List Byte} (h : x.worked n y) : x.worked n (y.write a bs) :=
  h.trans ⟨_, _, _, _, _, _, rfl, fun r _ _ => Core.reg_congr (x := y) rfl r, .write⟩

theorem Core.worked.setInteg {g : Integ} (h : x.worked n y) : x.worked n { y with integ := g } :=
  h.trans ⟨_, _, _, _, _, _, rfl, fun r _ _ => Core.reg_congr (x := y) rfl r, .setInteg⟩

theorem Core.worked.setFrame {flags events : Nat} {pctl : List (BitVec 4 × Bool)} (h : x.worked n y) :
    x.worked n { y with frame := { y.frame with numFlags := flags, predEvents := events, pctl := pctl } } :=
  h.trans ⟨_, _, _, _, _, _, rfl, fun r _ _ => Core.reg_congr (x := y) rfl r, .setFrame⟩

theorem Core.worked.store {a : Nat} {bs : List Byte} (h : x.worked n y) : x.worked n (y.store a bs) :=
  h.write.foldl fun z _ _ => (Core.worked.refl n z).setInteg

/-! ## The merge (R80, R81, R154) -/

theorem Core.worked.mergeAmax (h : x.worked 0x4000 y) : x.worked 0x4000 y.mergeAmax :=
  h.foldl fun z r _ => (Core.worked.refl _ z).setReg (.inl (Nat.le_trans (by decide) (Nat.le_add_right 0x4400 (4 * r.1))))

theorem Core.worked.push {e : Nat} (h : x.worked 0x4000 y) : x.worked 0x4000 (y.push e) := by
  have clamped : ∀ {z : Core}, x.worked 0x4000 z → x.worked 0x4000 z.scaleClamped := fun hz =>
    ((hz.setRf (by decide)).setRf (by decide)).setFrame
  have he : 0x4000 ≤ 0x4400 + 4 * e := Nat.le_trans (by decide) (Nat.le_add_right 0x4400 (4 * e))
  have hl : 0x4000 ≤ 0x4100 + e / 4 * 4 := Nat.le_trans (by decide) (Nat.le_add_right 0x4100 (e / 4 * 4))
  unfold Core.push
  extract_lets base t l len hh r c1 c2 c3 c4 c5 fmt hist best
  have h5 : x.worked 0x4000 c5 := h.store.store.store.store.setReg (.inl he)
  refine .ite h (.ite h5 ?_)
  split
  · next m e _ =>
    rcases pushScale fmt (natAt t 0x45 1 % 8) (m, e) with ⟨v, clamp⟩
    exact .ite h5 (.setRf (.store (.ite (clamped h5) h5)) hl)
  · exact h5

theorem Core.worked.missLimit {j : Nat} (h : x.worked 0x4000 y) : x.worked 0x4000 (y.missLimit j) := by
  have hp (o : Nat) : 0x4000 ≤ 0x7C00 + 32 * j + o := by omega
  unfold Core.missLimit
  extract_lets p a m c1 c2
  have h1 : x.worked 0x4000 c1 := (h.setReg (.inl (hp 20))).bump (hp 24)
  exact .ite (((h1.setRf (hp 16)).setRf (hp 16)).setRf (by decide)).setFrame h1

theorem Core.worked.guardMerge (h : x.worked 0x4000 y) : x.worked 0x4000 y.guardMerge :=
  .ite (.foldl (.foldl h.mergeAmax fun z _ _ => (Core.worked.refl _ z).push) fun z _ _ => (Core.worked.refl _ z).missLimit) h

/-! ## The record (R125) -/

theorem Core.worked.publish {rec_ : List Byte} (h : x.worked 0x4000 y) : x.worked 0x4000 (y.publish rec_) := by
  unfold Core.publish
  extract_lets f c1 c2
  have h1 : x.worked 0x4000 c1 :=
    h.foldl fun z i _ => (Core.worked.refl _ z).setReg (.inl (Nat.le_trans (by decide) (Nat.le_add_right 0x9000 (4 * i))))
  have h2 : x.worked 0x4000 c2 := (h1.setReg (.inl (by decide))).setReg (.inl (by decide))
  exact (h2.setReg (.inr rfl)).setReg (.inl (by decide))

/-! ## Fills (R379, R380) -/

theorem Core.worked.corrected {m : Nat} (h : x.worked 0x8000 y) : x.worked 0x8000 (y.corrected m) := by
  have hm : 0x8000 ≤ 0x8044 + 8 * m := Nat.le_trans (by decide) (Nat.le_add_right 0x8044 (8 * m))
  unfold Core.corrected
  exact .ite (.setInteg (.setRf (.setRf ((h.setRf hm).setRf hm) (Nat.le_refl _)) (Nat.le_refl _))) ((h.setRf hm).setRf hm)

theorem Core.worked.refetch {line : Nat} (h : x.worked 0x8000 y) : x.worked 0x8000 (y.refetch line) := by
  unfold Core.refetch
  exact .setInteg (.corrected ((h.setRf (Nat.le_refl _)).bump (by decide)))

theorem Core.worked.showFills (h : x.worked 0x8000 y) : x.worked 0x8000 y.showFills := (h.setRf (Nat.le_refl _)).setRf (Nat.le_refl _)

theorem Core.worked.fillDone (h : x.worked 0x8000 y) : x.worked 0x8000 y.fillDone := h.setInteg.showFills

theorem Core.worked.setSpare {e : Nat} {st : SpareState} (h : x.worked 0x8000 y) : x.worked 0x8000 (y.setSpare e st) :=
  h.setInteg.foldl fun z r _ => (Core.worked.refl _ z).setReg (.inl (Nat.le_trans (by decide) (Nat.le_add_right 0x8100 (4 * r.entry))))

theorem Core.worked.fillStep {pass : Bool} (h : x.worked 0x8000 y) : x.worked 0x8000 (y.fillStep pass) := by
  unfold Core.fillStep
  split
  · exact h
  · exact .ite h (.ite h.fillDone (.ite h.write.setInteg.setSpare.fillDone (.ite h.setSpare.refetch.setInteg h.fillDone)))

theorem Core.worked.fillWork {p q : Bool} (h : x.worked 0x8000 y) : x.worked 0x8000 (y.fillWork p q) := .ite h.fillStep.fillStep h.fillStep

end Worked

/-! ## Carry words and UADV at the frame's end (R240, R241, R371) -/

/-- The carry words take their shadows. -/
def Core.takeCarry (x : Core) : Core := (List.range 8).foldl (fun c i => c.setReg (0x2040 + 4 * i) (c.shadowReg (0x2040 + 4 * i))) x

theorem Core.takeCarry_spec {x : Core} (h : x.canonical) :
    (∀ i, i < 8 → x.takeCarry.reg (0x2040 + 4 * i) = x.shadowReg (0x2040 + 4 * i)) ∧
      ∀ r, r < 0x2040 ∨ 0x2060 ≤ r → x.takeCarry.reg r = x.reg r := by
  let f (c : Core) (i : Nat) : Core := c.setReg (0x2040 + 4 * i) (c.shadowReg (0x2040 + 4 * i))
  refine ⟨fun i hi => ?_, fun r hr => ?_⟩
  · obtain ⟨l, -, he⟩ := foldl_once (f := f) (g := fun c : Core => c.reg (0x2040 + 4 * i)) (List.mem_range.2 hi) List.nodup_range
      (fun c j _ hj => Core.reg_setReg_ne _ _ (by omega)) x
    have hs : (l.foldl f x).shadow = x.shadow := foldl_keeps (g := Core.shadow) (fun c _ _ => Core.setReg_shadow c _ _) x
    have hc : (l.foldl f x).canonical := h.foldl .setReg
    refine he.trans ((Core.reg_setReg_self hc.regs_wf _ _).trans ?_)
    rw [Core.shadowReg, hs, Core.shadowReg]
  · refine foldl_keeps (g := fun c : Core => c.reg r) (f := f) (fun c i hi => Core.reg_setReg_ne _ _ ?_) x
    have := List.mem_range.1 hi
    omega

theorem Core.canonical.carryEnd {x : Core} {ok : Bool} (h : x.canonical) : (x.carryEnd ok).canonical :=
  .ite h (.ite (.foldl h.setRf .setReg) h.setRf.setRf)

/-- A frame's end withdraws or carries out a pending commit of its carry words. -/
theorem Core.carryEnd_spec {x : Core} (h : x.canonical) (ok : Bool) :
    (x.carryEnd ok).rf 0x2020 0 0 = 0 ∧
      (x.rf 0x2020 0 0 = 1 → if ok then ∀ i, i < 8 → (x.carryEnd ok).reg (0x2040 + 4 * i) = x.shadowReg (0x2040 + 4 * i)
        else (x.carryEnd ok).rf 0x2020 3 3 = 1 ∧ ∀ i, i < 8 → (x.carryEnd ok).reg (0x2040 + 4 * i) = x.reg (0x2040 + 4 * i)) ∧
      ∀ r, 0x2060 ≤ r → (x.carryEnd ok).reg r = x.reg r := by
  have hb : x.rf 0x2020 0 0 = 1 ↔ bitAt (x.reg 0x2020) 0 = true := fld_eq_one_iff _ _
  cases hp : bitAt (x.reg 0x2020) 0
  · have he : x.carryEnd ok = x := if_pos (by simp [hp])
    rw [he, hb, hp]
    exact ⟨(fld_eq_zero_iff _ _).2 hp, nofun, fun _ _ => rfl⟩
  · have he : x.carryEnd ok = if ok then
        (x.setRf 0x2020 0 0 0).takeCarry
        else (x.setRf 0x2020 0 0 0).setRf 0x2020 3 3 1 := if_neg (by simp [hp])
    rw [he]
    cases ok
    · simp only [Bool.false_eq_true, if_false]
      refine ⟨?_, fun _ => ⟨Core.rf_setRf_self h.setRf (by decide) (by decide), fun i _ => ?_⟩, fun r hr => ?_⟩
      · exact (Core.rf_setRf_ne h.setRf (by decide) (by decide) (.inr (.inl (by decide)))).trans
          (Core.rf_setRf_self h (by decide) (by decide))
      · exact (Core.reg_setRf_ne _ _ _ _ (by omega)).trans (Core.reg_setRf_ne _ _ _ _ (by omega))
      · exact (Core.reg_setRf_ne _ _ _ _ (by omega)).trans (Core.reg_setRf_ne _ _ _ _ (by omega))
    · obtain ⟨hword, hrest⟩ := Core.takeCarry_spec (h.setRf (a := 0x2020) (hi := 0) (lo := 0) (v := 0))
      simp only [if_true]
      refine ⟨?_, fun _ => hword, fun r hr => (hrest r (.inr hr)).trans (Core.reg_setRf_ne _ _ _ _ (by omega))⟩
      exact (congrArg (fld · 0 0) (hrest 0x2020 (.inl (by decide)))).trans (Core.rf_setRf_self h (by decide) (by decide))

/-! ## The frame's end -/

/-- A core after its guard-band work, of which `rec_` is the record. -/
def Core.guardDone (rec_ : List Byte) (p q : Bool) (x : Core) : Core := (x.guardMerge.publish rec_).guardEnd p q

/-- A core whose frame's carry words and UADV have been dealt with. -/
def Core.carried (x : Core) : Core :=
  let c := x.carryEnd x.frame.normal
  if x.frame.normal then c else c.setRf 0x6008 8 8 0

theorem Core.guardEnd_eq (p q : Bool) (x : Core) : x.guardEnd p q =
    { x.carried.fillWork p q with
      frame := { (x.carried.fillWork p q).frame with live := false, signals := [], kvCommits := [] }
      workEnd := (x.carried.fillWork p q).frame.workEnd } := rfl

theorem Core.carried_eq (x : Core) : ∃ regs, x.carried = { x with regs := regs } := by
  have hk (ok : Bool) : ∃ regs, x.carryEnd ok = { x with regs := regs } := by
    unfold Core.carryEnd
    dsimp only
    split
    · exact ⟨_, rfl⟩
    · split
      · refine List.foldlRecOn (motive := fun y : Core => ∃ regs, y = { x with regs := regs }) (List.range 8) _ ⟨_, rfl⟩ ?_
        rintro y ⟨_, rfl⟩ i _
        exact ⟨_, rfl⟩
      · exact ⟨_, rfl⟩
  obtain ⟨regs, h⟩ := hk x.frame.normal
  unfold Core.carried
  dsimp only
  rw [h]
  split <;> exact ⟨_, rfl⟩

/-- The frame ends, its outcome as it was; beside, only registers, memory and integrity logic change. -/
theorem Core.guardDone_eq (rec_ : List Byte) (p q : Bool) (x : Core) :
    ∃ regs mem integ workEnd flags events pctl, x.guardDone rec_ p q = { x with
      regs := regs, mem := mem, integ := integ, workEnd := workEnd
      frame := { x.frame with
        numFlags := flags, predEvents := events, pctl := pctl, live := false, signals := [], kvCommits := [] } } := by
  obtain ⟨_, _, _, _, _, _, hy, -, -⟩ := ((Core.worked.refl 0x4000 x).guardMerge).publish (rec_ := rec_)
  obtain ⟨_, hc⟩ := (x.guardMerge.publish rec_).carried_eq
  obtain ⟨_, _, _, _, _, _, hz, -, -⟩ := (Core.worked.refl 0x8000 (x.guardMerge.publish rec_).carried).fillWork (p := p) (q := q)
  rw [Core.guardDone, Core.guardEnd_eq, hz, hc, hy]
  exact ⟨_, _, _, _, _, _, _, rfl⟩

/-- What the guard band leaves of a pending commit of the carry words, and of a UADV. -/
def Core.carriedOver (x y : Core) : Prop :=
  y.rf 0x2020 0 0 = 0 ∧
    (x.rf 0x2020 0 0 = 1 → if x.frame.normal then ∀ i, i < 8 → y.reg (0x2040 + 4 * i) = x.shadowReg (0x2040 + 4 * i)
      else y.rf 0x2020 3 3 = 1 ∧ ∀ i, i < 8 → y.reg (0x2040 + 4 * i) = x.reg (0x2040 + 4 * i)) ∧
    (x.frame.normal = false → y.rf 0x6008 8 8 = 0)

theorem Core.guardDone_carriedOver {x : Core} (hx : x.canonical) (rec_ : List Byte) (p q : Bool) :
    x.carriedOver (x.guardDone rec_ p q) := by
  let y := x.guardMerge.publish rec_
  obtain ⟨_, _, _, _, _, _, hy, hyr, hyc⟩ := ((Core.worked.refl 0x4000 x).guardMerge).publish (rec_ := rec_)
  have hycan : y.canonical := hyc hx
  have hn : y.frame.normal = x.frame.normal := by
    show (x.guardMerge.publish rec_).frame.normal = _
    rw [hy]
    rfl
  have hsh (r : Nat) : y.shadowReg r = x.shadowReg r := by
    show (x.guardMerge.publish rec_).shadowReg r = _
    rw [hy]
    rfl
  have hyrf (hi lo : Nat) : y.rf 0x2020 hi lo = x.rf 0x2020 hi lo := congrArg (fld · hi lo) (hyr _ (by decide) (by decide))
  obtain ⟨hpend, hcommit, hrest⟩ := Core.carryEnd_spec hycan y.frame.normal
  obtain ⟨_, _, _, _, _, _, -, hzr, -⟩ := (Core.worked.refl 0x8000 y.carried).fillWork (p := p) (q := q)
  have hz {r : Nat} (h1 : r < 0x8000) (h2 : r ≠ 0x1230) (h3 : r ≠ 0x6008) :
      (x.guardDone rec_ p q).reg r = (y.carryEnd y.frame.normal).reg r := by
    refine (Core.reg_congr (x := y.carried.fillWork p q) rfl r).trans ((hzr r h1 h2).trans ?_)
    unfold Core.carried
    dsimp only
    split
    · rfl
    · exact Core.reg_setRf_ne _ _ _ _ h3.symm
  have hzf (hi lo : Nat) : (x.guardDone rec_ p q).rf 0x2020 hi lo = (y.carryEnd y.frame.normal).rf 0x2020 hi lo :=
    congrArg (fld · hi lo) (hz (by decide) (by decide) (by decide))
  refine ⟨(hzf 0 0).trans hpend, fun hp => ?_, fun hnot => ?_⟩
  · have := hcommit ((hyrf 0 0).trans hp)
    rw [hn] at this
    split
    · next h =>
      rw [if_pos h] at this
      exact fun i hi => (hz (by omega) (by omega) (by omega)).trans ((congrArg (fun b => (y.carryEnd b).reg (0x2040 + 4 * i)) hn).trans
        ((this i hi).trans (hsh _)))
    · next h =>
      rw [if_neg h] at this
      refine ⟨(hzf 3 3).trans ((congrArg (fun b => (y.carryEnd b).rf 0x2020 3 3) hn).trans this.1), fun i hi => ?_⟩
      exact (hz (by omega) (by omega) (by omega)).trans ((congrArg (fun b => (y.carryEnd b).reg (0x2040 + 4 * i)) hn).trans
        ((this.2 i hi).trans (hyr _ (by omega) (by omega))))
  · have hc : y.carried = (y.carryEnd y.frame.normal).setRf 0x6008 8 8 0 := by
      unfold Core.carried
      exact if_neg (by rw [hn, hnot]; decide)
    have h8 : (x.guardDone rec_ p q).reg 0x6008 = y.carried.reg 0x6008 :=
      (Core.reg_congr (x := y.carried.fillWork p q) rfl _).trans (hzr _ (by decide) (by decide))
    rw [Core.rf, h8, hc]
    exact Core.rf_setRf_self hycan.carryEnd (by decide) (by decide)

end Sys2Proof.Machine
end

section
/-! SUPPORT. The guard-band work of a frame on the module (R12, R24, R27, R361): what it leaves alone beside its core. -/

namespace Sys2Proof.Machine

/-! ## Completion queues, KV regions and sheets -/

/-- `t` is `s` after something that touches neither cores nor what runs their frames, nor the registers of the chip below the link's. -/
def State.aside (s t : State) : Prop :=
  t.cores = s.cores ∧ t.shutter = s.shutter ∧ t.image = s.image ∧ t.clock = s.clock ∧
    (∀ r, r < 0x60000 → t.greg r = s.greg r) ∧ (s.gregsWf → t.gregsWf)

theorem State.aside.refl (s : State) : s.aside s := ⟨rfl, rfl, rfl, rfl, fun _ _ => rfl, id⟩

theorem State.aside.trans {s t u : State} (h : s.aside t) (h' : t.aside u) : s.aside u := by
  obtain ⟨hc, hs, hi, hk, hr, hw⟩ := h
  obtain ⟨hc', hs', hi', hk', hr', hw'⟩ := h'
  exact ⟨hc'.trans hc, hs'.trans hs, hi'.trans hi, hk'.trans hk, fun r h => (hr' r h).trans (hr r h), hw' ∘ hw⟩

theorem State.aside_of_gregs {s t : State} (hc : t.cores = s.cores) (hs : t.shutter = s.shutter) (hi : t.image = s.image)
    (hk : t.clock = s.clock) (hg : t.gregs = s.gregs) : s.aside t := 
  ⟨hc, hs, hi, hk, fun r _ => State.greg_congr hg r, fun hw => by rw [State.gregsWf, hg]; exact hw⟩

theorem State.aside_setGreg (s : State) {a : Nat} (w : Word) (h : 0x60000 ≤ a) : s.aside (s.setGreg a w) :=
  ⟨rfl, rfl, rfl, rfl, fun _ hr => State.greg_setGreg_ne s w (by omega), fun hw => State.wf_setGreg hw a w⟩

theorem State.aside_foldl {α : Type} {f : State → α → State} (l : List α) (h : ∀ (s : State) (a : α), s.aside (f s a)) (s : State) :
    s.aside (l.foldl f s) :=
  List.foldlRecOn l f (State.aside.refl s) fun _ ht a _ => ht.trans (h _ a)

theorem State.aside_hold (s : State) (q : Nat) (entry : List Byte) : s.aside (s.hold q entry) := by
  unfold State.hold
  split
  · exact State.aside_of_gregs rfl rfl rfl rfl rfl
  · dsimp only
    split
    · exact (s.aside_setGreg _ (by decide)).trans (State.aside_of_gregs rfl rfl rfl rfl rfl)
    · split <;> exact State.aside_of_gregs rfl rfl rfl rfl rfl

theorem State.aside_respond (s : State) (v : Serving) (token : Nat) : s.aside (s.respond v token) := by
  unfold State.respond
  dsimp only
  split <;> exact State.aside_of_gregs rfl rfl rfl rfl rfl

theorem State.aside_post (s : State) (q : Nat) (entry : List Byte) : s.aside (s.post q entry) := by
  unfold State.post
  dsimp only
  split
  · exact State.aside_of_gregs rfl rfl rfl rfl rfl
  · split
    · split
      · exact (State.aside_of_gregs rfl rfl rfl rfl rfl).trans (State.aside_respond _ _ _)
      · exact s.aside_hold q entry
    · exact s.aside_hold q entry

theorem State.aside_kvCommit (s : State) (r : KvCommit) : s.aside (s.kvCommit r) := by
  unfold State.kvCommit
  dsimp only
  split
  · exact s.aside_setGreg _ (by decide)
  · exact s.aside_setGreg _ (by omega)

theorem State.aside_sheetOut (s : State) (core : Nat) (fn : BitVec 48) (bytes : List Byte) : s.aside (s.sheetOut core fn bytes) := by
  unfold State.sheetOut
  split
  · exact State.aside_of_gregs rfl rfl rfl rfl rfl
  · exact State.aside.refl s

/-! ## The guard-band work of a core -/

/-- The start that the frame's policy drops is noted in its record. -/
theorem State.dropNext_eq (s : State) (halt : Bool) (f : Frame) : ∃ d, s.dropNext halt f = { f with dropped := d } := by
  unfold State.dropNext
  split
  · exact ⟨_, rfl⟩
  · exact ⟨_, rfl⟩

/-- A core at its guard band, the start that its frame drops noted. -/
def Core.dropping (x : Core) (d : Option (BitVec 48)) : Core := { x with frame := { x.frame with dropped := d } }

/-- The guard-band work of a core's frame: that core's, and of the rest only the stop bath that the frame brings and what its record and
its posts reach. -/
theorem State.guardCore_spec (s : State) (halt : Bool) (c : CoreId) :
    (∃ d rec_ p q, (s.guardCore halt c).core c = (((s.core c).dropping d).guardDone rec_ p q).drained) ∧
      (∀ d, d ≠ c → (s.guardCore halt c).core d = s.core d) ∧
      (s.guardCore halt c).shutter = { s.shutter with stopNext := s.shutter.stopNext || s.coreHalts (s.core c) } ∧
      (s.guardCore halt c).image = s.image ∧ (s.guardCore halt c).clock = s.clock ∧
      (∀ r, r < 0x60000 → (s.guardCore halt c).greg r = s.greg r) ∧ (s.gregsWf → (s.guardCore halt c).gregsWf) := by
  unfold State.guardCore
  extract_lets s1 s2 x0 s3 pass x f rec_ s4 s5 s6
  have h2 : s2.cores = s.cores ∧ s2.shutter = { s.shutter with stopNext := s.shutter.stopNext || s.coreHalts (s.core c) } ∧
      s2.image = s.image ∧ s2.clock = s.clock ∧ s2.gregs = s.gregs := by
    have hh : s1.coreHalts (s1.core c) = s.coreHalts (s.core c) := rfl
    simp only [s2, hh]
    cases s.coreHalts (s.core c)
    · simp only [Bool.or_false, Bool.false_eq_true, if_false]
      exact ⟨rfl, rfl, rfl, rfl, rfl⟩
    · simp only [Bool.or_true, if_true]
      exact ⟨rfl, rfl, rfl, rfl, rfl⟩
  obtain ⟨hc2, hsh2, hi2, hk2, hg2⟩ := h2
  obtain ⟨d, hd⟩ := s2.dropNext_eq halt (s2.core c).frame
  have hx3 : s3.core c = (s.core c).dropping d := by
    have hx0 : x0 = s.core c := State.core_congr hc2 c
    have hf0 : s2.dropNext halt (s2.core c).frame = { x0.frame with dropped := d } := hd
    rw [← hx0]
    simp only [s3, State.core_setCore_self, hf0, Core.dropping]
  have h6 : s4.aside s6 := by
    have h5 : s4.aside s5 := s4.aside_sheetOut _ _ _
    simp only [s6]
    split
    · exact (h5.trans (State.aside_foldl _ (fun s r => s.aside_post _ _) _)).trans (State.aside_foldl _ State.aside_kvCommit _)
    · exact h5
  obtain ⟨hc6, hsh6, hi6, hk6, hr6, hw6⟩ := h6
  have hx4 : s4.core c = ((s.core c).dropping d).guardDone rec_ (pass "old line passes") (pass "queued line passes") := by
    simp only [s4, State.core_setCore_self, Core.guardDone, x, hx3]
  obtain ⟨hc7, hg7, -, -⟩ := s6.drainReports_spec c
  obtain ⟨hsh7, hi7, hk7, -⟩ := State.outside_eq_iff.1 (s6.outside_drainReports c)
  refine ⟨⟨d, rec_, pass "old line passes", pass "queued line passes", ?_⟩, fun e he => ?_, ?_, ?_, ?_, fun r hr => ?_, fun hw => ?_⟩
  · rw [State.core_congr hc7, State.core_setCore_self, State.core_congr hc6, hx4]
  · rw [State.core_congr hc7, State.core_setCore_ne _ _ he, State.core_congr hc6, State.core_setCore_ne _ _ he,
      State.core_setCore_ne _ _ he, State.core_congr hc2]
  · rw [hsh7, hsh6]
    exact hsh2
  · rw [hi7, hi6]
    exact hi2
  · rw [hk7, hk6]
    exact hk2
  · rw [State.greg_congr hg7, hr6 r hr]
    exact State.greg_congr hg2 r
  · have h4 : s4.gregsWf := by rw [State.gregsWf, show s4.gregs = s.gregs from hg2]; exact hw
    rw [State.gregsWf, hg7]
    exact hw6 h4

end Sys2Proof.Machine
end

section
/-! The guard band (R12, R24, R241, R371): frames that end, overruns, and the starts that wait for a late frame. -/

namespace Sys2Proof.Machine

/-! ## Overruns (R24) -/

theorem State.core_markOverrun (s : State) (c : CoreId) :
    (s.markOverrun c).core c = { s.core c with frame := { (s.core c).frame with overrun := true } } :=
  State.core_setCore_self s c { s.core c with frame := { (s.core c).frame with overrun := true } }

theorem State.core_markOverrun_ne (s : State) {c d : CoreId} (h : d ≠ c) : (s.markOverrun c).core d = s.core d :=
  State.core_setCore_ne s { s.core c with frame := { (s.core c).frame with overrun := true } } h

/-! ## The guard band of a tick's frames -/

theorem State.cores_emptySlots (s : State) (fn : BitVec 48) : (s.emptySlots fn).cores = s.cores :=
  State.eachCore_keeps (g := State.cores) s fun u _ => (u.aside_sheetOut _ _ _).1

/-- A core at the guard band of its tick's frames, with nothing due before it: an overrun is marked, any other frame that runs ends. -/
theorem State.core_guardBand {s : State} (hg : s.shutter.guarded = false) (hd : ∀ d, ∀ y ∈ (s.core d).allDues, s.shutter.guardAt < y.1)
    {c : CoreId} (hl : (s.core c).frame.live = true) (ho : (s.core c).frame.overrun = false) :
    if (s.core c).frame.overruns (s.core c).frame.guardAt then
      s.guardBand.core c = { s.core c with frame := { (s.core c).frame with overrun := true } }
    else ∃ d rec_ p q, s.guardBand.core c = (((s.core c).dropping d).guardDone rec_ p q).drained := by
  let n := min s.shutter.guardAt s.shutter.nextTick
  let marks (s : State) (c : CoreId) : Bool :=
    (s.core c).frame.live && !(s.core c).frame.overrun && (s.core c).frame.overruns (s.core c).frame.guardAt
  let ends (s : State) (c : CoreId) : Bool := (s.core c).frame.live && !(s.core c).frame.overrun
  have hset : s.settleAll n = s := State.settle_eq_self fun c _ d h => lt_of_le_of_lt (Nat.min_le_left _ _) (hd c d h)
  let s1 : State := { s.atCycle n with shutter := { (s.atCycle n).shutter with guarded := true } }
  let s2 := s1.eachCore marks State.markOverrun
  let s3 := s2.eachCore ends (State.guardCore s2.haltComing)
  have hc : s.guardBand.core c = s3.core c := by
    unfold State.guardBand
    rw [if_neg (by rw [hg]; decide)]
    extract_lets n' a1 a2 any_ a3 halt a4
    have h1 : a2 = s1 := by simp only [a2, a1, n', hset, s1, n]
    have h3 : a4 = s3 := by simp only [a4, halt, a3, h1, s3, s2, marks, ends]
    rw [h3]
    refine State.core_congr ?_ c
    show (if any_ then s3.emptySlots s3.shutter.fn else s3).cores = _
    split
    · exact s3.cores_emptySlots _
    · rfl
  have h1 : s1.core c = s.core c := State.core_atCycle s n c
  obtain ⟨u, hu, -, h2⟩ := State.core_eachCore (g := fun _ => ()) (p := marks) s1 c
    (fun u d h => State.core_markOverrun_ne u h.symm) (fun _ _ => rfl)
  obtain ⟨v, hv, -, h3⟩ := State.core_eachCore (g := fun _ => ()) (p := ends) s2 c
    (fun u d h => (u.guardCore_spec s2.haltComing d).2.1 c h.symm) (fun _ _ => rfl)
  have hmark : marks u c = (s.core c).frame.overruns (s.core c).frame.guardAt := by
    show ((u.core c).frame.live && !(u.core c).frame.overrun && (u.core c).frame.overruns (u.core c).frame.guardAt) = _
    rw [hu, h1, hl, ho]
    rfl
  have hend : ends v c = ((s2.core c).frame.live && !(s2.core c).frame.overrun) := by
    show ((v.core c).frame.live && !(v.core c).frame.overrun) = _
    rw [hv]
  rw [hc]
  split
  · next hover =>
    have hs2 : s2.core c = { s.core c with frame := { (s.core c).frame with overrun := true } } := by
      refine h2.trans ?_
      rw [hmark, if_pos hover, State.core_markOverrun, hu, h1]
    refine h3.trans ?_
    rw [hend, hs2, if_neg (by simp), hv, hs2]
  · next hover =>
    have hs2 : s2.core c = s.core c := by
      refine h2.trans ?_
      rw [hmark, if_neg hover, hu, h1]
    obtain ⟨d, rec_, p, q, hdone⟩ := (v.guardCore_spec s2.haltComing c).1
    refine ⟨d, rec_, p, q, h3.trans ?_⟩
    rw [hend, hs2, hl, ho, if_pos (by decide), hdone, hv, hs2]

/-- What a frame that ends in the guard band leaves. -/
theorem Core.ended_spec {x : Core} (hx : x.canonical) (d : Option (BitVec 48)) (rec_ : List Byte) (p q : Bool) :
    (((x.dropping d).guardDone rec_ p q).drained).frame.live = false ∧ x.carriedOver ((x.dropping d).guardDone rec_ p q).drained := by
  have hd : (x.dropping d).canonical := hx
  obtain ⟨hpend, hcommit, hadv⟩ := Core.guardDone_carriedOver hd rec_ p q
  refine ⟨?_, ?_⟩
  · obtain ⟨_, _, _, _, _, _, _, he⟩ := (x.dropping d).guardDone_eq rec_ p q
    rw [he]
    rfl
  · exact ⟨hpend, hcommit, hadv⟩

/-- Beside the frame's end, its record and its outcome stand, and so does what waits for it. -/
theorem Core.ended_frame (x : Core) (d : Option (BitVec 48)) (rec_ : List Byte) (p q : Bool) :
    let y := ((x.dropping d).guardDone rec_ p q).drained
    (∃ flags events pctl, y.frame = { x.frame with
      dropped := d, numFlags := flags, predEvents := events, pctl := pctl, live := false, signals := [], kvCommits := [] }) ∧
      y.lateStarts = x.lateStarts ∧ y.sched = x.sched := by
  obtain ⟨_, _, _, _, _, _, _, he⟩ := (x.dropping d).guardDone_eq rec_ p q
  rw [he]
  exact ⟨⟨_, _, _, rfl⟩, rfl, rfl⟩

/-! ## A start on a core (R15, R21, R24) -/

/-- A start changes nothing of the work that its core had to finish. -/
theorem Core.enter_workEnd (x : Core) (l : FrameStart) (start : Nat) (shift : Bool) : (x.enter l start shift).workEnd = x.workEnd := by
  unfold Core.enter
  split
  · rfl
  · dsimp only
    split
    · rfl
    · refine (foldl_keeps (g := Core.workEnd) (f := fun (c : Core) ch => c.setRf (0x2200 + 32 * ch) 5 5 0) (fun _ _ _ => rfl) _).trans ?_
      split <;> rfl

theorem State.startCore_workEnd (s : State) (l : FrameStart) (start : Nat) (c : CoreId) :
    ((State.startCore l start s c).core c).workEnd = (s.core c).workEnd := by
  have hy : ((State.startCore l start s c).core c).workEnd = ((s.core c).enter l start (s.tick1.ctx c).shift).workEnd := by
    rw [State.startCore, (s.onCore_spec c fun k x => x.enter l start k.shift).1, State.coreAfter]
    split <;> rfl
  exact hy.trans (Core.enter_workEnd _ _ _ _)

/-- A frame that started past its own guard band is an overrun, where it is not a dark or spare slot; it runs on. -/
theorem State.startedPast_frame {s : State} {c : CoreId} (h : (s.core c).frame.kind < 4 ∨ (s.core c).frame.started < (s.core c).frame.guardAt) :
    ∃ o, (s.startedPast c).core c = { s.core c with frame := { (s.core c).frame with overrun := o } } := by
  unfold State.startedPast
  dsimp only
  split
  · next hp =>
    have hk : (s.core c).frame.kind < 4 := by
      simp only [Bool.and_eq_true, decide_eq_true_eq] at hp
      omega
    rw [if_pos hk, State.core_markOverrun]
    exact ⟨_, rfl⟩
  · exact ⟨_, rfl⟩

/-- The frame that a start brings runs on its core from the later of its tick and the end of the work before it. -/
def Core.begun (x : Core) (l : FrameStart) (e : SchedEntry) (rest : List FrameStart) (y : Core) : Prop :=
  y.frame.live = true ∧ y.frame.fn = l.fn ∧ y.frame.entry = l.slot ∧ y.frame.kind = e.kind ∧ y.frame.ownTick = l.tick ∧
    y.frame.started = max l.tick x.workEnd ∧ y.lateStarts = rest ∧ y.workEnd = x.workEnd

theorem State.startNext_begun {s : State} {c : CoreId} {l : FrameStart} {rest : List FrameStart} {e : SchedEntry}
    (he : (s.core c).sched[l.slot]? = some e) (ht : max l.tick (s.core c).workEnd < s.shutter.nextTick)
    (hk : e.kind < 4 ∨ max l.tick (s.core c).workEnd < l.guard) : (s.core c).begun l e rest ((s.startNext c (l :: rest)).core c) := by
  let n := max l.tick (s.core c).workEnd
  have hf := State.startCore_frame he n
  have hw := s.startCore_workEnd l n c
  obtain ⟨o, ho⟩ := State.startedPast_frame (s := State.startCore l n s c) (c := c) (by rw [hf]; exact hk)
  have hy : s.startNext c (l :: rest) = ((State.startCore l n s c).startedPast c).setCore c
      { ((State.startCore l n s c).startedPast c).core c with lateStarts := rest } := by
    rw [State.startNext, if_neg (by omega)]
    exact if_pos (by rw [ho, hf]; rfl)
  rw [hy, State.core_setCore_self, ho, hf]
  exact ⟨rfl, rfl, rfl, rfl, rfl, rfl, rfl, hw⟩

theorem State.startNext_waits {s : State} {c : CoreId} {l : FrameStart} {rest : List FrameStart}
    (ht : s.shutter.nextTick ≤ max l.tick (s.core c).workEnd) :
    (s.startNext c (l :: rest)).core c = { s.core c with lateStarts := l :: rest } := by
  rw [State.startNext, if_pos ht]
  exact State.core_setCore_self s c _

/-! ## The step of a UADV (R200) -/

/-- What a step leaves of a core: its registers but those of the update engine's step, and everything beside them, its factor sets and its
filter. -/
theorem Core.advance_fields (x : Core) : ∃ regs factors filter, x.advance = { x with regs := regs, factors := factors, filter := filter } := by
  have hstep (n : Nat) : ∃ regs, x.atStep n = { x with regs := regs } := ⟨_, rfl⟩
  obtain ⟨regs, hs⟩ := hstep ((x.gstep + 1) % 2 ^ 40)
  by_cases hg : bitAt (x.reg 0x6008) 8 = true ∧ x.frame.live = false
  · obtain ⟨w, h⟩ | ⟨w, u, v, h⟩ := Core.advance_eq hg.1 hg.2 <;> rw [h, Core.stepped, hs] <;> exact ⟨_, _, _, rfl⟩
  · rw [Core.advance, if_pos (by simpa [imp_iff_not_or] using hg)]
    exact ⟨_, _, _, rfl⟩

/-- A core once its step is due: one without a UADV is as it was. -/
theorem State.core_stepCore (s : State) (c : CoreId) :
    (s.stepCore c).core c = if bitAt ((s.core c).reg 0x6008) 8 then (s.core c).advance else s.core c := by
  unfold State.stepCore
  cases bitAt ((s.core c).reg 0x6008) 8
  · rfl
  · rw [if_neg (by decide), if_pos rfl, State.core_freezeCore, State.core_setCore_self]

theorem State.freezeCore_keeps (s : State) (c : CoreId) : (s.freezeCore c).outside = s.outside := by
  unfold State.freezeCore
  split
  · rfl
  · split <;> rfl

theorem State.recordCursor_keeps (s : State) (n : Nat) : (s.recordCursor n).outside = s.outside ∧ (s.recordCursor n).cores = s.cores := by
  unfold State.recordCursor
  split
  · exact ⟨rfl, rfl⟩
  · split <;> exact ⟨rfl, rfl⟩

theorem State.outside_stepCore (s : State) (c : CoreId) : (s.stepCore c).outside = s.outside := by
  unfold State.stepCore
  split
  · rfl
  · exact (State.freezeCore_keeps _ _).trans (State.recordCursor_keeps _ _).1

/-- A step leaves what the guard band has made of the carry words and of the UADV. -/
theorem Core.carriedOver.step {x y : Core} (h : x.carriedOver y) :
    x.carriedOver (if bitAt (y.reg 0x6008) 8 then y.advance else y) := by
  obtain ⟨hpend, hcommit, hadv⟩ := h
  cases hb : bitAt (y.reg 0x6008) 8
  · exact ⟨hpend, hcommit, hadv⟩
  · have hn : x.frame.normal = true := by
      by_contra hn
      have := (fld_eq_zero_iff (y.reg 0x6008) 8).1 (hadv (by simpa using hn))
      rw [hb] at this
      cases this
    have hr {r : Nat} (hr : r < 0x2060) : y.advance.reg r = y.reg r :=
      Core.reg_advance_ne (by simp only [stepRegs, List.mem_cons, List.not_mem_nil, or_false]; omega)
    rw [if_pos rfl]
    refine ⟨(congrArg (fld · 0 0) (hr (by decide))).trans hpend, fun hp => ?_, fun h => by rw [hn] at h; cases h⟩
    have := hcommit hp
    rw [if_pos hn] at this ⊢
    exact fun i hi => (hr (by omega)).trans (this i hi)

/-! ## The guard band of a late frame -/

/-- Whether a core's frame brings a stop bath rests on the frame's outcome and on the policies in force. -/
theorem State.coreHalts_congr {s t : State} {x y : Core} (hg : t.greg 0x40028 = s.greg 0x40028) (h1 : y.frame.haltNext = x.frame.haltNext)
    (h2 : y.frame.aborted = x.frame.aborted) (h3 : y.frame.abandoned = x.frame.abandoned) (h4 : y.frame.overrun = x.frame.overrun)
    (h5 : y.frame.kind = x.frame.kind) : t.coreHalts y = s.coreHalts x := by
  rw [State.coreHalts, State.coreHalts, State.policy, State.policy, State.gf, State.gf, State.gbit, State.gbit, hg, h1, h2, h3, h4, h5]

/-- The lateness of a late frame, where it is the greatest so far. -/
def State.showLate (s : State) (f : Frame) : State :=
  if (s.greg 0x4003C).toNat < f.retiredAt.getD 0 - f.guardAt then
    s.setGreg 0x4003C (BitVec.ofNat 32 (sat32 (f.retiredAt.getD 0 - f.guardAt))) else s

/-- The step of a late frame's UADV, where its tick has passed. -/
def State.lateStep (f : Frame) (c : CoreId) (s : State) : State := if f.ownTick < s.shutter.lastTick then s.stepCore c else s

/-- The starts that waited for a late frame. -/
def State.lateNext (s : State) (c : CoreId) : State :=
  (if s.coreHalts (s.core c) || (match (s.core c).lateStarts with
    | [] => true
    | l :: _ => (s.core c).replays && !l.replay) then s else s.startNext c (s.core c).lateStarts).showBehind

theorem State.showLate_keeps (s : State) (f : Frame) (c : CoreId) : (s.showLate f).core c = s.core c ∧ (s.showLate f).shutter = s.shutter ∧
    (s.showLate f).greg 0x40028 = s.greg 0x40028 := by
  unfold State.showLate
  split
  · exact ⟨rfl, rfl, State.greg_setGreg_ne _ _ (by decide)⟩
  · exact ⟨rfl, rfl, rfl⟩

theorem State.lateStep_keeps (s : State) (f : Frame) (c : CoreId) (x : Core) :
    let t := State.lateStep f c s
    t.shutter = s.shutter ∧ t.greg 0x40028 = s.greg 0x40028 ∧ (x.carriedOver (s.core c) → x.carriedOver (t.core c)) ∧
      (t.core c).frame = (s.core c).frame ∧ (t.core c).lateStarts = (s.core c).lateStarts ∧ (t.core c).sched = (s.core c).sched := by
  unfold State.lateStep
  dsimp only
  split
  · obtain ⟨h1, -, -, h4⟩ := State.outside_eq_iff.1 (s.outside_stepCore c)
    obtain ⟨_, _, _, ha⟩ := (s.core c).advance_fields
    refine ⟨h1, State.greg_congr h4 _, fun h => by rw [State.core_stepCore]; exact h.step, ?_⟩
    rw [State.core_stepCore]
    split
    · rw [ha]
      exact ⟨rfl, rfl, rfl⟩
    · exact ⟨rfl, rfl, rfl⟩
  · exact ⟨rfl, rfl, id, rfl, rfl, rfl⟩

/-- The guard-band work of a late frame that has retired, its step, and the starts that waited for it. -/
def State.lateBand (s : State) (c : CoreId) : State :=
  (State.lateStep (s.core c).frame c ((s.showLate (s.core c).frame).guardCore (s.showLate (s.core c).frame).haltComing c)).lateNext c

/-- A frame that is late, and has retired. -/
def Core.lateEnd (x : Core) : Bool := x.frame.live && x.frame.overrun && x.frame.retiredAt.isSome

theorem State.guardLate_eq (s : State) (c : CoreId) :
    ∃ u, (u = s ∨ u = s.settle [c] s.shutter.nextTick) ∧ s.guardLate c = if (u.core c).lateEnd then u.lateBand c else u := by
  unfold State.guardLate
  extract_lets u f late s2 s3 s4 x waits
  refine ⟨u, ?_, ?_⟩
  · simp only [u]
    split
    · exact .inr rfl
    · exact .inl rfl
  · have h2 : s2 = u.showLate (u.core c).frame := rfl
    have h3 : s3 = (u.showLate (u.core c).frame).guardCore (u.showLate (u.core c).frame).haltComing c := by simp only [s3, h2]
    have h4 : s4 = State.lateStep (u.core c).frame c s3 := rfl
    rw [State.lateBand, ← h3, ← h4]
    clear_value s4
    rfl

/-- The core and the module once a late frame's guard-band work and its step are done, before the starts that waited. -/
theorem State.guardLate_done {s : State} {c : CoreId} (hx : (s.core c).canonical) (hd : ∀ y ∈ (s.core c).allDues, s.shutter.nextTick < y.1)
    (hl : (s.core c).frame.live = true) (ho : (s.core c).frame.overrun = true) (hr : (s.core c).frame.retiredAt.isSome = true) :
    ∃ t : State, s.guardLate c = t.lateNext c ∧ t.shutter.nextTick = s.shutter.nextTick ∧ t.coreHalts (t.core c) = s.coreHalts (s.core c) ∧
      (t.core c).replays = (s.core c).replays ∧ (t.core c).lateStarts = (s.core c).lateStarts ∧ (t.core c).sched = (s.core c).sched ∧
      (t.core c).frame.live = false ∧ (s.core c).carriedOver (t.core c) := by
  have hset : s.settle [c] s.shutter.nextTick = s := State.settle_eq_self fun d h => by
    rw [List.mem_singleton] at h; subst h; exact hd
  obtain ⟨u, hu, hdo⟩ := s.guardLate_eq c
  have hus : u = s := hu.elim id fun h => h.trans hset
  have hend : (s.core c).lateEnd = true := by rw [Core.lateEnd, hl, ho, hr]; rfl
  rw [hdo, hus, if_pos hend, State.lateBand]
  obtain ⟨hc2, hsh2, hg2⟩ := s.showLate_keeps (s.core c).frame c
  generalize s.showLate (s.core c).frame = s2 at hc2 hsh2 hg2 ⊢
  obtain ⟨⟨d, rec_, p, q, hc3⟩, -, hsh3, -, -, hg3, -⟩ := s2.guardCore_spec s2.haltComing c
  rw [hc2] at hc3
  generalize s2.guardCore s2.haltComing c = s3 at hc3 hsh3 hg3 ⊢
  obtain ⟨hlive3, hover3⟩ := Core.ended_spec hx d rec_ p q
  obtain ⟨⟨_, _, _, hfr3⟩, hlate3, hsched3⟩ := (s.core c).ended_frame d rec_ p q
  rw [← hc3] at hlive3 hover3 hfr3 hlate3 hsched3
  obtain ⟨hout, hg4, hcarry, hfr, hlate, hsched⟩ := s3.lateStep_keeps (s.core c).frame c (s.core c)
  generalize State.lateStep (s.core c).frame c s3 = s4 at hout hg4 hcarry hfr hlate hsched ⊢
  rw [hfr3] at hfr
  refine ⟨s4, rfl, ?_, ?_, ?_, hlate.trans hlate3, hsched.trans hsched3, ?_, hcarry hover3⟩
  · rw [hout, hsh3, hsh2]
  · refine State.coreHalts_congr (hg4.trans ((hg3 _ (by decide)).trans hg2)) ?_ ?_ ?_ ?_ ?_ <;> rw [hfr]
  · rw [Core.replays, hfr, Core.replays]
  · rw [hfr]

theorem State.core_showBehind (s : State) (c : CoreId) : s.showBehind.core c = s.core c := rfl

/-- No start waited for the late frame. -/
theorem State.lateNext_nil {s : State} {c : CoreId} (h : (s.core c).lateStarts = []) : (s.lateNext c).core c = s.core c := by
  rw [State.lateNext, h, Bool.or_true, if_pos rfl, State.core_showBehind]

/-- A start waited for a frame that brings no stop bath and is not to be replayed. -/
theorem State.lateNext_cons {s : State} {c : CoreId} {l : FrameStart} {rest : List FrameStart} (h : (s.core c).lateStarts = l :: rest)
    (hh : s.coreHalts (s.core c) = false) (hr : (s.core c).replays = false) :
    (s.lateNext c).core c = (s.startNext c (l :: rest)).core c := by
  rw [State.lateNext, h, hh, hr, Bool.false_or, if_neg (by simp), State.core_showBehind]

/-- Settles O33: the guard band of the tick's frames, and that of a late frame. -/
theorem guardBandEndsFrames : Obligations.GuardBandEndsFrames := by
  intro s c hx hl x f ends
  have hends {t : State} {y : Core} (hy : t.core c = y) (h : (s.core c).carriedOver y) : ends t := by rw [← hy] at h; exact h
  refine ⟨fun ht hg hd ho => ?_, fun ho hr hd => ?_⟩
  · refine State.gives_of (t := s.guardBand) (congrArg Host.Outcome.next (if_pos ht)) ?_
    have h := State.core_guardBand hg hd hl ho
    split at h
    · next hover => rw [if_pos hover, h]; exact ⟨rfl, hl⟩
    · next hover =>
      obtain ⟨d, rec_, p, q, h⟩ := h
      obtain ⟨hlive, hcarried⟩ := Core.ended_spec hx d rec_ p q
      rw [if_neg hover, h]
      exact ⟨hlive, hends h hcarried⟩
  · obtain ⟨t, hdone, hnext, hhalts, hreplays, hlate, hsched, hlive, hover⟩ := State.guardLate_done hx hd hl ho hr
    refine ⟨fun hnil => State.gives_of (t := s.guardLate c) rfl ?_,
      fun l rest e hcons he hk hh hrep => State.gives_of (t := s.guardLate c) rfl ?_⟩
    · have hc : (s.guardLate c).core c = t.core c := by rw [hdone, State.lateNext_nil (hlate.trans hnil)]
      rw [hc]
      exact ⟨hlive, hends hc hover⟩
    · have hc : (s.guardLate c).core c = (t.startNext c (l :: rest)).core c := by
        rw [hdone, State.lateNext_cons (hlate.trans hcons) (hhalts.trans hh) (hreplays.trans hrep)]
      rw [hc, ← hnext]
      by_cases hn : max l.tick (t.core c).workEnd < t.shutter.nextTick
      · obtain ⟨hlive', hfn, hentry, -, -, hstarted, hrest, hwork⟩ :=
          State.startNext_begun (rest := rest) ((congrArg (·[l.slot]?) hsched).trans he) hn (.inl hk)
        rw [hwork, if_pos hn]
        exact ⟨hlive', hfn, hentry, hstarted, hrest⟩
      · rw [State.startNext_waits (not_lt.1 hn)] at hc ⊢
        rw [if_neg hn]
        exact ⟨hlive, rfl, hends hc hover⟩

end Sys2Proof.Machine
end

section
/-! SUPPORT. What falls due on a core lets its frame run on (R12, R24, R27): it goes on or stands, and a stop bath that it brings stays
due. -/

namespace Sys2Proof.Machine

/-- `g` is the frame `f` later in its run: it runs as `f` did, and an outcome that `f` has it has. -/
def Frame.ranTo (f g : Frame) : Prop :=
  g.live = f.live ∧ g.kind = f.kind ∧ (f.haltNext = true → g.haltNext = true) ∧ (f.aborted = true → g.aborted = true) ∧
    (f.abandoned = true → g.abandoned = true) ∧ (f.overrun = true → g.overrun = true)

theorem Frame.ranTo.refl (f : Frame) : f.ranTo f := ⟨rfl, rfl, id, id, id, id⟩

theorem Frame.ranTo.trans {f g h : Frame} (hf : f.ranTo g) (hg : g.ranTo h) : f.ranTo h := by
  obtain ⟨hl, hk, hh, ha, hb, ho⟩ := hf
  obtain ⟨hl', hk', hh', ha', hb', ho'⟩ := hg
  exact ⟨hl'.trans hl, hk'.trans hk, hh' ∘ hh, ha' ∘ ha, hb' ∘ hb, ho' ∘ ho⟩

/-- The frame of `y` is that of `x` later in its run. -/
def Core.ranTo (x y : Core) : Prop := x.frame.ranTo y.frame

section RanTo
variable {x y z : Core} {k : Ctx}

theorem Core.ranTo.refl (x : Core) : x.ranTo x := Frame.ranTo.refl _

theorem Core.ranTo.trans (h : x.ranTo y) (h' : y.ranTo z) : x.ranTo z := Frame.ranTo.trans h h'

theorem Core.ranTo.of_frame (h : x.ranTo y) (hf : z.frame = y.frame) : x.ranTo z := by rw [Core.ranTo, hf]; exact h

theorem Core.ranTo.ite {p : Prop} [Decidable p] (h : x.ranTo y) (h' : x.ranTo z) : x.ranTo (if p then y else z) := by
  split <;> assumption

theorem Core.ranTo.foldl {α : Type} {f : Core → α → Core} {l : List α} (h : x.ranTo y) (hf : ∀ {z a}, x.ranTo z → x.ranTo (f z a)) :
    x.ranTo (l.foldl f y) := List.foldlRecOn l f h fun _ hz _ _ => hf hz

theorem Core.ranTo.worn (h : x.ranTo y) (hw : y.worn z) : x.ranTo z := by
  obtain ⟨⟨b, hf, hb⟩, -⟩ := hw
  refine h.trans ?_
  rw [Core.ranTo, hf]
  exact ⟨rfl, rfl, hb, id, id, id⟩

theorem Core.ranTo.setReg {a : Nat} {w : Word} (h : x.ranTo y) : x.ranTo (y.setReg a w) := h

theorem Core.ranTo.setRf {a hi lo v : Nat} (h : x.ranTo y) : x.ranTo (y.setRf a hi lo v) := h

/-! ## Codes and aborts (R124) -/

theorem Core.ranTo.abort {code : Half} {b : BitVec 13} (h : x.ranTo y) : x.ranTo (y.abort code b) := by
  refine h.trans ?_
  show y.frame.ranTo (if y.frame.aborted then y.frame else _)
  split
  · exact .refl _
  · exact ⟨rfl, rfl, id, fun _ => rfl, id, id⟩

theorem Core.ranTo.raise {u : Nat} {code : Half} (h : x.ranTo y) : x.ranTo (y.raise u code) := h

theorem Core.ranTo.raiseNum {now u : Nat} {code : Half} (h : x.ranTo y) : x.ranTo (y.raiseNum now u code) := by
  have h1 : x.ranTo (if y.numKeeps now u (lastCodeOff u) code then y else y.raise u code) := .ite h h.raise
  have h2 : ∀ {z : Core}, x.ranTo z → x.ranTo (if z.numKeeps now 11 0x4010 code then z else z.setRf 0x4010 31 16 code.toNat) :=
    fun hz => .ite hz hz
  exact h2 h1

theorem Core.ranTo.raiseAt {now u : Nat} {code : Half} (h : x.ranTo y) : x.ranTo (y.raiseAt now u code) := .ite h.raiseNum h.raise

theorem Core.ranTo.raises {now u : Nat} {b : BitVec 13} {l : List Raise} (h : x.ranTo y) : x.ranTo (Core.raises now u b y l) :=
  h.foldl fun hz => .ite hz.raiseAt.abort hz.raiseAt

theorem Core.ranTo.noteViolation {a m : Nat} {wr : Bool} (h : x.ranTo y) : x.ranTo (y.noteViolation a m wr) := by
  have hv : x.ranTo { y with frame := { y.frame with violated := true } } := h
  exact .ite h (.ite hv hv.setReg.setReg)

theorem Core.ranTo.violation {u a m : Nat} {b : BitVec 13} {wr : Bool} (h : x.ranTo y) : x.ranTo (y.violation u b a m wr) :=
  h.raise.noteViolation.abort

/-! ## Effects of an instruction -/

/-- Sticky flags of the frame's tiles. -/
theorem Core.ranTo.flagTiles {i o s : Half} (h : x.ranTo y) :
    x.ranTo { y with frame := { y.frame with tileInv := i, tileOvf := o, tileSat := s } } := h

theorem Core.ranTo.setTileFlags {i o s : Half} (h : x.ranTo y) : x.ranTo (y.setTileFlags i o s) := by
  simp only [Core.setTileFlags]
  exact .flagTiles (.setRf (.setReg h))

theorem Core.ranTo.countCollision {n : Nat} (h : x.ranTo y) : x.ranTo { y with frame := { y.frame with collides := n } } := h

theorem Core.ranTo.collide {line l w : Nat} (h : x.ranTo y) : x.ranTo (y.collide line l w) := by
  simp only [Core.collide]
  exact .countCollision (.setReg (.setReg h))

theorem Core.ranTo.store {a : Nat} {bs : List Byte} (h : x.ranTo y) : x.ranTo (y.store a bs) :=
  Core.ranTo.foldl (y := y.write a bs) h fun hz => hz

/-- One effect of an instruction. -/
theorem Core.ranTo.apply {u : Nat} {b : BitVec 13} {e : Eff} (h : x.ranTo y) : x.ranTo (Core.apply u b y e).1 := by
  cases e with
  | mem a bs => exact h.store
  | fence a m wr => exact h.violation
  | first off w more => exact .ite h (Core.ranTo.foldl (y := y.setReg off w) h fun hz => hz)
  | acc t i ow quiet order terms =>
    simp only [Core.apply]
    split
    · exact h
    · split <;> exact .setTileFlags h
  | accInt t i ow quiet terms =>
    simp only [Core.apply]
    split
    · exact h
    · exact .setTileFlags h
  | tileFlags i o s => exact h.setTileFlags
  | push e =>
    refine h.trans ?_
    show y.frame.ranTo (if y.frame.pushes.contains e then y.frame else _)
    split <;> exact .refl _
  | conv ve v => exact .ite h h
  | reg _ _ | count _ _ | stage _ | factor _ _ | filter _ | amax _ _ | audit _ _ _ | edited | gatherOor _
  | firstInv _ | standby _ | rowSet _ _ => exact h

theorem Core.ranTo.applyAll {u : Nat} {b : BitVec 13} {l : List Eff} (h : x.ranTo y) : x.ranTo (Core.applyAll u b y l).1 :=
  List.foldlRecOn (motive := fun r : Core × NumEv => x.ranTo r.1) l _ h fun _ hz _ _ => hz.apply

theorem Core.ranTo.fire {op : PendingOp} {e : Early} (h : x.ranTo y) : x.ranTo (y.fire k op e) := h.applyAll.raises

theorem Core.ranTo.numFlag {now u b : Nat} {set : Bool} {code : Half} (h : x.ranTo y) : x.ranTo (y.numFlag now u set b code) :=
  .ite (.raiseNum h) h

theorem Core.ranTo.numEvents {now u : Nat} {ev : NumEv} (h : x.ranTo y) : x.ranTo (y.numEvents now u ev) :=
  (h.foldl (f := Core.satCount) fun hz => hz).numFlag.numFlag.numFlag.numFlag.numFlag

/-! ## Misses (R370) -/

theorem Core.ranTo.missFrame {code : Half} {b : BitVec 13} {l : List Nat} (h : x.ranTo y) : x.ranTo (y.missFrame k code b l) := by
  let z := l.foldl (fun c l => c.miss k l false) y
  have hz : x.ranTo z := h.foldl fun hz => hz.worn (Core.worn.refl _).miss
  let u : Core := ({ z with frame := { z.frame with crcEvents := z.frame.crcEvents + l.length } } : Core).raiseInt code
  have hu : x.ranTo u := hz
  let v := if u.frame.replayDue then u else (u.corrected (memCode (l.headD 0))).raiseInt 0x0408#16
  have hv : x.ranTo v := .ite hu (hu.worn (Core.worn.refl _).corrected.raiseInt)
  have hr : x.ranTo { v with frame := { v.frame with replayDue := true }, seq := { v.seq with stopped := true } } := hv
  exact .ite h (.ite hr hu.abort)

theorem Core.ranTo.frameMiss {u : Nat} {code : Half} {b : BitVec 13} {l : List Nat} (h : x.ranTo y) :
    x.ranTo (y.frameMiss k u code b l) := .ite h h.raise.missFrame

/-! ## Completion (R257) -/

theorem Core.ranTo.waitAbandoned {now : Nat} (h : x.ranTo y) : x.ranTo (y.waitAbandoned now) := by
  simp only [Core.waitAbandoned]
  split <;> exact h

theorem Core.ranTo.checkRetire (h : x.ranTo y) : x.ranTo (y.checkRetire k) := by
  cases hq : y.frame.live && y.frame.retiredAt.isNone && y.quietEnd
  · rw [Core.checkRetire_eq_self hq]
    exact h
  · rw [Core.checkRetire_eq hq]
    have hr : x.ranTo (y.retiring k) := h.waitAbandoned (now := k.clock)
    exact hr.of_frame (Core.showRetired_keeps _).1

theorem Core.ranTo.leave {op : PendingOp} (h : x.ranTo y) : x.ranTo (y.leave op) := .ite h h

/-- The contract completion of an instruction. -/
theorem Core.ranTo.complete {op : PendingOp} {f : Fate} (h : x.ranTo y) : x.ranTo (y.complete k op f) := by
  have hl : x.ranTo (y.leave op) := h.leave
  refine .checkRetire (Core.ranTo.of_frame (.ite hl ?_) rfl)
  refine .numEvents (.raises (.ite (.ite ?_ ?_) ?_))
  all_goals exact .applyAll (.foldl (.frameMiss (.foldl hl .fire)) fun hz => hz.collide.raise)

/-! ## What falls due -/

theorem Core.ranTo.takeWord {w : CacheWord} (h : x.ranTo y) : x.ranTo (y.takeWord k w) := by
  simp only [Core.takeWord]
  split
  · exact .frameMiss h
  · exact h.store.frameMiss

theorem Core.ranTo.checkHeader {hc : HdrCheck} {b : BitVec 13} (h : x.ranTo y) : x.ranTo (y.checkHeader hc b) := by
  simp only [Core.checkHeader]
  split
  · exact h
  · exact .ite (.abort (.raise h)) (.abort (.raise h))

theorem Core.ranTo.doDue {d : Due} (h : x.ranTo y) : x.ranTo (y.doDue k d) := by
  cases d with
  | word w => exact .takeWord h
  | early o e => exact .fire h
  | header o hc => exact .checkHeader h
  | trap l => exact .checkRetire (.frameMiss h)
  | done o => exact h.complete

end RanTo

end Sys2Proof.Machine
end

section
/-! SUPPORT. What falls due by a cycle leaves of the module (R246, R257): the shutter, time and the registers below the ports' as they are
but for the clock, and every frame further in its run. -/

namespace Sys2Proof.Machine

/-- `t` is `s` further on, by the cycle `n` at most: no tick, no frame's start or end between. -/
def State.ranTo (n : Nat) (s t : State) : Prop :=
  t.shutter = s.shutter ∧ s.clock ≤ t.clock ∧ t.clock ≤ max s.clock n ∧ (∀ a, a < 0x60000 → t.greg a = s.greg a) ∧
    (s.gregsWf → t.gregsWf) ∧ ∀ c, (s.core c).ranTo (t.core c)

section RanTo
variable {s t u : State} {n : Nat}

theorem State.ranTo.refl (n : Nat) (s : State) : s.ranTo n s :=
  ⟨rfl, Nat.le_refl _, Nat.le_max_left _ _, fun _ _ => rfl, id, fun _ => .refl _⟩

theorem State.ranTo.trans (h : s.ranTo n t) (h' : t.ranTo n u) : s.ranTo n u := by
  obtain ⟨hs, hl, hm, hg, hw, hc⟩ := h
  obtain ⟨hs', hl', hm', hg', hw', hc'⟩ := h'
  exact ⟨hs'.trans hs, hl.trans hl', by omega, fun a ha => (hg' a ha).trans (hg a ha), hw' ∘ hw, fun c => (hc c).trans (hc' c)⟩

theorem State.ranTo.ite {p : Prop} [Decidable p] (h : s.ranTo n t) (h' : s.ranTo n u) : s.ranTo n (if p then t else u) := by
  split <;> assumption

theorem State.ranTo.foldl {α : Type} {f : State → α → State} {l : List α} (h : s.ranTo n t)
    (hf : ∀ {u a}, s.ranTo n u → s.ranTo n (f u a)) : s.ranTo n (l.foldl f t) := List.foldlRecOn l f h fun _ hu _ _ => hf hu

theorem State.ranTo.iteSnd {β : Type} {p : Prop} [Decidable p] {a b : β × State} (ha : s.ranTo n a.2) (hb : s.ranTo n b.2) :
    s.ranTo n (if p then a else b).2 := by
  split <;> assumption

/-- A fold that carries a value beside the state. -/
theorem State.ranTo.foldlSnd {α β : Type} {f : β × State → α → β × State} {l : List α} {b : β} (h : s.ranTo n t)
    (hf : ∀ {r a}, s.ranTo n r.2 → s.ranTo n (f r a).2) : s.ranTo n (l.foldl f (b, t)).2 :=
  List.foldlRecOn (motive := fun r : β × State => s.ranTo n r.2) l f h fun _ hr _ _ => hf hr

/-! ## Registers, cores and messages -/

theorem State.ranTo.of_cores (h : s.ranTo n t) (ho : u.outside = t.outside) (hc : ∀ c, (t.core c).ranTo (u.core c)) : s.ranTo n u := by
  obtain ⟨hs, -, hk, hg⟩ := State.outside_eq_iff.1 ho
  exact h.trans ⟨hs, hk.ge, hk.le.trans (Nat.le_max_left _ _), fun a _ => State.greg_congr hg a,
    fun hw => by rw [State.gregsWf, hg]; exact hw, hc⟩

theorem State.ranTo.setCore {c : CoreId} {x : Core} (h : s.ranTo n t) (hx : (t.core c).ranTo x) : s.ranTo n (t.setCore c x) := by
  refine h.of_cores rfl fun d => ?_
  by_cases hd : d = c
  · rw [hd, State.core_setCore_self]; exact hx
  · rw [State.core_setCore_ne t x hd]; exact .refl _

theorem State.ranTo.mapCores {f : CoreId → Core → Core} (h : s.ranTo n t) (hf : ∀ c (x : Core), x.ranTo (f c x)) :
    s.ranTo n (t.mapCores f) := by
  refine h.of_cores (by simp [State.outside]) fun c => ?_
  rw [State.core_mapCores]
  exact hf _ _

theorem State.ranTo.setGreg {a : Nat} {w : Word} (h : s.ranTo n t) (ha : 0x60000 ≤ a) : s.ranTo n (t.setGreg a w) :=
  h.trans ⟨rfl, Nat.le_refl _, Nat.le_max_left _ _, fun _ hr => State.greg_setGreg_ne t w (by omega),
    fun hw => State.wf_setGreg hw a w, fun _ => .refl _⟩

theorem State.ranTo.setGf {a hi lo v : Nat} (h : s.ranTo n t) (ha : 0x60000 ≤ a) : s.ranTo n (t.setGf a hi lo v) := h.setGreg ha

theorem State.ranTo.bumpG {a m : Nat} (h : s.ranTo n t) (ha : 0x60000 ≤ a) : s.ranTo n (t.bumpG a m) := h.setGreg ha

theorem State.ranTo.hbmWrite {a : Nat} {bs : List Byte} (h : s.ranTo n t) : s.ranTo n (t.hbmWrite a bs) := h

theorem State.ranTo.tick1 (h : s.ranTo n t) : s.ranTo n t.tick1 := h

theorem State.ranTo.atCycle {m : Nat} (h : s.ranTo n t) (hm : m ≤ n) : s.ranTo n (t.atCycle m) := by
  unfold State.atCycle
  split
  · next hlt => exact h.trans ⟨rfl, Nat.le_of_lt hlt, hm.trans (Nat.le_max_right _ _), fun _ _ => rfl, id, fun _ => .refl _⟩
  · exact h

theorem State.ranTo.onLine (h : s.ranTo n t) (ho : t.onLine u) : s.ranTo n u := by
  obtain ⟨_, _, _, rfl, hg, hw⟩ := ho
  exact h.trans ⟨rfl, Nat.le_refl _, Nat.le_max_left _ _, fun a ha => hg a fun p => by unfold portOff; omega, hw, fun _ => .refl _⟩

theorem State.ranTo.event {src : Nat} (h : s.ranTo n t) : s.ranTo n (t.event src) :=
  h.mapCores fun _ x => (Core.ranTo.refl x).foldl fun hz => .ite hz hz

theorem State.ranTo.drainReports {c : CoreId} (h : s.ranTo n t) : s.ranTo n (t.drainReports c) := by
  refine h.of_cores (t.outside_drainReports c) fun d => ?_
  rw [State.core_congr (t.drainReports_spec c).1]
  by_cases hd : d = c
  · rw [hd, State.core_setCore_self]; exact Core.ranTo.refl (t.core c)
  · rw [State.core_setCore_ne t _ hd]; exact .refl _

/-! ## Collectives (R326) -/

theorem State.ranTo.setRun {i : Nat} {r : CollRun} (h : s.ranTo n t) : s.ranTo n (t.setRun i r) := h

theorem State.ranTo.serviceRead {a m : Nat} (h : s.ranTo n t) : s.ranTo n (t.serviceRead a m).2 := .ite (h.bumpG (by decide)) h

theorem State.ranTo.showColl (h : s.ranTo n t) : s.ranTo n t.showColl := (h.setGf (by decide)).setGf (by decide)

theorem State.ranTo.collEvents {ev : NumEv} {nan : Bool} (h : s.ranTo n t) : s.ranTo n (t.collEvents ev nan) := by
  have h1 : s.ranTo n (if ev.inv || nan then t.setGf 0x60C00 10 10 1 else t) := .ite (h.setGf (by decide)) h
  exact .ite (h1.setGf (by decide)) h1

theorem State.ranTo.sendColl {i j : Nat} {r : CollRun} {hd : Word → MsgHead} {body : List Byte} (h : s.ranTo n t) :
    s.ranTo n (t.sendColl i r j hd body) := by
  simp only [State.sendColl]
  split
  · exact h
  · refine .ite h ?_
    split
    · exact (h.onLine (t.onLine_sendMessage _ _)).setRun
    · exact h.onLine (t.onLine_sendMessage _ _)

theorem State.ranTo.sendCdata {i j : Nat} {r : CollRun} {body : List Byte} (h : s.ranTo n t) : s.ranTo n (t.sendCdata i r j body) :=
  h.sendColl

theorem State.ranTo.signalReady (h : s.ranTo n t) : s.ranTo n t.signalReady :=
  State.ranTo.foldl (t := { t with coll := _ }) h .event

theorem State.ranTo.tileEpoch {r : CollRun} {m : Nat} (h : s.ranTo n t) : s.ranTo n (t.tileEpoch r m).2 := h.serviceRead

theorem State.ranTo.sumShard {i : Nat} {d : Coll} {r : CollRun} (h : s.ranTo n t) : s.ranTo n (t.sumShard i d r) := by
  simp only [State.sumShard]
  refine .ite h ?_
  have read : ∀ (l : List Nat), s.ranTo n (l.foldl (fun (st : List (Nat × Word) × State) m =>
      (st.1 ++ [(m, (st.2.tileEpoch r m).1)], (st.2.tileEpoch r m).2)) ([], t)).2 := fun l => h.foldlSnd .tileEpoch
  have written : ∀ {u : State} {b : Bool} {a bs ev}, s.ranTo n u → s.ranTo n (if b then u else (u.hbmWrite a bs).collEvents ev false) :=
    fun hu => .ite hu hu.hbmWrite.collEvents
  refine .ite (.setRun (.bumpG (written (read _)) (by decide))) (.ite (.foldl (.setRun (written (read _))) .sendCdata) ?_)
  exact .setRun (written (read _))

theorem State.ranTo.giveBlock {i j : Nat} {d : Coll} {r : CollRun} {body : List Byte} (h : s.ranTo n t) :
    s.ranTo n (t.giveBlock i d r j body) := .ite (.sumShard h.setRun) (.setRun (.hbmWrite h))

theorem State.ranTo.takeCdata {m : List Byte} (h : s.ranTo n t) : s.ranTo n (t.takeCdata m) := by
  unfold State.takeCdata
  split
  · exact h.giveBlock
  · exact h

theorem State.ranTo.giveEarly (h : s.ranTo n t) : s.ranTo n t.giveEarly :=
  State.ranTo.foldl (t := { t with coll := _ }) h .takeCdata

theorem State.ranTo.contribute {i : Nat} {d : Coll} {r : CollRun} (h : s.ranTo n t) : s.ranTo n (t.contribute i d r) := by
  unfold State.contribute
  lift_lets
  extract_lets m one sent
  have residual : ∀ {u : State} {a k}, s.ranTo n u → s.ranTo n (if d.comp = 0 then ([], u) else u.serviceRead a k).2 :=
    fun hu => .iteSnd hu hu.serviceRead
  have tagged : ∀ {u : State} {k}, s.ranTo n u → s.ranTo n (if d.sparse then u.tileEpoch r k else (0#32, u)).2 :=
    fun hu => .iteSnd hu.tileEpoch hu
  have formed : ∀ {v : State × List Byte} {b}, s.ranTo n v.1 → s.ranTo n (one v b).1 := by
    intro v b hv
    simp only [one]
    exact .ite (tagged (residual hv.serviceRead)) (.collEvents (.hbmWrite (tagged (residual hv.serviceRead))))
  have hsent : s.ranTo n sent := by
    refine h.foldl fun {u j} hu => ?_
    have body : s.ranTo n ((d.owned m j).foldl one (u, [])).1 :=
      List.foldlRecOn (motive := fun v : State × List Byte => s.ranTo n v.1) _ one hu fun _ hv _ _ => formed hv
    refine .ite hu (.ite ?_ body.sendCdata)
    split
    · exact body.setRun
    · exact body
  split
  · exact hsent.sumShard
  · exact hsent

theorem State.ranTo.spread {i : Nat} {d : Coll} {r : CollRun} (h : s.ranTo n t) : s.ranTo n (t.spread i d r) :=
  .ite h (.hbmWrite (.foldl (.setRun (.serviceRead h)) .sendCdata))

theorem State.ranTo.askShards {i : Nat} {d : Coll} {r : CollRun} (h : s.ranTo n t) : s.ranTo n (t.askShards i d r) := by
  simp only [State.askShards]
  split
  · exact h.setRun
  · exact .ite h.setRun (.signalReady (.foldl (.setRun (.hbmWrite h.serviceRead)) .sendColl))

theorem State.ranTo.startRun {i : Nat} {d : Coll} {r : CollRun} {bad : Bool} (h : s.ranTo n t) : s.ranTo n (t.startRun i d r bad) := by
  simp only [State.startRun]
  have begun : ∀ {c : Collectives}, s.ranTo n { t with coll := c } := h
  refine .showColl (.giveEarly (.signalReady ?_))
  exact .ite (.setRun begun) (.ite (.setRun begun) (.ite (.setRun begun) (.ite (.contribute begun)
    (.ite (.askShards begun) (.spread begun)))))

theorem State.ranTo.takeStartRecord {r : StartRecord} {bad : Bool} (h : s.ranTo n t) : s.ranTo n (t.takeStartRecord r bad) := by
  simp only [State.takeStartRecord]
  split
  · exact h
  · refine .ite h (.ite h (.ite ?_ ?_))
    · split
      · exact .startRun h.setRun
      · exact .startRun h
    · split
      · exact h.setRun
      · exact h

/-! ## DMA (R246, R249) -/

theorem State.ranTo.dmaViolation {own c : CoreId} {b : BitVec 13} {a m : Nat} {wr : Bool} (h : s.ranTo n t) :
    s.ranTo n (t.dmaViolation own c b a m wr) :=
  (h.setCore (Core.ranTo.refl _).noteViolation).setCore (Core.ranTo.refl _).abort

theorem DmaRun.take_ranTo {own : CoreId} {o : DmaOp} {r : DmaRun} {row : DmaRow} (h : s.ranTo n r.s) :
    s.ranTo n (r.take own o row).1.s := by
  simp only [DmaRun.take]
  split
  · split
    · exact h.dmaViolation
    · exact h
  · exact h

theorem DmaRun.land_ranTo {own c : CoreId} {ch : Nat} {o : DmaOp} {f : Fate} {r : DmaRun} {a : Nat} {bs : List Byte}
    (h : s.ranTo n r.s) : s.ranTo n (r.land own c ch o f a bs).s := by
  have stored : ∀ {l : List LostWrite} {ws : List (Nat × List Byte)}, s.ranTo n (r.s.setCore c (ws.foldl (fun x w => x.store w.1 w.2)
      (l.foldl (fun x l => x.collide l.line 0 l.winner) (r.s.core c)))) :=
    h.setCore (((Core.ranTo.refl _).foldl .collide).foldl .store)
  simp only [DmaRun.land]
  split
  · exact h.dmaViolation
  · split <;> exact stored

/-- One piece of a transfer. -/
theorem DmaRun.piece_ranTo {own : CoreId} {ch : Nat} {o : DmaOp} {f : Fate} {r : DmaRun} {row : DmaRow} (h : s.ranTo n r.s) :
    s.ranTo n (r.piece own ch o f row).s := by
  have ht : s.ranTo n (r.take own o row).1.s := DmaRun.take_ranTo h
  simp only [DmaRun.piece]
  split
  · exact DmaRun.land_ranTo ht
  · exact DmaRun.land_ranTo ht
  · exact ht.hbmWrite
  · split <;> exact ht

theorem State.ranTo.edgeSend {own : CoreId} {o : DmaOp} {bad : Bool} {ep a : Nat} {bs : List Byte} (h : s.ranTo n t) :
    s.ranTo n (t.edgeSend own o bad ep a bs) :=
  .ite (h.onLine (t.onLine_sendMessage _ _)) (.ite h.takeStartRecord (.ite (h.setCore (Core.ranTo.refl (t.core own))) h))

theorem State.ranTo.dmaStalls {own : CoreId} {o : DmaOp} (h : s.ranTo n t) : s.ranTo n (t.dmaStalls own o) := by
  have stalled : s.ranTo n (t.setCore own ((t.core own).stalled o.stalls)) := h.setCore (Core.ranTo.refl (t.core own))
  simp only [State.dmaStalls]
  split
  · exact stalled
  · exact stalled.setCore (Core.ranTo.refl _)

theorem State.ranTo.dmaStatus {own : CoreId} {ch m : Nat} {o : DmaOp} {code : Half} (h : s.ranTo n t) :
    s.ranTo n (t.dmaStatus own ch m o code) := by
  have done : (t.core own).ranTo (((t.core own).bump (0x2210 + 32 * ch) 1).setRf (0x2204 + 32 * ch) 11 0 o.desc) := .refl (t.core own)
  exact h.setCore (.checkRetire (.setRf (.setRf (.ite done done.raise))))

theorem State.ranTo.haltChannel {own : CoreId} {ch : Nat} (h : s.ranTo n t) : s.ranTo n (t.haltChannel own ch) :=
  h.setCore (Core.ranTo.refl (t.core own)).setRf

/-- The bytes of a descriptor move. -/
theorem State.ranTo.transfer {own : CoreId} {ch : Nat} {o : DmaOp} {f : Fate} (h : s.ranTo n t) :
    s.ranTo n (t.transfer own ch o f).1 := by
  have moved : ∀ {l : List DmaRow}, s.ranTo n (l.foldl (DmaRun.piece own ch o f) ⟨t, [], []⟩).s :=
    List.foldlRecOn (motive := fun r : DmaRun => s.ranTo n r.s) _ _ h fun _ hr _ _ => DmaRun.piece_ranTo hr
  have halted : ∀ {b : Bool} {r : DmaRun} {k lines}, s.ranTo n r.s → s.ranTo n (if b then r else
      ({ r with s := (r.s.setCore own ((r.s.core own).missFrame k 0x0403#16 o.bundle lines)).haltChannel own ch } : DmaRun).code
        0x0403#16).s := by
    intro b r k lines hr
    split
    · exact hr
    · exact (hr.setCore (Core.ranTo.refl _).missFrame).haltChannel
  simp only [State.transfer]
  split
  · exact (h.setCore (Core.ranTo.abort (y := (t.core own).raiseInt _) (.refl (t.core own)))).haltChannel
  · split
    · exact .ite (.edgeSend (halted moved)) (halted moved)
    · exact halted moved

/-- The contract completion of a descriptor. -/
theorem State.ranTo.dmaComplete {own : CoreId} {ch m : Nat} (h : s.ranTo n t) (hm : m ≤ n) : s.ranTo n (t.dmaComplete own ch m) := by
  simp only [State.dmaComplete]
  split
  · exact h
  · have started : ∀ {d : List DmaCh}, s.ranTo n ((t.atCycle m).tick1.setCore own { (t.atCycle m).tick1.core own with dma := d }) :=
      (h.atCycle hm).tick1.setCore (Core.ranTo.refl ((t.atCycle m).tick1.core own))
    refine .drainReports (.dmaStatus ?_)
    split
    · exact started.dmaStalls
    · exact started.dmaStalls.transfer

/-! ## What falls due -/

theorem State.ranTo.fall {c : CoreId} {m : Nat} {d : Due} (h : s.ranTo n t) (hm : m ≤ n) : s.ranTo n (t.fall c m d) :=
  ((h.atCycle hm).tick1.setCore (Core.ranTo.refl _).doDue).drainReports

theorem State.ranTo.happen {c : CoreId} {m : Nat} {d : DueOf} (h : s.ranTo n t) (hm : m ≤ n) : s.ranTo n (t.happen c m d) := by
  cases d with
  | engine d => exact h.fall hm
  | dma ch => exact h.dmaComplete hm

theorem State.ranTo.settleUpTo {cs : List CoreId} {m k : Nat} (h : s.ranTo n t) (hm : m ≤ n) :
    s.ranTo n (State.settleUpTo cs m k t) := by
  induction k generalizing t with
  | zero => exact h
  | succ k ih =>
    simp only [State.settleUpTo]
    split
    · split
      · next hd => exact ih (h.happen (hd.trans hm))
      · exact h
    · exact h

theorem State.ranTo.settle {cs : List CoreId} {m : Nat} (h : s.ranTo n t) (hm : m ≤ n) : s.ranTo n (t.settle cs m) := h.settleUpTo hm

end RanTo

end Sys2Proof.Machine
end

section
/-! SUPPORT. The work on one core between two ticks (R12, R24, R200), and what it leaves of the rest of the module. -/

namespace Sys2Proof.Machine

/-! ## Between two ticks -/

/-- No tick lies between `s` and `t`: of the shutter only a stop bath may be called for and the guard band begin, and the period, the
policies and HALTED are as they were. -/
def State.calm (s t : State) : Prop :=
  (∃ b g, t.shutter = { s.shutter with stopNext := b, guarded := g } ∧ (s.shutter.stopNext = true → b = true)) ∧
    t.greg 0x40000 = s.greg 0x40000 ∧ t.greg 0x40028 = s.greg 0x40028 ∧ (s.gregsWf → t.gregsWf ∧ t.halted = s.halted)

section Calm
variable {s t u : State}

theorem State.calm.refl (s : State) : s.calm s := ⟨⟨_, _, rfl, id⟩, rfl, rfl, fun h => ⟨h, rfl⟩⟩

theorem State.calm.trans (h : s.calm t) (h' : t.calm u) : s.calm u := by
  obtain ⟨⟨b, g, hs, hb⟩, hp, hq, hw⟩ := h
  obtain ⟨⟨b', g', hs', hb'⟩, hp', hq', hw'⟩ := h'
  refine ⟨⟨b', g', by rw [hs', hs], fun h => hb' ?_⟩, hp'.trans hp, hq'.trans hq, fun h => ?_⟩
  · rw [hs]; exact hb h
  · obtain ⟨ht, hht⟩ := hw h
    obtain ⟨hu, hhu⟩ := hw' ht
    exact ⟨hu, hhu.trans hht⟩

/-- Nothing of the shutter, nor of the registers that concern it, has changed. -/
theorem State.calm_of (hs : t.shutter = s.shutter) (hg : ∀ r, r < 0x60000 → t.greg r = s.greg r) (hw : s.gregsWf → t.gregsWf) :
    s.calm t :=
  ⟨⟨_, _, hs, id⟩, hg _ (by decide), hg _ (by decide), fun h =>
    ⟨hw h, by rw [State.halted, State.halted, State.gbit, State.gbit, hg _ (by decide)]⟩⟩

theorem State.calm_of_outside (h : t.outside = s.outside) : s.calm t := by
  obtain ⟨hs, -, -, hg⟩ := State.outside_eq_iff.1 h
  exact State.calm_of hs (fun r _ => State.greg_congr hg r) fun hw => by rw [State.gregsWf, hg]; exact hw

/-- A register of the shutter that says nothing of its time, its policies or the module's halt. -/
theorem State.calm_setGreg (s : State) {a : Nat} (w : Word) (h : a ≠ 0x40000 ∧ a ≠ 0x40028 ∧ a ≠ 0x40020) : s.calm (s.setGreg a w) :=
  ⟨⟨_, _, rfl, id⟩, State.greg_setGreg_ne s w h.1, State.greg_setGreg_ne s w h.2.1,
    fun hw => ⟨State.wf_setGreg hw a w, State.gbit_setGreg_ne s h.2.2⟩⟩

/-- A field of SHT_STATUS beside HALTED. -/
theorem State.calm_status (s : State) {hi lo : Nat} (v : Nat) (h : lo ≤ hi) (hh : hi < 32) (hd : 3 < lo ∨ hi < 3) :
    s.calm (s.setGf 0x40020 hi lo v) := by
  refine ⟨⟨_, _, rfl, id⟩, State.greg_setGf_ne s (by decide), State.greg_setGf_ne s (by decide), fun hw =>
    ⟨State.wf_setGreg hw _ _, ?_⟩⟩
  rw [State.halted, State.halted, State.gbit, State.gbit, State.setGf, State.greg_setGreg_self hw, bitAt_setFld_ne _ _ h hh hd]

end Calm

/-! ## Work on one core -/

/-- `t` is `s` after work on the core `c`: no tick, no other core, no cycle, and the core's row sets as they were. -/
def State.works (c : CoreId) (s t : State) : Prop :=
  s.calm t ∧ t.image = s.image ∧ t.clock = s.clock ∧ (∀ d, d ≠ c → t.core d = s.core d) ∧ (t.core c).rowSets = (s.core c).rowSets

section Works
variable {s t u : State} {c : CoreId}

theorem State.works.refl (c : CoreId) (s : State) : s.works c s := ⟨.refl s, rfl, rfl, fun _ _ => rfl, rfl⟩

theorem State.works.trans (h : s.works c t) (h' : t.works c u) : s.works c u := by
  obtain ⟨hs, hi, hk, ho, hr⟩ := h
  obtain ⟨hs', hi', hk', ho', hr'⟩ := h'
  exact ⟨hs.trans hs', hi'.trans hi, hk'.trans hk, fun d hd => (ho' d hd).trans (ho d hd), hr'.trans hr⟩

theorem State.works.ite {p : Prop} [Decidable p] (h : s.works c t) (h' : s.works c u) : s.works c (if p then t else u) := by
  split <;> assumption

theorem State.works_setCore (s : State) {c : CoreId} {x : Core} (h : x.rowSets = (s.core c).rowSets) : s.works c (s.setCore c x) :=
  ⟨.refl s, rfl, rfl, fun _ hd => State.core_setCore_ne s x hd, by rw [State.core_setCore_self, h]⟩

theorem State.works_of_calm (h : s.calm t) (hc : t.cores = s.cores) (hi : t.image = s.image) (hk : t.clock = s.clock) : s.works c t :=
  ⟨h, hi, hk, fun d _ => State.core_congr hc d, by rw [State.core_congr hc]⟩

theorem State.works_showBehind (s : State) (c : CoreId) : s.works c s.showBehind :=
  State.works_of_calm (s.calm_status _ (by decide) (by decide) (.inl (by decide))) rfl rfl rfl

theorem State.works_overrunStatus (s : State) (c : CoreId) (code : Half) : s.works c ((s.setGf 0x40020 2 2 1).raiseSht code) :=
  State.works_of_calm ((s.calm_status 1 (by decide) (by decide) (.inr (by decide))).trans
    (State.calm_status _ code.toNat (by decide) (by decide) (.inl (by decide)))) rfl rfl rfl

theorem State.works_markOverrun (s : State) (c : CoreId) : s.works c (s.markOverrun c) := by
  have hcore : s.works c (s.setCore c { s.core c with frame := { (s.core c).frame with overrun := true } }) := s.works_setCore rfl
  exact (hcore.trans (State.works_of_calm (State.calm_setGreg _ _ (by decide)) rfl rfl rfl)).trans (State.works_overrunStatus _ c _)

theorem State.works_guardCore (s : State) (halt : Bool) (c : CoreId) : s.works c (s.guardCore halt c) := by
  obtain ⟨⟨d, rec_, p, q, hc⟩, ho, hs, hi, hk, hg, hw⟩ := s.guardCore_spec halt c
  have hcalm : s.calm (s.guardCore halt c) := by
    refine ⟨⟨_, _, hs, fun h => by rw [h, Bool.true_or]⟩, hg _ (by decide), hg _ (by decide), fun h => ⟨hw h, ?_⟩⟩
    rw [State.halted, State.halted, State.gbit, State.gbit, hg _ (by decide)]
  refine ⟨hcalm, hi, hk, ho, ?_⟩
  obtain ⟨_, _, _, _, _, _, _, he⟩ := ((s.core c).dropping d).guardDone_eq rec_ p q
  rw [hc, he]
  rfl

theorem Core.enter_rowSets (x : Core) (l : FrameStart) (start : Nat) (shift : Bool) : (x.enter l start shift).rowSets = x.rowSets := by
  unfold Core.enter
  split
  · rfl
  · dsimp only
    split
    · rfl
    · refine (foldl_keeps (g := Core.rowSets) (f := fun (c : Core) ch => c.setRf (0x2200 + 32 * ch) 5 5 0) (fun _ _ _ => rfl) _).trans ?_
      split <;> rfl

theorem State.works_startCore (s : State) (l : FrameStart) (start : Nat) (c : CoreId) : s.works c (State.startCore l start s c) := by
  have ho : (State.startCore l start s c).outside = s.outside := s.outside_onCore c _
  obtain ⟨-, hi, hk, -⟩ := State.outside_eq_iff.1 ho
  refine ⟨State.calm_of_outside ho, hi, hk, fun d hd => State.core_startCore_ne s l start hd, ?_⟩
  have hr := (s.coreAfter_fields c fun k x => x.enter l start k.shift).2.2.2.2.2.2.1
  rw [State.startCore, (s.onCore_spec c _).1]
  exact hr.trans (Core.enter_rowSets _ _ _ _)

theorem State.works_startedPast (s : State) (c : CoreId) : s.works c (s.startedPast c) := by
  unfold State.startedPast
  dsimp only
  split
  · split
    · exact s.works_markOverrun c
    · exact s.works_guardCore _ c
  · exact .refl c s

theorem State.works_startNext (c : CoreId) (ls : List FrameStart) (s : State) : s.works c (s.startNext c ls) := by
  induction ls generalizing s with
  | nil => exact s.works_setCore rfl
  | cons l rest ih =>
    rw [State.startNext]
    split
    · exact s.works_setCore rfl
    · have hstart := (s.works_startCore l (max l.tick (s.core c).workEnd) c).trans (State.works_startedPast _ c)
      dsimp only
      split
      · exact hstart.trans (State.works_setCore _ rfl)
      · exact hstart.trans (ih _)

theorem State.core_stepCore_ne (s : State) {c d : CoreId} (h : d ≠ c) : (s.stepCore c).core d = s.core d := by
  unfold State.stepCore
  split
  · rfl
  · rw [State.core_freezeCore, State.core_setCore_ne _ _ h]
    exact State.core_recordCursor _ _ _

theorem State.works_lateStep (s : State) (f : Frame) (c : CoreId) : s.works c (State.lateStep f c s) := by
  unfold State.lateStep
  split
  · have ho := s.outside_stepCore c
    obtain ⟨-, hi, hk, -⟩ := State.outside_eq_iff.1 ho
    refine ⟨State.calm_of_outside ho, hi, hk, fun d hd => s.core_stepCore_ne hd, ?_⟩
    obtain ⟨_, _, _, ha⟩ := (s.core c).advance_fields
    rw [State.core_stepCore]
    split
    · rw [ha]
    · rfl
  · exact .refl c s

theorem State.works_showLate (s : State) (f : Frame) (c : CoreId) : s.works c (s.showLate f) := by
  unfold State.showLate
  split
  · exact State.works_of_calm (s.calm_setGreg _ (by decide)) rfl rfl rfl
  · exact .refl c s

theorem State.works_lateNext (s : State) (c : CoreId) : s.works c (s.lateNext c) := by
  exact (State.works.ite (.refl c s) (s.works_startNext c _)).trans (State.works_showBehind _ c)

end Works

end Sys2Proof.Machine
end

section
/-! SUPPORT. Up to a tick (R12, R24, R27): what falls due, the guard band and the late frames start nothing on a core without a frame, and
leave a stop bath that is due so. -/

namespace Sys2Proof.Machine

/-- A core without a frame stays without, and what brings a stop bath brings it still. -/
def State.keepsHalt (s t : State) (c : CoreId) : Prop :=
  ((s.core c).frame.live = false → (t.core c).frame.live = false) ∧
    (s.coreHalts (s.core c) = true → t.coreHalts (t.core c) = true ∨ t.shutter.stopNext = true)

/-- `t` is `s` further on, by the cycle `n` at most and with no tick between, every core's halt kept. -/
def State.upTo (n : Nat) (s t : State) : Prop :=
  s.calm t ∧ s.clock ≤ t.clock ∧ t.clock ≤ max s.clock n ∧ ∀ c, s.keepsHalt t c

section UpTo
variable {s t u : State} {n : Nat} {c : CoreId}

theorem State.calm.stopNext (h : s.calm t) (hs : s.shutter.stopNext = true) : t.shutter.stopNext = true := by
  obtain ⟨⟨b, g, ht, hb⟩, -⟩ := h
  rw [ht]
  exact hb hs

theorem State.calm.nextTick (h : s.calm t) : t.shutter.nextTick = s.shutter.nextTick := by
  obtain ⟨⟨_, _, ht, -⟩, -⟩ := h
  rw [ht]

theorem State.keepsHalt.trans (h : s.keepsHalt t c) (h' : t.keepsHalt u c) (hc : t.calm u) : s.keepsHalt u c :=
  ⟨h'.1 ∘ h.1, fun hs => (h.2 hs).elim h'.2 fun ht => .inr (hc.stopNext ht)⟩

/-- A frame further in its run brings the stop bath that it brought. -/
theorem State.coreHalts_mono {x y : Core} (hg : t.greg 0x40028 = s.greg 0x40028) (h : x.ranTo y) (hs : s.coreHalts x = true) :
    t.coreHalts y = true := by
  obtain ⟨-, hk, hh, ha, hb, ho⟩ := h
  have hp : t.policy y.frame.kind = s.policy x.frame.kind := by rw [State.policy, State.policy, State.gf, State.gf, hg, hk]
  have he : t.gbit 0x40028 8 = s.gbit 0x40028 8 := by rw [State.gbit, State.gbit, hg]
  simp only [State.coreHalts, Bool.or_eq_true, Bool.and_eq_true, hp, he] at hs ⊢
  exact hs.imp (Or.imp (Or.imp hh (And.imp_left ha)) hb) (And.imp_left ho)

theorem State.keepsHalt_of_ranTo (hg : t.greg 0x40028 = s.greg 0x40028) (h : (s.core c).ranTo (t.core c)) : s.keepsHalt t c :=
  ⟨fun hl => h.1.trans hl, fun hs => .inl (State.coreHalts_mono hg h hs)⟩

theorem State.upTo.refl (n : Nat) (s : State) : s.upTo n s :=
  ⟨.refl s, Nat.le_refl _, Nat.le_max_left _ _, fun _ => ⟨id, .inl⟩⟩

theorem State.upTo.trans (h : s.upTo n t) (h' : t.upTo n u) : s.upTo n u := by
  obtain ⟨hs, hl, hm, hc⟩ := h
  obtain ⟨hs', hl', hm', hc'⟩ := h'
  exact ⟨hs.trans hs', hl.trans hl', by omega, fun c => (hc c).trans (hc' c) hs'⟩

theorem State.ranTo.calm (h : s.ranTo n t) : s.calm t := by
  obtain ⟨hs, -, -, hg, hw, -⟩ := h
  exact State.calm_of hs hg hw

theorem State.ranTo.upTo (h : s.ranTo n t) : s.upTo n t := by
  have hs := h.calm
  obtain ⟨-, hl, hm, hg, -, hc⟩ := h
  exact ⟨hs, hl, hm, fun c => State.keepsHalt_of_ranTo (hg _ (by decide)) (hc c)⟩

/-- Work on one core, where that core's halt is kept. -/
theorem State.works.upTo (h : s.works c t) (hc : s.keepsHalt t c) : s.upTo n t := by
  obtain ⟨hs, -, hk, ho, -⟩ := h
  refine ⟨hs, hk.ge, hk.le.trans (Nat.le_max_left _ _), fun d => ?_⟩
  by_cases hd : d = c
  · rw [hd]; exact hc
  · refine State.keepsHalt_of_ranTo hs.2.2.1 ?_
    rw [ho d hd]
    exact .refl _

theorem State.eachCore_upTo {p : State → CoreId → Bool} {f : State → CoreId → State} (s : State)
    (hf : ∀ u c, s.upTo n u → p u c = true → u.upTo n (f u c)) : s.upTo n (s.eachCore p f) := by
  refine List.foldlRecOn _ _ (.refl n s) fun u hu c _ => ?_
  split
  · next hp => exact hu.trans (hf u c hu hp)
  · exact hu

/-! ## The guard band -/

/-- The end of a core's frame, and the stop bath that it brings. -/
theorem State.guardCore_ends (s : State) (halt : Bool) (c : CoreId) : ((s.guardCore halt c).core c).frame.live = false ∧
    (s.coreHalts (s.core c) = true → (s.guardCore halt c).shutter.stopNext = true) := by
  obtain ⟨⟨d, rec_, p, q, hc⟩, -, hs, -⟩ := s.guardCore_spec halt c
  refine ⟨?_, fun h => by rw [hs, h, Bool.or_true]⟩
  obtain ⟨_, _, _, _, _, _, _, he⟩ := ((s.core c).dropping d).guardDone_eq rec_ p q
  rw [hc, he]
  rfl

theorem State.guardCore_upTo (s : State) (halt : Bool) (c : CoreId) : s.upTo n (s.guardCore halt c) := by
  obtain ⟨hl, hs⟩ := s.guardCore_ends halt c
  exact (s.works_guardCore halt c).upTo ⟨fun _ => hl, fun h => .inr (hs h)⟩

theorem State.markOverrun_upTo (s : State) (c : CoreId) : s.upTo n (s.markOverrun c) := by
  have h := s.works_markOverrun c
  refine h.upTo (State.keepsHalt_of_ranTo h.1.2.2.1 ?_)
  rw [State.core_markOverrun]
  exact ⟨rfl, rfl, id, id, id, fun _ => rfl⟩

theorem State.aside.ranTo (h : s.aside t) : s.ranTo n t := by
  obtain ⟨hc, hs, -, hk, hg, hw⟩ := h
  exact ⟨hs, hk.ge, hk.le.trans (Nat.le_max_left _ _), hg, hw, fun c => by rw [State.core_congr hc]; exact .refl _⟩

theorem State.emptySlots_upTo (s : State) (fn : BitVec 48) : s.upTo n (s.emptySlots fn) :=
  State.eachCore_upTo s fun u c _ _ => (u.aside_sheetOut c.val fn _).ranTo.upTo

theorem State.showBehind_upTo (s : State) : s.upTo n s.showBehind :=
  have h := s.works_showBehind 0
  h.upTo (State.keepsHalt_of_ranTo h.1.2.2.1 (.refl (s.core 0)))

theorem State.guardBand_upTo (s : State) (hn : s.shutter.nextTick ≤ n) : s.upTo n s.guardBand := by
  unfold State.guardBand
  split
  · exact .refl n s
  · extract_lets m s1 shutter s2 any_ s3 halt s4
    have hm : m ≤ n := (Nat.min_le_right _ _).trans hn
    have h1 : s.upTo n s1 := (((State.ranTo.refl n s).settle hm).atCycle hm).upTo
    have h2 : s1.upTo n s2 := 
      ⟨⟨⟨_, _, rfl, id⟩, rfl, rfl, fun h => ⟨h, rfl⟩⟩, Nat.le_refl _, Nat.le_max_left _ _, fun _ => ⟨id, .inl⟩⟩
    have h3 : s2.upTo n s3 := s2.eachCore_upTo fun u c _ _ => u.markOverrun_upTo c
    have h4 : s3.upTo n s4 := s3.eachCore_upTo fun u c _ _ => u.guardCore_upTo halt c
    refine ((h1.trans h2).trans (h3.trans h4)).trans (State.upTo.trans ?_ (State.showBehind_upTo _))
    split
    · exact s4.emptySlots_upTo _
    · exact .refl n s4

/-! ## Late frames -/

theorem State.works_lateBand (s : State) (c : CoreId) : s.works c (s.lateBand c) :=
  (((s.works_showLate _ c).trans (State.works_guardCore _ _ c)).trans (State.works_lateStep _ _ c)).trans (State.works_lateNext _ c)

/-- A late frame that brings a stop bath calls for it in its guard band. -/
theorem State.lateBand_stops (s : State) (c : CoreId) (h : s.coreHalts (s.core c) = true) : (s.lateBand c).shutter.stopNext = true := by
  obtain ⟨hc, -, hg⟩ := s.showLate_keeps (s.core c).frame c
  have hh : (s.showLate (s.core c).frame).coreHalts ((s.showLate (s.core c).frame).core c) = true := by
    rw [hc]
    exact (State.coreHalts_congr hg rfl rfl rfl rfl rfl).trans h
  have hstop := (State.guardCore_ends (s.showLate (s.core c).frame) (s.showLate (s.core c).frame).haltComing c).2 hh
  exact ((State.works_lateStep _ _ c).trans (State.works_lateNext _ c)).1.stopNext hstop

theorem State.guardLate_upTo {s : State} {c : CoreId} (hl : (s.core c).frame.live = true) (hn : s.shutter.nextTick ≤ n) :
    s.upTo n (s.guardLate c) := by
  obtain ⟨u, hu, he⟩ := s.guardLate_eq c
  have hsu : s.upTo n u := by
    obtain rfl | rfl := hu
    · exact .refl n u
    · exact ((State.ranTo.refl n s).settle hn).upTo
  rw [he]
  split
  · have hw := u.works_lateBand c
    obtain ⟨hcalm, hlo, hhi, hk⟩ := hsu
    obtain ⟨hcalm', -, hclk, ho, -⟩ := hw
    refine ⟨hcalm.trans hcalm', by omega, by omega, fun d => ?_⟩
    by_cases hd : d = c
    · rw [hd]
      refine ⟨fun h => absurd (hl.symm.trans h) (by decide), fun h => .inr ?_⟩
      exact ((hk c).2 h).elim (u.lateBand_stops c) hcalm'.stopNext
    · refine (hk d).trans (State.keepsHalt_of_ranTo hcalm'.2.2.1 ?_) hcalm'
      rw [ho d hd]
      exact .refl _
  · exact hsu

/-- The guard bands over: the frames that ended in the tick's, and the late frames that have retired since. -/
def State.bandsOver (s : State) : State :=
  (s.settleAll s.shutter.nextTick).guardBand.eachCore (fun s c => (s.core c).frame.live) State.guardLate

/-- What a tick finds. -/
def State.beforeTick (s : State) : State := s.bandsOver.atCycle s.bandsOver.shutter.nextTick

theorem State.bandsOver_upTo (s : State) : s.upTo s.shutter.nextTick s.bandsOver := by
  have h1 : s.upTo s.shutter.nextTick (s.settleAll s.shutter.nextTick) := ((State.ranTo.refl _ s).settle (Nat.le_refl _)).upTo
  have h2 := h1.trans (State.guardBand_upTo _ h1.1.nextTick.le)
  exact h2.trans (State.eachCore_upTo _ fun u c hu hp => State.guardLate_upTo hp (h2.trans hu).1.nextTick.le)

theorem State.beforeTick_upTo (s : State) : s.upTo s.shutter.nextTick s.beforeTick :=
  have h := s.bandsOver_upTo
  h.trans ((State.ranTo.refl _ _).atCycle h.1.nextTick.le).upTo

/-- A tick's cycle has come. -/
theorem State.beforeTick_clock (s : State) : s.beforeTick.clock = max s.clock s.shutter.nextTick := by
  obtain ⟨-, hl, hm, -⟩ := s.beforeTick_upTo
  have hn : s.shutter.nextTick ≤ s.beforeTick.clock := by
    rw [State.beforeTick, s.bandsOver_upTo.1.nextTick, State.atCycle_clock]
    exact Nat.le_max_right _ _
  omega

end UpTo

end Sys2Proof.Machine
end

section
/-! SUPPORT. A tick (R11, R14, R26, R28): the parts of which it is made, and what each keeps of the time and of the cores. -/

namespace Sys2Proof.Machine

/-! ## The parts of a tick -/

/-- A core as a tick finds it: row sets and score stage are cleared (R136, R151). -/
def Core.cleared (x : Core) : Core := { x with rowSets := List.replicate 8 RowSet.reset, stage := ScoreStage.reset }.setRf 0x7000 5 5 0

/-- The tick itself: FN, the cycles of the next one, the cores cleared. -/
def State.raised (s : State) : State :=
  { s with shutter := { s.shutter.advance (s.greg 0x40000).toNat with
    tickOutNs := if s.gbit 0x40004 4 then s.nsAt s.shutter.nextTick + 64 else s.shutter.tickOutNs } }.mapCores fun _ x => x.cleared

/-- The stop bath, where one is due. -/
def State.haltDue (s : State) : State :=
  if s.halted then { s with shutter := { s.shutter with stopNext := false, sync := { s.shutter.sync with haltSeen := false } } }
  else if s.haltComing then s.halt else s

/-- A tick up to its frames. -/
def State.tickRaised (s : State) : State :=
  ((s.beforeTick.raised.eachCore (State.abandonDue s.beforeTick.shutter.lastTick) State.abandon).haltDue).sendTicks

theorem State.raiseTick_eq (s : State) : s.raiseTick =
    if s.tickRaised.halted || !s.tickRaised.loaded || !s.tickRaised.shutter.started || !s.tickRaised.locked then s.tickRaised
    else s.tickRaised.runFrames := by
  unfold State.raiseTick
  extract_lets s1 s2 s3 prev out sh s4 s5 s6 h y s7 s8
  have h3 : s3 = s.beforeTick := by simp only [s3, s2, s1, State.beforeTick, State.bandsOver]
  have h5 : s5 = s3.raised := by simp only [s5, s4, sh, out, State.raised, Core.cleared]
  have h6 : s6 = s5.eachCore (State.abandonDue s3.shutter.lastTick) State.abandon := by simp only [s6, prev]
  have h7 : s7 = s6.haltDue := by simp only [s7, h, y, State.haltDue]
  have h8 : s8 = s.tickRaised := by simp only [s8, State.tickRaised, h7, h6, h5, h3]
  rw [h8]

/-! ## Within a tick -/

/-- What a tick sets of the shutter. -/
def Shutter.course (h : Shutter) : BitVec 48 × Nat × Nat × Nat × Nat := (h.fn, h.lastTick, h.nextTick, h.fraction, h.guardAt)

/-- `t` is `s` in the same cycle and the same tick, its row sets as they were. -/
def State.inTick (s t : State) : Prop :=
  t.shutter.course = s.shutter.course ∧ t.clock = s.clock ∧ t.image = s.image ∧ t.greg 0x40028 = s.greg 0x40028 ∧
    ∀ c, (t.core c).rowSets = (s.core c).rowSets

section InTick
variable {s t u : State} {c : CoreId}

theorem State.inTick.refl (s : State) : s.inTick s := ⟨rfl, rfl, rfl, rfl, fun _ => rfl⟩

theorem State.inTick.trans (h : s.inTick t) (h' : t.inTick u) : s.inTick u := by
  obtain ⟨hs, hk, hi, hg, hr⟩ := h
  obtain ⟨hs', hk', hi', hg', hr'⟩ := h'
  exact ⟨hs'.trans hs, hk'.trans hk, hi'.trans hi, hg'.trans hg, fun c => (hr' c).trans (hr c)⟩

theorem State.works.inTick (h : s.works c t) : s.inTick t := by
  obtain ⟨⟨⟨_, _, hs, -⟩, -, hg, -⟩, hi, hk, ho, hr⟩ := h
  refine ⟨by rw [hs]; rfl, hk, hi, hg, fun d => ?_⟩
  by_cases hd : d = c
  · rw [hd]; exact hr
  · rw [ho d hd]

theorem State.eachCore_inTick {p : State → CoreId → Bool} {f : State → CoreId → State} (s : State)
    (hf : ∀ (u : State) c, u.inTick (f u c)) :
    s.inTick (s.eachCore p f) := by
  refine List.foldlRecOn _ _ (.refl s) fun u hu c _ => ?_
  split
  · exact hu.trans (hf u c)
  · exact hu

theorem State.inTick_mapCores (s : State) {f : CoreId → Core → Core} (hf : ∀ c x, (f c x).rowSets = x.rowSets) :
    s.inTick (s.mapCores f) := by
  refine ⟨by simp, by simp, by simp, State.greg_congr (by simp) _, fun c => ?_⟩
  rw [State.core_mapCores, hf]

theorem State.aside.inTick (h : s.aside t) : s.inTick t := by
  obtain ⟨hc, hs, hi, hk, hg, -⟩ := h
  exact ⟨by rw [hs], hk, hi, hg _ (by decide), fun c => by rw [State.core_congr hc]⟩

/-! ## Frames abandoned (R26) -/

theorem Core.waitAbandoned_rowSets (x : Core) (now : Nat) : (x.waitAbandoned now).rowSets = x.rowSets := by
  unfold Core.waitAbandoned
  split <;> rfl

/-- A core whose frame is abandoned. -/
def Core.abandoning (x : Core) (now : Nat) : Core :=
  { x.waitAbandoned now with
    frame := { (x.waitAbandoned now).frame with abandoned := true, haltNext := true }
    seq := { (x.waitAbandoned now).seq with stopped := true }, lateStarts := [] }

theorem State.abandon_eq (s : State) (c : CoreId) : s.abandon c =
    (((s.setCore c ((s.core c).abandoning s.clock)).setGf 0x40020 2 2 1).raiseSht 0x0207#16).guardCore true c := rfl

theorem State.works_abandoning (s : State) (c : CoreId) :
    s.works c (((s.setCore c ((s.core c).abandoning s.clock)).setGf 0x40020 2 2 1).raiseSht 0x0207#16) :=
  (s.works_setCore (x := (s.core c).abandoning s.clock) ((s.core c).waitAbandoned_rowSets s.clock)).trans
    (State.works_overrunStatus _ c 0x0207#16)

theorem State.works_abandon (s : State) (c : CoreId) : s.works c (s.abandon c) :=
  s.abandon_eq c ▸ (s.works_abandoning c).trans (State.works_guardCore _ true c)

theorem State.abandon_upTo (s : State) (c : CoreId) : s.upTo 0 (s.abandon c) := by
  refine (s.works_abandon c).upTo ?_
  rw [State.abandon_eq]
  generalize hu : ((s.setCore c ((s.core c).abandoning s.clock)).setGf 0x40020 2 2 1).raiseSht 0x0207#16 = u
  obtain ⟨hl, hs⟩ := u.guardCore_ends true c
  have hc : u.core c = (s.core c).abandoning s.clock := by rw [← hu]; exact State.core_setCore_self s c _
  refine ⟨fun _ => hl, fun _ => .inr (hs ?_)⟩
  rw [hc]
  rfl

/-! ## The stop bath and the tick symbols (R28, R316) -/

theorem mboxStatus_ge (n : Nat) : 0x60000 ≤ mboxStatus n := by
  unfold mboxStatus
  split <;> omega

theorem State.aside_emit (s : State) (o : Output) : s.aside (s.emit o) := State.aside_of_gregs rfl rfl rfl rfl rfl

theorem State.aside_complete (s : State) (h : MboxHdr) (code : Half) (resp : List Byte) : s.aside (s.complete h code resp) := by
  unfold State.complete
  split
  · exact State.aside_of_gregs rfl rfl rfl rfl rfl
  · next n _ =>
    dsimp only
    split
    · exact State.aside_of_gregs rfl rfl rfl rfl rfl
    · have hn := mboxStatus_ge n
      have status : ∀ {u : State} {v w : Word}, s.aside u → s.aside ((u.setGreg (mboxStatus n) v).setGreg (mboxStatus n + 4) w) :=
        fun hu => (hu.trans (State.aside_setGreg _ _ hn)).trans (State.aside_setGreg _ _ (hn.trans (Nat.le_add_right _ 4)))
      have buffered : ∀ {v : Services}, s.aside { s with svc := v } := State.aside_of_gregs rfl rfl rfl rfl rfl
      split
      · split
        · exact State.aside.trans (status buffered) (State.aside_emit _ _)
        · exact State.aside.trans (status buffered) (State.aside_emit _ _)
      · exact status buffered

/-- A STOP command that waited has ended. -/
theorem State.aside_finish (s : State) (h : MboxHdr) (op : Nat) : s.aside (s.finish h op 0#16 []) := s.aside_complete h 0#16 []

/-- The cores and the shutter as the stop bath begins. -/
def State.stopped (s : State) : State :=
  let t := s.mapCores fun _ c => { c with lateStarts := [] }
  { t with shutter := { t.shutter with
    stopNext := false, masterHalt := t.shutter.masterHalt || t.master
    sync := { t.shutter.sync with haltReport := true, haltSeen := false } } }

/-- The module in its stop bath, before the STOP commands that waited for it end. -/
def State.halting (s : State) : State := (((s.stopped.setGf 0x40020 3 3 1).alertFor 1).vector 0).showBehind

theorem State.halt_eq (s : State) : ∃ u, s.halting.aside u ∧ s.halt = u :=
  ⟨_, (State.aside_of_gregs rfl rfl rfl rfl rfl).trans
    (State.aside_foldl s.halting.svc.stops (fun u h => u.aside_finish h 0x0003) { s.halting with svc := { s.halting.svc with stops := [] } }), rfl⟩

theorem State.stopped_spec (s : State) : s.inTick s.stopped ∧ s.stopped.gregs = s.gregs ∧
    ∀ c, (s.stopped.core c).frame = (s.core c).frame := by
  unfold State.stopped
  extract_lets t sh y
  have ht : s.inTick t := s.inTick_mapCores fun _ _ => rfl
  have hg : t.gregs = s.gregs := State.mapCores_gregs s _
  have hf : ∀ c, (t.core c).frame = (s.core c).frame := fun c => by
    simp only [t, State.core_mapCores]
  clear_value t
  exact ⟨ht.trans ⟨rfl, rfl, rfl, rfl, fun _ => rfl⟩, hg, hf⟩

/-- The host and the fabric are told. -/
theorem State.aside_alerted (s : State) (n m : Nat) : s.aside ((s.alertFor n).vector m) := by
  unfold State.alertFor
  split <;> exact State.aside_of_gregs rfl rfl rfl rfl rfl

theorem State.halting_spec {s : State} (hw : s.gregsWf) : s.inTick s.halting ∧ s.halting.halted = true ∧
    ∀ c, (s.halting.core c).frame = (s.core c).frame := by
  obtain ⟨h1, hg, hf⟩ := s.stopped_spec
  have hwf : s.stopped.gregsWf := by rw [State.gregsWf, hg]; exact hw
  rw [State.halting]
  generalize s.stopped = u at h1 hf hwf ⊢
  have hset : (u.setGf 0x40020 3 3 1).gregsWf ∧ (u.setGf 0x40020 3 3 1).halted = true := by
    refine ⟨State.wf_setGreg hwf _ _, ?_⟩
    rw [State.halted, State.gbit, State.setGf, State.greg_setGreg_self hwf, bitAt_setFld _ _ (by decide) (by decide),
      if_pos (by decide)]
    decide
  have htick : u.inTick (u.setGf 0x40020 3 3 1) := ⟨rfl, rfl, rfl, State.greg_setGf_ne u (by decide), fun _ => rfl⟩
  have halert : (u.setGf 0x40020 3 3 1).aside (((u.setGf 0x40020 3 3 1).alertFor 1).vector 0) := State.aside_alerted _ 1 0
  have hcores : (u.setGf 0x40020 3 3 1).cores = u.cores := rfl
  generalize u.setGf 0x40020 3 3 1 = v at hset htick halert hcores ⊢
  generalize (v.alertFor 1).vector 0 = w at halert ⊢
  have hw' := State.works_showBehind w 0
  refine ⟨(h1.trans htick).trans (halert.inTick.trans hw'.inTick), ?_, fun c => ?_⟩
  · rw [(hw'.1.2.2.2 (halert.2.2.2.2.2 hset.1)).2, State.halted, State.gbit, halert.2.2.2.2.1 _ (by decide)]
    exact hset.2
  · rw [State.core_showBehind, State.core_congr halert.1, State.core_congr hcores, hf]

theorem State.halt_spec {s : State} (hw : s.gregsWf) : s.inTick s.halt ∧ s.halt.halted = true ∧
    ∀ c, (s.halt.core c).frame = (s.core c).frame := by
  obtain ⟨h1, h2, h3⟩ := State.halting_spec hw
  obtain ⟨u, hu, he⟩ := s.halt_eq
  obtain ⟨hc, -, -, -, hg, -⟩ := id hu
  rw [he]
  refine ⟨h1.trans hu.inTick, ?_, fun c => ?_⟩
  · rw [State.halted, State.gbit, hg _ (by decide)]
    exact h2
  · rw [State.core_congr hc]
    exact h3 c

/-- Tick symbols leave, and of the shutter only reports and the stop bath of a HALT that went out change. -/
theorem State.sendTicks_fields (s : State) : ∃ ctr out b m y, s.sendTicks =
    { s with freeCtr := ctr, sent := out, shutter := { s.shutter with stopNext := b, masterHalt := m, sync := y } } := by
  unfold State.sendTicks
  extract_lets s1 stamp halt s2 sh2 s3 s4 s5 sh5 y
  have h4 : ∃ out b m, s4 = { s1 with sent := out, shutter := { s1.shutter with stopNext := b, masterHalt := m } } := by
    have h2 : ∃ out, s2 = { s1 with sent := out } := ⟨_, State.sendDown_eq _ _⟩
    obtain ⟨out, h2⟩ := h2
    have h3 : s3 = { s1 with sent := out, shutter := { s1.shutter with masterHalt := false } } := by simp only [s3, sh2, h2]
    simp only [s4, h3]
    split
    · split
      · exact ⟨_, _, _, rfl⟩
      · exact ⟨_, _, _, rfl⟩
    · exact ⟨_, _, _, rfl⟩
  obtain ⟨out, b, m, h4⟩ := h4
  split
  · have h5 : ∃ out, s5 = { s4 with sent := out } := ⟨_, State.sendTick_eq _ _ _⟩
    obtain ⟨out', h5⟩ := h5
    refine ⟨s1.freeCtr, out', b, m, { y with haltReport := false, skewReport := false }, ?_⟩
    simp only [sh5, h5, h4]
    rfl
  · exact ⟨s1.freeCtr, out, b, m, s.shutter.sync, h4⟩

/-! ## The frames of a tick -/

theorem State.works_runDue (pos : Nat) (s : State) (c : CoreId) : s.works c (s.runDue pos c) := by
  unfold State.runDue
  extract_lets x due x' s1 l f
  have h1 : s.works c s1 := s.works_setCore rfl
  split
  · refine h1.trans (State.works_setCore _ ?_)
    have hx : (s1.core c) = x' := State.core_setCore_self s c x'
    rw [hx]
    split <;> rfl
  · exact .ite h1 (h1.trans (State.works_startNext c _ s1))

theorem State.reexpose_inTick (s : State) : s.inTick s.reexpose := by
  unfold State.reexpose
  extract_lets s1
  have h1 : s.inTick s1 := s.inTick_mapCores fun _ x => by split <;> rfl
  refine h1.trans (s1.eachCore_inTick fun u c => ?_)
  dsimp only
  split
  · refine State.works.inTick (u.works_setCore (c := c) ?_)
    rfl
  · exact (State.works_startNext c _ u).inTick

theorem State.runFrames_inTick (s : State) : s.inTick s.runFrames := by
  unfold State.runFrames
  extract_lets pos sh s1 s2
  have h1 : s.inTick s1 := ⟨rfl, rfl, rfl, rfl, fun _ => rfl⟩
  have h2 : s1.inTick s2 := by
    simp only [s2]
    split
    · exact s1.reexpose_inTick
    · exact s1.eachCore_inTick fun u c => (u.works_runDue pos c).inTick
  have h3 : s2.inTick s2.showSlot :=
    ⟨rfl, rfl, rfl, (State.greg_setGf_ne _ (by decide)).trans (State.greg_setGf_ne _ (by decide)), fun _ => rfl⟩
  exact ((h1.trans h2).trans h3).trans (State.works_showBehind _ 0).inTick

end InTick

end Sys2Proof.Machine
end

section
/-! A tick (R11, R14, R24, R28, R91): its time, its stop bath, and the frames that it starts. -/

namespace Sys2Proof.Machine

/-! ## The tick itself -/

theorem Core.cleared_frame (x : Core) : x.cleared.frame = x.frame := rfl

/-- Only registers, row sets and the score stage are cleared. -/
theorem Core.cleared_fields (x : Core) : ∃ regs rows stage, x.cleared = { x with regs := regs, rowSets := rows, stage := stage } :=
  ⟨_, _, _, rfl⟩

theorem Core.cleared_rowSets (x : Core) : x.cleared.rowSets = List.replicate 8 RowSet.reset := rfl

theorem State.core_raised (s : State) (c : CoreId) : s.raised.core c = (s.core c).cleared := State.core_mapCores _ _ c

theorem State.raised_fields (s : State) : s.raised.gregs = s.gregs ∧ s.raised.clock = s.clock ∧ s.raised.image = s.image ∧
    ∃ n, s.raised.shutter = { s.shutter.advance (s.greg 0x40000).toNat with tickOutNs := n } :=
  ⟨State.mapCores_gregs _ _, State.mapCores_clock _ _, State.mapCores_image _ _, _, State.mapCores_shutter _ _⟩

/-- FN, the cycles of this tick and the next, and the fraction carried. -/
theorem State.raised_course (s : State) : s.raised.shutter.course =
    (s.shutter.fn + 1#48, s.shutter.nextTick,
      s.shutter.nextTick + (s.shutter.fraction + cycleNum (s.greg 0x40000).toNat s.shutter.freq2) / 2000,
      (s.shutter.fraction + cycleNum (s.greg 0x40000).toNat s.shutter.freq2) % 2000,
      s.shutter.nextTick + cyclesOf (s.greg 0x40000).toNat s.shutter.freq2 - 512) := by
  obtain ⟨-, -, -, _, h⟩ := s.raised_fields
  rw [h]
  rfl

section Tick
variable {s t : State}

theorem State.any_cores_iff {p : Core → Bool} : s.cores.any p = true ↔ ∃ c, p (s.core c) = true := by
  rw [Vector.any_eq_true]
  exact ⟨fun ⟨i, hi, h⟩ => ⟨⟨i, hi⟩, h⟩, fun ⟨c, h⟩ => ⟨c.val, c.isLt, h⟩⟩

theorem State.haltComing_iff : s.haltComing = true ↔
    s.shutter.stopNext = true ∨ s.shutter.sync.haltSeen = true ∨ ∃ c, s.coreHalts (s.core c) = true := by
  rw [State.haltComing, Bool.or_eq_true, Bool.or_eq_true, State.any_cores_iff, or_assoc]

theorem State.upTo.haltComing {n : Nat} (h : s.upTo n t) (hs : s.haltComing = true) : t.haltComing = true := by
  obtain ⟨hcalm, -, -, hc⟩ := h
  rw [State.haltComing_iff] at hs ⊢
  obtain hs | hs | ⟨c, hs⟩ := hs
  · exact .inl (hcalm.stopNext hs)
  · obtain ⟨⟨_, _, ht, -⟩, -⟩ := hcalm
    exact .inr (.inl (by rw [ht]; exact hs))
  · exact ((hc c).2 hs).elim (fun h => .inr (.inr ⟨c, h⟩)) .inl

/-- A tick changes nothing of what brings a stop bath. -/
theorem State.haltComing_raised (s : State) : s.raised.haltComing = s.haltComing := by
  obtain ⟨hg, -, -, n, hsh⟩ := s.raised_fields
  have hc (c : CoreId) : s.raised.coreHalts (s.raised.core c) = s.coreHalts (s.core c) := by
    rw [State.core_raised]
    exact State.coreHalts_congr (State.greg_congr hg _) rfl rfl rfl rfl rfl
  rw [Bool.eq_iff_iff, State.haltComing_iff, State.haltComing_iff, hsh]
  simp only [hc]
  rfl

theorem State.halted_congr (h : t.gregs = s.gregs) : t.halted = s.halted := State.gbit_congr h _ _

theorem State.haltDue_spec (hw : s.gregsWf) : s.inTick s.haltDue ∧
    (s.halted = true ∨ s.haltComing = true → s.haltDue.halted = true) ∧ ∀ c, (s.haltDue.core c).frame = (s.core c).frame := by
  unfold State.haltDue
  split
  · next h => exact ⟨⟨rfl, rfl, rfl, rfl, fun _ => rfl⟩, fun _ => h, fun _ => rfl⟩
  · next h =>
    split
    · obtain ⟨hi, hh, hf⟩ := State.halt_spec hw
      exact ⟨hi, fun _ => hh, hf⟩
    · next h' => exact ⟨.refl s, fun hd => (hd.elim h h').elim, fun _ => rfl⟩

theorem State.sendTicks_spec (s : State) : s.inTick s.sendTicks ∧ s.sendTicks.cores = s.cores ∧ s.sendTicks.gregs = s.gregs := by
  obtain ⟨_, _, _, _, _, h⟩ := s.sendTicks_fields
  rw [h]
  exact ⟨⟨rfl, rfl, rfl, rfl, fun _ => rfl⟩, rfl, rfl⟩

/-- A tick up to its frames: its time, and the stop bath where one is due. -/
theorem State.tickRaised_spec (hw : s.gregsWf) : s.beforeTick.raised.inTick s.tickRaised ∧
    (s.haltComing = true ∨ s.halted = true → s.tickRaised.halted = true) ∧
      ∀ c, (s.core c).frame.live = false → (s.tickRaised.core c).frame.live = false := by
  have hb := s.beforeTick_upTo
  obtain ⟨hbw, hbh⟩ := hb.1.2.2.2 hw
  obtain ⟨hrg, -⟩ := s.beforeTick.raised_fields
  have hrw : s.beforeTick.raised.gregsWf := by rw [State.gregsWf, hrg]; exact hbw
  have hrh : s.beforeTick.raised.halted = s.halted := (State.halted_congr hrg).trans hbh
  have hrc : s.haltComing = true → s.beforeTick.raised.haltComing = true := fun h =>
    s.beforeTick.haltComing_raised.trans (hb.haltComing h)
  have hrl (c : CoreId) (h : (s.core c).frame.live = false) : (s.beforeTick.raised.core c).frame.live = false := by
    rw [State.core_raised, Core.cleared_frame]
    exact (hb.2.2.2 c).1 h
  rw [State.tickRaised]
  generalize s.beforeTick.raised = r at hrw hrh hrc hrl ⊢
  have hai : r.inTick (r.eachCore (State.abandonDue s.beforeTick.shutter.lastTick) State.abandon) :=
    r.eachCore_inTick fun u c => (u.works_abandon c).inTick
  have hau : r.upTo 0 (r.eachCore (State.abandonDue s.beforeTick.shutter.lastTick) State.abandon) :=
    r.eachCore_upTo fun u c _ _ => u.abandon_upTo c
  generalize r.eachCore (State.abandonDue s.beforeTick.shutter.lastTick) State.abandon = a at hai hau ⊢
  obtain ⟨haw, hah⟩ := hau.1.2.2.2 hrw
  obtain ⟨hdi, hdh, hdf⟩ := State.haltDue_spec haw
  obtain ⟨hti, htc, htg⟩ := a.haltDue.sendTicks_spec
  refine ⟨hai.trans (hdi.trans hti), fun h => ?_, fun c h => ?_⟩
  · rw [State.halted_congr htg]
    exact hdh (h.symm.imp (fun h => hah.trans (hrh.trans h)) fun h => hau.haltComing (hrc h))
  · rw [State.core_congr htc, hdf]
    exact (hau.2.2.2 c).1 (hrl c h)

/-- A tick's time. -/
theorem State.raiseTick_inTick (s : State) : s.tickRaised.inTick s.raiseTick := by
  rw [State.raiseTick_eq]
  split
  · exact .refl _
  · exact s.tickRaised.runFrames_inTick

end Tick

/-! ## A tick without work left over (R12) -/

theorem State.eachCore_eq_self {s : State} {p : State → CoreId → Bool} {f : State → CoreId → State}
    (h : ∀ c, p s c = true → f s c = s) : s.eachCore p f = s := by
  refine List.foldlRecOn (motive := fun u => u = s) _ _ rfl fun u hu c _ => ?_
  rw [hu]
  split
  · next hp => exact h c hp
  · rfl

section Quiet
variable {s : State} (hh : s.haltComing = false) (hd : s.halted = false) (hg : s.shutter.guarded = true)
  (hdue : ∀ c, ∀ d ∈ (s.core c).allDues, s.shutter.nextTick < d.1)
  (hlive : ∀ c, (s.core c).frame.live = true → (s.core c).frame.retiredAt = none)
  (hab : ∀ c, State.abandonDue s.shutter.lastTick s c = false)

include hg hdue hlive in
/-- With nothing due and the guard band over, a tick finds the module as it is. -/
theorem State.bandsOver_quiet : s.bandsOver = s := by
  have hset : s.settleAll s.shutter.nextTick = s := State.settle_eq_self fun c _ => hdue c
  have hband : s.guardBand = s := by rw [State.guardBand, if_pos hg]
  rw [State.bandsOver, hset, hband]
  refine State.eachCore_eq_self fun c hl => ?_
  obtain ⟨u, hu, he⟩ := s.guardLate_eq c
  have hus : u = s := hu.elim id fun h => h.trans (State.settle_eq_self fun d hd => by
    rw [List.mem_singleton] at hd; subst hd; exact hdue d)
  rw [he, hus, if_neg]
  rw [Core.lateEnd, hlive c hl, Option.isSome_none, Bool.and_false]
  decide

include hh hd hg hdue hlive hab in
/-- Then it brings no stop bath and abandons no frame. -/
theorem State.tickRaised_quiet : s.tickRaised = (s.atCycle s.shutter.nextTick).raised.sendTicks := by
  have hb : s.beforeTick = s.atCycle s.shutter.nextTick := by
    rw [State.beforeTick, State.bandsOver_quiet hg hdue hlive]
  have hlast : (s.atCycle s.shutter.nextTick).shutter.lastTick = s.shutter.lastTick := by simp
  have hcore (c : CoreId) : ((s.atCycle s.shutter.nextTick).raised.core c).frame = (s.core c).frame := by
    rw [State.core_raised, Core.cleared_frame, State.core_atCycle]
  have hhalt : (s.atCycle s.shutter.nextTick).raised.halted = false :=
    ((State.halted_congr (State.raised_fields _).1).trans (State.halted_congr (by simp))).trans hd
  have hcoming : (s.atCycle s.shutter.nextTick).raised.haltComing = false := by
    rw [State.haltComing_raised, ← hh]
    unfold State.atCycle
    split <;> rfl
  rw [State.tickRaised, hb, hlast]
  generalize (s.atCycle s.shutter.nextTick).raised = r at hcore hhalt hcoming ⊢
  have hab' : r.eachCore (State.abandonDue s.shutter.lastTick) State.abandon = r := State.eachCore_eq_self fun c h => by
    rw [State.abandonDue, hcore] at h
    exact absurd (h.symm.trans (hab c)) (by decide)
  rw [hab', State.haltDue, hhalt, hcoming]
  rfl

end Quiet

/-! ## The frames that a tick starts (R14, R24) -/

theorem Core.slotDue_of_behind {x : Core} (h : x.behind = 0) (pos ring : Nat) : x.slotDue pos ring = (pos, 0) := by
  rw [Core.slotDue, if_pos h]

/-- A core that is free runs the entry due on it. -/
theorem State.runDue_free {s : State} {c : CoreId} {pos : Nat} {e : SchedEntry} (he : (s.core c).sched[pos]? = some e)
    (hb : (s.core c).behind = 0) (hl : (s.core c).frame.live = false) (hd : (s.core c).frame.dropped = none)
    (hls : (s.core c).lateStarts = []) (hw : (s.core c).workEnd ≤ s.shutter.lastTick) (hn : s.shutter.lastTick < s.shutter.nextTick)
    (hg : s.shutter.lastTick < s.shutter.guardAt) :
    (s.core c).begun (s.shutter.startAt pos s.shutter.fn false) e [] ((s.runDue pos c).core c) := by
  unfold State.runDue
  extract_lets x due x' s1 l f
  have hdue : due = (pos, 0) := Core.slotDue_of_behind hb pos s.ring
  have hc : s1.core c = x' := State.core_setCore_self s c x'
  have hl' : l = s.shutter.startAt pos s.shutter.fn false := by simp only [l, hdue]; rfl
  have hidle : f.live = false := hl
  have hmax : max l.tick (s1.core c).workEnd = s.shutter.lastTick := by rw [hc, hl']; exact Nat.max_eq_left hw
  rw [if_neg (by rw [hidle]; decide), if_neg (by rw [show f.dropped = none from hd]; simp), show x'.lateStarts = [] from hls, List.nil_append,
    ← hl']
  have hbegun := State.startNext_begun (s := s1) (c := c) (l := l) (rest := []) (e := e) (by rw [hc, hl']; exact he)
    (by rw [hmax]; exact hn) (.inr (by rw [hmax, hl']; exact hg))
  rw [hc] at hbegun
  exact hbegun

/-- On a core whose frame is late the entry is dropped, or waits. -/
theorem State.runDue_late {s : State} {c : CoreId} {pos : Nat} (hb : (s.core c).behind = 0) (hl : (s.core c).frame.live = true) :
    if s.policy (s.core c).frame.kind = 1 then ((s.runDue pos c).core c).frame.dropped = some s.shutter.fn
    else ((s.runDue pos c).core c).lateStarts = (s.core c).lateStarts ++ [s.shutter.startAt pos s.shutter.fn false] := by
  unfold State.runDue
  extract_lets x due x' s1 l f
  have hdue : due = (pos, 0) := Core.slotDue_of_behind hb pos s.ring
  have hl' : l = s.shutter.startAt pos s.shutter.fn false := by simp only [l, hdue]; rfl
  have hp : s1.policy f.kind = s.policy (s.core c).frame.kind := rfl
  rw [if_pos (show f.live = true from hl), State.core_setCore_self, hp]
  split
  · rfl
  · rw [← hl']

/-- The frames of a tick without a re-exposure: the ring goes on, and each core with a schedule has its entry. -/
theorem State.runFrames_spec {s : State} (h : s.shiftOpen = true ∨ ∀ c, (s.core c).replays = false) :
    s.runFrames.shutter.ringPos = (s.shutter.ringPos + 1) % s.ring ∧ ∀ c, (s.core c).scheduled = true →
      ∃ u : State, u.core c = s.core c ∧ u.shutter.course = s.shutter.course ∧ u.greg 0x40028 = s.greg 0x40028 ∧
        s.runFrames.core c = (u.runDue s.shutter.ringPos c).core c := by
  unfold State.runFrames
  extract_lets pos sh s1 s2
  have hcond : (!s1.shiftOpen && s1.cores.any fun c => c.replays) = false := by
    obtain h | h := h
    · rw [show s1.shiftOpen = true from h, Bool.not_true, Bool.false_and]
    · have hnone : (s1.cores.any fun c => c.replays) = false := Bool.eq_false_iff.2 fun ha => by
        obtain ⟨c, hc⟩ := State.any_cores_iff.1 ha
        exact absurd (hc.symm.trans (h c)) (by decide)
      rw [hnone, Bool.and_false]
  have h2 : s2 = s1.eachCore (fun s c => (s.core c).scheduled) (State.runDue pos) := if_neg (by rw [hcond]; decide)
  refine ⟨?_, fun c hc => ?_⟩
  · show s2.shutter.ringPos = _
    rw [h2]
    refine State.eachCore_keeps (g := fun u => u.shutter.ringPos) s1 fun u d => ?_
    obtain ⟨⟨⟨_, _, hsh, -⟩, -⟩, -⟩ := u.works_runDue pos d
    rw [hsh]
  · obtain ⟨u, hu, hg, he⟩ := State.core_eachCore (g := fun u => (u.shutter.course, u.greg 0x40028))
      (p := fun s c => (s.core c).scheduled) (f := State.runDue pos) s1 c
      (fun u d hd => (u.works_runDue pos d).2.2.2.1 c hd.symm) fun u d => by
        obtain ⟨hcourse, -, -, hgreg, -⟩ := (u.works_runDue pos d).inTick
        rw [hcourse, hgreg]
    obtain ⟨hcourse, hgreg⟩ := Prod.mk.inj hg
    refine ⟨u, hu, hcourse, hgreg, ?_⟩
    show s2.core c = _
    rw [h2, he, if_pos (by rw [hu]; exact hc)]

/-! ## The whole tick -/

theorem State.shutdownOn_fields (s : State) : ∃ p, s.shutdownOn = { s with power := p } := by
  unfold State.shutdownOn
  split
  · split
    · exact ⟨_, rfl⟩
    · exact ⟨_, rfl⟩
  · exact ⟨_, rfl⟩

/-- A tick's time, and the row sets that it clears. -/
theorem State.raiseTick_time {s : State} (hw : s.gregsWf) :
    s.raiseTick.shutter.course = (s.shutter.fn + 1#48, s.shutter.nextTick,
      s.shutter.nextTick + (s.shutter.fraction + cycleNum (s.greg 0x40000).toNat s.shutter.freq2) / 2000,
      (s.shutter.fraction + cycleNum (s.greg 0x40000).toNat s.shutter.freq2) % 2000,
      s.shutter.nextTick + cyclesOf (s.greg 0x40000).toNat s.shutter.freq2 - 512) ∧
      s.raiseTick.clock = max s.clock s.shutter.nextTick ∧ ∀ c, (s.raiseTick.core c).rowSets = List.replicate 8 RowSet.reset := by
  obtain ⟨⟨⟨_, _, hsh, -⟩, hp, -⟩, -⟩ := s.beforeTick_upTo
  obtain ⟨hcourse, hclock, -, -, hrows⟩ := (State.tickRaised_spec hw).1.trans s.raiseTick_inTick
  refine ⟨?_, ?_, fun c => ?_⟩
  · rw [hcourse, State.raised_course, hsh, hp]
  · rw [hclock, (State.raised_fields _).2.1, s.beforeTick_clock]
  · rw [hrows, State.core_raised, Core.cleared_rowSets]

/-- `t` is `s` at its tick, before the frames: time, tick symbols and the cleared cores apart, as it was. -/
def State.atTick (s t : State) : Prop :=
  t.gregs = s.gregs ∧ t.image = s.image ∧ t.shutter.ringPos = s.shutter.ringPos ∧ t.shutter.started = s.shutter.started ∧
    ∀ c, t.core c = (s.core c).cleared

theorem State.atTick_sendTicks (s : State) : s.atTick (s.atCycle s.shutter.nextTick).raised.sendTicks := by
  obtain ⟨hg, -, hi, _, hsh⟩ := (s.atCycle s.shutter.nextTick).raised_fields
  have hc (c : CoreId) : (s.atCycle s.shutter.nextTick).raised.core c = (s.core c).cleared := by
    rw [State.core_raised, State.core_atCycle]
  have hpos : (s.atCycle s.shutter.nextTick).raised.shutter.ringPos = s.shutter.ringPos := by rw [hsh]; simp [Shutter.advance]
  have hst : (s.atCycle s.shutter.nextTick).raised.shutter.started = s.shutter.started := by rw [hsh]; simp [Shutter.advance]
  simp only [State.atCycle_gregs, State.atCycle_image] at hg hi
  generalize (s.atCycle s.shutter.nextTick).raised = r at hg hi hc hpos hst ⊢
  obtain ⟨_, _, _, _, _, h⟩ := r.sendTicks_fields
  rw [h]
  exact ⟨hg, hi, hpos, hst, hc⟩

theorem State.atTick.ring {s t : State} (h : s.atTick t) : t.ring = s.ring := by rw [State.ring, State.ring, h.2.1]

theorem State.atTick.shiftOpen {s t : State} (h : s.atTick t) (ho : s.shiftOpen = true ∨ ∀ c, (s.core c).replays = false) :
    t.shiftOpen = true ∨ ∀ c, (t.core c).replays = false := by
  obtain ⟨-, -, -, -, hc⟩ := h
  refine ho.imp (fun ho => ?_) fun hr c => ?_
  · rw [State.shiftOpen, State.any_cores_iff] at ho ⊢
    obtain ⟨c, ho⟩ := ho
    obtain ⟨_, _, _, hx⟩ := (s.core c).cleared_fields
    exact ⟨c, by rw [hc, hx]; exact ho⟩
  · rw [hc, Core.replays, Core.cleared_frame]
    exact hr c

theorem State.atTick.raiseTick {s : State} (h : s.atTick s.tickRaised) (hd : s.halted = false) (hl : s.loaded = true)
    (hst : s.shutter.started = true) (hlk : s.locked = true) : s.raiseTick = s.tickRaised.runFrames := by
  obtain ⟨hg, -, -, hs, -⟩ := h
  have hl' : s.tickRaised.loaded = true := (State.gbit_congr hg _ _).trans hl
  have hlk' : s.tickRaised.locked = true := (State.gbit_congr hg _ _).trans hlk
  rw [State.raiseTick_eq, if_neg]
  rw [State.halted_congr hg, hd, hl', hs, hst, hlk']
  decide

/-- The frames of a tick: the ring goes on, and the entry due on a core meets it as it was but for what the tick clears. -/
theorem State.atTick.runs {s : State} (h : s.atTick s.tickRaised) (he : s.raiseTick = s.tickRaised.runFrames)
    (ho : s.shiftOpen = true ∨ ∀ c, (s.core c).replays = false) : s.raiseTick.shutter.ringPos = (s.shutter.ringPos + 1) % s.ring ∧
      ∀ c e, (s.core c).sched[s.shutter.ringPos]? = some e → ∃ u : State, u.core c = (s.core c).cleared ∧
        u.shutter.course = s.raiseTick.shutter.course ∧ u.greg 0x40028 = s.greg 0x40028 ∧
          s.raiseTick.core c = (u.runDue s.shutter.ringPos c).core c := by
  have hcourse : s.tickRaised.shutter.course = s.raiseTick.shutter.course := s.raiseTick_inTick.1.symm
  obtain ⟨hring, hframes⟩ := State.runFrames_spec (h.shiftOpen ho)
  obtain ⟨hg, -, hpos, -, hcore⟩ := id h
  rw [h.ring, hpos, ← he] at hring
  refine ⟨hring, fun c e hse => ?_⟩
  have hsched : (s.tickRaised.core c).scheduled = true := by
    obtain ⟨_, _, _, hx⟩ := (s.core c).cleared_fields
    have hne : (s.core c).sched.isEmpty = false := by
      cases hs : (s.core c).sched with
      | nil => rw [hs] at hse; cases hse
      | cons => rfl
    rw [hcore, hx, Core.scheduled, hne]
    rfl
  obtain ⟨u, hu, hcu, hgu, hz⟩ := hframes c hsched
  rw [hpos, ← he] at hz
  exact ⟨u, hu.trans (hcore c), hcu.trans hcourse, hgu.trans (State.greg_congr hg _), hz⟩

/-- Settles O32: by the relation of a state to a later one before the next tick, and by that of two states within one tick. -/
theorem tickRunsDueEntries : Obligations.TickRunsDueEntries := by
  intro s hs ht
  have hexec : exec .shutterTick s = .next s.raiseTick.shutdownOn := by
    show Host.Outcome.next s.tick.shutdownOn = _
    rw [State.tick, if_pos ht]
  refine State.gives_of hexec ?_
  obtain ⟨p, hoff⟩ := s.raiseTick.shutdownOn_fields
  rw [hoff]
  intro n pos tick
  obtain ⟨hcourse, hclock, hrows⟩ := State.raiseTick_time hs.gregs_wf
  simp only [Shutter.course, Prod.mk.injEq] at hcourse
  obtain ⟨hfn, hlast, hnext, hfrac, hguard⟩ := hcourse
  refine ⟨hfn, hlast, hclock, hnext, hfrac, hrows, fun h => ?_, fun hh hd hl hst hlk hg hdue hret hab hopen hcyc => ?_⟩
  · obtain ⟨-, hhalt, hlive⟩ := State.tickRaised_spec hs.gregs_wf
    have he : s.raiseTick = s.tickRaised := by rw [State.raiseTick_eq, hhalt h, Bool.true_or, Bool.true_or, Bool.true_or, if_pos rfl]
    show s.raiseTick.halted = true ∧ ∀ c, (s.core c).frame.live = false → (s.raiseTick.core c).frame.live = false
    rw [he]
    exact ⟨hhalt h, hlive⟩
  · have hat : s.atTick s.tickRaised := State.tickRaised_quiet hh hd hg hdue hret hab ▸ s.atTick_sendTicks
    obtain ⟨hring, hruns⟩ := hat.runs (hat.raiseTick hd hl hst hlk) hopen
    refine ⟨hring, fun c e hse hbe => ?_⟩
    obtain ⟨u, hu, hcu, hgu, hz⟩ := hruns c e hse
    obtain ⟨_, _, _, hx⟩ := (s.core c).cleared_fields
    rw [hx] at hu
    simp only [Shutter.course, Prod.mk.injEq] at hcu
    obtain ⟨hufn, hulast, hunext, -, huguard⟩ := hcu
    intro x l
    have hl' : u.shutter.startAt pos u.shutter.fn false = l := by rw [Shutter.startAt, hufn, hulast, huguard, hfn, hlast]
    have hz' : ({ s.raiseTick with power := p } : State).core c = (u.runDue pos c).core c := hz
    have hcyc' : 512 < n / 2000 := Nat.lt_of_lt_of_le hcyc (Nat.div_le_div_right (Nat.le_add_left _ _))
    rw [hz', ← hl']
    split
    · next hidle =>
      intro hdr hls hwk
      obtain ⟨hlv, hfn', hentry, hkind, hown, -⟩ := State.runDue_free (s := u) (c := c) (pos := pos) (e := e) (by rw [hu]; exact hse)
        (by rw [hu]; exact hbe) (by rw [hu]; exact hidle) (by rw [hu]; exact hdr) (by rw [hu]; exact hls)
        (by rw [hu, hulast, hlast]; exact hwk) (by rw [hulast, hunext, hlast, hnext]; omega)
        (by rw [hulast, huguard, hlast, hguard]; omega)
      exact ⟨hlv, hfn', hentry, hkind, hown.trans (hulast.trans hlast)⟩
    · next hbusy =>
      have hp : u.policy (u.core c).frame.kind = s.policy x.frame.kind := by
        rw [hu, State.policy, State.policy, State.gf, State.gf, hgu]
      have hd := State.runDue_late (s := u) (c := c) (pos := pos) (by rw [hu]; exact hbe)
        (by rw [hu]; exact Bool.not_eq_false _ |>.mp hbusy)
      rw [hp, hu] at hd
      exact hd

end Sys2Proof.Machine
end

section
/-! SUPPORT. What keeps every memory and register map in canonical form, of the frames: a core's start and guard-band work, commits,
posts, and the tick of the whole module (R12–R28, R60–R63, R80, R81, R154, R200, R240, R348, R379). -/

namespace Sys2Proof.Machine

variable {x y : Core} {k : Ctx} {s t : State}

/-! ## A core at its frame's start and end -/

theorem Core.canonical.showArray {a : ArrayState} (h : x.canonical) : (x.showArray a).canonical := h.setRf.setRf.setRf

theorem Core.canonical.enter {l : FrameStart} {start : Nat} {sh : Bool} (h : x.canonical) : (x.enter l start sh).canonical := by
  have begun : ∀ {f q te v0 v1}, ((({ x with frame := f, seq := q, te := te, ve0ctl := v0, ve1ctl := v1 } : Core).setRf 0x2000 0 0 1).setRf
      0x2000 1 1 0).canonical := .setRf (.setRf h)
  simp only [Core.enter]
  split
  · exact h
  · refine .ite h (.foldl ?_ .setRf)
    split
    · exact begun.showArray
    · exact begun

theorem Core.canonical.mergeAmax (h : x.canonical) : x.mergeAmax.canonical := h.foldl .setReg

theorem Core.canonical.scaleClamped (h : x.canonical) : x.scaleClamped.canonical := h.setRf.setRf.setFrame

theorem Core.canonical.setLatch {e : Nat} {v : Int} (h : x.canonical) : (x.setLatch e v).canonical := h.setRf

theorem Core.canonical.push {e : Nat} (h : x.canonical) : (x.push e).canonical := by
  have stored : ∀ {a b c d : Nat} {u v w z r}, (((((x.store a u).store b v).store c w).store d z).setReg r 0#32).canonical :=
    h.store.store.store.store.setReg
  simp only [Core.push]
  refine .ite h (.ite stored ?_)
  split
  · exact .ite stored (.setLatch (.store (.ite stored.scaleClamped stored)))
  · exact stored

theorem Core.canonical.runPushes (h : x.canonical) : x.runPushes.canonical := h.foldl .push

theorem Core.canonical.missLimit {j : Nat} (h : x.canonical) : (x.missLimit j).canonical :=
  .ite (.setFrame h.setReg.bump.setRf.setRf.setRf) h.setReg.bump

theorem Core.canonical.guardMerge (h : x.canonical) : x.guardMerge.canonical := .ite (h.mergeAmax.runPushes.foldl .missLimit) h

theorem Core.canonical.publish {rec_ : List Byte} (h : x.canonical) : (x.publish rec_).canonical :=
  (h.foldl .setReg).setReg.setReg.setReg.setReg

theorem Core.canonical.fillDone (h : x.canonical) : x.fillDone.canonical := .showFills h

theorem Core.canonical.setSpare {e : Nat} {st : SpareState} (h : x.canonical) : (x.setSpare e st).canonical := .showRemaps h

theorem Core.canonical.fillStep {p : Bool} (h : x.canonical) : (x.fillStep p).canonical := by
  simp only [Core.fillStep]
  split
  · exact h
  · refine .ite h (.ite h.fillDone (.ite ?_ (.ite (.setInteg h.setSpare.refetch) h.fillDone)))
    exact .fillDone (.setSpare (.setInteg h.write))

theorem Core.canonical.fillWork {p q : Bool} (h : x.canonical) : (x.fillWork p q).canonical := .ite h.fillStep.fillStep h.fillStep

theorem Core.canonical.guardEnd {p q : Bool} (h : x.canonical) : (x.guardEnd p q).canonical :=
  .fillWork (.ite h.carryEnd h.carryEnd.setRf)

theorem Core.canonical.advance (h : x.canonical) : x.advance.canonical := by
  have stepped : ∀ {v w f l}, ((({ (x.setReg 0x6004 v).setReg 0x6008 w with factors := f, filter := l } : Core).setRf
      0x6050 15 0 0).setRf 0x6054 15 0 0).canonical := .setRf (.setRf h.setReg.setReg)
  exact .ite h (.ite (.setReg (.setReg stepped.setReg)) stepped.setReg)

theorem Core.canonical.predictorSet {j : BitVec 4} (h : x.canonical) : (x.predictorSet j).canonical := by
  simp only [Core.predictorSet]
  split
  · exact h
  · exact .ite (.setRf (.setRf h)) (.setRf h)

theorem Core.canonical.applyShadows (h : x.canonical) : x.applyShadows.canonical := (h.foldl .setReg).foldl .setRf

/-! ## Fields that hold no map -/

theorem State.canonical.withPending {l : List Instr} (h : s.canonical) : ({ s with pending := l } : State).canonical := h

theorem State.canonical.withShutter {g : Shutter} (h : s.canonical) : ({ s with shutter := g } : State).canonical := h

theorem State.canonical.withImage {i : Option Image} (h : s.canonical) : ({ s with image := i } : State).canonical := h

theorem State.canonical.withLoading {l : Option LoadJob} (h : s.canonical) : ({ s with loading := l } : State).canonical := h

theorem State.canonical.withRoster {r : Roster} (h : s.canonical) : ({ s with roster := r } : State).canonical := h

theorem State.canonical.withColl {c : Collectives} (h : s.canonical) : ({ s with coll := c } : State).canonical := h

theorem State.canonical.withSec {x : Security} (h : s.canonical) : ({ s with sec := x } : State).canonical := h

theorem State.canonical.withHtu {u : Htu} (h : s.canonical) : ({ s with htu := u } : State).canonical := h

theorem State.canonical.withPower {p : Power} (h : s.canonical) : ({ s with power := p } : State).canonical := h

theorem State.canonical.withMgmt {m : Mgmt} (h : s.canonical) : ({ s with mgmt := m } : State).canonical := h

theorem State.canonical.withSheets {l : List SheetOut} (h : s.canonical) : ({ s with sheets := l } : State).canonical := h

theorem State.canonical.cpBuf_wf (h : s.canonical) : Memory.wf s.svc.cpBuf = true := h.2.2.2.2.2

/-- The services changed, their two buffers in canonical form. -/
theorem State.canonical.withSvc {v : Services} (h : s.canonical) (hb : Memory.wf v.buffers = true) (hp : Memory.wf v.cpBuf = true) :
    ({ s with svc := v } : State).canonical := ⟨h.core, h.hbm_wf, h.gregs_wf, h.gshadow_wf, hb, hp⟩

theorem State.canonical.withHbm {m : List (Nat × Byte)} (h : s.canonical) (hm : Memory.wf m = true) :
    ({ s with hbm := m } : State).canonical := ⟨h.core, hm, h.2.2⟩

/-! ## Operations on cores -/

theorem State.canonical.onCore {c : CoreId} {f : Ctx → Core → Core} (h : s.canonical)
    (hf : ∀ {k x}, x.canonical → (f k x).canonical) : (s.onCore c f).canonical :=
  have done := h.tick1.setCore (c := c) (hf (h.core c))
  .ite done done.drainReports

theorem State.canonical.onCoreAt {c : CoreId} {n : Nat} {f : Ctx → Core → Core} (h : s.canonical)
    (hf : ∀ {k x}, x.canonical → (f k x).canonical) : (s.onCoreAt c n f).canonical :=
  have done := h.atCycle.tick1.setCore (c := c) (hf (h.atCycle.core c))
  .ite done done.drainReports

theorem State.canonical.eachCore {p : State → CoreId → Bool} {f : State → CoreId → State} (h : s.canonical)
    (hf : ∀ {u c}, u.canonical → (f u c).canonical) : (s.eachCore p f).canonical :=
  h.foldl fun hu => .ite (hf hu) hu

theorem State.canonical.settleAll {n : Nat} (h : s.canonical) : (s.settleAll n).canonical := h.settle

/-! ## Reports, sessions and the audit log -/

theorem State.canonical.vector {n : Nat} (h : s.canonical) : (s.vector n).canonical := h

theorem State.canonical.logEvent {code : Half} (h : s.canonical) : (s.logEvent code).canonical := h

theorem State.canonical.stopBath (h : s.canonical) : s.stopBath.canonical := h

theorem State.canonical.shutdownOn (h : s.canonical) : s.shutdownOn.canonical := by
  simp only [State.shutdownOn]
  split
  · exact .ite h h
  · exact h

theorem State.canonical.raiseSht {code : Half} (h : s.canonical) : (s.raiseSht code).canonical := h.setGf

theorem State.canonical.raiseHtu {code : Half} (h : s.canonical) : (s.raiseHtu code).canonical := h.setGf.logEvent

theorem State.canonical.meter {n : Nat} (h : s.canonical) : (s.meter n).canonical :=
  .ite (.ite h.stopBath h.stopBath.setGreg.setGreg) h

theorem State.canonical.failUnit {u : Nat} {code : Half} (h : s.canonical) : (s.failUnit u code).canonical := h.setHealth

theorem State.canonical.showSec (h : s.canonical) : s.showSec.canonical := h.setGf.setGf.setGf.setGreg

theorem State.canonical.useSession {w : Word} (h : s.canonical) : (s.useSession w).canonical := h

theorem State.canonical.endSessions {p : Session → Bool} (h : s.canonical) : (s.endSessions p).canonical :=
  .showSec (.foldl h .setGreg)

theorem State.canonical.writeKey {off role : Nat} {w : Word} (h : s.canonical) : (s.writeKey off role w).canonical := by
  refine .setGreg (State.canonical.ite (t := s) h.useSession h)

theorem State.canonical.logFault (h : s.canonical) : s.logFault.canonical := .setGf h

theorem State.canonical.append {n : AuditNote} (h : s.canonical) : (s.append n).canonical := .setGreg (.setGreg h)

theorem State.canonical.audit {n : AuditNote} (h : s.canonical) : (s.audit n).canonical := .ite h.logFault h.append

/-! ## Mailboxes -/

theorem State.canonical.complete {hd : MboxHdr} {code : Half} {resp : List Byte} (h : s.canonical) :
    (s.complete hd code resp).canonical := by
  unfold State.complete
  split
  · exact h
  · next n _ =>
    lift_lets
    extract_lets gone _ u b₀ b₁ b₂ b₃ _ v w v₁ v₂
    have hb : Memory.wf b₃ = true := Memory.wf_write _ _ (Memory.wf_write _ _ (Memory.wf_write _ _ h.buffers_wf))
    have hu : u.canonical := h
    have hv : v₂.canonical := .setGreg (.setGreg (hu.withSvc hb hu.cpBuf_wf))
    exact .ite hu (.ite (.ite hv hv) hv)

theorem State.canonical.busy {hd : MboxHdr} (h : s.canonical) : (s.busy hd).canonical := by
  simp only [State.busy]
  split
  · exact h
  · exact .setGf h

theorem State.canonical.refuse {hd : MboxHdr} {op : Nat} {code : Half} (h : s.canonical) : (s.refuse hd op code).canonical :=
  .complete (.ite h (.ite h.logFault h.audit))

theorem State.canonical.mboxBusy {n : Nat} (h : s.canonical) : (s.mboxBusy n).canonical := h.setGf.logEvent

/-- The state that a mailbox command ends with, complete or in progress, is in canonical form. -/
def MboxEnd.canonical : MboxEnd → Prop
  | .done s _ _ => s.canonical
  | .waits s => s.canonical

theorem MboxEnd.canonical.done {code : Half} {resp : List Byte} (h : s.canonical) : (MboxEnd.done s code resp).canonical := h

theorem MboxEnd.canonical.waits (h : s.canonical) : (MboxEnd.waits s).canonical := h

theorem MboxEnd.canonical.ite {p : Prop} [Decidable p] {a b : MboxEnd} (ha : a.canonical) (hb : b.canonical) :
    (if p then a else b).canonical := by
  split <;> assumption

theorem State.canonical.mboxGo {hd : MboxHdr} {op role : Nat} {names free : Bool} {f : State → MboxEnd} (h : s.canonical)
    (hf : ∀ {u}, u.canonical → (f u).canonical) : (State.mbox.go hd op role names free f s).canonical := by
  simp only [State.mbox.go]
  split
  · exact h.refuse
  · refine .ite (.complete (.logFault h.tick1)) ?_
    have ends : (f (s.useSession hd.session)).canonical := hf h.useSession
    split
    · next heq =>
      rw [heq] at ends
      exact .ite ends ends.audit
    · next heq =>
      rw [heq] at ends
      exact .ite h.useSession.complete (.complete (.ite ends ends.audit))

theorem State.canonical.mbox {hd : MboxHdr} {op role : Nat} {names free : Bool} {f : State → MboxEnd} (h : s.canonical)
    (hf : ∀ {u}, u.canonical → (f u).canonical) : (s.mbox hd op role names free f).canonical := by
  unfold State.mbox
  refine .ite h ?_
  split
  · exact .ite h.mboxBusy (.mboxGo h.setGf.busy hf)
  · exact h.mboxGo hf

theorem State.canonical.finish {hd : MboxHdr} {op : Nat} {code : Half} {resp : List Byte} (h : s.canonical) :
    (s.finish hd op code resp).canonical := .complete (.ite h h.audit)

theorem State.canonical.finishOpt {hd : Option MboxHdr} {op : Nat} {code : Half} {resp : List Byte} (h : s.canonical) :
    (s.finishOpt hd op code resp).canonical := by
  cases hd with
  | none => exact h
  | some hd => exact h.finish

/-! ## Commits (R60–R63) -/

theorem State.canonical.setGshadow {a : Nat} {w : Word} (h : s.canonical) : (s.setGshadow a w).canonical :=
  ⟨h.core, h.hbm_wf, h.gregs_wf, Sparse.wf_set a w h.gshadow_wf, h.2.2.2.2⟩

theorem State.canonical.showCycles (h : s.canonical) : s.showCycles.canonical := h.setGreg

theorem State.canonical.setBlkStatus {b : Block} {w : Word} (h : s.canonical) : (s.setBlkStatus b w).canonical := by
  cases b with
  | core c => exact h.setCore (h.core c).setReg
  | shutter | link | cpm => exact h.setGreg

theorem State.canonical.setPending {b : Block} {v : Bool} (h : s.canonical) : (s.setPending b v).canonical := h.setBlkStatus

theorem State.canonical.applyGlob {b : Block} (h : s.canonical) : (s.applyGlob b).canonical := h.foldl .setGreg

theorem State.canonical.rejectCommit {b : Block} {n : Nat} {code : Half} (h : s.canonical) : (s.rejectCommit b n code).canonical :=
  .ite h.setBlkStatus.setGf.raiseSht h.setBlkStatus

theorem State.canonical.sourceApplied {n : Nat} (h : s.canonical) : (s.sourceApplied n).canonical :=
  .ite h.setGf.setGf (.ite h (.setGf h))

theorem State.canonical.shutterApplied {ran : Bool} {was : Nat} (h : s.canonical) : (s.shutterApplied ran was).canonical := by
  have shown := (h.sourceApplied (n := was)).showCycles
  simp only [State.shutterApplied]
  split
  · exact State.canonical.ite shown shown.setGf
  · exact shown

theorem State.canonical.portApplied {p : Nat} (h : s.canonical) : (s.portApplied p).canonical :=
  .ite h.setGf.setPort (.ite h.setGf.setPort (.ite h.setGf h))

theorem State.canonical.applyCommit {b : Block} (h : s.canonical) : (s.applyCommit b).canonical := by
  have cleared : (s.setPending b false).canonical := h.setPending
  cases b with
  | core c => exact cleared.setCore (cleared.core c).applyShadows
  | shutter => exact cleared.applyGlob.shutterApplied
  | link => exact cleared.applyGlob.foldl .portApplied
  | cpm => exact cleared.applyGlob

theorem State.canonical.tryCommit {b : Block} (h : s.canonical) : (s.tryCommit b).canonical := by
  unfold State.tryCommit
  split
  · exact h.rejectCommit
  · split
    · exact h.rejectCommit
    · exact h.applyCommit

theorem State.canonical.commitGo {b : Block} {im : Bool} (h : s.canonical) : (s.commitGo b im).canonical := by
  unfold State.commitGo
  refine .ite h (.ite h.setPending ?_)
  split
  · exact h.rejectCommit
  · exact .ite h.tryCommit h.rejectCommit

theorem State.canonical.commitCancel {b : Block} (h : s.canonical) : (s.commitCancel b).canonical := .ite h.setPending h

theorem State.canonical.commitTick {b : Block} (h : s.canonical) : (s.commitTick b).canonical := .ite h.atCycle.tryCommit h

/-! ## Posts (R348) -/

theorem State.canonical.respond {v : Serving} {n : Nat} (h : s.canonical) : (s.respond v n).canonical := by
  exact .ite (.vector (.emit h)) (.emit h)

theorem State.canonical.hold {q : Nat} {e : List Byte} (h : s.canonical) : (s.hold q e).canonical := by
  simp only [State.hold]
  split
  · exact h
  · exact .ite h.bumpG.logEvent (.ite h h)

theorem State.canonical.post {q : Nat} {e : List Byte} (h : s.canonical) : (s.post q e).canonical := by
  simp only [State.post]
  refine .ite h ?_
  split
  · exact .ite h.vector.respond h.hold
  · exact h.hold

theorem State.canonical.postAll {n : Nat} {fn : BitVec 48} {l : List (BitVec 4 × Word)} (h : s.canonical) :
    (s.postAll n fn l).canonical := h.foldl .post

theorem State.canonical.kvCommit {r : KvCommit} (h : s.canonical) : (s.kvCommit r).canonical := .ite h.bumpG h.setGreg

/-! ## The guard band and the tick -/

theorem State.canonical.sendTick {p : Nat} {b : TickBlock} (h : s.canonical) : (s.sendTick p b).canonical := .ite h h

theorem State.canonical.sendDown {b : TickBlock} (h : s.canonical) : (s.sendDown b).canonical := h.foldl .sendTick

theorem State.canonical.sheetOut {n : Nat} {fn : BitVec 48} {bs : List Byte} (h : s.canonical) : (s.sheetOut n fn bs).canonical :=
  .ite h h

theorem State.canonical.guardCore {halt : Bool} {c : CoreId} (h : s.canonical) : (State.guardCore halt s c).canonical := by
  unfold State.guardCore
  extract_lets s₁ s₂ _ s₃ pass x f rec_ s₄ s₅ s₆
  have h₂ : s₂.canonical := .ite (t := s₁) h h
  have h₃ : s₃.canonical := h₂.setCore (h₂.core c)
  have h₄ : s₄.canonical := h₃.setCore (.guardEnd (.publish (.guardMerge (h₃.core c))))
  have h₅ : s₅.canonical := h₄.sheetOut
  exact .drainReports (.ite (h₅.postAll.foldl .kvCommit) h₅)

theorem State.canonical.markOverrun {c : CoreId} (h : s.canonical) : (s.markOverrun c).canonical :=
  (h.setCore (c := c) (Core.canonical.setFrame (h.core c))).bumpG.setGf.raiseSht

theorem State.canonical.emptySlots {fn : BitVec 48} (h : s.canonical) : (s.emptySlots fn).canonical := h.eachCore .sheetOut

theorem State.canonical.showBehind (h : s.canonical) : s.showBehind.canonical := h.setGf

theorem State.canonical.startCore {l : FrameStart} {n : Nat} {c : CoreId} (h : s.canonical) : (State.startCore l n s c).canonical :=
  h.onCore .enter

theorem State.canonical.startedPast {c : CoreId} (h : s.canonical) : (s.startedPast c).canonical :=
  .ite (.ite h.markOverrun h.guardCore) h

theorem State.canonical.startNext {c : CoreId} {l : List FrameStart} (h : s.canonical) : (State.startNext c l s).canonical := by
  induction l generalizing s with
  | nil => exact h.setCore (h.core c)
  | cons l rest ih =>
    have started : ∀ {n}, ((State.startCore l n s c).startedPast c).canonical := h.startCore.startedPast
    exact .ite (h.setCore (h.core c)) (.ite (started.setCore (started.core c)) (ih started))

theorem State.canonical.abandon {c : CoreId} (h : s.canonical) : (s.abandon c).canonical := by
  have stopped : ∀ {f q l}, (s.setCore c { (s.core c).waitAbandoned s.clock with frame := f, seq := q, lateStarts := l }).canonical :=
    h.setCore (h.core c).waitAbandoned
  exact .guardCore (.raiseSht (.setGf stopped))

theorem State.canonical.halt (h : s.canonical) : s.halt.canonical := by
  unfold State.halt
  lift_lets
  extract_lets s₁ _ _ s₂ s₃ waits _
  have h₁ : s₁.canonical := h.mapCores id
  have h₂ : s₂.canonical := h₁.withShutter
  have h₃ : s₃.canonical := .showBehind (.vector (.alertFor (.setGf h₂)))
  exact State.canonical.foldl (h₃.withSvc h₃.buffers_wf h₃.cpBuf_wf) .finish

theorem State.canonical.runDue {n : Nat} {c : CoreId} (h : s.canonical) : (State.runDue n s c).canonical := by
  have moved : ∀ {b}, (s.setCore c { s.core c with behind := b }).canonical := h.setCore (h.core c)
  refine .ite (moved.setCore (.ite ?_ ?_)) (.ite moved moved.startNext)
  all_goals exact h.core c

theorem State.canonical.reexpose (h : s.canonical) : s.reexpose.canonical :=
  .eachCore (h.mapCores fun hx => .ite hx hx) fun {_ c} hu => .ite (hu.setCore (hu.core c)) hu.startNext

theorem State.canonical.showSlot (h : s.canonical) : s.showSlot.canonical := h.setGf.setGf

theorem State.canonical.runFrames (h : s.canonical) : s.runFrames.canonical :=
  .showBehind (.showSlot (.ite (.reexpose h) (.eachCore h .runDue)))

theorem State.canonical.sendTicks (h : s.canonical) : s.sendTicks.canonical := by
  unfold State.sendTicks
  lift_lets
  extract_lets s₁ stamp halt s₂ _ s₃ s₄ s₅ _ _
  have h₃ : s₃.canonical := State.canonical.sendDown (s := s₁) h
  have h₄ : s₄.canonical := .ite (.ite h₃.stopBath h₃) h
  exact .ite h₄.sendTick h₄

theorem State.canonical.recordCursor {n : Nat} (h : s.canonical) : (s.recordCursor n).canonical := by
  unfold State.recordCursor
  split
  · exact h
  · exact .ite h h

theorem State.canonical.freezeCore {c : CoreId} (h : s.canonical) : (s.freezeCore c).canonical := by
  unfold State.freezeCore
  split
  · exact h
  · exact .ite h h

theorem State.canonical.stepCore {c : CoreId} (h : s.canonical) : (s.stepCore c).canonical :=
  .ite h (h.recordCursor.setCore (h.core c).advance).freezeCore

theorem State.canonical.stepAdvance {c : CoreId} (h : s.canonical) : (s.stepAdvance c).canonical := .ite h h.atCycle.stepCore

theorem State.canonical.guardBand (h : s.canonical) : s.guardBand.canonical := by
  unfold State.guardBand
  lift_lets
  extract_lets n s₁ _ s₂ any_ s₃ halt s₄
  have h₂ : s₂.canonical := State.canonical.atCycle (s := s.settleAll n) h.settleAll
  have h₄ : s₄.canonical := (h₂.eachCore .markOverrun).eachCore .guardCore
  exact .ite h (.showBehind (.ite h₄.emptySlots h₄))

theorem State.canonical.guardLate {c : CoreId} (h : s.canonical) : (s.guardLate c).canonical := by
  unfold State.guardLate
  lift_lets
  extract_lets s₁ f late s₂ s₃ s₄ x waits
  have h₁ : s₁.canonical := .ite h.settle h
  have h₂ : s₂.canonical := .ite h₁.setGreg h₁
  have h₄ : s₄.canonical := .ite h₂.guardCore.stepCore h₂.guardCore
  exact .ite (.showBehind (.ite h₄ h₄.startNext)) h₁

theorem State.canonical.raiseTick (h : s.canonical) : s.raiseTick.canonical := by
  unfold State.raiseTick
  lift_lets
  extract_lets s₁ s₂ s₃ prev out _ s₄ s₅ s₆ _ _ s₇ s₈
  have h₃ : s₃.canonical := State.canonical.atCycle (s := s₂) (.eachCore h.settleAll.guardBand .guardLate)
  have h₄ : s₄.canonical := h₃.withShutter
  have h₆ : s₆.canonical := .eachCore (h₄.mapCores fun {_ z} hz => Core.canonical.setRf (x := { z with rowSets := _, stage := _ }) hz) .abandon
  have h₇ : s₇.canonical := .ite h₆.withShutter (.ite h₆.halt h₆)
  exact .ite h₇.sendTicks h₇.sendTicks.runFrames

theorem State.canonical.tick (h : s.canonical) : s.tick.canonical := .ite h.raiseTick h

theorem State.canonical.jobStart (h : s.canonical) : s.jobStart.canonical := by
  unfold State.jobStart
  exact .ite (.showSlot (.eachCore h .startCore)) h

theorem State.canonical.setClass (h : s.canonical) : s.setClass.canonical := .setGf (.setGf h)

theorem State.canonical.derateTick (h : s.canonical) : s.derateTick.canonical := by
  unfold State.derateTick
  lift_lets
  extract_lets s₁ n s₂ _ s₃ left
  have h₂ : s₂.canonical := h.atCycle.setGf
  have h₃ : s₃.canonical := .setFreq h₂.withShutter
  exact .ite h (.ite h₃ (.ite h₃.raiseHtu.stopBath h₃.setGf))

/-! ## Tick synchronisation and the roster epoch -/

theorem State.canonical.setSync {z : Sync} (h : s.canonical) : (s.setSync z).canonical := h

theorem State.canonical.moveBase {n : Int} (h : s.canonical) : (s.moveBase n).canonical := h

theorem State.canonical.syncLost (h : s.canonical) : s.syncLost.canonical := by
  unfold State.syncLost
  extract_lets s₁
  have h₁ : s₁.canonical := .raiseSht (.setGf (.setGf h))
  exact h₁.setSync.stopBath

theorem State.canonical.jump {e : Int} {fn : Option (BitVec 48)} (h : s.canonical) : (s.jump e fn).canonical := by
  cases fn <;> exact h

theorem State.canonical.symbol {e : Int} {n : Nat} {fn : Option (BitVec 48)} (h : s.canonical) : (s.symbol e n fn).canonical := by
  unfold State.symbol
  lift_lets
  extract_lets y period y₁ y₂ s₁
  have h₁ : s₁.canonical := h.setGf
  refine .ite h (.ite (.ite h.jump h) (.ite (.ite h₁.syncLost h₁) (.ite h₁.setGf h₁)))

theorem State.canonical.rosterSkew {b : Bool} (h : s.canonical) : (s.rosterSkew b).canonical :=
  .stopBath (.setSync (.logEvent (.ite h.bumpG h)))

theorem State.canonical.tickSymbol {b : TickBlock} {a : Int} {n : Nat} (h : s.canonical) : (s.tickSymbol b a n).canonical := by
  unfold State.tickSymbol
  lift_lets
  extract_lets s₁ stay s₂ err s₃ _ s₄
  have h₂ : s₂.canonical := State.canonical.sendDown (s := s₁) h
  have h₄ : s₄.canonical := .ite h₂.symbol.setSync h₂.symbol
  refine .ite h₂ ?_
  split
  · exact .ite h₄ h₄.rosterSkew
  · exact h₄

theorem State.canonical.showRoster (h : s.canonical) : s.showRoster.canonical := by
  unfold State.showRoster
  extract_lets s₁ s₂
  have h₂ : s₂.canonical := h.setGreg.setGf
  split <;> exact h₂.setGreg.setGreg.setGreg

theorem State.canonical.rosterSwitch (h : s.canonical) : s.rosterSwitch.canonical := by
  unfold State.rosterSwitch
  split
  · exact h.rosterSkew
  · exact .ite h (.showRoster h)

end Sys2Proof.Machine
end

section
/-! SUPPORT. What keeps every memory and register map in canonical form, of the link's ports, the roster agent and the commands of
the tick (R29–R34, R299–R323, R359). -/

namespace Sys2Proof.Machine

variable {s t : State}

/-! ## Commands -/

/-- Whatever next state a command answers is in canonical form. -/
def endsCanonical (o : Host.Outcome State Fault Refusal) : Prop := ∀ t, o = .next t → t.canonical

theorem endsCanonical.next (h : s.canonical) : endsCanonical (.next s) := fun _ ht => Host.Outcome.next.inj ht ▸ h

theorem endsCanonical.fault {f : Fault} : endsCanonical (.fault f) := fun _ ht => nomatch ht

theorem endsCanonical.ite {p : Prop} [Decidable p] {a b : Host.Outcome State Fault Refusal} (ha : endsCanonical a)
    (hb : endsCanonical b) : endsCanonical (if p then a else b) := by
  split <;> assumption

/-! ## The tick's commands -/

theorem execTickFlit_canonical {port : BitVec 4} {b : TickBlock} {a : Int} {n : Nat} (h : s.canonical) :
    endsCanonical (execTickFlit port b a n s) := .next (.ite h.tickSymbol h)

theorem execUpstreamTickFlit_canonical {port : BitVec 4} {b : TickBlock} (h : s.canonical) :
    endsCanonical (execUpstreamTickFlit port b s) :=
  .next (.ite h (.ite h.withShutter (.ite (.sendTick h.tick1) h)))

theorem execEchoMeasurement_canonical {port : BitVec 4} (h : s.canonical) : endsCanonical (execEchoMeasurement port s) :=
  .next (.ite h (.emit (.setPort (.setSync h))))

theorem execEcho_canonical {port : BitVec 4} {reply : Bool} {id res : Half} {rtt : Word} (h : s.canonical) :
    endsCanonical (execEcho port reply id res rtt s) := by
  have measured : ∀ {x a hi lo v}, ((s.setPort port.toNat x).setGf a hi lo v).canonical := h.setPort.setGf
  exact .next (.ite h.emit (.ite h (.ite measured.setGf measured)))

/-! ## Ports -/

theorem State.canonical.raisePort {p : Nat} {code : Half} (h : s.canonical) : (s.raisePort p code).canonical := h.setGf.logEvent

theorem State.canonical.portLost {p : Nat} (h : s.canonical) : (s.portLost p).canonical := .ite h.stopBath h

theorem State.canonical.portFail {p : Nat} {code : Half} (h : s.canonical) : (s.portFail p code).canonical :=
  .portLost (.setGf h.raisePort)

theorem State.canonical.drainWaiting {p : Nat} (h : s.canonical) : (s.drainWaiting p).canonical := .foldl h.setPort .firstSend

theorem State.canonical.answer {p typ seq : Nat} (h : s.canonical) : (s.answer p typ seq).canonical := h.emit

theorem State.canonical.sendAck {p : Nat} (h : s.canonical) : (s.sendAck p).canonical := .answer h.setPort

theorem State.canonical.discardFlit {p : Nat} (h : s.canonical) : (s.discardFlit p).canonical := .answer h.setPort

theorem State.canonical.acceptFlit {p : Nat} (h : s.canonical) : (s.acceptFlit p).canonical := .ite (.sendAck h.setPort) h.setPort

theorem State.canonical.tagFailed {p first : Nat} (h : s.canonical) : (s.tagFailed p first).canonical := by
  have counted : ∀ {x a n}, ((s.setPort p x).bumpG a n).canonical := h.setPort.bumpG
  exact .ite counted.portFail counted.answer

theorem State.canonical.closeGroup {p : Nat} {f : List Byte} (h : s.canonical) : (s.closeGroup p f).canonical := by
  simp only [State.closeGroup]
  split
  · exact .acceptFlit h.setPort
  · exact h.tagFailed

theorem State.canonical.receiveFlit {p : Nat} {f : RxFlit} (h : s.canonical) : (s.receiveFlit p f).canonical :=
  .ite h (.ite h.discardFlit (.ite h.bumpG.discardFlit (.ite h (.ite (.ite h h.discardFlit)
    (.ite h.acceptFlit.setPort h.closeGroup)))))

theorem State.canonical.replay {p seq : Nat} (h : s.canonical) : (s.replay p seq).canonical := .bumpG (.foldl h.setPort .emit)

theorem State.canonical.authFail {p : Nat} (h : s.canonical) : (s.authFail p).canonical := h.raisePort.portLost

theorem execAck_canonical {port : BitVec 4} {a : Half} (h : s.canonical) : endsCanonical (execAck port a s) :=
  .next (.drainWaiting h.setPort)

theorem execNak_canonical {port : BitVec 4} {e : Half} (h : s.canonical) : endsCanonical (execNak port e s) :=
  .next (.ite h (.ite h.portFail h.replay))

theorem execAckTimer_canonical {port : BitVec 4} (h : s.canonical) : endsCanonical (execAckTimer port s) := .next (.ite h h.sendAck)

theorem execLinkTraining_canonical {port : BitVec 4} {x : Training} (h : s.canonical) : endsCanonical (execLinkTraining port x s) :=
  .next (.ite h (.emit (.tick1 (.setGf h.setPort))))

theorem execKeyFlit_canonical {port : BitVec 4} {k : KeyNotice} (h : s.canonical) : endsCanonical (execKeyFlit port k s) := by
  refine .next ?_
  cases k with
  | rekey g => exact h.setPort
  | handshake eph member cert sig dik =>
    exact .ite h (.ite (.setGreg (.setGreg (.setGf (.setPort h.tick1)))) (.authFail h.setGreg))

theorem execHandshakeTimeout_canonical {port : BitVec 4} (h : s.canonical) : endsCanonical (execHandshakeTimeout port s) :=
  .next (.ite h.authFail h)

theorem execKeyGeneration_canonical {port : BitVec 4} (h : s.canonical) : endsCanonical (execKeyGeneration port s) := by
  refine .next ?_
  simp only
  split
  · exact h
  · exact .ite h (.emit (.setPort h.tick1))

theorem State.canonical.takeMsg {p : Nat} {m : List Byte} {f : State → State} (h : s.canonical)
    (hf : ∀ {u}, u.canonical → (f u).canonical) : (s.takeMsg p m f).canonical := .ite (hf h.setPort) h

theorem State.canonical.windowDrop {p : Nat} (h : s.canonical) : (s.windowDrop p).canonical := h.bumpG.raisePort

theorem State.canonical.takeSend {p : Nat} {m : List Byte} (h : s.canonical) : (s.takeSend p m).canonical := by
  simp only [State.takeSend]
  split
  · exact h.windowDrop
  · exact .ite h.windowDrop h.hbmWrite.event

theorem execSend_canonical {port : BitVec 4} {m : List Byte} (h : s.canonical) : endsCanonical (execSend port m s) :=
  .next (h.takeMsg fun hu => .ite hu.rosterSkew hu.takeSend)

/-! ## The roster agent -/

theorem State.canonical.stage {r : RosterRec} (h : s.canonical) : (s.stage r).canonical := by
  unfold State.stage
  extract_lets u _
  have hu : u.canonical := by
    simp only [u]
    split
    · exact h.setGreg
    · exact h
  exact .showRoster hu.withRoster

theorem State.canonical.sendRoster {dst : Word} {b : List Byte} (h : s.canonical) : (s.sendRoster dst b).canonical := by
  unfold State.sendRoster
  split
  · exact h.sendMessage
  · exact h

theorem State.canonical.sendAll {b : List Byte} (h : s.canonical) : (s.sendAll b).canonical := h.foldl .sendRoster

theorem State.canonical.answerStaged {src : Word} (h : s.canonical) : (s.answerStaged src).canonical := h.sendRoster

theorem State.canonical.takeStart {src : Word} {fn : BitVec 48} (h : s.canonical) : (s.takeStart src fn).canonical := by
  unfold State.takeStart
  extract_lets lo hi u
  have hu : u.canonical := h.setGreg.setGreg.setGshadow.setGshadow
  exact hu.withShutter.withRoster (r := { u.roster with starter := some src })

theorem State.canonical.armCores {off n : Nat} (h : s.canonical) : (s.armCores off n).canonical := h.mapCores fun hx => hx.setReg.setReg

theorem State.canonical.takeProposal {src : Word} {p : Proposal} (h : s.canonical) : (s.takeProposal src p).canonical := by
  have taken : ∀ {r}, ({ s with roster := r } : State).canonical := h
  cases p with
  | epoch r => exact taken.stage
  | start fn => exact taken.takeStart
  | freeze t => exact taken.armCores
  | fix t => exact .ite taken taken.armCores

theorem State.canonical.propose {p : Proposal} {hd : Option MboxHdr} (h : s.canonical) : (s.propose p hd).canonical := by
  have told : ((s.takeProposal (s.greg 0x60800) p).sendAll p.body).canonical := h.takeProposal.sendAll
  exact .ite told told.withRoster

theorem State.canonical.noStart (h : s.canonical) : s.noStart.canonical := h

theorem State.canonical.withdraw (h : s.canonical) : s.withdraw.canonical := by
  unfold State.withdraw
  extract_lets _ u
  have hu : u.canonical := by
    simp only [u]
    split
    · exact h.withRoster.showRoster
    · exact h.withRoster.noStart
    · exact h
  exact .ite hu.noStart hu

theorem State.canonical.cancelAll {w : Option Awaiting} {code : Half} (h : s.canonical) : (s.cancelAll w code).canonical := by
  have gone : ((s.sendAll (leBytes 4 4)).withdraw).canonical := h.sendAll.withdraw
  cases w with
  | none => exact gone
  | some a => exact .finishOpt gone.withRoster

theorem State.canonical.refuseRecord {src : Word} {r : RosterRec} (h : s.canonical) : (s.refuseRecord src r).canonical := by
  simp only [State.refuseRecord]
  split
  · exact h.sendMessage
  · exact h.sendRoster

theorem execAnnounce_canonical {src : Word} {b : List Byte} (h : s.canonical) : endsCanonical (execAnnounce src b s) :=
  .next (.ite h.logEvent.refuseRecord (.ite h h.takeProposal.answerStaged))

theorem execStaged_canonical {src : Word} (h : s.canonical) : endsCanonical (execStaged src s) := by
  refine .next ?_
  split
  · exact h
  · exact .ite h.withRoster.finishOpt h.withRoster

theorem execRefused_canonical {src : Word} {code : Half} (h : s.canonical) : endsCanonical (execRefused src code s) :=
  .next (.ite h.cancelAll h)

theorem execCancel_canonical {src : Word} (h : s.canonical) : endsCanonical (execCancel src s) := by
  refine .next ?_
  split <;> exact .ite h.withdraw h

theorem execFreeze_canonical {src : Word} {n : BitVec 40} {tg : Target} (h : s.canonical) : endsCanonical (execFreeze src n tg s) :=
  .next (.answerStaged (.takeProposal (.ite h (h.withSvc h.buffers_wf h.cpBuf_wf))))

theorem execStagedDeadline_canonical (h : s.canonical) : endsCanonical (execStagedDeadline s) := by
  refine .next ?_
  split
  · exact h.cancelAll
  · exact h

theorem State.canonical.linkPlanCheck (h : s.canonical) : s.linkPlanCheck.canonical := by
  unfold State.linkPlanCheck
  split
  · exact h
  · exact .ite h (.ite h (.noStart (.foldl h .raisePort)))

theorem execLinkPlanCheck_canonical (h : s.canonical) : endsCanonical (execLinkPlanCheck s) := by
  refine .next ?_
  simp only
  split
  · exact h.linkPlanCheck
  · split
    · exact .ite h.linkPlanCheck.cancelAll h.linkPlanCheck.sendRoster
    · exact h.linkPlanCheck

end Sys2Proof.Machine
end

section
/-! SUPPORT. What keeps every memory and register map in canonical form, of the records, the ingest and NVMe services, checkpoints and
RESTORE (R126, R302, R347–R358, R368, R369, R376–R387, R407). -/

namespace Sys2Proof.Machine

variable {x y : Core} {k : Ctx} {s t : State}

/-! ## Buckets and records -/

theorem State.canonical.noteUnit {u : Nat} {code : Half} (h : s.canonical) : (s.noteUnit u code).canonical := h.setHealth

theorem State.canonical.chipCorrected {m : Nat} (h : s.canonical) : (s.chipCorrected m).canonical :=
  have filled {u v w a hi lo} : ((s.setGf a hi lo u).setGf a v v w).canonical := h.setGf.setGf
  .ite filled.raiseHtu.noteUnit filled

theorem State.canonical.chipCorrectedN {m n : Nat} (h : s.canonical) : (s.chipCorrectedN m n).canonical := h.foldl .chipCorrected

theorem State.canonical.leakBucket {b : Bucket} (h : s.canonical) : (s.leakBucket b).canonical := by
  cases b with
  | core c m => exact .ite (h.setCore (.setInteg (.setRf (h.core c)))) h
  | chip m => exact .ite (.setGf h.withHtu) h

theorem execFecCodeword_canonical {port : BitVec 4} {w : Codeword} (h : s.canonical) : endsCanonical (execFecCodeword port w s) := by
  refine .next ?_
  simp only
  split
  · exact h.bumpG.chipCorrectedN
  · exact h.bumpG.setPort

theorem State.canonical.holdRequest {c : CoreId} {r : Held} (h : s.canonical) : (s.holdRequest c r).canonical := h

theorem Core.canonical.patrolRead {m : Nat} {u : Bool} (h : x.canonical) : (x.patrolRead k m u).canonical :=
  .ite h (.ite (.setInteg h) (.miss (.setInteg h)))

theorem Core.canonical.patrolSkip {m : Nat} (h : x.canonical) : (x.patrolSkip m).canonical := h

theorem execPatrolRead_canonical {c : CoreId} {m : Nat} {u : Bool} (h : s.canonical) : endsCanonical (execPatrolRead c m u s) :=
  .next (.ite (h.setCore (h.core c).patrolSkip) (h.onCore .patrolRead))

theorem Core.canonical.fillRefetched {l : Nat} (h : x.canonical) : (x.fillRefetched l).canonical := by
  unfold Core.fillRefetched
  split
  · exact .ite h.fillDone h
  · exact h

theorem Core.canonical.askStop (h : x.canonical) : x.askStop.canonical := h

theorem Core.canonical.refetchFailed {l : Nat} (h : x.canonical) : (x.refetchFailed l).canonical := by
  unfold Core.refetchFailed
  lift_lets
  extract_lets x₁ _ _ x₂ x₃
  have h₁ : x₁.canonical := h.raiseInt
  have h₂ : x₂.canonical := h₁
  have h₃ : x₃.canonical := by
    simp only [x₃]
    split
    · exact .ite h₂.setSpare h₂
    · exact h₂
  exact .ite h₃.askStop h₃

theorem State.canonical.refetchDone {c : CoreId} {l : Nat} {b : Bool} (h : s.canonical) : (s.refetchDone c l b).canonical := by
  have waiting : ∀ {g}, ({ s.core c with integ := g } : Core).canonical := (h.core c).setInteg
  simp only [State.refetchDone]
  refine .ite h (h.setCore (.fillRefetched (.ite waiting ?_)))
  split
  · exact waiting.store
  · exact waiting.refetchFailed

theorem execRefetchComplete_canonical {c : CoreId} {l : BitVec 23} {b : Bool} (h : s.canonical) :
    endsCanonical (execRefetchComplete c l b s) := .next (.ite h.holdRequest h.refetchDone)

theorem execMissEntryExpiry_canonical {c : CoreId} {l : BitVec 23} (h : s.canonical) : endsCanonical (execMissEntryExpiry c l s) :=
  .next (h.setCore (.setInteg (h.core c)))

theorem execRemapRecordWrite_canonical {c : CoreId} (h : s.canonical) : endsCanonical (execRemapRecordWrite c s) :=
  .next (.ite h h.withHtu)

theorem State.canonical.writeAgeing (h : s.canonical) : s.writeAgeing.canonical := h

theorem State.canonical.showSheet {fn : BitVec 48} (h : s.canonical) : (s.showSheet fn).canonical := .ite h (.setGreg h.withShutter)

theorem execContactSheetRingWrite_canonical {c : CoreId} (h : s.canonical) : endsCanonical (execContactSheetRingWrite c s) := by
  refine .next ?_
  split
  · exact h
  · exact .showSheet (.hbmWrite h.withSheets)

/-! ## NVMe and ingest -/

theorem State.canonical.setStream {v : Stream} (h : s.canonical) : (s.setStream v).canonical := h

theorem State.canonical.submit {qp cid : Half} {r : NvmeReq} (h : s.canonical) : (s.submit qp cid r).canonical := by
  unfold State.submit
  split
  · exact h
  · next q _ =>
    lift_lets
    extract_lets s₁ free tail next prp e _ s₂ s₃ s₄ s₅ s₆
    have h₂ : s₂.canonical := h
    have h₅ : s₅.canonical := .ite (.ite h₂.hbmWrite.hbmWrite h₂.hbmWrite) (.ite h₂ h₂)
    have h₆ : s₆.canonical := .emit h₅
    exact .ite h₆.emit h₆.post

theorem State.canonical.nvme {qp : Half} {u : NvmeUse} {r : NvmeReq} (h : s.canonical) : (s.nvme qp u r).canonical :=
  .submit (.withSvc h.tick1 h.buffers_wf h.cpBuf_wf)

theorem State.canonical.store {tg : Target} {off : Nat} {u : NvmeUse} {fua : Bool} {bs : List Byte} (h : s.canonical) :
    (s.store tg off u fua bs).canonical := by
  cases tg with
  | host a => exact h.emit
  | nvme qp lba =>
    simp only [State.store]
    split
    · exact h
    · exact h.foldl fun hu => .ite hu hu.nvme

theorem State.canonical.wantRead {v : Stream} (h : s.canonical) : (s.wantRead v).canonical := by
  unfold State.wantRead
  split
  · exact h
  · exact .ite h h.nvme

theorem State.canonical.pump {v : Stream} (h : s.canonical) : (s.pump v).canonical := .wantRead h.setStream

theorem execIngestOpen_canonical {hd : MboxHdr} {a : IngestArgs} (h : s.canonical) : endsCanonical (execIngestOpen hd a s) :=
  .next (h.mbox fun hu => .ite hu (.pump (hu.withSvc hu.buffers_wf hu.cpBuf_wf)))

theorem execIngestClose_canonical {hd : MboxHdr} {w : Word} (h : s.canonical) : endsCanonical (execIngestClose hd w s) :=
  .next (h.mbox fun hu => .ite hu hu)

theorem execIngestRecord_canonical {w src : Word} {n : BitVec 64} {bs tag : List Byte} (h : s.canonical) :
    endsCanonical (execIngestRecord w src n bs tag s) := by
  refine .next ?_
  split
  · exact h
  · split
    · exact h.setStream
    · exact h.pump

theorem State.canonical.batchReady {v : Stream} (h : s.canonical) : (s.batchReady v).canonical := .ite h h.hbmWrite.event.pump

theorem execBatchReady_canonical {w : Word} (h : s.canonical) : endsCanonical (execBatchReady w s) := by
  refine .next ?_
  split
  · exact h.batchReady
  · exact h

theorem execIngestStall_canonical {w : Word} (h : s.canonical) : endsCanonical (execIngestStall w s) := by
  refine .next ?_
  split
  · exact .ite h.vector h
  · exact h

theorem Core.canonical.hostViolation {a m : Nat} {w : Bool} (h : x.canonical) : (x.hostViolation k a m w).canonical :=
  .ite h.noteViolation.abort.checkRetire h.noteViolation

theorem Core.canonical.disturb {n : Nat} {l : List (Nat × List Byte)} (h : x.canonical) : (x.disturb n l).canonical := h

theorem State.canonical.hostMove {m : HostMove} (h : s.canonical) : (s.hostMove m).canonical := by
  simp only [State.hostMove]
  split
  · exact h.setCore ((h.core _).foldl fun hz => .ite hz.hostViolation hz.disturb.store)
  · exact .emit (h.setCore ((h.core _).foldl fun hz => .ite hz.hostViolation hz))

theorem State.canonical.hostTransfer {m : HostMove} (h : s.canonical) : (s.hostTransfer m).canonical := .ite h.holdRequest h.hostMove

theorem execHostDmaComplete_canonical {d : HostDone} (h : s.canonical) : endsCanonical (execHostDmaComplete d s) :=
  have moved : (d.moves.foldl State.hostTransfer s).canonical := h.foldl .hostTransfer
  .next (.ite moved.event moved)

theorem execNvmeAttach_canonical {hd : MboxHdr} {a : NvmeArgs} (h : s.canonical) : endsCanonical (execNvmeAttach hd a s) :=
  .next (h.mbox fun hu => .ite hu hu)

theorem execNvmeDetach_canonical {hd : MboxHdr} {qp : Half} (h : s.canonical) : endsCanonical (execNvmeDetach hd qp s) :=
  .next (h.mbox fun hu => .ite hu hu)

theorem execNotifyRing_canonical {hd : MboxHdr} {q : BitVec 4} {b : BitVec 64} {n : Nat} (h : s.canonical) :
    endsCanonical (execNotifyRing hd q b n s) :=
  .next (h.mbox fun hu => .ite hu (State.canonical.foldl (hu.withSvc hu.buffers_wf hu.cpBuf_wf) .hold))

/-! ## Checkpoints -/

theorem State.canonical.beginCkpt {tg : Target} {hd : Option MboxHdr} (h : s.canonical) : (s.beginCkpt tg hd).canonical :=
  .ite (h.withSvc h.buffers_wf h.cpBuf_wf) (.propose (h.withSvc h.buffers_wf h.cpBuf_wf))

theorem State.canonical.nextCkpt (h : s.canonical) : s.nextCkpt.canonical := by
  unfold State.nextCkpt
  split
  · exact h
  · exact h
  · exact .beginCkpt (h.withSvc h.buffers_wf h.cpBuf_wf)

theorem execCheckpoint_canonical {hd : MboxHdr} {tg : Target} (h : s.canonical) : endsCanonical (execCheckpoint hd tg s) :=
  .next (h.mbox fun hu => .ite hu.beginCkpt hu)

theorem execCheckpointInterval_canonical {tg : Target} (h : s.canonical) : endsCanonical (execCheckpointInterval tg s) :=
  .next (.ite (.beginCkpt (h.withSvc h.buffers_wf h.cpBuf_wf)) h)

theorem execSetInterval_canonical {hd : MboxHdr} {w : Word} (h : s.canonical) : endsCanonical (execSetInterval hd w s) :=
  .next (h.mbox fun hu => .ite hu hu)

theorem State.canonical.abandonCkpt {code : Half} (h : s.canonical) : (s.abandonCkpt code).canonical := by
  unfold State.abandonCkpt
  split
  · exact h
  · exact .shutdownOn (.nextCkpt (.finishOpt (h.withSvc h.buffers_wf h.cpBuf_wf)))

theorem State.canonical.chunkBytes {c : Ckpt} {i : Nat} (h : s.canonical) : (s.chunkBytes c i).2.canonical := h.serviceRead

theorem State.canonical.checkpointChunk {b : Bool} (h : s.canonical) : (s.checkpointChunk b).canonical := by
  unfold State.checkpointChunk
  split
  · exact h
  · refine .ite (.ite (.beginCkpt (h.withSvc h.buffers_wf h.cpBuf_wf)) h) (.ite h (.ite h.abandonCkpt (.ite h.abandonCkpt ?_)))
    exact .store (h.chunkBytes.withSvc h.chunkBytes.buffers_wf h.chunkBytes.cpBuf_wf)

theorem State.canonical.publishBytes {c : Ckpt} (h : s.canonical) : (s.publishBytes c).2.canonical :=
  List.foldlRecOn (motive := fun r : List Byte × State => r.2.canonical) _ _ h fun _ hr _ _ => hr.serviceRead

theorem State.canonical.publishNow {c : Ckpt} (h : s.canonical) : (s.publishNow c).canonical := by
  unfold State.publishNow
  split
  · exact h
  · have copied : ∀ {tg off u f bs}, ((s.publishBytes c).2.store tg off u f bs).canonical := h.publishBytes.store
    exact .ite (.finish (h.withSvc h.buffers_wf h.cpBuf_wf))
      (.ite copied (.finish (copied.withSvc copied.buffers_wf copied.cpBuf_wf)))

theorem State.canonical.sealNow (h : s.canonical) : s.sealNow.canonical := by
  unfold State.sealNow
  split
  · split
    · lift_lets
      extract_lets s₁ step _ s₂ s₃ s₄ s₅
      have h₁ : s₁.canonical := h.vector.publishNow
      have h₂ : s₂.canonical := h₁.withSvc h₁.buffers_wf h₁.cpBuf_wf
      have h₄ : s₄.canonical := .armCores (.setGreg (.setGreg h₂))
      have h₅ : s₅.canonical := .ite h₄.propose h₄
      exact h₅.finishOpt.nextCkpt.shutdownOn
    · exact h
  · exact h

theorem State.canonical.countClips {l : List (Nat × Nat)} (h : s.canonical) : (s.countClips l).canonical := h.bumpG

theorem State.canonical.signNow (h : s.canonical) : s.signNow.canonical := by
  unfold State.signNow
  split
  · split
    · lift_lets
      extract_lets n _ s₁ s₂
      have h₁ : s₁.canonical := h.withSvc h.buffers_wf h.cpBuf_wf
      have h₂ : s₂.canonical := .store h₁
      exact .ite h (.ite h.sealNow (.ite h₂ h₂.sealNow))
    · exact h
  · exact h

theorem State.canonical.checkpointSeal (h : s.canonical) : s.checkpointSeal.canonical := by
  unfold State.checkpointSeal
  split
  · exact h
  · lift_lets
    extract_lets s₁ body m _ s₂
    have h₁ : s₁.canonical := State.canonical.countClips (s := s.tick1) h
    have h₂ : s₂.canonical := h₁.withSvc h₁.buffers_wf h₁.cpBuf_wf
    exact .ite h (.ite (.abandonCkpt h.tick1) (.ite h.abandonCkpt h₂.store.signNow))

theorem execPublish_canonical {hd : MboxHdr} {tg : Target} (h : s.canonical) : endsCanonical (execPublish hd tg s) :=
  .next (h.mbox fun hu => .ite hu hu)

/-! ## NVMe outcomes -/

theorem State.canonical.useFailed {u : NvmeUse} (h : s.canonical) : (s.useFailed u).canonical := by
  delta State.useFailed
  cases u with
  | ingest id =>
    dsimp only
    split
    · exact h.setStream
    · exact h
  | publish =>
    dsimp only
    split
    · exact .finish (h.withSvc h.buffers_wf h.cpBuf_wf)
    · exact h
  | checkpoint | manifest => exact h.abandonCkpt

theorem State.canonical.useDone {u : NvmeUse} (h : s.canonical) : (s.useDone u).canonical := by
  cases u with
  | ingest id =>
    simp only [State.useDone]
    split
    · exact h.wantRead
    · exact h
  | manifest => exact h.signNow
  | publish =>
    simp only [State.useDone]
    split
    · exact .ite h (.finish (h.withSvc h.buffers_wf h.cpBuf_wf))
    · exact h
  | checkpoint => exact h

theorem State.canonical.nvmeFail {c : NvmeCmd} {n : Nat} (h : s.canonical) : (s.nvmeFail c n).canonical :=
  .ite (.submit (h.withSvc h.buffers_wf h.cpBuf_wf)) (.useFailed (.logEvent (.setGreg (h.withSvc h.buffers_wf h.cpBuf_wf))))

theorem State.canonical.nvmeDone {c : NvmeCmd} (h : s.canonical) : (s.nvmeDone c).canonical := by
  unfold State.nvmeDone
  extract_lets _ s₁ s₂
  have h₁ : s₁.canonical := h.withSvc h.buffers_wf h.cpBuf_wf
  have h₂ : s₂.canonical := .ite h₁.event h₁
  exact h₂.useDone

theorem execNvmeCompletion_canonical {qp cid : Half} {st : BitVec 15} (h : s.canonical) :
    endsCanonical (execNvmeCompletion qp cid st s) := by
  refine .next ?_
  split
  · exact h
  · exact .ite h.nvmeDone h.nvmeFail

theorem execNvmeTimeout_canonical {qp cid : Half} (h : s.canonical) : endsCanonical (execNvmeTimeout qp cid s) := by
  refine .next ?_
  split
  · exact h
  · exact .ite (.nvmeFail h.tick1) h

/-! ## RESTORE -/

theorem Core.canonical.setShadow {a : Nat} {w : Word} (h : x.canonical) : (x.setShadow a w).canonical :=
  ⟨h.mem_wf, h.regs_wf, Sparse.wf_set a w h.shadow_wf⟩

theorem State.canonical.spoilPlate (h : s.canonical) : s.spoilPlate.canonical := by
  unfold State.spoilPlate
  extract_lets s₁ n s₂ _
  have h₂ : s₂.canonical := State.canonical.hbmWrite (s := s₁) h
  exact h₂.withSvc h₂.buffers_wf h₂.cpBuf_wf

theorem Core.canonical.restoreFrom {m rec_ table : List Byte} (h : x.canonical) : (x.restoreFrom m rec_ table).canonical := by
  unfold Core.restoreFrom
  extract_lets n x₁ x₂ x₃ x₄ x₅ x₆ x₇ x₈ x₉
  have h₁ : x₁.canonical := h
  have h₃ : x₃.canonical := .foldl (.setReg (.setReg h₁)) .setReg
  have h₅ : x₅.canonical := .setReg (.setReg (.setRf (.setRf (.setReg h₃))))
  have h₇ : x₇.canonical := .foldl (.foldl h₅ fun hz => hz.setReg.setShadow) fun hz => hz.setRf.setRf
  have h₉ : x₉.canonical := .foldl (.foldl h₇ .setReg) .setReg
  exact .ite h₉.store h₉

theorem State.canonical.restoreInto {m body : List Byte} (h : s.canonical) : (s.restoreInto m body).canonical := by
  unfold State.restoreInto
  extract_lets len s₁ cur id _ s₂ s₃ _ s₄
  have h₁ : s₁.canonical := h.mapCores .restoreFrom
  have h₂ : s₂.canonical := h₁.withSvc h₁.buffers_wf h₁.cpBuf_wf
  have h₃ : s₃.canonical := by
    simp only [s₃]
    split
    · exact h₂.wantRead
    · exact h₂
  have h₄ : s₄.canonical := .setGf h₃.withShutter
  exact h₄.setGreg.setGreg

theorem State.canonical.slackAgain (h : s.canonical) : s.slackAgain.canonical := by
  unfold State.slackAgain
  split
  · exact h
  · exact .ite h (.setGf h.withImage)

theorem State.canonical.restoreLate {r : RestoreArgs} (h : s.canonical) : (s.restoreLate r).canonical := by
  unfold State.restoreLate
  split
  · exact h.spoilPlate
  · lift_lets
    extract_lets s₁ s₂
    have h₂ : s₂.canonical := h.hbmWrite.countClips
    refine .ite h.spoilPlate (.ite h.spoilPlate ?_)
    split
    · exact h₂.spoilPlate
    · exact h₂.restoreInto.slackAgain

theorem execRestore_canonical {hd : MboxHdr} {r : RestoreArgs} (h : s.canonical) : endsCanonical (execRestore hd r s) := by
  refine .next (h.mbox fun {u} hu => .ite hu ?_)
  split
  · exact hu
  · exact hu.tick1
  · exact State.canonical.restoreLate (s := u.tick1) hu

end Sys2Proof.Machine
end

section
/-! SUPPORT. What keeps every memory and register map in canonical form, of the sequencer and the engines (R12, R42, R64, R224–R247):
the issue of an instruction, each engine's instructions, a core's DMA, and the completions. -/

namespace Sys2Proof.Machine

variable {x y : Core} {k : Ctx} {s t : State} {a : At}

/-! ## The sequencer -/

theorem Core.canonical.withSeq {q : Seq} (h : x.canonical) : ({ x with seq := q } : Core).canonical := h

theorem Core.canonical.arrive {b : BitVec 13} {slot : Nat} (h : x.canonical) : (x.arrive k b slot).canonical := .ite h h.setRf

theorem Core.canonical.reopen {b : BitVec 13} {slot : Nat} (h : x.canonical) : (x.reopen b slot).canonical := .ite (.setRf h) h

theorem Core.canonical.crowd {ps : List PortUse} (h : x.canonical) : (x.crowd ps).canonical := h

theorem Core.canonical.joinPorts {i : Instr} {n : Nat} (h : x.canonical) : (x.joinPorts i n).canonical := by
  unfold Core.joinPorts
  split
  · extract_lets q
    split
    · exact h
    · exact h
  · exact h

theorem Core.canonical.endFrame (h : x.canonical) : (x.endFrame k).canonical := .checkRetire h

theorem Core.canonical.sqBusy {n : Nat} (h : x.canonical) : (x.sqBusy n).canonical := h

theorem Core.canonical.loop {lc : BitVec 2} {lenm1 : BitVec 9} {all active : Nat} (h : x.canonical) :
    (x.loop a lc lenm1 all active).canonical := .ite h h

theorem Core.canonical.loopR {lc : BitVec 2} {lenm1 : BitVec 9} {rs rm : BitVec 5} (h : x.canonical) :
    (x.loopR k a lc lenm1 rs rm).canonical := .loop (.ite h.raise.bump h)

theorem Core.canonical.waitX {ec : BitVec 4} {n : Word} (h : x.canonical) : (x.waitX k a ec n).canonical :=
  .ite h (.ite h (.ite h.setReg (.withSeq h.setRf.setRf)))

theorem Core.canonical.waitRelease (h : x.canonical) : (x.waitRelease k).canonical := by
  unfold Core.waitRelease
  split
  · exact h
  · exact .ite h.setReg.setRf h

theorem Core.canonical.commitCarry (h : x.canonical) : (x.commitCarry a).canonical := .ite h h.setRf

theorem Core.canonical.stop {code : Half} (h : x.canonical) : (x.stop a code).canonical :=
  .ite h (.askStop (.ite h.raise h.raise.setReg))

theorem Core.canonical.post {q : BitVec 4} {rs : BitVec 5} (h : x.canonical) : (x.post k a q rs).canonical := .ite h h.setFrame

theorem Core.canonical.carry {n : BitVec 3} {rs : BitVec 5} (h : x.canonical) : (x.carry k a n rs).canonical :=
  .ite h (.ite h.setRf h.setShadow)

theorem Core.canonical.result {d : SeqDst} {v : Word} {lat : Nat} (h : x.canonical) : (x.result k d v lat).canonical := h

theorem Core.canonical.setOverride {ch : BitVec 2} {sel : Bool} {rs : BitVec 5} (h : x.canonical) :
    (x.setOverride k a ch sel rs).canonical := .ite h h.result

theorem Core.canonical.stalled {n : Nat} (h : x.canonical) : (x.stalled n).canonical := h

theorem Core.canonical.useCache {o : SqOc} {dst : Option (BitVec 5)} {v : Word} {miss : Bool} (h : x.canonical) :
    (x.useCache k a o dst v miss).canonical := .ite h (.ite (.takeWord h) h)

theorem Core.canonical.cacheBusy {ve : Bool} (h : x.canonical) : (x.cacheBusy k a ve).canonical := h

theorem Core.canonical.scalar {rd : BitVec 5} {v : Word} {lat : Nat} (h : x.canonical) : (x.scalar k a rd v lat).canonical := .ite h h

theorem Core.canonical.predicate {pd : BitVec 3} {v : Bool} (h : x.canonical) : (x.predicate k a pd v).canonical := .ite h h

/-! ## The issue of an engine's operation

What an operation reads shapes what it will do and not the state at its issue: its reads stand under names (`readE_named`), so that no
proof below evaluates one. -/

theorem Core.readE_named : ∃ rd, Core.readE = rd := ⟨_, rfl⟩

theorem filterAll_named : ∃ fa, filterAll = fa := ⟨_, rfl⟩


theorem Core.canonical.issue {u : EngUnit} {lat interval tokens : Nat} {op : PendingOp} (h : x.canonical) :
    (x.issue k a u lat interval tokens op).canonical := .showBusy h

theorem Core.canonical.engRange {u : EngUnit} {b : BitVec 13} (h : x.canonical) : (x.engRange u b).canonical := h.raise.abort

theorem Core.canonical.setArray {p : Product} {id due : Nat} (h : x.canonical) : (x.setArray p id due).canonical := .showArray h

theorem Core.canonical.doubleClaim {u n : Nat} {b owner : BitVec 13} (h : x.canonical) : (x.doubleClaim u n b owner).canonical :=
  .abort (.ite h.raise h.raise.setReg)

theorem Core.canonical.claim {l : List Nat} {id : Nat} {b : BitVec 13} (h : x.canonical) : (x.claim l id b).canonical := .showOwners h

theorem Core.canonical.setType {l : List Nat} {int : Bool} (h : x.canonical) : (x.setType l int).canonical := h.setRf

theorem Core.canonical.clearTileFlags {l : List Nat} (h : x.canonical) : (x.clearTileFlags l).canonical := h.setReg.setRf

theorem Core.canonical.clampCount {u : EngUnit} {n max : Nat} (h : x.canonical) : (x.clampCount u n max).1.canonical := by
  unfold Core.clampCount
  split
  · exact h.raise
  · exact h

/-! ## The tile engine -/

theorem Core.canonical.tload {o : TLoadOp} (h : x.canonical) : (x.tload k a o).canonical := by
  unfold Core.tload
  exact .ite h.issue (.ite h.engRange.issue h.issue)

theorem Core.canonical.product {p : Product} (h : x.canonical) : (x.product k a p).canonical := by
  unfold Core.product
  refine .ite h.issue.setArray ?_
  dsimp only
  split
  · exact h.doubleClaim
  · have claimed : ∀ {te id}, (if x.te.loaded then { x.claim p.tiles id a.bundle with te := te } else x.claim p.tiles id a.bundle).canonical :=
      .ite h.claim h.claim
    exact .ite claimed.release.raise.abort (.ite claimed.release.engRange.issue.setArray
      (.setFrame (.bump (.setArray (.issue (.ite claimed.setType claimed.setType.clearTileFlags))))))

theorem Core.canonical.tprint {o : TPrintOp} (h : x.canonical) : (x.tprint k a o).canonical := by
  unfold Core.tprint
  obtain ⟨rd, hrd⟩ := Core.readE_named
  rw [hrd]
  refine .ite h.issue ?_
  split
  · exact h.doubleClaim
  · exact .ite h.claim.release.engRange.issue h.claim.issue

/-! ## The vector engines -/

theorem Core.canonical.veIssue {ve : Bool} {lat interval : Nat} {op : PendingOp} (h : x.canonical) :
    (x.veIssue k a ve lat interval op).canonical := h.issue

theorem Core.canonical.vArith {o : VaOp} {f : LaneFn} {lat arity : Nat} (h : x.canonical) : (x.vArith k a o f lat arity).canonical :=
  .ite h.veIssue h.veIssue

theorem Core.canonical.vMov {o : VaOp} (h : x.canonical) : (x.vMov k a o).canonical := .ite h.veIssue h.veIssue

theorem Core.canonical.holdDivide {ve : Bool} (h : x.canonical) : (x.holdDivide k ve).canonical := h

theorem Core.canonical.vCmp {o : VcmpOp} (h : x.canonical) : (x.vCmp k a o).canonical := .ite h.veIssue h.veIssue

theorem Core.canonical.vMask {ve : Bool} {md : BitVec 3} {v : BitVec 64} (h : x.canonical) : (x.vMask k a ve md v).canonical := h.veIssue

theorem Core.canonical.vSpl {ve mz : Bool} {msk : BitVec 3} {rs : BitVec 5} {vd : BitVec 9} (h : x.canonical) :
    (x.vSpl k a ve msk mz rs vd).canonical := .ite h.veIssue h.veIssue

theorem Core.canonical.vScl {ve : Bool} {v : ConvCtl} (h : x.canonical) : (x.vScl k a ve v).canonical := h.veIssue

theorem Core.canonical.vCvtW {o : VcvOp} (h : x.canonical) : (x.vCvtW k a o).canonical := .ite h.veIssue h.veIssue

theorem Core.canonical.vCvtN {o : VcvOp} (h : x.canonical) : (x.vCvtN k a o).canonical :=
  .ite h.veIssue (.ite h.veIssue h.veIssue)

theorem Core.canonical.holdBanks {ve : Bool} {l : List Nat} (h : x.canonical) : (x.holdBanks k ve l).canonical := h

theorem Core.canonical.vAcc {o : VaccOp} (h : x.canonical) : (x.vAcc k a o).canonical :=
  .ite h.veIssue.holdBanks (.ite h.engRange.veIssue.holdBanks h.veIssue.holdBanks)

theorem Core.canonical.vRed {o : VrOp} (h : x.canonical) : (x.vRed k a o).canonical := .ite h.veIssue h.veIssue

theorem Core.canonical.vRax {o : VrOp} (h : x.canonical) : (x.vRax k a o).canonical := .ite h.veIssue h.veIssue

theorem Core.canonical.vBlock {o : VbOp} {load : Bool} (h : x.canonical) : (x.vBlock k a o load).canonical := by
  unfold Core.vBlock
  obtain ⟨rd, hrd⟩ := Core.readE_named
  rw [hrd]
  exact .ite h.veIssue (.ite h.engRange.veIssue (.ite h.veIssue h.veIssue))

theorem Core.canonical.vVector {o : VvOp} {load : Bool} (h : x.canonical) : (x.vVector k a o load).canonical :=
  .ite h.veIssue (.ite h.engRange.veIssue (.ite h.veIssue h.veIssue))

/-! ## The transfer engine -/

theorem Core.canonical.xeIssue {n : Nat} {op : PendingOp} (h : x.canonical) : (x.xeIssue k a n op).canonical := h.issue

theorem Core.canonical.xeAdd {d : XDesc} {l : List Nat} {src idx : Nat} (h : x.canonical) : (x.xeAdd k a d l src idx).canonical :=
  h.xeIssue

theorem Core.canonical.xeMove {n : Nat} {d : XDesc} {src dst idx : Nat} (h : x.canonical) : (x.xeMove k a n d src dst idx).canonical :=
  h.xeIssue

theorem Core.canonical.xrun {o : XrunOp} {op : Nat} (h : x.canonical) : (x.xrun k a o op).canonical := by
  unfold Core.xrun
  extract_lets n d
  refine .ite h (.ite h.xeIssue ?_)
  split
  · exact h.doubleClaim
  · have hc : ∀ {l}, (if op = 4 then x.claim l x.nextId a.bundle else x).canonical := .ite h.claim h
    exact .ite (.xeIssue (.engRange (.ite hc.release hc))) (.ite hc.setType.setRf.xeAdd hc.setRf.xeMove)

/-! ## The update engine -/

theorem Core.canonical.ueIssue {lat : Nat} {op : PendingOp} (h : x.canonical) : (x.ueIssue k a lat op).canonical := h.issue

theorem Core.canonical.ueRefused {lat d fs : Nat} {code : Half} (h : x.canonical) : (x.ueRefused k a lat d fs code).canonical :=
  h.apply.raise.abort.ueIssue

theorem Core.canonical.ueOp {code : Nat} (h : x.canonical) : (x.ueOp a code).canonical := .ite h h.setRf

theorem Core.canonical.ueRange {lat d fs : Nat} (h : x.canonical) : (x.ueRange k a lat d fs).canonical := h.apply.engRange.ueIssue

theorem Core.canonical.uupd {d : BitVec 4} {pass : BitVec 3} (h : x.canonical) : (x.uupd k a d pass).canonical := by
  unfold Core.uupd
  extract_lets
  split
  · exact .ite h.ueIssue h.ueOp.ueRefused
  · exact .ite h.ueIssue (.ite h.ueOp.ueRefused (.ite h.ueRange h.ueOp.ueIssue))

theorem Core.canonical.urow {d : BitVec 4} {rj : BitVec 5} {n : BitVec 12} (h : x.canonical) : (x.urow k a d rj n).canonical := by
  unfold Core.urow
  extract_lets
  split
  · exact .ite h.ueIssue h.ueOp.ueRefused
  · exact .ite h.ueIssue (.ite h.ueOp.ueRefused (.ite h.ueRange h.ueOp.ueIssue))

theorem Core.canonical.ugfac {f : BitVec 4} {bank : BitVec 3} {ra : BitVec 5} {ofs : BitVec 12} (h : x.canonical) :
    (x.ugfac k a f bank ra ofs).canonical := by
  unfold Core.ugfac
  obtain ⟨rd, hrd⟩ := Core.readE_named
  rw [hrd]
  exact .ite h.ueIssue (.ite h.ueRange (.ite h.ueOp.ueIssue h.ueOp.ueIssue))

theorem Core.canonical.ufilt {d : BitVec 4} {bank : BitVec 3} {ra rb rn nmx : BitVec 5} (h : x.canonical) :
    (x.ufilt k a d bank ra rb rn nmx).canonical := by
  unfold Core.ufilt
  obtain ⟨⟨rd, hrd⟩, fa, hfa⟩ := And.intro Core.readE_named filterAll_named
  rw [hrd, hfa]
  exact .ite h.ueIssue (.ite h.ueRange h.clampCount.ueOp.ueIssue)

theorem Core.canonical.uflist {d : BitVec 4} {bank : BitVec 3} {ra : BitVec 5} (h : x.canonical) : (x.uflist k a d bank ra).canonical :=
  .ite h.ueIssue (.ite h.ueRange h.ueOp.ueIssue)

theorem Core.canonical.uadv (h : x.canonical) : (x.uadv k a).canonical := .ueIssue (.ite h.ueOp h.ueOp.setRf)

/-! ## The mask engine -/

theorem Core.canonical.meIssue {lat : Nat} {op : PendingOp} (h : x.canonical) : (x.meIssue k a lat op).canonical := h.issue

theorem Core.canonical.meOp {code : Nat} (h : x.canonical) : (x.meOp a code).canonical := .ite h (.setFrame h.setRf)

theorem Core.canonical.meRange {lat d slot : Nat} (h : x.canonical) : (x.meRange k a lat d slot).canonical := h.apply.engRange.meIssue

theorem Core.canonical.meEdit {o : MEditOp} {code : Nat} {dodge burn : Bool} (h : x.canonical) :
    (x.meEdit k a o code dodge burn).canonical := by
  unfold Core.meEdit
  refine .ite h.meIssue ?_
  dsimp only
  split
  · exact h.meOp.meIssue
  · exact h.meOp.meIssue

theorem Core.canonical.mscore {o : MScoreOp} (h : x.canonical) : (x.mscore k a o).canonical :=
  .ite h.meIssue (.ite h.meRange h.meOp.meIssue)

theorem Core.canonical.msload {o : MSheetOp} (h : x.canonical) : (x.msload k a o).canonical := by
  unfold Core.msload
  obtain ⟨rd, hrd⟩ := Core.readE_named
  rw [hrd]
  exact .ite h.meIssue (.ite h.meRange h.meOp.meIssue)

theorem Core.canonical.msstore {o : MSheetOp} (h : x.canonical) : (x.msstore k a o).canonical :=
  .ite h.meIssue (.ite h.meRange h.meOp.meIssue)

theorem Core.canonical.mremap {d : BitVec 5} {old : BitVec 6} (h : x.canonical) : (x.mremap k a d old).canonical :=
  .ite h.meIssue h.meOp.meIssue

theorem Core.canonical.ppred {o : PPredOp} (h : x.canonical) : (x.ppred k a o).canonical := by
  unfold Core.ppred
  obtain ⟨rd, hrd⟩ := Core.readE_named
  rw [hrd]
  have named : ∀ {l}, ({ x with rowSets := l } : Core).canonical := h
  exact .ite named.meIssue (.ite h.meRange named.clampCount.meOp.meIssue)

theorem Core.canonical.pctl {j : BitVec 4} {en : Bool} (h : x.canonical) : (x.pctl k a j en).canonical :=
  .meIssue (.ite h.meOp h.meOp.setFrame)

end Sys2Proof.Machine
end

section
/-! SUPPORT. What keeps every memory and register map in canonical form, of an instruction's issue and completion and of a transfer's
start and completion (R12, R27, R226, R237, R251, R259, R370). -/

namespace Sys2Proof.Machine

variable {x y : Core} {k : Ctx} {s t : State} {a : At}

theorem State.canonical.perform {at_ : Site} {i : Instr} {n : Nat} {g : Ctx → At → State → State} (h : s.canonical)
    (hg : ∀ {k a u}, u.canonical → (g k a u).canonical) : (s.perform at_ i n g).canonical := by
  unfold State.perform
  extract_lets s₁ _ k slot x y s₂ z w
  have h₁ : s₁.canonical := h.atCycle.tick1
  have h₂ : s₂.canonical := hg (h₁.setCore (h₁.core _).reopen.arrive)
  have hz : z.canonical := .joinPorts (h₂.core _)
  have hw : w.canonical := .ite hz.checkRetire hz
  exact .meter (.drainReports (h₂.setCore hw))

theorem State.canonical.issueWith {at_ : Site} {i : Instr} {g : Ctx → At → State → State} (h : s.canonical)
    (hg : ∀ {k a u}, u.canonical → (g k a u).canonical) : (s.issueWith at_ i g).canonical := by
  unfold State.issueWith
  split
  · exact h
  · exact .ite h.settle (.ite (h.settle.perform hg) (h.settle.onCoreAt .fetchTrap))

theorem State.canonical.issue {at_ : Site} {i : Instr} {f : Ctx → Core → At → Core} (h : s.canonical)
    (hf : ∀ {k x a}, x.canonical → (f k x a).canonical) : (s.issue at_ i f).canonical :=
  h.issueWith fun hu => hu.setCore (hf (hu.core _))

theorem State.canonical.issueSq {at_ : Site} {i : Instr} {lat : Ctx → Nat} {f : Ctx → Core → At → Core} (h : s.canonical)
    (hf : ∀ {k x a}, x.canonical → (f k x a).canonical) : (s.issueSq at_ i lat f).canonical :=
  h.issue fun hx => hf hx.sqBusy

/-! ## A transfer -/

theorem State.canonical.disturbBy {own : CoreId} {rows : List DmaRow} (h : s.canonical) : (s.disturbBy own rows).canonical :=
  h.foldl fun {u r} hu => by
    split
    · exact hu.setCore (hu.core _)
    · exact hu.setCore (hu.core _)
    · exact hu

theorem Core.canonical.showDma {ch : Nat} (h : x.canonical) : (x.showDma ch).canonical := h.setRf.setRf

theorem State.canonical.startDma {at_ : At} {ch : BitVec 2} {d : BitVec 12} {use miss : Bool} (h : s.canonical) :
    (s.startDma k at_ ch d use miss).canonical := by
  unfold State.startDma
  extract_lets c x i line bad raw d halted ovl ovr range quiet places reads clipped code op old x₁ x₂ x₃ s₁
  have h₁ : x₁.canonical := .showDma (h.core c)
  have h₂ : x₂.canonical := .ite h₁.setRf.missFrame h₁
  have h₃ : x₃.canonical := .ite h₂.abort h₂
  have hs : s₁.canonical := .drainReports (.disturbBy (h.setCore h₃))
  exact .ite hs.bumpG hs

theorem Core.canonical.setFate {ch : Nat} {f : Fate} (h : x.canonical) : (x.setFate ch f).canonical := by
  unfold Core.setFate
  extract_lets q
  split
  · exact h
  · exact h

theorem execDmaComplete_canonical {c : CoreId} {ch : BitVec 2} {f : Fate} (h : s.canonical) :
    endsCanonical (execDmaComplete c ch f s) := by
  refine .next ?_
  split
  · exact h
  · exact .settle (h.setCore (h.core c).setFate)

/-! ## Completions -/

theorem execWaitxRelease_canonical {c : CoreId} (h : s.canonical) : endsCanonical (execWaitxRelease c s) :=
  .next (h.settle.onCore .waitRelease)

theorem execCrcIfetchTrap_canonical {c : CoreId} {b : BitVec 13} (h : s.canonical) : endsCanonical (execCrcIfetchTrap c b s) := by
  refine .next ?_
  split
  · exact h
  · exact .ite (h.settle.onCoreAt .fetchTrap) h.settle

theorem execInstructionComplete_canonical {c : CoreId} {u : EngUnit} {f : Fate} (h : s.canonical) :
    endsCanonical (execInstructionComplete c u f s) := by
  refine .next ?_
  split
  · exact h
  · exact .settle (h.setCore (h.core c))

end Sys2Proof.Machine
end

section
/-! SUPPORT. What keeps every memory and register map in canonical form, of the collective engine's messages and completions
(R324, R327, R333–R335). -/

namespace Sys2Proof.Machine

variable {s t : State}

theorem State.canonical.sendIn {e d : Word} {m : List Byte} (h : s.canonical) : (s.sendIn e d m).canonical := by
  unfold State.sendIn
  split
  · exact h.sendMessage
  · exact h

theorem State.canonical.relay {m : List Byte} (h : s.canonical) : (s.relay m).canonical := h.sendIn

theorem State.canonical.engineMsg {p : BitVec 4} {m : List Byte} {f : State → State} (h : s.canonical)
    (hf : ∀ {u}, u.canonical → (f u).canonical) : (s.engineMsg p m f).canonical :=
  h.takeMsg fun hu => .ite hu.relay (.ite hu.rosterSkew (hf hu))

theorem execStartRecord_canonical {r : StartRecord} {bad : Bool} (h : s.canonical) : endsCanonical (execStartRecord r bad s) :=
  .next h.takeStartRecord

theorem execCdata_canonical {p : BitVec 4} {m : List Byte} (h : s.canonical) : endsCanonical (execCdata p m s) :=
  .next (h.engineMsg .takeCdata)

theorem State.canonical.serveShard {m : List Byte} {bad : Bool} (h : s.canonical) : (s.serveShard m bad).canonical := by
  unfold State.serveShard
  extract_lets -underBinder hd b own step _ head
  split
  · exact h.sendIn
  · exact .ite h.sendIn (.sendIn h.serviceRead)

theorem execGreq_canonical {p : BitVec 4} {m : List Byte} {bad : Bool} (h : s.canonical) : endsCanonical (execGreq p m bad s) :=
  .next (h.engineMsg .serveShard)

theorem State.canonical.takeShard {p : Nat} {m : List Byte} (h : s.canonical) : (s.takeShard p m).canonical := by
  have given : ∀ {u : State} {i r}, u.canonical → (u.setRun i r).signalReady.canonical := fun hu => .signalReady hu.setRun
  unfold State.takeShard
  extract_lets -underBinder hd
  split
  · exact h.windowDrop
  · refine .ite ?_ (.ite h.windowDrop ?_)
    · split
      · exact given h
      · exact h
    · extract_lets s₁
      have h₁ : s₁.canonical := h.hbmWrite
      split
      · exact given h₁
      · exact h₁

theorem execGdata_canonical {p : BitVec 4} {m : List Byte} (h : s.canonical) : endsCanonical (execGdata p m s) :=
  .next (h.engineMsg .takeShard)

theorem State.canonical.abortAll {code : Half} (h : s.canonical) : (s.abortAll code).canonical :=
  h.mapCores fun hx => .ite hx.abort.checkRetire hx

theorem State.canonical.deliver (h : s.canonical) : s.deliver.canonical := by
  unfold State.deliver
  split
  · exact h
  · split
    · exact h
    · refine .ite h ?_
      extract_lets _ s₁ s₂
      have h₂ : s₂.canonical := .signalReady (.showColl (.bumpG (.event (h.withColl (c := _)))))
      split
      · exact h₂
      · exact .abortAll (.ite (.logEvent h₂.setGf) (.setGreg (.logEvent h₂.setGf)))

theorem execCollectiveComplete_canonical (h : s.canonical) : endsCanonical (execCollectiveComplete s) := .next h.deliver

end Sys2Proof.Machine
end

section
/-! SUPPORT. What keeps every memory and register map in canonical form, of the job's and the serving commands (R346, R359–R362, R387)
and of the security commands (R411–R432). -/

namespace Sys2Proof.Machine

variable {s t : State}

/-! ## Start, stop, roster and serving -/

theorem execStart_canonical {hd : MboxHdr} {fn : BitVec 48} (h : s.canonical) : endsCanonical (execStart hd fn s) :=
  .next (h.mbox fun hu => .ite hu.tick1 (.ite hu.tick1 (.ite hu.tick1 (.ite hu.tick1.propose hu.tick1.propose))))

theorem execStop_canonical {hd : MboxHdr} (h : s.canonical) : endsCanonical (execStop hd s) :=
  .next (h.mbox fun hu => .ite hu (.stopBath (hu.withSvc hu.buffers_wf hu.cpBuf_wf)))

theorem execRosterChange_canonical {hd : MboxHdr} {l : List Byte} (h : s.canonical) : endsCanonical (execRosterChange hd l s) := by
  refine .next (h.mbox fun {u} hu => ?_)
  extract_lets r t
  have ht : t.canonical := hu.propose
  clear_value t
  split
  · exact hu
  · split
    · exact hu.logEvent
    · split
      · exact ht
      · exact ht

theorem State.canonical.openRegion {k : KvArgs} (h : s.canonical) : (s.openRegion k).canonical :=
  h.setGreg.setGreg.setGreg.setGreg.setGreg.setGreg.setGreg

theorem State.canonical.closeRegion {k : KvArgs} (h : s.canonical) : (s.closeRegion k).canonical := .foldl h .setGreg

theorem execServeOpen_canonical {hd : MboxHdr} {a : ServeArgs} (h : s.canonical) : endsCanonical (execServeOpen hd a s) := by
  refine .next (h.mbox fun {u} hu => .ite hu ?_)
  have opened : (a.regions.foldl State.openRegion u).canonical := .foldl hu .openRegion
  exact opened.withSvc hu.buffers_wf hu.cpBuf_wf

theorem execServeClose_canonical {hd : MboxHdr} (h : s.canonical) : endsCanonical (execServeClose hd s) := by
  refine .next (h.mbox fun {u} hu => ?_)
  split
  · exact hu
  · next v _ =>
    have closed : (v.args.regions.foldl State.closeRegion u).canonical := .foldl hu .closeRegion
    exact closed.withSvc hu.buffers_wf hu.cpBuf_wf

theorem execServeRequest_canonical {n : Nat} {l : List Word} (h : s.canonical) : endsCanonical (execServeRequest n l s) := by
  refine .next ?_
  split
  · exact h
  · exact .ite h (.event (h.tick1.withSvc h.buffers_wf (Memory.wf_write _ _ h.cpBuf_wf)))

theorem execKvRead_canonical {hd : MboxHdr} {r : Byte} {a b : Word} (h : s.canonical) : endsCanonical (execKvRead hd r a b s) :=
  .next (h.mbox fun hu => .ite hu (.ite hu hu.serviceRead))

theorem execHealthRead_canonical {hd : MboxHdr} (h : s.canonical) : endsCanonical (execHealthRead hd s) :=
  .next (h.mbox fun hu => .ite hu hu)

/-! ## Sessions -/

theorem State.canonical.setMr {n : Nat} {l : List Byte} (h : s.canonical) : (s.setMr n l).canonical := .foldl h .setGreg

theorem State.canonical.extendMr {n : Nat} {l : List Byte} (h : s.canonical) : (s.extendMr n l).canonical := h.setMr

theorem State.canonical.keysChanged (h : s.canonical) : s.keysChanged.canonical := h.extendMr.showSec

theorem State.canonical.challenge {n : Nat} (h : s.canonical) : (s.challenge n).1.canonical := h

theorem execSessionChallenge_canonical {hd : MboxHdr} (h : s.canonical) : endsCanonical (execSessionChallenge hd s) :=
  .next (h.mbox .challenge)

theorem State.canonical.authFailed {r : Nat} (h : s.canonical) : (s.authFailed r).canonical := .ite h h

theorem State.canonical.openSession {a b : Nat} {k : Word} {l : List Byte} (h : s.canonical) : (s.openSession a b k l).1.canonical := by
  unfold State.openSession
  split
  · exact h
  · split
    · exact h.authFailed
    · split
      · exact h
      · exact .showSec (h.tick1.withSec (x := _))

theorem execSessionOpen_canonical {hd : MboxHdr} {r : Byte} {k : Word} {l : List Byte} (h : s.canonical) :
    endsCanonical (execSessionOpen hd r k l s) := by
  refine .next (h.mbox fun {u} hu => .ite hu ?_)
  have opened : (u.openSession hd.src.toNat r.toNat k l).1.canonical := hu.openSession
  generalize u.openSession hd.src.toNat r.toNat k l = o at opened
  exact .ite opened opened.audit

theorem execSessionClose_canonical {hd : MboxHdr} (h : s.canonical) : endsCanonical (execSessionClose hd s) :=
  .next (h.mbox fun hu => .ite hu hu.audit.endSessions)

theorem execSessionIdleTimeout_canonical {w : Word} (h : s.canonical) : endsCanonical (execSessionIdleTimeout w s) :=
  .next h.endSessions

theorem execRoleLockExpiry_canonical {r : Byte} (h : s.canonical) : endsCanonical (execRoleLockExpiry r s) := .next h

/-! ## Keys and credentials -/

theorem execJobKey_canonical {hd : MboxHdr} {l : List Byte} (h : s.canonical) : endsCanonical (execJobKey hd l s) := by
  refine .next (h.mbox fun {u} hu => ?_)
  have keyed : ∀ {x}, ({ u with sec := x } : State).keysChanged.canonical := .keysChanged hu.withSec
  split
  · exact hu
  · exact .ite keyed (.ite hu keyed)

theorem State.canonical.eraseJobKeys (h : s.canonical) : s.eraseJobKeys.canonical := .keysChanged h.withSec

theorem execJobKeyClear_canonical {hd : MboxHdr} (h : s.canonical) : endsCanonical (execJobKeyClear hd s) :=
  .next (h.mbox fun hu => .ite hu hu.eraseJobKeys)

theorem execCredSet_canonical {hd : MboxHdr} {r : Byte} {l : List Byte} (h : s.canonical) : endsCanonical (execCredSet hd r l s) :=
  .next (h.mbox fun hu => .ite hu (.endSessions (.ite hu.withSec hu.withSec)))

theorem execMemberKeys_canonical {hd : MboxHdr} {l : List MemberKey} (h : s.canonical) : endsCanonical (execMemberKeys hd l s) :=
  .next (h.mbox fun hu => .ite hu (.keysChanged hu.withSec))

theorem execSignerSet_canonical {hd : MboxHdr} {i : BitVec 4} {l : List Byte} (h : s.canonical) :
    endsCanonical (execSignerSet hd i l s) :=
  .next (h.mbox fun hu => .ite hu (.ite hu.withSec (.ite hu hu.withSec)))

theorem execLifecycle_canonical {hd : MboxHdr} {n : BitVec 3} (h : s.canonical) : endsCanonical (execLifecycle hd n s) :=
  .next (h.mbox fun hu => .ite hu hu.setGf)

theorem execAuditRead_canonical {hd : MboxHdr} {f : BitVec 64} {n : Nat} {l : List Byte} (h : s.canonical) :
    endsCanonical (execAuditRead hd f n l s) :=
  .next (h.mbox fun hu => .ite hu hu.tick1)

theorem execUnitFence_canonical {hd : MboxHdr} (h : s.canonical) : endsCanonical (execUnitFence hd s) :=
  .next (h.mbox fun hu => .ite hu (.ite hu (.done (.ite hu.setHealth.stopBath hu.setHealth))))

theorem execUnitUnfence_canonical {hd : MboxHdr} (h : s.canonical) : endsCanonical (execUnitUnfence hd s) :=
  .next (h.mbox fun hu => .ite hu (.ite hu.setHealth hu))

end Sys2Proof.Machine
end

section
/-! SUPPORT. What keeps every memory and register map in canonical form, of the tests in service (R398–R408) and of power and start-up
(R341, R388, R395–R397, R414, R437–R453). -/

namespace Sys2Proof.Machine

variable {x y : Core} {k : Ctx} {s t : State}

/-! ## Slices -/

theorem State.canonical.showSlicing (h : s.canonical) : s.showSlicing.canonical := h.setGf

theorem execInServiceSlice_canonical {c : CoreId} {g : Segment} {r : SliceResult} (h : s.canonical) :
    endsCanonical (execInServiceSlice c g r s) := by
  refine .next ?_
  split
  · exact h
  · exact .showSlicing (h.atCycle.withHtu (u := _))

theorem Core.canonical.marchFail {n line : Nat} {missed : Bool} (h : x.canonical) : (x.marchFail n missed line).canonical := by
  unfold Core.marchFail
  extract_lets held z
  have hz : z.canonical := h.raiseInt.remapLine
  split
  · exact hz
  · have opened : ∀ {g}, ({ z with integ := g } : Core).canonical := hz.setInteg
    exact .ite opened.showFills (.showFills (.setSpare opened.write))

theorem Core.canonical.memorySlice {g : Segment} {r : SliceResult} (h : x.canonical) : (x.memorySlice k g r).canonical :=
  .foldl (.foldl h .miss) .marchFail

theorem State.canonical.requestNote {c : CoreId} {g : Segment} (h : s.canonical) : (s.requestNote c g).canonical := h

theorem State.canonical.segmentDone {c : CoreId} {g : Segment} (h : s.canonical) : (s.segmentDone c g).canonical := by
  unfold State.segmentDone
  extract_lets s₁
  have h₁ : s₁.canonical := h.requestNote
  exact .ite (.setGreg h₁.withHtu) (.setGf h₁.withHtu)

theorem State.canonical.sliceResult {v : Slice} (h : s.canonical) : (s.sliceResult v).canonical := by
  unfold State.sliceResult
  refine .ite (h.onCore .memorySlice) (.ite ?_ h)
  extract_lets s₁
  split
  · exact .ite h.raiseHtu.failUnit.stopBath h.raiseHtu.failUnit
  · exact h.raiseHtu.failUnit

theorem execCoverageExpired_canonical (h : s.canonical) : endsCanonical (execCoverageExpired s) := .next (.ite h.raiseHtu.setGf h)

/-! ## Tests on request -/

theorem State.canonical.testResult {code : Half} {a b : Nat} (h : s.canonical) : (s.testResult code a b).canonical := h.setGreg.setGreg

theorem State.canonical.refuseTest {code : Half} (h : s.canonical) : (s.refuseTest code).canonical := h.raiseHtu.testResult

theorem State.canonical.iteFst {β : Type} {p : Prop} [Decidable p] {a b : State × β} (ha : a.1.canonical) (hb : b.1.canonical) :
    (if p then a else b).1.canonical := by
  split <;> assumption

theorem State.canonical.testAsk {g : Word} {u : Half} {n : BitVec 2} {full : Bool} (h : s.canonical) :
    (s.testAsk g u n full).1.canonical := by
  unfold State.testAsk
  extract_lets u no
  have refused : ∀ {c}, (no c).1.canonical := h.refuseTest
  exact .iteFst refused (.iteFst refused (.iteFst refused (.ite (.stopBath (.setGf h.withHtu)) (.setGf h.withHtu))))

theorem State.canonical.testRequest {u : Half} {n : BitVec 2} {full : Bool} (h : s.canonical) : (s.testRequest u n full).canonical :=
  .ite h.testAsk h.raiseHtu

theorem execFullTestStart_canonical (h : s.canonical) : endsCanonical (execFullTestStart s) := by
  refine .next ?_
  split
  · exact h
  · exact .ite h (.setHealth h.withHtu)

theorem Memory.wf_foldl {β : Type} {f : List (Nat × Byte) → β → List (Nat × Byte)} {m : List (Nat × Byte)} (l : List β)
    (h : Memory.wf m = true) (hf : ∀ {m a}, Memory.wf m = true → Memory.wf (f m a) = true) : Memory.wf (l.foldl f m) = true :=
  List.foldlRecOn (motive := fun m => Memory.wf m = true) l f h fun _ hm _ _ => hf hm

theorem Core.canonical.withMem {m : List (Nat × Byte)} (h : x.canonical) (hm : Memory.wf m = true) :
    ({ x with mem := m } : Core).canonical := ⟨hm, h.regs_wf, h.shadow_wf⟩

theorem State.canonical.spoilMemories {u : Nat} (h : s.canonical) : (s.spoilMemories u).canonical :=
  h.mapCores fun hx => .ite (hx.withMem (Memory.wf_foldl _ hx.mem_wf (Memory.wf_setByte _ _))) hx

theorem State.canonical.testDone {r : TestReq} {e : TestResult} (h : s.canonical) : (s.testDone r e).canonical := by
  unfold State.testDone
  extract_lets _ s₁ s₂ s₃ s₄
  have h₁ : s₁.canonical := .setGf h.withHtu
  have h₂ : s₂.canonical := h₁.testResult
  have h₃ : s₃.canonical := .ite h₂.tick1.spoilMemories h₂
  have h₄ : s₄.canonical := h₃.raiseHtu.failUnit
  exact .ite (.ite h₃.setHealth h₃) (.ite h₄.stopBath h₄)

/-! ## The margin planner -/

theorem State.canonical.measured {l : List Int} (h : s.canonical) : (s.measured l).canonical := .setGf h.withHtu

theorem State.canonical.exhausted (h : s.canonical) : s.exhausted.canonical := .failUnit (.stopBath h.raiseHtu.setGf)

theorem State.canonical.planner {start : Bool} {l : List (List Int)} (h : s.canonical) : (s.planner start l).canonical := by
  induction l generalizing s with
  | nil => exact h
  | cons a l ih =>
    unfold State.planner
    extract_lets s₁ v k _ s₂
    have h₁ : s₁.canonical := h.measured
    have h₂ : s₂.canonical := .raiseHtu h₁.withHtu
    exact .ite h₁ (.ite (ih (.setGf h₁.withHtu)) (.ite (.ite (ih h₂.setGf.setFreq) h₂.withShutter) (.ite h₁.exhausted h₁)))

end Sys2Proof.Machine
end

section
/-! SUPPORT. What keeps every memory and register map in canonical form, of resets, start-up, power-off, forced classes and function
level resets (R341, R388, R395–R397, R414, R437–R453). -/

namespace Sys2Proof.Machine

variable {x y : Core} {k : Ctx} {s t : State}

/-! ## Resets -/

/-- What a reset leaves of the maps is the reset state's. -/
theorem State.canonical.kept : s.kept.canonical := by
  unfold State.kept
  extract_lets _ sec _ htu _ mgmt _ _ _ t₁ t₂
  have h₁ : t₁.canonical := State.canonical_reset
  have h₂ : t₂.canonical := .foldl h₁ .setGreg
  exact h₂.setGreg.setGreg.setGreg

theorem State.canonical.withSafelight (h : t.canonical) : (s.withSafelight t).canonical := h

theorem State.canonical.release {p : Straps} (h : s.canonical) : (s.release p).canonical :=
  .extendMr h.setGreg.setGf.setGf.setGshadow.setGshadow

theorem State.canonical.fuseIdentity (h : s.canonical) : s.fuseIdentity.canonical := .foldl h.tick1 .setGreg

theorem State.canonical.lifecycleNow (h : s.canonical) : s.lifecycleNow.canonical := by
  unfold State.lifecycleNow
  extract_lets a b s₁ _ s₂ _ s₃ s₄
  have h₁ : s₁.canonical := h.setGf
  have h₂ : s₂.canonical := .ite h₁ h₁
  have h₃ : s₃.canonical := .ite (.setGf h₂.withSec) h₂
  have h₄ : s₄.canonical := .ite h₃.fuseIdentity h₃
  exact .ite h h₄.audit

theorem State.canonical.coldStart {p : Straps} : (s.coldStart p).canonical :=
  .release (.lifecycleNow (State.canonical.kept.withPower))

theorem State.canonical.resetModule {p : Straps} : (s.resetModule p).canonical := by
  unfold State.resetModule
  extract_lets t₁ _ _ _ t₂
  have h₁ : t₁.canonical := .withSafelight .kept
  have h₂ : t₂.canonical := by
    refine ⟨fun d => ?_, h₁.2⟩
    have reset : (Core.reset.setReg 0 ((s.cores.get d).reg 0)).canonical := Core.canonical.setReg ⟨rfl, rfl, rfl⟩
    simpa [t₂, State.core] using reset
  exact h₂.release.showSec

/-! ## Start-up -/

theorem State.canonical.bootWith {f : StartFindings} {n : Nat} (h : s.canonical) : (s.bootWith f n).canonical := by
  unfold State.bootWith
  extract_lets fresh _ s₁ s₂ s₃ s₄ s₅
  have h₂ : s₂.canonical := .foldl h.withMgmt .extendMr
  have h₄ : s₄.canonical := h₂.extendMr.setGreg
  exact .ite h₄.tick1.audit h₄

theorem State.canonical.buildHealth {l : List Nat} (h : s.canonical) : (s.buildHealth l).canonical := by
  unfold State.buildHealth
  extract_lets boots gen one _ s₁
  have h₁ : s₁.canonical := h
  exact h₁.foldl fun hu => .ite hu.failUnit hu

theorem State.canonical.substitute (h : s.canonical) : s.substitute.canonical :=
  .foldl (h.mapCores .setReg) fun hu => .ite hu hu

theorem State.canonical.markSubstituted (h : s.canonical) : s.markSubstituted.canonical := h.foldl fun hu => .ite hu hu

theorem Core.canonical.takeRemap {line : Nat} (h : x.canonical) : (x.takeRemap line).canonical := by
  unfold Core.takeRemap
  split
  extract_lets used
  split
  · exact h
  · exact h

theorem State.canonical.loadRemaps (h : s.canonical) : s.loadRemaps.canonical :=
  h.mapCores fun hx => .showRemaps (.foldl hx .takeRemap)

theorem State.canonical.loadAgeing (h : s.canonical) : s.loadAgeing.canonical := by
  unfold State.loadAgeing
  split
  exact .setFreq h.setGf.setGf

theorem State.canonical.startMarker (h : s.canonical) : s.startMarker.canonical := h

theorem State.canonical.becomeReady (h : s.canonical) : s.becomeReady.canonical := by
  unfold State.becomeReady
  extract_lets v _ _ s₁
  have h₁ : s₁.canonical := h
  exact h₁.setGf.setClass.setGf

theorem State.canonical.startupTested {f : StartFindings} (h : s.canonical) : (s.startupTested f).canonical := by
  unfold State.startupTested
  extract_lets s₁ failed quick s₂ s₃ s₄ _ s₅ s₆ s₇
  have h₂ : s₂.canonical := h.loadAgeing.buildHealth
  have h₃ : s₃.canonical := .ite h₂.substitute h₂.markSubstituted
  have h₄ : s₄.canonical := h₃.loadRemaps.planner
  have h₅ : s₅.canonical := .ite h₄.withHtu h₄
  have h₇ : s₇.canonical := .ite h₅.startMarker.writeAgeing h₅.startMarker
  exact .ite h₇ h₇.becomeReady

theorem execStartupReady_canonical {f : StartFindings} (h : s.canonical) : endsCanonical (execStartupReady f s) := by
  refine .next (.ite h ?_)
  split
  · exact h.setGf
  · exact h.bootWith.startupTested

/-! ## Power-off -/

theorem State.canonical.railsOff {p : PowerPhase} {n : Nat} : (s.railsOff p n).canonical := .setGreg (State.canonical.kept.withPower)

theorem State.canonical.emergencyOff {n : Nat} {code : Half} : (s.emergencyOff n code).canonical := .railsOff

theorem execModuleReset_canonical {p : Straps} (h : s.canonical) : endsCanonical (execModuleReset p s) :=
  .next (.ite (State.canonical.resetModule.withPower) h)

theorem execRstNRelease_canonical {p : Straps} (h : s.canonical) : endsCanonical (execRstNRelease p s) :=
  .next (.ite (State.canonical.resetModule.withPower) h)

theorem execInputPowerFail_canonical (h : s.canonical) : endsCanonical (execInputPowerFail s) := .next (.ite h .emergencyOff)

theorem execInputOvervoltage_canonical (h : s.canonical) : endsCanonical (execInputOvervoltage s) :=
  .next (State.canonical.withPower (.ite h .emergencyOff))

theorem execThermalTrip_canonical (h : s.canonical) : endsCanonical (execThermalTrip s) := .next (.ite .emergencyOff h)

theorem State.canonical.pldm {r : Nat} {w : Word} {f : State → State × Half} (h : s.canonical)
    (hf : ∀ {u}, u.canonical → (f u).1.canonical) : (s.pldm r w f).canonical := by
  unfold State.pldm
  extract_lets s₁ note s₂
  have h₁ : s₁.canonical := h.tick1
  have h₂ : s₂.canonical := h₁.audit.useSession
  refine .ite h₁.audit.emit (.ite h₁.setGf.emit ?_)
  have answered : (f s₂).1.canonical := hf h₂
  exact .emit (.ite answered answered.audit)

theorem State.canonical.testVia {a : TestAsk} {n : BitVec 2} {full : Bool} (h : s.canonical) : (s.testVia a n full).canonical := by
  unfold State.testVia
  split
  · exact h.testRequest
  · exact .ite (h.pldm .testAsk) h

theorem execModulePowerOff_canonical {w : Word} (h : s.canonical) : endsCanonical (execModulePowerOff w s) :=
  .next (.ite h (h.pldm fun hu => .shutdownOn (.ite hu (.stopBath hu))))

theorem State.canonical.shutdownEnd : s.shutdownEnd.canonical := .withSafelight .railsOff

theorem State.canonical.shutdownRecord {n : Nat} {f : ShutdownFound} (h : s.canonical) : (s.shutdownRecord n f).canonical := by
  have failed : ((failedIn f).foldl (fun s u => if (s.unitHealth u).state = 4 then s else s.failUnit u 0x0702#16) s).canonical :=
    h.foldl fun hu => .ite hu hu.failUnit
  exact failed

theorem execTestDone_canonical {e : TestEnd} (h : s.canonical) : endsCanonical (execTestDone e s) := by
  refine .next ?_
  split
  · exact h.shutdownRecord
  · exact h
  · exact .ite h.testDone h

theorem execCanaryMeasurement_canonical {l : List (List Int)} (h : s.canonical) : endsCanonical (execCanaryMeasurement l s) :=
  .next (.ite h (.ite .shutdownEnd h.planner))

theorem execShutdownStageLimit_canonical (h : s.canonical) : endsCanonical (execShutdownStageLimit s) := by
  refine .next ?_
  split
  · exact State.canonical.withPower (h.withSvc h.buffers_wf h.cpBuf_wf)
  · exact h.tick1.shutdownRecord
  · exact .shutdownEnd
  · exact h

theorem execModulePowerOn_canonical (h : s.canonical) : endsCanonical (execModulePowerOn s) :=
  .next (.ite (.withSafelight .coldStart) h)

theorem execModuleResetRequest_canonical {w : Word} {p : Straps} (h : s.canonical) : endsCanonical (execModuleResetRequest w p s) :=
  .next (.ite (h.pldm fun _ => .resetModule) h)

/-! ## Forced classes and the reference clock -/

theorem State.canonical.askClass (h : s.canonical) : s.askClass.canonical := h

theorem State.canonical.forceClass (h : s.canonical) : s.forceClass.canonical := .askClass (.ite (.logEvent h.setGf.setGf) h.setGf.setGf)

theorem execInputLow_canonical (h : s.canonical) : endsCanonical (execInputLow s) := .next (.ite (.forceClass h.withPower) h)

theorem execInputRecovered_canonical (h : s.canonical) : endsCanonical (execInputRecovered s) := .next (.ite (.forceClass h.withPower) h)

theorem State.canonical.heatStep (h : s.canonical) : s.heatStep.canonical := .forceClass h.withPower

theorem execDieOverTemperature_canonical {n : BitVec 6} {d : Nat} (h : s.canonical) : endsCanonical (execDieOverTemperature n d s) :=
  .next (.ite (.ite .emergencyOff (.ite (.heatStep (.alertFor h.withPower)) h.withPower)) h)

theorem execDieTempStep_canonical (h : s.canonical) : endsCanonical (execDieTempStep s) := .next (.ite h.heatStep h)

theorem execCoolantInletHigh_canonical {d : Nat} (h : s.canonical) : endsCanonical (execCoolantInletHigh d s) :=
  .next (.ite (.ite (.forceClass (.alertFor (.withPower (h.withPower (p := _))))) h.withPower) h)

theorem execThermalForceLift_canonical (h : s.canonical) : endsCanonical (execThermalForceLift s) :=
  .next (.ite (.forceClass h.tick1.withPower) h)

theorem execRefclkLost_canonical (h : s.canonical) : endsCanonical (execRefclkLost s) :=
  .next (.ite (.stopBath (.setGf (.logEvent h.withPower))) h)

theorem execRefclkTimeout_canonical (h : s.canonical) : endsCanonical (execRefclkTimeout s) := .next (.ite .emergencyOff h)

theorem execRefclkReturn_canonical (h : s.canonical) : endsCanonical (execRefclkReturn s) := .next h.withPower

/-! ## Function level resets -/

theorem State.canonical.resetMailbox {n : Nat} (h : s.canonical) : (s.resetMailbox n).canonical :=
  .withSvc h.setGreg.setGreg (Sparse.wf_filter _ h.buffers_wf) h.cpBuf_wf

theorem State.canonical.resetFunction {n : Nat} (h : s.canonical) : (s.resetFunction n).canonical := h.withSvc h.buffers_wf h.cpBuf_wf

theorem State.canonical.flr0 (h : s.canonical) : s.flr0.canonical := by
  unfold State.flr0
  extract_lets s₁ s₂ s₃ s₄
  have h₁ : s₁.canonical := h.foldl .setGreg
  have h₂ : s₂.canonical := h₁.foldl .resetMailbox
  have h₃ : s₃.canonical := h₂.endSessions
  have h₄ : s₄.canonical := h₃.foldl .setGreg
  exact .resetFunction h₄.withSec

theorem State.canonical.flr1 (h : s.canonical) : s.flr1.canonical := h.resetMailbox.resetFunction.endSessions

theorem execPerstN_canonical (h : s.canonical) : endsCanonical (execPerstN s) := .next (.emit (.setGreg (.withPower h.flr0.flr1)))

theorem execPerstNDeassertion_canonical (h : s.canonical) : endsCanonical (execPerstNDeassertion s) :=
  .next (.ite (.setGreg h.tick1.withPower) h.tick1.withPower)

end Sys2Proof.Machine
end

section
/-! SUPPORT. What keeps every memory and register map in canonical form, of BAR0 and BAR2 (R5–R7, R62–R64, R343, R345, R347, R401,
R419). -/

namespace Sys2Proof.Machine

variable {x y : Core} {k : Ctx} {s t : State}

/-! ## Reads -/

theorem State.canonical.bar0Read {a : Nat} (h : s.canonical) : (s.bar0Read a).1.canonical := .ite h.settleAt.tick1.setGreg h.settleAt.tick1

theorem execShtFnLoRead_canonical (h : s.canonical) : endsCanonical (execShtFnLoRead s) := by
  refine .next (.ite ?_ h)
  split
  next u w hr =>
    have hu : (s.bar0Read 0x40010).1.canonical := h.bar0Read
    rw [hr] at hu
    exact hu.emit

/-! ## Writes of the global area -/

theorem State.canonical.commitWrite {b : Block} {w : Word} (h : s.canonical) : (s.commitWrite b w).canonical :=
  .ite h.commitCancel (.ite h.commitGo h)

theorem State.canonical.shadowLocked {b : Block} (h : s.canonical) : (s.shadowLocked b).canonical := h.setBlkStatus

theorem State.canonical.globPut {a : Nat} {b : RegBlk} {w : Word} (h : s.canonical) : (s.globPut a b w).canonical := by
  unfold State.globPut
  extract_lets s₁ m
  have h₁ : s₁.canonical := h.setGreg
  refine .ite h₁ ?_
  split
  · exact h₁
  · exact .ite h₁.shadowLocked h₁.setGshadow

theorem State.canonical.ringDoorbells {w : Word} (h : s.canonical) : (s.ringDoorbells w).canonical :=
  .ite h (h.foldl fun hu => .ite hu.event hu)

theorem State.canonical.writeSeg {a : Nat} {b : RegBlk} {w : Word} (h : s.canonical) : (s.writeSeg a b w).canonical := by
  unfold State.writeSeg
  extract_lets old t₁ t₂ t₃
  have h₁ : t₁.canonical := h.globPut
  have h₃ : t₃.canonical := .tick1 (.ite h₁.setGf h₁)
  refine h₃.withHbm (Memory.wf_foldl _ h₃.hbm_wf fun {m c} hm => ?_)
  split
  · exact hm
  · exact Memory.wf_setByte _ _ hm

theorem State.canonical.mboxDoorbell {n : Nat} (h : s.canonical) : (s.mboxDoorbell n).canonical :=
  .ite h.mboxBusy (.ite h (h.mbox fun hu => hu))

theorem State.canonical.writeBuffer {n o : Nat} {w : Word} (h : s.canonical) : (s.writeBuffer n o w).canonical :=
  .ite h (h.withSvc (Memory.wf_write _ _ h.buffers_wf) h.cpBuf_wf)

theorem State.canonical.globWrite {a : Nat} {w : Word} (h : s.canonical) : (s.globWrite a w).canonical := by
  unfold State.globWrite
  split
  · refine .ite h.writeBuffer (.ite h.mboxDoorbell ?_)
    split
    · exact h
    · exact h.globPut
  · split
    · exact h.writeKey
    · exact h.commitWrite
    · refine .ite h.raiseHtu (.ite h.testRequest (.ite h.ringDoorbells ?_))
      split
      · exact h
      · exact .ite h.writeSeg h.globPut

/-! ## Writes of a core's window -/

theorem Core.canonical.clearSat (h : x.canonical) : x.clearSat.canonical := h.foldl .setReg

theorem State.canonical.coreWrite {c : CoreId} {off : Nat} {w : Word} (h : s.canonical) : (s.coreWrite c off w).canonical := by
  unfold State.coreWrite
  extract_lets x
  have hx : x.canonical := h.core c
  refine .ite h.commitWrite (.ite (.ite (h.setCore hx.clearSat) h) ?_)
  split
  · exact h
  · exact .ite h (.ite (.ite (h.setCore hx.setRf) (h.setCore hx.setShadow))
      (.ite (h.setCore hx.setReg) (.ite (h.setCore hx.setReg).shadowLocked (h.setCore hx.setReg.setShadow))))

theorem State.canonical.bar0Write {a : Nat} {w : Word} (h : s.canonical) : (s.bar0Write a w).canonical := by
  unfold State.bar0Write
  refine .ite h.globWrite ?_
  split
  · exact h
  · exact .ite h (.ite h.holdRequest h.settleAt.coreWrite)

theorem State.canonical.regWrite {a : Nat} {w : Word} (h : s.canonical) : (s.regWrite a w).canonical := .ite h.bar0Write h

theorem State.canonical.pf1Write {a : Nat} {w : Word} (h : s.canonical) : (s.pf1Write a w).canonical :=
  .ite h.writeBuffer (.ite h.mboxDoorbell (.ite h.setGreg h))

theorem execRegisterWrite_canonical {a : RegAddr} {w : Word} (h : s.canonical) : endsCanonical (execRegisterWrite a w s) :=
  .ite (.ite (.next h) (.ite .fault (.next h.pf1Write))) (.ite .fault (.next h.regWrite))

/-! ## The end of a slice -/

theorem State.canonical.serveHeld {c : CoreId} {r : Held} (h : s.canonical) : (s.serveHeld c r).canonical := by
  cases r with
  | access a w =>
    cases w with
    | some w => exact h.regWrite
    | none => exact h.bar0Read.emit
  | move m => exact h.hostMove
  | refetch line bad => exact h.refetchDone

theorem execSliceEnd_canonical {c : CoreId} (h : s.canonical) : endsCanonical (execSliceEnd c s) := by
  refine .next ?_
  split
  · exact h
  · next v _ =>
    have ended : (s.sliceResult v).segmentDone c v.seg |>.canonical := h.sliceResult.segmentDone
    exact .foldl (.showSlicing ended.withHtu) .serveHeld

/-! ## BAR2 -/

theorem State.canonical.bar2Put {a : Nat} {b : Byte} (h : s.canonical) : (s.bar2Put a b).canonical := by
  unfold State.bar2Put
  split
  · exact h.hbmWrite
  · exact h.foldl .hbmWrite

theorem execBar2Access_canonical {o : BitVec 36} {l : Option (List Byte)} {n : Nat} {bad : Bool} (h : s.canonical) :
    endsCanonical (execBar2Access o l n bad s) := by
  refine .next (.ite h ?_)
  split
  · refine h.tick1.foldl fun hu => ?_
    split
    · exact hu.bar2Put
    · exact hu
  · exact .ite h.tick1.emit h.tick1.emit

end Sys2Proof.Machine
end

section
/-! SUPPORT. What keeps every memory and register map in canonical form, of the image load (R295, R296, R412) and of Safelight and
Loupe (R415–R417, R430, R431, R457, R458). -/

namespace Sys2Proof.Machine

variable {x y : Core} {k : Ctx} {s t : State}

/-! ## The load of an image -/

theorem execLoad_canonical {hd : MboxHdr} {i : ImageSource} (h : s.canonical) : endsCanonical (execLoad hd i s) := by
  refine .next (h.mbox fun {u} hu => .ite hu ?_)
  split
  · exact hu
  · exact .ite hu (.waits (.setGf (hu.withLoading (l := _))))

/-- A core with new work: its maps are as they were. -/
theorem Core.canonical.withWork {l : List SchedEntry} {r : List Region} {f : Frame} {q : Seq} {ls : List FrameStart} {w b : Nat} {e : Te}
    {fs : List (Option FactorSet)} {fl : List (BitVec 4 × Word)} {fm : List Nat} {en : List (Nat × Nat × Bool)} {n : Nat}
    (h : x.canonical) :
    ({ x with
      sched := l, regions := r, frame := f, seq := q, lateStarts := ls, workEnd := w, behind := b, te := e, factors := fs, filter := fl
      filtMax := fm, entering := en, nextId := n } : Core).canonical := h

/-- The module with another image: its maps are as they were. -/
theorem State.canonical.withNewImage {i : Option Image} {a : Bool} {n e : Nat} {b : Bool} {c : Collectives} {rf : Bool}
    {r : Option Nat} {cs : List (Nat × Nat)} {ia : Option (Word × Nat)} (h : s.canonical) :
    ({ s with
      image := i, shutter := { s.shutter with started := a, ringPos := n, stopNext := b }, coll := c
      svc := { s.svc with restoreFailed := rf, restored := r, cursors := cs, ingestAt := ia, ckptAt := e } } : State).canonical := h

theorem Core.canonical.installRegs {c : CoreImg} (h : x.canonical) : (c.installRegs x).canonical := by
  unfold CoreImg.installRegs
  extract_lets x₁ x₂
  have h₁ : x₁.canonical := h.foldl fun hz => hz.setReg.setShadow
  have h₂ : x₂.canonical := h₁.foldl .setRf
  exact .foldl h₂.setReg .setReg

theorem Core.canonical.installScale {c : CoreImg} (h : x.canonical) : (c.installScale x).canonical := by
  unfold CoreImg.installScale
  refine .foldl ?_ fun hz => hz.setLatch.setReg
  split
  · exact h.store
  · exact h

theorem Core.canonical.installMem {c : CoreImg} (h : x.canonical) : (c.installMem x).canonical := by
  unfold CoreImg.installMem
  extract_lets x₁ x₂ x₃
  have h₁ : x₁.canonical := h.store.installScale
  have h₂ : x₂.canonical := h₁.foldl fun hz => hz.store.setReg
  have h₃ : x₃.canonical := h₂.foldl .store
  exact h₃.store

theorem Core.canonical.installUe {f : ImgFile} {seed : Nat} (h : x.canonical) : (f.installUe seed x).canonical := by
  unfold ImgFile.installUe
  extract_lets g x₁ x₂ x₃ base
  have h₃ : x₃.canonical := .foldl h.setReg.setReg.setReg.setReg .setReg
  have based : ∀ {z o a}, z.canonical → (base z o a).canonical := fun hz => hz.setReg.setReg
  exact (based (based h₃)).setReg.setReg

theorem Core.canonical.install {f : ImgFile} {seed : Nat} {c : CoreImg} (h : x.canonical) : (f.install seed c x).canonical := by
  unfold ImgFile.install
  extract_lets x₁
  have h₁ : x₁.canonical := h.installRegs.installMem.installUe
  exact h₁.withWork

theorem State.canonical.loadEnds {hd : MboxHdr} {code : Half} (h : s.canonical) : (s.loadEnds hd code).canonical := h.vector.finish

theorem State.canonical.loadRefused {hd : MboxHdr} {r : Refused} (h : s.canonical) : (s.loadRefused hd r).canonical :=
  .loadEnds (State.canonical.withImage h.setGreg.setGreg.setGreg)

theorem State.canonical.rekeyHbm (h : s.canonical) : s.rekeyHbm.canonical := by
  refine h.tick1.withHbm (Memory.wf_foldl _ h.hbm_wf fun {m c} hm => ?_)
  split
  · exact hm
  · exact Memory.wf_setByte _ _ hm

theorem State.canonical.keyHbm {conf : Bool} (h : s.canonical) : (s.keyHbm conf).canonical :=
  State.canonical.withSec (.ite h h.rekeyHbm)

theorem State.canonical.showImage {hd : ImgHead} (h : s.canonical) : (s.showImage hd).canonical := .setGreg (h.foldl .setGreg)

theorem State.canonical.loadAccepted {hd : MboxHdr} {b : List Byte} {f : ImgFile} (h : s.canonical) :
    (s.loadAccepted hd b f).canonical := by
  unfold State.loadAccepted
  extract_lets ctr seed s₁ s₂ s₃ s₄ s₅ s₆ _ _ s₇ s₈
  have h₁ : s₁.canonical := h.tick1.keyHbm
  have h₂ : s₂.canonical := by
    refine h₁.mapCores fun hx => ?_
    split
    · exact Core.canonical.install hx
    · exact hx
  have h₃ : s₃.canonical := h₂.foldl .hbmWrite
  have h₄ : s₄.canonical := h₃.foldl .setGreg
  have h₆ : s₆.canonical := h₄.showImage.extendMr
  have h₇ : s₇.canonical := h₆.withNewImage
  have h₈ : s₈.canonical := h₇.setGf.setGf.setGf.setGreg
  exact h₈.setGreg.loadEnds

theorem execLoadFinished_canonical (h : s.canonical) : endsCanonical (execLoadFinished s) := by
  refine .next ?_
  split
  · exact h
  · extract_lets s₁
    have h₁ : s₁.canonical := h.withLoading
    split
    · exact h₁.loadRefused
    · exact h₁.loadAccepted

/-! ## Safelight -/

theorem State.canonical.slReply {l : List Byte} (h : s.canonical) : (s.slReply l).canonical := h.emit

theorem execFirmwareUpdate_canonical {w : Word} {b : FirmwareBundle} (h : s.canonical) : endsCanonical (execFirmwareUpdate w b s) :=
  .next (.ite h (h.pldm fun hu => hu.withMgmt))

theorem execPldmSensorRead_canonical {n : Half} (h : s.canonical) : endsCanonical (execPldmSensorRead n s) := by
  refine .next (.ite ?_ h)
  extract_lets -underBinder u
  split
  · exact h.tick1.emit
  · exact .slReply (h.tick1.withPower (p := _))

theorem State.canonical.spdm {b : Bool} {l : List Byte} (h : s.canonical) : (s.spdm b l).canonical := .slReply h.withMgmt

theorem State.canonical.spdmError {b : Byte} (h : s.canonical) : (s.spdmError b).canonical := h.slReply

theorem execChallenge_canonical {n : Byte} {l : List Byte} (h : s.canonical) : endsCanonical (execChallenge n l s) :=
  .next (.ite h (.ite h.spdmError h.tick1.spdm))

theorem execGetMeasurements_canonical {n : Byte} {b : Bool} {l : List Byte} (h : s.canonical) :
    endsCanonical (execGetMeasurements n b l s) :=
  .next (.ite h (.ite h.spdmError h.tick1.spdm))

/-! ## Loupe -/

theorem State.canonical.loupeSays {code : Half} {l : List Byte} (h : s.canonical) : (s.loupeSays code l).canonical := h.emit

theorem State.canonical.loupe {f : State → State} (h : s.canonical) (hf : ∀ {u}, u.canonical → (f u).canonical) :
    (s.loupe f).canonical := by
  unfold State.loupe
  refine .ite (hf ?_) h
  split
  · exact .ite h.endSessions h.useSession
  · exact h

theorem execAuthChal_canonical (h : s.canonical) : endsCanonical (execAuthChal s) :=
  .next (h.loupe fun hu => .ite hu.loupeSays hu.challenge.loupeSays)

theorem execAuthOpen_canonical {w : Word} {l : List Byte} (h : s.canonical) : endsCanonical (execAuthOpen w l s) := by
  refine .next (h.loupe fun {u} hu => .ite hu.audit.loupeSays ?_)
  have opened : (u.openSession 0x12 2 w l).1.canonical := hu.openSession
  generalize u.openSession 0x12 2 w l = o at opened
  exact .loupeSays (.audit (.ite opened.withMgmt opened))

theorem State.canonical.loupeGuarded {n : Nat} {l : List Byte} {ok : Half} {f : State → State} (h : s.canonical)
    (hf : ∀ {u}, u.canonical → (f u).canonical) : (s.loupeGuarded n l ok f).canonical :=
  .ite h.audit.loupeSays (.ite h.tick1.setGf.loupeSays (.ite h.audit.loupeSays (hf h.audit)))

theorem State.canonical.peekWord {a : Nat} (h : s.canonical) : (s.peekWord a).1.canonical := by
  unfold State.peekWord
  split
  · exact .iteFst h.holdRequest h.bar0Read
  · exact h.bar0Read

theorem State.canonical.foldlFst {α β : Type} {f : State × β → α → State × β} {l : List α} {b : β} (h : s.canonical)
    (hf : ∀ {r a}, r.1.canonical → (f r a).1.canonical) : (l.foldl f (s, b)).1.canonical :=
  List.foldlRecOn (motive := fun r : State × β => r.1.canonical) l f h fun _ hr _ _ => hf hr

theorem execPeek_canonical {a : BitVec 28} {n : Nat} (h : s.canonical) : endsCanonical (execPeek a n s) := by
  refine .next (h.loupe fun hu => hu.loupeGuarded fun hv => ?_)
  exact .loupeSays (hv.foldlFst .peekWord)

theorem execPoke_canonical {a : BitVec 28} {w : Word} (h : s.canonical) : endsCanonical (execPoke a w s) :=
  .ite .fault (.next (h.loupe fun hu => hu.loupeGuarded fun hv => hv.regWrite.loupeSays))

theorem execBaud_canonical {n : Nat} (h : s.canonical) : endsCanonical (execBaud n s) :=
  .next (h.loupe fun hu => .ite (.loupeSays hu.withMgmt) hu.loupeSays)

theorem execLogout_canonical (h : s.canonical) : endsCanonical (execLogout s) := by
  refine .next (h.loupe fun hu => ?_)
  split
  · exact hu.loupeSays
  · exact .loupeSays (State.canonical.withMgmt hu.tick1.audit.endSessions)

theorem execLoupeIdleTimeout_canonical (h : s.canonical) : endsCanonical (execLoupeIdleTimeout s) := by
  refine .next ?_
  split
  · exact h
  · exact .ite h.endSessions h

end Sys2Proof.Machine
end

section
/-! Every step keeps every memory and register map in canonical form (R42, R64, R8's list of commands): the one proof per command, put
together. -/

namespace Sys2Proof.Machine

variable {s : State}

/-- A command's effect, whichever it is, leaves the canonical form. -/
theorem exec_canonical (i : Instr) (h : s.canonical) : endsCanonical (exec i s) := by
  cases i with
  | shutterTick => exact .next h.tick.shutdownOn
  | guardBand late =>
    refine .next ?_
    split
    · exact .ite h.guardBand h
    · exact h.guardLate
  | commitApply => exact .next h.commitTick
  | powerClassChange => exact .next (.ite (.meter h.atCycle.setClass) h)
  | globalStepAdvance => exact .next h.stepAdvance
  | predictorEnabledSet => exact .next (h.setCore (h.core _).predictorSet)
  | derateAtTick => exact .next h.derateTick
  | jobStart => exact .next h.jobStart
  | linkPlanCheck => exact execLinkPlanCheck_canonical h
  | rosterEpochSwitch => exact .next h.rosterSwitch
  | tickFlit => exact execTickFlit_canonical h
  | upstreamTickFlit => exact execUpstreamTickFlit_canonical h
  | tickInEdge => exact .next (.ite h.symbol h)
  | lockTimeout | tickSyncLost => exact .next (.ite h.syncLost h)
  | echoMeasurement => exact execEchoMeasurement_canonical h
  | echo => exact execEcho_canonical h
  | shtCommitGo | shtCommitCancel | shtKeyWrite | coreCommitGo | coreCommitCancel | lnkCommitGo | lnkCommitCancel
  | lnkKeyWrite | cpmCommitGo | cpmCommitCancel | cpmKeyWrite | hifDbkeyWrite | hifDoorbellWrite | htuTkeyWrite
  | satcntClr => exact .next h.regWrite
  | shtFnLoRead => exact execShtFnLoRead_canonical h
  | registerWrite => exact execRegisterWrite_canonical h
  | end_ => exact .next (h.issue .endFrame)
  | loopi => exact .next (h.issueSq .loop)
  | loopr => exact .next (h.issueSq .loopR)
  | waitx => exact .next (h.issue .waitX)
  | waitxRelease => exact execWaitxRelease_canonical h
  | commit => exact .next (h.issueSq .commitCarry)
  | sqStop => exact .next (h.issueSq .stop)
  | signal => exact .next (h.issueSq .post)
  | scarry => exact .next (h.issueSq .carry)
  | dovr => exact .next (h.issueSq .setOverride)
  | sld | sst => exact .next (h.issue fun hx => .useCache hx.cacheBusy)
  | movlc | movfn | lil | lih | add | sub | mul | and | or | xor | shl | shr | sra | min | max | minu | maxu | addi
  | andi | ori | xori | shli | shri | srai => exact .next (h.issueSq .scalar)
  | pcmp | pcmpi | plog => exact .next (h.issueSq .predicate)
  | dmaStart | dmaStartOvr => exact .next (h.issueWith .startDma)
  | dmaComplete => exact execDmaComplete_canonical h
  | crcIfetchTrap => exact execCrcIfetchTrap_canonical h
  | instructionComplete => exact execInstructionComplete_canonical h
  | tload => exact .next (h.issue .tload)
  | tmul => exact .next (h.issue .product)
  | tmulr => exact .next (h.issue .product)
  | tprint => exact .next (h.issue .tprint)
  | vadd | vsub | vmul | vfma | vmin | vmax | vabs | vneg | vrcp | vrsq | vexp2 | vlog2 | vshl | vshr | vsra | vand
  | vor | vxor | vnot | vpopc | vcvti | vcvtf => exact .next (h.issue .vArith)
  | vmov => exact .next (h.issue .vMov)
  | vdiv | vsqrt => exact .next (h.issue fun hx => hx.vArith.holdDivide)
  | vcmp => exact .next (h.issue .vCmp)
  | vmlog | vmlane | vmsr => exact .next (h.issue .vMask)
  | vspl => exact .next (h.issue .vSpl)
  | vscl => exact .next (h.issue .vScl)
  | vcvtw => exact .next (h.issue .vCvtW)
  | vcvtn => exact .next (h.issue .vCvtN)
  | vacc => exact .next (h.issue .vAcc)
  | vred => exact .next (h.issue .vRed)
  | vrax => exact .next (h.issue .vRax)
  | vld | vst => exact .next (h.issue .vBlock)
  | vldv | vstv => exact .next (h.issue .vVector)
  | xeCopy | xeTranspose | xeGather | xeScatter | xeScatterAdd => exact .next (h.issue .xrun)
  | uupd => exact .next (h.issue .uupd)
  | urow => exact .next (h.issue .urow)
  | ugfac => exact .next (h.issue .ugfac)
  | ufilt => exact .next (h.issue .ufilt)
  | uflist => exact .next (h.issue .uflist)
  | uadv => exact .next (h.issue .uadv)
  | mdodge | mburn | mrefresh => exact .next (h.issue .meEdit)
  | mscore => exact .next (h.issue .mscore)
  | msload => exact .next (h.issue .msload)
  | msstore => exact .next (h.issue .msstore)
  | mremap => exact .next (h.issue .mremap)
  | ppred => exact .next (h.issue .ppred)
  | pctl => exact .next (h.issue .pctl)
  | dataFlit | tagFlit => exact .next h.receiveFlit
  | ack => exact execAck_canonical h
  | nak => exact execNak_canonical h
  | ackTimer => exact execAckTimer_canonical h
  | keyFlit => exact execKeyFlit_canonical h
  | linkTraining => exact execLinkTraining_canonical h
  | handshakeTimeout => exact execHandshakeTimeout_canonical h
  | keyGeneration => exact execKeyGeneration_canonical h
  | send => exact execSend_canonical h
  | startRecord => exact execStartRecord_canonical h
  | cdata => exact execCdata_canonical h
  | collectiveComplete => exact execCollectiveComplete_canonical h
  | greq => exact execGreq_canonical h
  | gdata => exact execGdata_canonical h
  | announce => exact execAnnounce_canonical h
  | staged => exact execStaged_canonical h
  | refused => exact execRefused_canonical h
  | cancel => exact execCancel_canonical h
  | rosterStart | fix => exact .next h.takeProposal.answerStaged
  | freeze => exact execFreeze_canonical h
  | stagedDeadline => exact execStagedDeadline_canonical h
  | load => exact execLoad_canonical h
  | loadFinished => exact execLoadFinished_canonical h
  | start => exact execStart_canonical h
  | stop => exact execStop_canonical h
  | restore => exact execRestore_canonical h
  | checkpoint => exact execCheckpoint_canonical h
  | checkpointInterval => exact execCheckpointInterval_canonical h
  | checkpointChunk => exact .next h.checkpointChunk
  | checkpointSeal => exact .next h.checkpointSeal
  | setInterval => exact execSetInterval_canonical h
  | ingestOpen => exact execIngestOpen_canonical h
  | ingestClose => exact execIngestClose_canonical h
  | ingestRecord => exact execIngestRecord_canonical h
  | batchReady => exact execBatchReady_canonical h
  | ingestStall => exact execIngestStall_canonical h
  | nvmeAttach => exact execNvmeAttach_canonical h
  | nvmeDetach => exact execNvmeDetach_canonical h
  | nvmeCompletion => exact execNvmeCompletion_canonical h
  | nvmeTimeout => exact execNvmeTimeout_canonical h
  | hostDmaComplete => exact execHostDmaComplete_canonical h
  | notifyRing => exact execNotifyRing_canonical h
  | serveOpen => exact execServeOpen_canonical h
  | serveClose => exact execServeClose_canonical h
  | serveRequest => exact execServeRequest_canonical h
  | kvRead => exact execKvRead_canonical h
  | publish => exact execPublish_canonical h
  | rosterChange => exact execRosterChange_canonical h
  | healthRead => exact execHealthRead_canonical h
  | sessionChallenge => exact execSessionChallenge_canonical h
  | sessionOpen => exact execSessionOpen_canonical h
  | sessionClose => exact execSessionClose_canonical h
  | sessionIdleTimeout => exact execSessionIdleTimeout_canonical h
  | roleLockExpiry => exact execRoleLockExpiry_canonical h
  | jobKey => exact execJobKey_canonical h
  | jobKeyClear => exact execJobKeyClear_canonical h
  | credSet => exact execCredSet_canonical h
  | memberKeys => exact execMemberKeys_canonical h
  | signerSet => exact execSignerSet_canonical h
  | lifecycle => exact execLifecycle_canonical h
  | auditRead => exact execAuditRead_canonical h
  | unitFence => exact execUnitFence_canonical h
  | unitUnfence => exact execUnitUnfence_canonical h
  | bar2Access => exact execBar2Access_canonical h
  | contactSheetRingWrite => exact execContactSheetRingWrite_canonical h
  | patrolRead => exact execPatrolRead_canonical h
  | refetchComplete => exact execRefetchComplete_canonical h
  | missEntryExpiry => exact execMissEntryExpiry_canonical h
  | bucketLeak => exact .next h.leakBucket
  | inServiceSlice => exact execInServiceSlice_canonical h
  | sliceEnd => exact execSliceEnd_canonical h
  | coverageExpired => exact execCoverageExpired_canonical h
  | canaryMeasurement => exact execCanaryMeasurement_canonical h
  | testRequestInService | testRequestFull => exact .next h.testVia
  | fullTestStart => exact execFullTestStart_canonical h
  | testDone => exact execTestDone_canonical h
  | coldStart => exact .next .coldStart
  | startupReady => exact execStartupReady_canonical h
  | moduleReset => exact execModuleReset_canonical h
  | rstNRelease => exact execRstNRelease_canonical h
  | perstN => exact execPerstN_canonical h
  | flrPf0 => exact .next h.flr0
  | flrPf1 => exact .next h.flr1
  | inputLow => exact execInputLow_canonical h
  | inputRecovered => exact execInputRecovered_canonical h
  | inputPowerFail => exact execInputPowerFail_canonical h
  | inputOvervoltage => exact execInputOvervoltage_canonical h
  | dieOverTemperature => exact execDieOverTemperature_canonical h
  | dieTempStep => exact execDieTempStep_canonical h
  | coolantInletHigh => exact execCoolantInletHigh_canonical h
  | thermalForceLift => exact execThermalForceLift_canonical h
  | thermalTrip => exact execThermalTrip_canonical h
  | refclkLost => exact execRefclkLost_canonical h
  | refclkTimeout => exact execRefclkTimeout_canonical h
  | refclkReturn => exact execRefclkReturn_canonical h
  | modulePowerOff => exact execModulePowerOff_canonical h
  | shutdownStageLimit => exact execShutdownStageLimit_canonical h
  | modulePowerOn => exact execModulePowerOn_canonical h
  | moduleResetRequest => exact execModuleResetRequest_canonical h
  | firmwareUpdate => exact execFirmwareUpdate_canonical h
  | setDateTime => exact .next (.ite (.slReply h.withMgmt) h)
  | pldmSensorRead => exact execPldmSensorRead_canonical h
  | pldmFruRead => exact .next (.ite h.slReply h)
  | entdaa => exact .next (.ite h h.withMgmt)
  | getVersion | negotiateAlgorithms | getDigests => exact .next (.ite h.spdm h)
  | getCapabilities => exact .next (.ite h.tick1.spdm h)
  | getCertificate => exact .next (.ite h (.ite h.spdmError h.spdm))
  | challenge => exact execChallenge_canonical h
  | getMeasurements => exact execGetMeasurements_canonical h
  | help | id | health | log => exact .next (h.loupe .loupeSays)
  | status | sensors => exact .next (h.loupe fun hu => hu.tick1.loupeSays)
  | authChal => exact execAuthChal_canonical h
  | authOpen => exact execAuthOpen_canonical h
  | peek => exact execPeek_canonical h
  | poke => exact execPoke_canonical h
  | baud => exact execBaud_canonical h
  | logout => exact execLogout_canonical h
  | loupeIdleTimeout => exact execLoupeIdleTimeout_canonical h
  | perstNDeassertion => exact execPerstNDeassertion_canonical h
  | onDieErrorCheckAndScrub | pcieReplay => exact .next h.chipCorrected
  | fecCodeword => exact execFecCodeword_canonical h
  | remapRecordWrite => exact execRemapRecordWrite_canonical h
  | ageingRecordWrite => exact .next (.ite h.writeAgeing h)

/-- Settles O4: the command at the front of the queue runs on the state with the queue's rest (`step`), whose maps are those of the
state, and each command keeps their form (`exec_canonical`). -/
theorem stepKeepsCanonical : Obligations.StepKeepsCanonical := by
  intro s t h hstep
  cases hp : s.pending with
  | nil =>
    have hs : s = t := by simpa [step, hp] using hstep
    exact hs ▸ h
  | cons i rest =>
    have run : exec i { s with pending := rest } = .next t := by simpa [step, hp] using hstep
    exact exec_canonical i h.withPending t run

end Sys2Proof.Machine
end

section
/-! SUPPORT. The issue of an instruction of the sequencer's own (R223–R225, R233): what the arrival at its bundle leaves, and that the
core is left as the instruction leaves it. -/

namespace Sys2Proof.Machine

variable {x y : Core} {k : Ctx} {s t : State}

/-! ## The arrival (R233) -/

/-- Going on to a later bundle moves the sequencer and counts its loops; its values stay. -/
theorem Seq.after_moves (q : Seq) (n : Nat) (l : List LoopFrame) :
    ∃ p ls lc, q.after n l = { q with prev := p, loops := ls, lc := lc } := by
  induction l with
  | nil => exact ⟨_, _, _, rfl⟩
  | cons f l ih =>
    unfold Seq.after
    split
    · split
      · exact ⟨_, _, _, rfl⟩
      · exact ih
    · exact ⟨_, _, _, rfl⟩

theorem Core.goTo_moves {b n m : Nat} {q : Seq} {r : Seq × Nat} (h : x.goTo b n q m = some r) :
    ∃ p ls lc, r.1 = { q with prev := p, loops := ls, lc := lc } := by
  induction n generalizing q m with
  | zero => cases h
  | succ n ih =>
    unfold Core.goTo at h
    split at h
    · cases h
      exact ⟨_, _, _, rfl⟩
    · split at h
      · obtain ⟨p, ls, lc, hr⟩ := ih h
        obtain ⟨p', ls', lc', hq⟩ := q.after_moves (q.prev + 1) q.loops
        exact ⟨p, ls, lc, by rw [hr, hq]⟩
      · cases h

/-- What an instruction finds that opens its bundle: BUNDLE shows it, the sequencer is there, and its values are as they were. -/
theorem Core.arrive_moves (k : Ctx) {b : BitVec 13} {slot : Nat} (h : x.sameIssue b slot = false) :
    ∃ ls lc, x.arrive k b slot = { x.setRf 0x2004 12 0 b.toNat with
      seq := { x.seq with prev := b.toNat, loops := ls, lc := lc, slot := slot, issued := k.clock, nextAt := k.clock + 1 } } := by
  unfold Core.arrive
  rw [if_neg (by rw [h]; decide)]
  dsimp only
  cases hl : x.inLine b.toNat with
  | none => exact ⟨_, _, rfl⟩
  | some r =>
    obtain ⟨p, ls, lc, hr⟩ := Core.goTo_moves hl
    obtain ⟨p', ls', lc', hq⟩ := x.seq.after_moves x.seq.prev x.seq.loops
    dsimp only
    rw [hr, hq]
    exact ⟨_, _, rfl⟩

theorem Core.sameIssue_slot0 (x : Core) (b : BitVec 13) : x.sameIssue b 0 = false := by simp [Core.sameIssue]

/-- A sequencer's values at a cycle are told by those it has and those on their way. -/
theorem Seq.settle_sregs_congr {p q : Seq} (hs : p.sregs = q.sregs) (hc : p.coming = q.coming) (n : Nat) :
    (p.settle n).sregs = (q.settle n).sregs := by
  have puts : ∀ (l : List SeqWrite) (p q : Seq), p.sregs = q.sregs →
      (l.foldl (fun q w => q.put w.dst w.val) p).sregs = (l.foldl (fun q w => q.put w.dst w.val) q).sregs := by
    intro l
    induction l with
    | nil => exact fun _ _ h => h
    | cons w l ih =>
      obtain ⟨d, v, due⟩ := w
      refine fun p q h => ih _ _ ?_
      cases d with
      | sreg r => by_cases hr : r = 0#5 <;> simp [Seq.put, hr, h]
      | pred r => by_cases hr : r = 0#3 <;> simp [Seq.put, hr, h]
      | ovr ch r => exact h
  unfold Seq.settle
  rw [hc]
  exact puts _ _ _ hs

theorem Core.sreg_congr (hs : y.seq.sregs = x.seq.sregs) (hc : y.seq.coming = x.seq.coming) (k : Ctx) (r : BitVec 5) :
    y.sreg k r = x.sreg k r := by
  rw [Core.sreg, Core.sreg, Seq.settle_sregs_congr hs hc]

/-! ## What the rest of the issue leaves -/

theorem State.takeReport_svc (c : CoreId) (s : State) (r : Nat × Half) : (State.takeReport c s r).svc = s.svc := by
  have noted : ∀ (u : State) n code, (u.noteUnit n code).svc = u.svc := by
    intro u n code
    simp only [State.noteUnit, State.setHealth, State.alertFor]
    split <;> rfl
  unfold State.takeReport
  dsimp only
  split
  · rfl
  · split
    · exact noted _ _ _
    · exact noted _ _ _

theorem State.meter_svc (s : State) (n : Nat) : (s.meter n).svc = s.svc := by
  simp only [State.meter]
  split
  · split <;> rfl
  · rfl

theorem State.drainReports_svc (s : State) (c : CoreId) : (s.drainReports c).svc = s.svc :=
  foldl_keeps (g := State.svc) (fun u r _ => State.takeReport_svc c u r) _

/-- What an instruction of one core leaves: the core's registers, shadows, sequencer and frame as `z` has them, and the services. -/
def State.leftBy (s t : State) (c : CoreId) (z : Core) : Prop :=
  (t.core c).regs = z.regs ∧ (t.core c).shadow = z.shadow ∧ (t.core c).seq = z.seq ∧ (t.core c).frame = z.frame ∧ t.svc = s.svc

theorem Core.joinPorts_shadow (x : Core) (i : Instr) (n : Nat) : (x.joinPorts i n).shadow = x.shadow := by
  unfold Core.joinPorts
  split
  · dsimp only
    split <;> rfl
  · rfl

/-- An instruction of the sequencer's own that issues, not suppressed, and does not stop the sequencer leaves the core as it says. -/
theorem State.gives_issueSq {a : Site} {i : Instr} {cyc : Nat} {lat : Ctx → Nat} {f : Ctx → Core → At → Core} {p : State → Prop}
    (h : s.issues a i cyc) (hi : slotNo i = 0) (hx : exec i s = .next (s.issueSq a i lat f)) :
    let k := s.ctxAt a.core cyc
    let z := f k ((s.arrived a i cyc).sqBusy (cyc + lat k)) ⟨a.core, a.bundle, false⟩
    z.seq.stopped = false → (∀ t, s.leftBy t a.core z → p t) → s.gives i p := by
  intro k z hz hp
  obtain ⟨⟨hc, hd, -, -, hl⟩, hsupp⟩ := h
  refine State.gives_of hx (hp _ ?_)
  let g : Ctx → Core → At → Core := fun k c at_ => f k (c.sqBusy (k.clock + lat k)) at_
  have hopen : (s.core a.core).reopen a.bundle (slotNo i) = s.core a.core := by
    rw [Core.reopen, hi, Core.sameIssue_slot0]
    rfl
  have hat : (s.arrived a i cyc).siteOf k a = ⟨a.core, a.bundle, false⟩ := by
    unfold State.suppresses at hsupp
    rw [← hsupp]
    rfl
  have hdone : g k (s.arrived a i cyc) ((s.arrived a i cyc).siteOf k a) = z := by rw [hat]; rfl
  let w := z.joinPorts i (s.core a.core).inflight.length
  obtain ⟨hwf, hwq, hwr⟩ := z.joinPorts_keeps i (s.core a.core).inflight.length
  have hcore : (s.issueSq a i lat f).core a.core = w.drained := by
    rw [State.issueSq, State.issue, State.issueWith_eq _ hc hd hl, (State.perform_spec s a i cyc g).1]
    have hrun : Core.performed k a i g (s.core a.core) =
        Core.drained (if decide (slotNo i ≠ 0) || w.seq.stopped then w.checkRetire k else w) := by
      unfold Core.performed
      rw [hopen]
      dsimp only
      rw [show (s.core a.core).arrive k a.bundle (slotNo i) = s.arrived a i cyc from rfl, hdone]
    have hgo : (decide (slotNo i ≠ 0) || w.seq.stopped) = false := by rw [hi, show w.seq = z.seq from hwq, hz]; rfl
    exact hrun.trans (by rw [hgo]; rfl)
  have hsvc : (s.issueSq a i lat f).svc = s.svc := by
    rw [State.issueSq, State.issue, State.issueWith_eq _ hc hd hl]
    unfold State.perform
    dsimp only
    rw [State.meter_svc, State.drainReports_svc]
    simp
  exact ⟨by rw [hcore]; exact hwr, by rw [hcore]; exact z.joinPorts_shadow _ _, by rw [hcore]; exact hwq, by rw [hcore]; exact hwf, hsvc⟩

/-- The core as an instruction of the sequencer's own finds it. -/
theorem State.arrived_moves (s : State) {a : Site} {i : Instr} (hi : slotNo i = 0) (cyc : Nat) :
    let x := s.core a.core
    ∃ q, s.arrived a i cyc = { x.setRf 0x2004 12 0 a.bundle.toNat with seq := q } ∧ q.sregs = x.seq.sregs ∧ q.coming = x.seq.coming ∧
      q.ovr = x.seq.ovr ∧ q.stopped = x.seq.stopped := by
  obtain ⟨ls, lc, h⟩ := Core.arrive_moves (s.ctxAt a.core cyc) ((s.core a.core).sameIssue_slot0 a.bundle)
  let q : Seq := { (s.core a.core).seq with
    prev := a.bundle.toNat, loops := ls, lc := lc, slot := 0, issued := (s.ctxAt a.core cyc).clock, nextAt := (s.ctxAt a.core cyc).clock + 1 }
  exact ⟨q, by rw [State.arrived, hi]; exact h, rfl, rfl, rfl, rfl⟩

/-! ## An override value on its way (R229, R247) -/

theorem bit_lt (b : Bool) : bit b < 2 := by cases b <;> decide

theorem Seq.put_ovr_length (q : Seq) (d : SeqDst) (v : Word) : (q.put d v).ovr.length = q.ovr.length := by
  cases d with
  | sreg r => simp only [Seq.put]; split <;> rfl
  | pred p => simp only [Seq.put]; split <;> rfl
  | ovr ch r => simp [Seq.put]

theorem Seq.put_ovr_ne (q : Seq) {d : SeqDst} (v : Word) {ch : BitVec 2} {r : Bool} (h : d ≠ .ovr ch r) :
    (q.put d v).ovr.getD (2 * ch.toNat + bit r) 0#32 = q.ovr.getD (2 * ch.toNat + bit r) 0#32 := by
  cases d with
  | sreg r' => simp only [Seq.put]; split <;> rfl
  | pred p => simp only [Seq.put]; split <;> rfl
  | ovr ch' r' =>
    refine getD_setAt_ne _ _ _ fun e => h ?_
    have hr : bit r' = bit r := by have := bit_lt r; have := bit_lt r'; omega
    have hch : ch'.toNat = ch.toNat := by omega
    have hb : r' = r := by revert hr; cases r <;> cases r' <;> simp [bit]
    rw [BitVec.eq_of_toNat_eq hch, hb]

theorem Seq.foldl_put_ovr_length (l : List SeqWrite) (q : Seq) :
    (l.foldl (fun q w => q.put w.dst w.val) q).ovr.length = q.ovr.length :=
  foldl_keeps (g := fun q : Seq => q.ovr.length) (fun q w _ => q.put_ovr_length w.dst w.val) q

theorem Seq.foldl_put_ovr (l : List SeqWrite) (q : Seq) {ch : BitVec 2} {r : Bool} (h : ∀ w ∈ l, w.dst ≠ .ovr ch r) :
    (l.foldl (fun q w => q.put w.dst w.val) q).ovr.getD (2 * ch.toNat + bit r) 0#32 = q.ovr.getD (2 * ch.toNat + bit r) 0#32 :=
  foldl_keeps (g := fun q : Seq => q.ovr.getD (2 * ch.toNat + bit r) 0#32) (fun q w hw => q.put_ovr_ne w.val (h w hw)) q

/-- With no other value for it on its way, an override value is there from its cycle on. -/
theorem Seq.settle_place_ovr (q : Seq) {ch : BitVec 2} {r : Bool} (v : Word) {due n : Nat} (hl : q.ovr.length = 8)
    (hc : q.clearOf (.ovr ch r)) (hd : due ≤ n) :
    (Seq.settle { q with coming := SeqWrite.place ⟨.ovr ch r, v, due⟩ q.coming } n).ovr.getD (2 * ch.toNat + bit r) 0#32 = v := by
  obtain ⟨l1, l2, h1, h2⟩ := SeqWrite.place_split ⟨.ovr ch r, v, due⟩ q.coming
  have later : ∀ w ∈ l2.filter (fun w => decide (w.due ≤ n)), w.dst ≠ .ovr ch r :=
    fun w hw => hc w (by rw [h1]; exact List.mem_append_right _ (List.mem_filter.mp hw).1)
  simp only [Seq.settle, h2, List.filter_append, List.foldl_append, List.filter_cons, hd, decide_true, if_true, List.foldl_cons]
  rw [Seq.foldl_put_ovr _ _ later]
  refine getD_setAt_self _ _ _ ?_
  rw [Seq.foldl_put_ovr_length]
  have := ch.isLt
  have := bit_lt r
  show 2 * ch.toNat + bit r < q.ovr.length
  omega

theorem Core.result_ovr (k k' : Ctx) (c : Core) {ch : BitVec 2} {r : Bool} (v : Word) {lat : Nat} (hl : c.seq.ovr.length = 8)
    (hc : c.seq.clearOf (.ovr ch r)) (hk : k.clock + lat ≤ k'.clock) : (c.result k (.ovr ch r) v lat).override k' ch r = v :=
  Seq.settle_place_ovr _ v ((Seq.foldl_put_ovr_length _ _).trans hl) (Seq.settle_clearOf _ _ hc) hk

end Sys2Proof.Machine
end

section
/-! O10: SCARRY, COMMIT, STOP, SIGNAL and DOVR (R62, R240, R242, R243, R247). -/

namespace Sys2Proof.Machine

variable {x y : Core} {k : Ctx} {s t : State} {a : Site} {i : Instr}

/-! ## The core an instruction of the sequencer's own finds -/

/-- A core that has arrived at bundle `b`: BUNDLE shows it and the sequencer has moved; all else is as in `x`. -/
structure Core.atBundle (x y : Core) : Prop where
  reg : ∀ r, r ≠ 0x2004 → y.reg r = x.reg r
  shadow : y.shadow = x.shadow
  frame : y.frame = x.frame
  sregs : y.seq.sregs = x.seq.sregs
  coming : y.seq.coming = x.seq.coming
  ovr : y.seq.ovr = x.seq.ovr
  stopped : y.seq.stopped = x.seq.stopped
  canonical : x.canonical → y.canonical

/-- The core an instruction of the sequencer's own finds is its core, arrived at the instruction's bundle. -/
theorem State.atBundle_sqBusy (s : State) (a : Site) (hi : slotNo i = 0) (cyc n : Nat) :
    (s.core a.core).atBundle ((s.arrived a i cyc).sqBusy n) := by
  obtain ⟨q, h, hs, hc, ho, hst⟩ := s.arrived_moves (a := a) hi cyc
  rw [h]
  exact {
    reg := fun r hr => Core.reg_setRf_ne _ 12 0 _ (Ne.symm hr)
    shadow := rfl
    frame := rfl
    sregs := hs
    coming := hc
    ovr := ho
    stopped := hst
    canonical := fun hx => hx.setRf (a := 0x2004) (hi := 12) (lo := 0) (v := a.bundle.toNat) }

theorem Seq.settle_stopped (q : Seq) (n : Nat) : (q.settle n).stopped = q.stopped :=
  foldl_keeps (g := Seq.stopped) (fun q w _ => (q.put_keeps w.dst w.val).2) _

theorem Core.atBundle.sreg (h : x.atBundle y) (k : Ctx) (r : BitVec 5) : y.sreg k r = x.sreg k r :=
  Core.sreg_congr h.sregs h.coming k r

/-- An instruction of the sequencer's own that issues, not suppressed, and does not stop the sequencer leaves the core as it says,
which it finds arrived at its bundle. -/
theorem State.gives_atBundle {cyc : Nat} {lat : Ctx → Nat} {f : Ctx → Core → At → Core} {p : State → Prop}
    (h : s.issues a i cyc) (hi : slotNo i = 0) (hx : exec i s = .next (s.issueSq a i lat f))
    (hf : ∀ y, (s.core a.core).atBundle y → y.seq.stopped = false →
      (f (s.ctxAt a.core cyc) y ⟨a.core, a.bundle, false⟩).seq.stopped = false ∧
        ∀ t, s.leftBy t a.core (f (s.ctxAt a.core cyc) y ⟨a.core, a.bundle, false⟩) → p t) : s.gives i p := by
  obtain ⟨hs, hp⟩ := hf _ (s.atBundle_sqBusy a hi cyc _) ((s.atBundle_sqBusy a hi cyc _).stopped.trans h.1.2.2.1)
  exact State.gives_issueSq h hi hx hs hp

/-! ## COMMIT and SCARRY (R62, R240) -/

theorem State.gives_commit {cyc : Nat} (hc : (s.core a.core).canonical) (h : s.issues a (.commit a) cyc) :
    s.gives (.commit a) fun t => (t.core a.core).rf 0x2020 0 0 = 1 ∧
      (∀ r, r ≠ 0x2004 → r ≠ 0x2020 → (t.core a.core).reg r = (s.core a.core).reg r) ∧
      (t.core a.core).shadow = (s.core a.core).shadow := by
  refine State.gives_atBundle h rfl rfl fun y hy hst => ⟨hst, fun t ht => ?_⟩
  obtain ⟨hregs, hshadow, -⟩ := ht
  refine ⟨?_, fun r h4 h20 => ?_, hshadow.trans hy.shadow⟩
  · exact (Core.rf_congr hregs _ _ _).trans (Core.rf_setRf_self (hy.canonical hc) (by decide) (by decide))
  · exact (Core.reg_congr hregs r).trans ((Core.reg_setRf_ne y 0 0 1 (Ne.symm h20)).trans (hy.reg r h4))

theorem Core.shadowReg_congr (h : y.shadow = x.shadow) (r : Nat) : y.shadowReg r = x.shadowReg r := by
  rw [Core.shadowReg, Core.shadowReg, h]

theorem Core.shadowReg_setShadow_ne (x : Core) {a b : Nat} (w : Word) (h : a ≠ b) : (x.setShadow a w).shadowReg b = x.shadowReg b :=
  Sparse.get_set_ne _ _ h

theorem State.gives_scarry {cyc : Nat} {n : BitVec 3} {rs : BitVec 5} (hc : (s.core a.core).canonical) (h : s.issues a (.scarry a n rs) cyc) :
    s.gives (.scarry a n rs) fun t =>
      (if (s.core a.core).rf 0x2020 0 0 = 1 then (t.core a.core).rf 0x2020 2 2 = 1 ∧ (t.core a.core).shadow = (s.core a.core).shadow
       else (t.core a.core).shadowReg (0x2040 + 4 * n.toNat) = (s.core a.core).sreg (s.ctxAt a.core cyc) rs ∧
        ∀ r, r ≠ 0x2040 + 4 * n.toNat → (t.core a.core).shadowReg r = (s.core a.core).shadowReg r) ∧
      ∀ r, r ≠ 0x2004 → r ≠ 0x2020 → (t.core a.core).reg r = (s.core a.core).reg r := by
  refine State.gives_atBundle h rfl rfl fun y hy hst => ?_
  have hcy := hy.canonical hc
  by_cases hp : (s.core a.core).rf 0x2020 0 0 = 1
  · have hbit : bitAt (y.reg 0x2020) 0 = true := by rw [hy.reg _ (by decide)]; exact (fld_eq_one_iff _ _).mp hp
    have hz : y.carry (s.ctxAt a.core cyc) ⟨a.core, a.bundle, false⟩ n rs = y.setRf 0x2020 2 2 1 := if_pos hbit
    rw [hz]
    refine ⟨hst, fun t ⟨hregs, hshadow, _⟩ => ?_⟩
    rw [if_pos hp]
    refine ⟨⟨?_, hshadow.trans hy.shadow⟩, fun r h4 h20 => ?_⟩
    · exact (Core.rf_congr hregs _ _ _).trans (Core.rf_setRf_self hcy (by decide) (by decide))
    · exact (Core.reg_congr hregs r).trans ((Core.reg_setRf_ne y 2 2 1 (Ne.symm h20)).trans (hy.reg r h4))
  · have hbit : ¬ bitAt (y.reg 0x2020) 0 = true := by rw [hy.reg _ (by decide)]; exact mt (fld_eq_one_iff _ _).mpr hp
    have hz : y.carry (s.ctxAt a.core cyc) ⟨a.core, a.bundle, false⟩ n rs =
        y.setShadow (0x2040 + 4 * n.toNat) ((s.core a.core).sreg (s.ctxAt a.core cyc) rs) := by
      rw [← hy.sreg]
      exact if_neg hbit
    rw [hz]
    refine ⟨hst, fun t ⟨hregs, hshadow, _⟩ => ?_⟩
    rw [if_neg hp]
    refine ⟨⟨?_, fun r hr => ?_⟩, fun r h4 _ => (Core.reg_congr hregs r).trans (hy.reg r h4)⟩
    · exact (Core.shadowReg_congr hshadow _).trans (Core.shadowReg_setShadow_self hcy _ _)
    · exact (Core.shadowReg_congr hshadow r).trans
        ((Core.shadowReg_setShadow_ne y _ (Ne.symm hr)).trans (Core.shadowReg_congr hy.shadow r))

/-! ## STOP, SIGNAL and DOVR (R242, R243, R247) -/

/-- The word of SQ_STOPINFO shows the code, the bundle and that it holds them. -/
theorem fld_stopInfo (b : BitVec 13) (code : Half) :
    let w := BitVec.ofNat 32 (0x80000000 + b.toNat * 0x10000 + code.toNat)
    fld w 15 0 = code.toNat ∧ fld w 28 16 = b.toNat ∧ fld w 31 31 = 1 := by
  have hb := b.isLt
  have hcode := code.isLt
  simp only [fld, fieldOf, BitVec.toNat_ofNat, Nat.shiftRight_eq_div_pow]
  omega

theorem State.gives_sqStop {cyc : Nat} {code : Half} (hc : (s.core a.core).canonical) (h : s.issues a (.sqStop a code) cyc) :
    s.gives (.sqStop a code) fun t => (t.core a.core).rf 0x2000 31 16 = 0x0210 ∧
      (t.core a.core).frame.haltNext = true ∧ (t.core a.core).seq.stopped = false ∧
      ((s.core a.core).rf 0x2008 31 31 = 0 → (t.core a.core).rf 0x2008 15 0 = code.toNat ∧
        (t.core a.core).rf 0x2008 28 16 = a.bundle.toNat ∧ (t.core a.core).rf 0x2008 31 31 = 1) ∧
      ((s.core a.core).rf 0x2008 31 31 = 1 → (t.core a.core).reg 0x2008 = (s.core a.core).reg 0x2008) := by
  refine State.gives_atBundle h rfl rfl fun y hy hst => ?_
  let x := y.raise 0 0x0210#16
  have hx : x.canonical := (hy.canonical hc).raise
  have hraise : x.rf 0x2000 31 16 = 0x0210 := Core.rf_setRf_self (a := 0x2000) (hy.canonical hc) (by decide) (by decide)
  have hinfo : x.reg 0x2008 = (s.core a.core).reg 0x2008 :=
    (Core.reg_setRf_ne (a := 0x2000) _ 31 16 _ (by decide)).trans (hy.reg _ (by decide))
  have held := fld_eq_one_iff ((s.core a.core).reg 0x2008) 31
  have hstop : y.stop ⟨a.core, a.bundle, false⟩ code =
      (if bitAt (x.reg 0x2008) 31 then x else x.setReg 0x2008 (BitVec.ofNat 32 (0x80000000 + a.bundle.toNat * 0x10000 + code.toNat))).askStop :=
    rfl
  rw [hstop, hinfo]
  split
  · next hb =>
    refine ⟨hst, fun t ⟨hregs, _, hseq, hframe, _⟩ => ?_⟩
    refine ⟨(Core.rf_congr hregs _ _ _).trans hraise, by rw [hframe]; rfl, by rw [hseq]; exact hst, fun h0 => ?_, fun _ => ?_⟩
    · exact absurd (h0.symm.trans (held.mpr hb)) (by decide)
    · exact (Core.reg_congr hregs _).trans hinfo
  · next hb =>
    refine ⟨hst, fun t ⟨hregs, _, hseq, hframe, _⟩ => ?_⟩
    have hreg : (t.core a.core).reg 0x2008 = BitVec.ofNat 32 (0x80000000 + a.bundle.toNat * 0x10000 + code.toNat) :=
      (Core.reg_congr hregs _).trans (Core.reg_setReg_self hx.regs_wf _ _)
    refine ⟨?_, by rw [hframe]; rfl, by rw [hseq]; exact hst, fun _ => ?_, fun h1 => absurd (held.mp h1) hb⟩
    · rw [Core.rf, Core.reg_congr hregs, Core.reg, Core.askStop]
      exact (congrArg (fld · 31 16) (Core.reg_setReg_ne x _ (by decide))).trans hraise
    · simp only [Core.rf, hreg]
      exact fld_stopInfo _ _

theorem State.gives_signal {cyc : Nat} {q : BitVec 4} {rs : BitVec 5} (h : s.issues a (.signal a q rs) cyc) :
    s.gives (.signal a q rs) fun t =>
      (t.core a.core).frame.signals = (s.core a.core).frame.signals ++ [(q, (s.core a.core).sreg (s.ctxAt a.core cyc) rs)] ∧
        t.svc.queues = s.svc.queues := by
  refine State.gives_atBundle h rfl rfl fun y hy hst => ⟨hst, fun t ⟨_, _, _, hframe, hsvc⟩ => ⟨?_, by rw [hsvc]⟩⟩
  rw [hframe, ← hy.frame, ← hy.sreg]
  rfl

theorem State.gives_dovr {cyc : Nat} {ch : BitVec 2} {sel : Bool} {rs : BitVec 5} (hl : (s.core a.core).seq.ovr.length = 8)
    (hclear : (s.core a.core).seq.clearOf (.ovr ch sel)) (h : s.issues a (.dovr a ch sel rs) cyc) :
    s.gives (.dovr a ch sel rs) fun t => ∀ k : Ctx, cyc + 2 ≤ k.clock →
      (t.core a.core).override k ch sel = (s.core a.core).sreg (s.ctxAt a.core cyc) rs := by
  refine State.gives_atBundle h rfl rfl fun y hy hst => ⟨(y.seq.settle_stopped _).trans hst, fun t ⟨_, _, hseq, _⟩ k hk => ?_⟩
  rw [Core.override, hseq, ← hy.sreg]
  refine Core.result_ovr (s.ctxAt a.core cyc) k y _ (by rw [hy.ovr]; exact hl) ?_ hk
  rw [Seq.clearOf, hy.coming]
  exact hclear

/-- Settles O10: COMMIT and SCARRY write a register or a shadow, STOP its error and SQ_STOPINFO, SIGNAL the frame's posts, DOVR an
override value on its way. -/
theorem carryStopSignalOverride : Obligations.CarryStopSignalOverride :=
  ⟨fun _ _ _ _ _ hc => ⟨State.gives_commit hc, State.gives_scarry hc⟩,
    fun _ _ _ _ _ _ _ _ hc hshaped hclear =>
      ⟨State.gives_sqStop hc, State.gives_signal, State.gives_dovr hshaped.2.1 hclear⟩⟩

end Sys2Proof.Machine
end

section
/-! SUPPORT. The commits of the blocks (R60–R63): the registers and shadows of a block, and what a commit's request, its rejection and
its application do to them. -/

namespace Sys2Proof.Machine

variable {s t : State} {b : Block} {x : Core}

/-! ## The registers of a block -/

/-- A register of the block's area: of the core's window, or of the global area. -/
def State.blkReg (s : State) : Block → Nat → Word
  | .core c, a => (s.core c).reg a
  | _, a => s.greg a

/-- The shadow of a register of the block's area. -/
def State.blkShadow (s : State) : Block → Nat → Word
  | .core c, a => (s.core c).shadowReg a
  | _, a => s.gshadowReg a

/-- The registers with CMT fields that the block's commit puts in force, with their CMT bits. -/
def blkCmt : Block → List (Nat × Word)
  | .core _ => coreCmt
  | b => globCmt (blkRange b).1 (blkRange b).2

/-- The registers beside them that the application of a commit writes. -/
def blkShown : Block → List Nat
  | .core _ => (List.range 16).map fun j => 0x7C10 + 32 * j
  | .shutter => [0x40020, 0x4002C, 0x40038]
  | .link => (List.range 16).map fun p => portOff p + 4
  | .cpm => []

theorem State.blkStatus_eq (s : State) (b : Block) : s.blkStatus b = s.blkReg b (statusOff b) := by cases b <;> rfl

/-- Neither CMT_STATUS nor what a core's commit shows is a register of a core's window with CMT fields. -/
theorem coreCmt_apart : ∀ r ∈ coreCmt, r.1 ≠ 0x1204 ∧ r.1 ∉ blkShown (.core 0) := by
  have apart : (coreCmt.all fun r => decide (r.1 ≠ 0x1204) && (decide (r.1 < 0x7C00) || decide (r.1 % 32 ≠ 16))) = true := by
    decide +kernel
  intro r hr
  have h := List.all_eq_true.mp apart r hr
  simp only [Bool.and_eq_true, Bool.or_eq_true, decide_eq_true_eq] at h
  refine ⟨h.1, fun hm => ?_⟩
  obtain ⟨j, _, hj⟩ := List.mem_map.mp hm
  omega

/-- Neither CMT_STATUS nor what a commit shows is one of the block's CMT registers. -/
theorem blkCmt_apart (b : Block) : (∀ r ∈ blkCmt b, r.1 ≠ statusOff b ∧ r.1 ∉ blkShown b) ∧ statusOff b ∉ blkShown b := by
  cases b with
  | core c => exact ⟨coreCmt_apart, (by decide : 0x1204 ∉ blkShown (.core 0))⟩
  | shutter | link | cpm => decide +kernel

/-! ## CMT_STATUS written -/

theorem State.blkStatus_setBlkStatus (hs : s.canonical) (b : Block) (w : Word) : (s.setBlkStatus b w).blkStatus b = w := by
  cases b with
  | core c =>
    show (State.core _ c).reg 0x1204 = w
    rw [State.setBlkStatus, State.core_setCore_self]
    exact Core.reg_setReg_self (hs.core c).regs_wf _ _
  | shutter | link | cpm => exact State.greg_setGreg_self hs.gregs_wf _ _

theorem State.blkReg_setBlkStatus_ne (s : State) {a : Nat} (w : Word) (h : a ≠ statusOff b) :
    (s.setBlkStatus b w).blkReg b a = s.blkReg b a := by
  cases b with
  | core c =>
    show (State.core _ c).reg a = _
    rw [State.setBlkStatus, State.core_setCore_self]
    exact Core.reg_setReg_ne _ _ (Ne.symm h)
  | shutter | link | cpm => exact State.greg_setGreg_ne _ _ (Ne.symm h)

/-- A write of CMT_STATUS leaves every shadow. -/
theorem State.setBlkStatus_shadows (s : State) (b : Block) (w : Word) :
    (∀ a, (s.setBlkStatus b w).gshadowReg a = s.gshadowReg a) ∧
      ∀ d a, ((s.setBlkStatus b w).core d).shadowReg a = (s.core d).shadowReg a := by
  cases b with
  | core c =>
    refine ⟨fun _ => rfl, fun d a => ?_⟩
    rw [State.setBlkStatus]
    by_cases h : d = c
    · subst h
      rw [State.core_setCore_self, Core.shadowReg_setReg]
    · rw [State.core_setCore_ne _ _ h]
  | shutter | link | cpm => exact ⟨fun _ => rfl, fun _ _ => rfl⟩

theorem State.blkShadow_setBlkStatus (s : State) (b : Block) (w : Word) (a : Nat) :
    (s.setBlkStatus b w).blkShadow b a = s.blkShadow b a := by
  obtain ⟨hg, hc⟩ := s.setBlkStatus_shadows b w
  cases b with
  | core c => exact hc c a
  | shutter | link | cpm => exact hg a

theorem State.blkPending_setPending (hs : s.canonical) (b : Block) (v : Bool) : (s.setPending b v).blkPending b = v := by
  rw [State.blkPending, State.setPending, State.blkStatus_setBlkStatus hs]
  cases v with
  | false => exact (fld_eq_zero_iff _ _).mp (fld_setFld_self _ _ (by decide) (by decide))
  | true => exact (fld_eq_one_iff _ _).mp (fld_setFld_self _ _ (by decide) (by decide))

/-! ## A rejection (R36, R61) -/

/-- CMT_STATUS after a rejection: no commit pending, its fields the reason and the code. -/
theorem fld_rejected (w : Word) {reason : Nat} (hr : reason < 256) (code : Half) :
    let w' := setFld (setFld (setFld (setFld w 0 0 0) 1 1 1) 15 8 reason) 31 16 code.toNat
    bitAt w' 0 = false ∧ fld w' 1 1 = 1 ∧ fld w' 15 8 = reason ∧ fld w' 31 16 = code.toNat := by
  have hc := code.isLt
  refine ⟨(fld_eq_zero_iff _ _).mp ?_, ?_, ?_, ?_⟩
  · rw [fld_setFld_ne, fld_setFld_ne, fld_setFld_ne, fld_setFld_self] <;> omega
  · rw [fld_setFld_ne, fld_setFld_ne, fld_setFld_self] <;> omega
  · rw [fld_setFld_ne, fld_setFld_self] <;> omega
  · rw [fld_setFld_self] <;> omega

/-- Beside CMT_STATUS a rejection writes SHT_STATUS alone, a shutter's. -/
theorem State.blkReg_rejectCommit (s : State) (b : Block) (reason : Nat) (code : Half) :
    ∃ w, w = setFld (setFld (setFld (setFld (s.blkStatus b) 0 0 0) 1 1 1) 15 8 reason) 31 16 code.toNat ∧
      ∀ a, a ∉ blkShown b → (s.rejectCommit b reason code).blkReg b a = (s.setBlkStatus b w).blkReg b a := by
  refine ⟨_, rfl, fun a ha => ?_⟩
  unfold State.rejectCommit
  split
  · next hb =>
    subst hb
    have h : (0x40020 : Nat) ≠ a := fun e => ha (by rw [← e]; decide)
    exact (State.greg_setGf_ne _ h).trans (State.greg_setGf_ne _ h)
  · rfl

/-- A commit was not carried out: it is rejected with the reason and code, and no value in force has changed (R61). -/
def State.failedFrom (v : State) (b : Block) (reason : Nat) (code : Half) (t : State) : Prop :=
  t.blkPending b = false ∧ fld (t.blkStatus b) 1 1 = 1 ∧ fld (t.blkStatus b) 15 8 = reason ∧ fld (t.blkStatus b) 31 16 = code.toNat ∧
    ∀ o ∈ blkCmt b, t.blkReg b o.1 &&& o.2 = v.blkReg b o.1 &&& o.2

theorem State.failedFrom_rejectCommit (hs : s.canonical) (b : Block) {reason : Nat} (hr : reason < 256) (code : Half) :
    s.failedFrom b reason code (s.rejectCommit b reason code) := by
  obtain ⟨hcmt, hstatus⟩ := blkCmt_apart b
  obtain ⟨w, hw, hregs⟩ := s.blkReg_rejectCommit b reason code
  have hset : (s.rejectCommit b reason code).blkStatus b = w := by
    rw [State.blkStatus_eq, hregs _ hstatus, ← State.blkStatus_eq, State.blkStatus_setBlkStatus hs]
  obtain ⟨h0, h1, h2, h3⟩ := fld_rejected (s.blkStatus b) hr code
  rw [← hw] at h0 h1 h2 h3
  refine ⟨by rw [State.blkPending, hset, h0], by rw [hset, h1], by rw [hset, h2], by rw [hset, h3], fun o ho => ?_⟩
  rw [hregs _ (hcmt o ho).2, State.blkReg_setBlkStatus_ne s w (hcmt o ho).1]

/-! ## The application of a commit (R61) -/

/-- The registers `m` once every field of `l` has taken its value from the shadows `sh`. -/
def Sparse.taking (d : Nat → Word) (sh l m : List (Nat × Word)) : List (Nat × Word) :=
  l.foldl (fun m r => Sparse.set d m r.1 ((Sparse.get d m r.1 &&& ~~~r.2) ||| (Sparse.get d sh r.1 &&& r.2))) m

section Taking
variable {d : Nat → Word} {sh l m : List (Nat × Word)}

theorem Sparse.get_taking_ne {a : Nat} (h : ∀ r ∈ l, r.1 ≠ a) : Sparse.get d (Sparse.taking d sh l m) a = Sparse.get d m a :=
  foldl_keeps (g := fun m => Sparse.get d m a) (fun _ r hr => Sparse.get_set_ne _ _ (h r hr)) m

/-- Bits taken from `q` stay `q`'s when further bits are taken from it. -/
theorem and_of_taken {p q k : Word} (k' : Word) (h : p &&& k = q &&& k) : ((p &&& ~~~k') ||| (q &&& k')) &&& k = q &&& k := by
  ext i hi
  have hb := congrArg (·[i]) h
  simp only [BitVec.getElem_and, BitVec.getElem_or, BitVec.getElem_not] at hb ⊢
  revert hb
  cases p[i] <;> cases q[i] <;> cases k[i] <;> cases k'[i] <;> decide

theorem and_of_taken_self (p q k : Word) : ((p &&& ~~~k) ||| (q &&& k)) &&& k = q &&& k := by
  ext i hi
  simp only [BitVec.getElem_and, BitVec.getElem_or, BitVec.getElem_not]
  cases p[i] <;> cases q[i] <;> cases k[i] <;> rfl

/-- A field in force stays so while further fields take theirs. -/
theorem Sparse.taking_keeps (hm : Sparse.wf d m = true) {a : Nat} {k : Word} (h : Sparse.get d m a &&& k = Sparse.get d sh a &&& k) :
    Sparse.get d (Sparse.taking d sh l m) a &&& k = Sparse.get d sh a &&& k := by
  induction l generalizing m with
  | nil => exact h
  | cons o l ih =>
    refine ih (Sparse.wf_set _ _ hm) ?_
    by_cases ho : o.1 = a
    · subst ho
      rw [Sparse.get_set_self hm, and_of_taken _ h]
    · rw [Sparse.get_set_ne _ _ ho, h]

theorem Sparse.get_taking (hm : Sparse.wf d m = true) :
    ∀ r ∈ l, Sparse.get d (Sparse.taking d sh l m) r.1 &&& r.2 = Sparse.get d sh r.1 &&& r.2 := by
  induction l generalizing m with
  | nil => exact fun r hr => absurd hr List.not_mem_nil
  | cons o l ih =>
    intro r hr
    rcases List.mem_cons.mp hr with rfl | hr
    · refine Sparse.taking_keeps (l := l) (Sparse.wf_set _ _ hm) ?_
      rw [Sparse.get_set_self hm, and_of_taken_self]
    · exact ih (Sparse.wf_set _ _ hm) r hr

end Taking

theorem Core.foldl_takes (l : List (Nat × Word)) (x : Core) :
    l.foldl (fun c r => c.setReg r.1 ((c.reg r.1 &&& ~~~r.2) ||| (c.shadowReg r.1 &&& r.2))) x =
      { x with regs := Sparse.taking coreReset x.shadow l x.regs } := by
  induction l generalizing x with
  | nil => rfl
  | cons r l ih => exact ih _

theorem State.foldl_takes (l : List (Nat × Word)) (s : State) :
    l.foldl (fun s r => s.setGreg r.1 ((s.greg r.1 &&& ~~~r.2) ||| (s.gshadowReg r.1 &&& r.2))) s =
      { s with gregs := Sparse.taking globReset s.gshadow l s.gregs } := by
  induction l generalizing s with
  | nil => rfl
  | cons r l ih => exact ih _

/-- What a shutter commit brings with it is shown in three registers. -/
theorem State.greg_shutterApplied (s : State) {a : Nat} (h : a ∉ blkShown .shutter) (ran : Bool) (was : Nat) :
    (s.shutterApplied ran was).greg a = s.greg a := by
  have h1 : (0x40020 : Nat) ≠ a := fun e => h (by rw [← e]; decide)
  have h2 : (0x4002C : Nat) ≠ a := fun e => h (by rw [← e]; decide)
  have h3 : (0x40038 : Nat) ≠ a := fun e => h (by rw [← e]; decide)
  have source : (s.sourceApplied was).greg a = s.greg a := by
    unfold State.sourceApplied
    dsimp only
    split
    · exact (State.greg_setGf_ne _ h2).trans (State.greg_setGf_ne _ h1)
    · split
      · rfl
      · exact State.greg_setGf_ne _ h1
  have shown : (s.sourceApplied was).showCycles.greg a = s.greg a := (State.greg_setGreg_ne _ _ h3).trans source
  unfold State.shutterApplied
  dsimp only
  split
  · split
    · exact shown
    · exact (State.greg_setGf_ne (State.showCycles _) h1).trans shown
  · exact shown

/-- What a link commit brings with it is shown in the ports' LNK_PSTATUS. -/
theorem State.greg_portApplied (s : State) {p a : Nat} (h : portOff p + 4 ≠ a) : (s.portApplied p).greg a = s.greg a := by
  unfold State.portApplied
  split
  · exact State.greg_setGf_ne s h
  · split
    · exact State.greg_setGf_ne s h
    · split
      · exact State.greg_setGf_ne s h
      · rfl

theorem blkCmt_core (c : CoreId) : blkCmt (.core c) = coreCmt := rfl

/-- Fields written in some registers leave every other. -/
theorem Core.foldl_setRf_ne {f : Nat → Nat} {v : Core → Nat → Nat} {l : List Nat} {a : Nat} (h : ∀ j ∈ l, f j ≠ a) (x : Core) :
    (l.foldl (fun c j => c.setRf (f j) 0 0 (v c j)) x).reg a = x.reg a :=
  foldl_keeps (g := fun c : Core => c.reg a) (fun c j hj => Core.reg_setRf_ne c 0 0 (v c j) (h j hj)) x

/-- A register of the block's area once every field of the block has taken its value from its shadow. -/
def State.blkTaken (s : State) : Block → Nat → Word
  | .core c, a => Sparse.get coreReset (Sparse.taking coreReset (s.core c).shadow (blkCmt (.core c)) (s.core c).regs) a
  | b, a => Sparse.get globReset (Sparse.taking globReset s.gshadow (blkCmt b) s.gregs) a

theorem State.blkTaken_ne {a : Nat} (h : ∀ r ∈ blkCmt b, r.1 ≠ a) : s.blkTaken b a = s.blkReg b a := by
  cases b with
  | core c => exact Sparse.get_taking_ne h
  | shutter | link | cpm => exact Sparse.get_taking_ne h

theorem State.blkTaken_cmt (hs : s.canonical) : ∀ r ∈ blkCmt b, s.blkTaken b r.1 &&& r.2 = s.blkShadow b r.1 &&& r.2 := by
  intro r hr
  cases b with
  | core c =>
    rw [State.blkTaken]
    exact Sparse.get_taking (hs.core c).regs_wf r hr
  | shutter | link | cpm => exact Sparse.get_taking hs.gregs_wf r hr

theorem State.greg_applyGlob (s : State) (b : Block) (a : Nat) : (s.applyGlob b).greg a =
    Sparse.get globReset (Sparse.taking globReset s.gshadow (globCmt (blkRange b).1 (blkRange b).2) s.gregs) a := by
  rw [State.applyGlob, State.foldl_takes]
  rfl

/-- After a block's commit is applied its fields have taken their values from the shadows; nothing else has changed beside what the
commit shows. -/
theorem State.blkReg_applyCommit (s : State) (b : Block) {a : Nat} (h : a ∉ blkShown b) :
    (s.applyCommit b).blkReg b a = (s.setPending b false).blkTaken b a := by
  cases b with
  | core c =>
    have shown : ∀ j ∈ List.range 16, 0x7C10 + 32 * j ≠ a := fun j hj e => h (List.mem_map.mpr ⟨j, hj, e⟩)
    show (State.core _ c).reg a = _
    rw [State.applyCommit, State.core_setCore_self, Core.applyShadows, Core.foldl_takes, State.blkTaken, blkCmt_core]
    rw [Core.foldl_setRf_ne (f := fun j => 0x7C10 + 32 * j) shown, Core.reg]
  | shutter => exact (State.greg_shutterApplied _ h _ _).trans (State.greg_applyGlob _ _ _)
  | link =>
    refine (foldl_keeps (g := fun s : State => s.greg a) (fun u p hp => ?_) _).trans (State.greg_applyGlob _ _ _)
    exact u.greg_portApplied fun e => h (List.mem_map.mpr ⟨p, hp, e⟩)
  | cpm => exact State.greg_applyGlob _ _ _

/-- A commit was carried out: none is pending and every field has in force its shadow in `v` (R61). -/
def State.inForceFrom (v : State) (b : Block) (t : State) : Prop :=
  t.blkPending b = false ∧ ∀ o ∈ blkCmt b, t.blkReg b o.1 &&& o.2 = v.blkShadow b o.1 &&& o.2

theorem State.inForceFrom_applyCommit (hs : s.canonical) (b : Block) : s.inForceFrom b (s.applyCommit b) := by
  obtain ⟨hcmt, hstatus⟩ := blkCmt_apart b
  refine ⟨?_, fun o ho => ?_⟩
  · rw [State.blkPending, State.blkStatus_eq, State.blkReg_applyCommit s b hstatus, State.blkTaken_ne fun r hr => (hcmt r hr).1,
      ← State.blkStatus_eq]
    exact State.blkPending_setPending hs b false
  · rw [State.blkReg_applyCommit s b (hcmt o ho).2, State.blkTaken_cmt hs.setPending o ho]
    exact congrArg (· &&& o.2) (s.blkShadow_setBlkStatus b _ _)

end Sys2Proof.Machine
end

section
/-! O37: GO, CANCEL and the application of a commit (R60–R63). -/

namespace Sys2Proof.Machine

variable {s t : State} {b : Block}

/-! ## The checks of R61 -/

theorem State.blkRights_lt {r : Nat × Half} (h : s.blkRights b = some r) : r.1 < 256 := by
  cases b with
  | core | shutter | link | cpm =>
    simp only [State.blkRights] at h
    split at h <;> cases h
    decide

/-- The reason of a check that fails is one of the block's reasons. -/
theorem State.blkReason_lt {n : Nat} (h : s.blkReason b = some n) : n < 256 := by
  cases b with
  | core c =>
    rw [State.blkReason, coreReason] at h
    exact (by decide : ∀ m ∈ [0x01, 0x02, 0x03, 0x04, 0x07, 0x08, 0x09, 0x0A, 0x0B, 0x0C, 0x0D, 0x0E, 0x0F, 0x10, 0x11,
      0x12, 0x13, 0x14, 0x15, 0x16, 0x17, 0x18, 0x19, 0x1A], m < 256) n (List.mem_of_find?_eq_some h)
  | shutter =>
    rw [State.blkReason] at h
    exact (by decide : ∀ m ∈ [1, 2, 3, 4, 5, 7, 8], m < 256) n (List.mem_of_find?_eq_some h)
  | link =>
    simp only [State.blkReason] at h
    split_ifs at h <;> cases h <;> decide
  | cpm =>
    simp only [State.blkReason] at h
    split at h
    · cases h; decide
    · split at h
      · cases h; decide
      · split at h
        · split at h <;> cases h
          decide
        · cases h

theorem blkBusy_lt (b : Block) : blkBusy b < 256 := by cases b <;> simp [blkBusy]

/-! ## The checks at the tick's cycle -/

theorem State.blkRights_atCycle (s : State) (b : Block) (n : Nat) : (s.atCycle n).blkRights b = s.blkRights b := by
  unfold State.atCycle
  split
  · cases b <;> rfl
  · rfl

theorem State.blkReason_atCycle (s : State) (b : Block) (n : Nat) : (s.atCycle n).blkReason b = s.blkReason b := by
  unfold State.atCycle
  split
  · cases b <;> rfl
  · rfl

theorem State.blkReg_atCycle (s : State) (b : Block) (n a : Nat) : (s.atCycle n).blkReg b a = s.blkReg b a := by
  unfold State.atCycle
  split
  · cases b <;> rfl
  · rfl

theorem State.blkShadow_atCycle (s : State) (b : Block) (n a : Nat) : (s.atCycle n).blkShadow b a = s.blkShadow b a := by
  unfold State.atCycle
  split
  · cases b <;> rfl
  · rfl

/-! ## A commit tried -/

theorem State.inForceFrom_tryCommit (hs : s.canonical) (hr : s.blkRights b = none) (hn : s.blkReason b = none) :
    s.inForceFrom b (s.tryCommit b) := by
  rw [State.tryCommit, hr, hn]
  exact State.inForceFrom_applyCommit hs b

theorem State.failedFrom_tryCommit_rights (hs : s.canonical) {r : Nat × Half} (hr : s.blkRights b = some r) :
    s.failedFrom b r.1 r.2 (s.tryCommit b) := by
  rw [State.tryCommit, hr]
  exact State.failedFrom_rejectCommit hs b (State.blkRights_lt hr) r.2

theorem State.failedFrom_tryCommit_reason (hs : s.canonical) (hr : s.blkRights b = none) {n : Nat} (hn : s.blkReason b = some n) :
    s.failedFrom b n 0x0204#16 (s.tryCommit b) := by
  rw [State.tryCommit, hr, hn]
  exact State.failedFrom_rejectCommit hs b (State.blkReason_lt hn) _

/-! ## Application at a tick -/

theorem State.commitTick_eq (hp : s.blkPending b = true) (ht : s.ticking = true) (hi : s.blkIdle b true = true) :
    s.commitTick b = (s.atCycle s.shutter.nextTick).tryCommit b := by
  simp [State.commitTick, hp, ht, hi]

theorem State.inForceFrom_commitTick (hs : s.canonical) (hp : s.blkPending b = true) (ht : s.ticking = true)
    (hi : s.blkIdle b true = true) (hr : s.blkRights b = none) (hn : s.blkReason b = none) : s.inForceFrom b (s.commitTick b) := by
  obtain ⟨h0, hcmt⟩ := State.inForceFrom_tryCommit (b := b) hs.atCycle ((s.blkRights_atCycle b s.shutter.nextTick).trans hr)
    ((s.blkReason_atCycle b _).trans hn)
  rw [State.commitTick_eq hp ht hi]
  exact ⟨h0, fun o ho => (hcmt o ho).trans (congrArg (· &&& o.2) (s.blkShadow_atCycle b _ _))⟩

theorem State.failedFrom_of_atCycle {n r : Nat} {code : Half} (h : (s.atCycle n).failedFrom b r code t) : s.failedFrom b r code t := by
  obtain ⟨h0, h1, h2, h3, hcmt⟩ := h
  exact ⟨h0, h1, h2, h3, fun o ho => (hcmt o ho).trans (congrArg (· &&& o.2) (s.blkReg_atCycle b _ _))⟩

theorem State.failedFrom_commitTick (hs : s.canonical) (hp : s.blkPending b = true) (ht : s.ticking = true)
    (hi : s.blkIdle b true = true) :
    (∀ r, s.blkRights b = some r → s.failedFrom b r.1 r.2 (s.commitTick b)) ∧
      (s.blkRights b = none → ∀ n, s.blkReason b = some n → s.failedFrom b n 0x0204#16 (s.commitTick b)) := by
  rw [State.commitTick_eq hp ht hi]
  refine ⟨fun r hr => ?_, fun hr n hn => ?_⟩
  · exact State.failedFrom_of_atCycle (State.failedFrom_tryCommit_rights hs.atCycle ((s.blkRights_atCycle b _).trans hr))
  · exact State.failedFrom_of_atCycle (State.failedFrom_tryCommit_reason hs.atCycle ((s.blkRights_atCycle b _).trans hr)
      ((s.blkReason_atCycle b _).trans hn))

/-! ## GO and CANCEL -/

/-- Every shadow of `u` is as it was. -/
def State.shadowsKept (u t : State) : Prop :=
  (∀ a, t.gshadowReg a = u.gshadowReg a) ∧ ∀ d a, (t.core d).shadowReg a = (u.core d).shadowReg a

/-- GO without IMMEDIATE makes a commit pending, whatever its rights (R60, log entry 15). -/
theorem State.commitGo_pends (hs : s.canonical) (hp : s.blkPending b = false) :
    (s.commitGo b false).blkPending b = true ∧ s.shadowsKept (s.commitGo b false) := by
  have h : s.commitGo b false = s.setPending b true := by simp [State.commitGo, hp]
  rw [h]
  exact ⟨State.blkPending_setPending hs b true, s.setBlkStatus_shadows b _⟩

theorem State.commitCancel_withdraws (hs : s.canonical) (hp : s.blkPending b = true) :
    (s.commitCancel b).blkPending b = false ∧ s.shadowsKept (s.commitCancel b) := by
  rw [State.commitCancel, if_pos hp]
  exact ⟨State.blkPending_setPending hs b false, s.setBlkStatus_shadows b _⟩

theorem State.commitGo_pending (hp : s.blkPending b = true) (im : Bool) : s.commitGo b im = s := by simp [State.commitGo, hp]

theorem State.commitCancel_idle (hp : s.blkPending b = false) : s.commitCancel b = s := by simp [State.commitCancel, hp]

theorem State.commitTick_idle (hp : s.blkPending b = false) : s.commitTick b = s := by simp [State.commitTick, hp]

/-- GO with IMMEDIATE, the committer allowed and the block idle. -/
theorem State.commitGo_idle (hp : s.blkPending b = false) (hr : s.blkRights b = none) (hi : s.blkIdle b false = true) :
    s.commitGo b true = s.tryCommit b := by simp [State.commitGo, hp, hr, hi]

theorem State.failedFrom_commitGo (hs : s.canonical) (hp : s.blkPending b = false) :
    (∀ r, s.blkRights b = some r → s.failedFrom b r.1 r.2 (s.commitGo b true)) ∧
      (s.blkRights b = none → s.blkIdle b false = false → s.failedFrom b (blkBusy b) 0x0204#16 (s.commitGo b true)) ∧
      (s.blkRights b = none → s.blkIdle b false = true → ∀ n, s.blkReason b = some n →
        s.failedFrom b n 0x0204#16 (s.commitGo b true)) := by
  refine ⟨fun r hr => ?_, fun hr hi => ?_, fun hr hi n hn => ?_⟩
  · have h : s.commitGo b true = s.rejectCommit b r.1 r.2 := by simp [State.commitGo, hp, hr]
    rw [h]
    exact State.failedFrom_rejectCommit hs b (State.blkRights_lt hr) r.2
  · have h : s.commitGo b true = s.rejectCommit b (blkBusy b) 0x0204#16 := by simp [State.commitGo, hp, hr, hi]
    rw [h]
    exact State.failedFrom_rejectCommit hs b (blkBusy_lt b) _
  · rw [State.commitGo_idle hp hr hi]
    exact State.failedFrom_tryCommit_reason hs hr hn

/-! ## The commands' writes -/

theorem State.commitWrite_go (s : State) (b : Block) (im : Bool) : s.commitWrite b (goWord im) = s.commitGo b im := by
  cases im <;> rfl

theorem State.commitWrite_cancel (s : State) (b : Block) : s.commitWrite b 4#32 = s.commitCancel b := rfl

/-- A write of a chip-level block's commit register. -/
theorem State.regWrite_commit {a : Nat} (ha : s.accessible = true) (h : commitOf a = some b) (w : Word) :
    s.regWrite a w = s.commitWrite b w := by
  have hoff : a = 0x40008 ∨ a = 0x60000 ∨ a = 0x30004 := by
    unfold commitOf at h
    split_ifs at h <;> simp_all
  rcases hoff with rfl | rfl | rfl <;> cases h <;>
    simp [State.regWrite, ha, State.bar0Write, State.globWrite, keyRole, commitOf]

theorem State.coreWrite_commit (s : State) (c : CoreId) (w : Word) : s.coreWrite c 0x1200 w = s.commitWrite (.core c) w := by
  simp [State.coreWrite]

/-- A write of a core's commit register finds the core as its cycles have left it. -/
theorem State.regWrite_coreCommit {c : CoreId} (ha : s.accessible = true) (hv : s.available c = true)
    (hsl : s.slicing c 0x1200 = false) (w : Word) :
    s.regWrite (winBase c + 0x1200) w = (s.settleAt (winBase c + 0x1200)).commitWrite (.core c) w := by
  rw [State.regWrite, if_pos ha, State.bar0Write_window (winOf_winBase c (by decide)) (by decide) hv hsl, State.coreWrite_commit]

/-! ## The obligation -/

/-- What O37 says of a block whose GO and CANCEL act on `u`. -/
def State.commits (s u : State) (b : Block) (go : Bool → Instr) (cancel : Instr) : Prop :=
  (u.blkPending b = false → s.gives (go false) fun t => t.blkPending b = true ∧ u.shadowsKept t) ∧
  (u.blkPending b = false → u.blkRights b = none → u.blkIdle b false = true → u.blkReason b = none →
    s.gives (go true) (u.inForceFrom b)) ∧
  (u.blkPending b = true → s.gives cancel fun t => t.blkPending b = false ∧ u.shadowsKept t) ∧
  (s.blkPending b = true → s.ticking = true → s.blkIdle b true = true → s.blkRights b = none → s.blkReason b = none →
    s.gives (.commitApply b) (s.inForceFrom b)) ∧
  (u.blkPending b = true → s.gives (go false) (· = u) ∧ s.gives (go true) (· = u)) ∧
  (u.blkPending b = false → s.gives cancel (· = u)) ∧
  (s.blkPending b = false → s.gives (.commitApply b) (· = s)) ∧
  (s.blkPending b = true → s.ticking = true → s.blkIdle b true = true →
    (∀ x, s.blkRights b = some x → s.gives (.commitApply b) (s.failedFrom b x.1 x.2)) ∧
    (s.blkRights b = none → ∀ n, s.blkReason b = some n → s.gives (.commitApply b) (s.failedFrom b n 0x0204#16))) ∧
  (u.blkPending b = false →
    (∀ x, u.blkRights b = some x → s.gives (go true) (u.failedFrom b x.1 x.2)) ∧
    (u.blkRights b = none → u.blkIdle b false = false → s.gives (go true) (u.failedFrom b (blkBusy b) 0x0204#16)) ∧
    (u.blkRights b = none → u.blkIdle b false = true → ∀ n, u.blkReason b = some n →
      s.gives (go true) (u.failedFrom b n 0x0204#16)))

theorem State.commits_of {u : State} {go : Bool → Instr} {cancel : Instr} (hs : s.canonical) (hu : u.canonical)
    (hgo : ∀ im, exec (go im) s = .next (u.commitGo b im)) (hcancel : exec cancel s = .next (u.commitCancel b)) :
    s.commits u b go cancel := by
  have apply : exec (.commitApply b) s = .next (s.commitTick b) := rfl
  refine ⟨fun hp => State.gives_of (hgo _) (State.commitGo_pends hu hp), fun hp hr hi hn => State.gives_of (hgo _) ?_,
    fun hp => State.gives_of hcancel (State.commitCancel_withdraws hu hp),
    fun hp ht hi hr hn => State.gives_of apply (State.inForceFrom_commitTick hs hp ht hi hr hn),
    fun hp => ⟨State.gives_of (hgo _) (State.commitGo_pending hp _), State.gives_of (hgo _) (State.commitGo_pending hp _)⟩,
    fun hp => State.gives_of hcancel (State.commitCancel_idle hp), fun hp => State.gives_of apply (State.commitTick_idle hp),
    fun hp ht hi => ?_, fun hp => ?_⟩
  · rw [State.commitGo_idle hp hr hi]
    exact State.inForceFrom_tryCommit hu hr hn
  · obtain ⟨hrights, hreason⟩ := State.failedFrom_commitTick hs hp ht hi
    exact ⟨fun x hx => State.gives_of apply (hrights x hx), fun hr n hn => State.gives_of apply (hreason hr n hn)⟩
  · obtain ⟨hrights, hbusy, hreason⟩ := State.failedFrom_commitGo hu hp
    exact ⟨fun x hx => State.gives_of (hgo _) (hrights x hx), fun hr hi => State.gives_of (hgo _) (hbusy hr hi),
      fun hr hi n hn => State.gives_of (hgo _) (hreason hr hi n hn)⟩

/-- A chip-level block, its commit register at `a`. -/
theorem State.commits_chip {a : Nat} {go : Bool → Instr} {cancel : Instr} (hs : s.canonical) (ha : s.accessible = true)
    (h : commitOf a = some b) (hgo : ∀ im, exec (go im) s = .next (s.regWrite a (goWord im)))
    (hcancel : exec cancel s = .next (s.regWrite a 4#32)) : s.commits s b go cancel :=
  State.commits_of hs hs (fun im => by rw [hgo, State.regWrite_commit ha h, State.commitWrite_go])
    (by rw [hcancel, State.regWrite_commit ha h, State.commitWrite_cancel])

theorem State.commits_core {c : CoreId} (hs : s.canonical) (ha : s.accessible = true) (hv : s.available c = true)
    (hsl : s.slicing c 0x1200 = false) :
    s.commits (s.settleAt (winBase c + 0x1200)) (.core c) (.coreCommitGo c) (.coreCommitCancel c) := by
  have hgo : ∀ im, exec (.coreCommitGo c im) s = .next (s.regWrite (winBase c + 0x1200) (goWord im)) := fun _ => rfl
  have hcancel : exec (.coreCommitCancel c) s = .next (s.regWrite (winBase c + 0x1200) 4#32) := rfl
  exact State.commits_of hs hs.settleAt (fun im => by rw [hgo, State.regWrite_coreCommit ha hv hsl, State.commitWrite_go])
    (by rw [hcancel, State.regWrite_coreCommit ha hv hsl, State.commitWrite_cancel])

/-- Settles O37: a commit's request, withdrawal, application and rejection, each through the block's registers and shadows. -/
theorem commitsOfBlocks : Obligations.CommitsOfBlocks := by
  intro s c hs ha hv hsl r hr
  simp only [List.mem_cons, List.not_mem_nil, or_false] at hr
  rcases hr with rfl | rfl | rfl | rfl
  · exact State.commits_chip (a := 0x40008) hs ha rfl (fun _ => rfl) rfl
  · exact State.commits_core hs ha hv hsl
  · exact State.commits_chip (a := 0x60000) hs ha rfl (fun _ => rfl) rfl
  · exact State.commits_chip (a := 0x30004) hs ha rfl (fun _ => rfl) rfl

end Sys2Proof.Machine
end

section
/-! SUPPORT. The issue of an engine's instruction (R223, R257): the core it finds, and what it leaves in flight of what the engine starts. -/

namespace Sys2Proof.Machine

variable {x y z : Core} {k : Ctx} {s : State} {a : Site} {i : Instr}

/-! ## The core an engine's instruction finds -/

theorem Core.atBundle_arrive (x : Core) (k : Ctx) (b : BitVec 13) (slot : Nat) : x.atBundle (x.arrive k b slot) := by
  cases h : x.sameIssue b slot with
  | true =>
    rw [Core.arrive, if_pos h]
    exact ⟨fun _ _ => rfl, rfl, rfl, rfl, rfl, rfl, rfl, id⟩
  | false =>
    obtain ⟨ls, lc, hy⟩ := Core.arrive_moves k h
    rw [hy]
    exact ⟨fun _ hr => Core.reg_setRf_ne x _ _ _ (Ne.symm hr), rfl, rfl, rfl, rfl, rfl, rfl, fun hx => hx.setRf (a := 0x2004)⟩

theorem State.atBundle_arrived (s : State) (a : Site) (i : Instr) (n : Nat) : (s.core a.core).atBundle (s.arrived a i n) :=
  Core.atBundle_arrive _ _ _ _

/-- The sequencer's arrival leaves the engines and the memory alone. -/
theorem State.arrived_engines (s : State) (a : Site) (i : Instr) (n : Nat) :
    (s.arrived a i n).te = (s.core a.core).te ∧ (s.arrived a i n).mem = (s.core a.core).mem ∧
      (s.arrived a i n).inflight = (s.core a.core).inflight := by
  unfold State.arrived Core.arrive
  split <;> exact ⟨rfl, rfl, rfl⟩

theorem Core.atBundle.engAddr (h : x.atBundle y) (k : Ctx) (base : Nat) (r : BitVec 5) (align : Nat) :
    y.engAddr k base r align = x.engAddr k base r align := by
  rw [Core.engAddr, Core.engAddr, h.sreg]

theorem State.tc1_ctxAt (s : State) (c : CoreId) (n : Nat) : (s.ctxAt c n).tc1 = s.tc1 := by
  show ((s.atCycle n).tick1).tc1 = s.tc1
  unfold State.atCycle
  split <;> rfl

/-! ## The ports (R49–R51) -/

@[simp] theorem PendingOp.settled_disturbed (n : Nat) (runs : List (Nat × List Byte)) (o : PendingOp) :
    (o.disturbed n runs).settled = o.settled := by
  unfold PendingOp.disturbed
  split
  · next h =>
    have hu : o.unit = .xe := by simp only [Bool.and_eq_true, decide_eq_true_eq] at h; exact h.1
    simp [PendingOp.settled, hu]
  · rfl

theorem Core.joinPorts_engines (x : Core) (i : Instr) (n : Nat) : (x.joinPorts i n).te = x.te ∧ (x.joinPorts i n).mem = x.mem := by
  unfold Core.joinPorts
  split
  · dsimp only
    split <;> exact ⟨rfl, rfl⟩
  · exact ⟨rfl, rfl⟩

/-- An instruction in flight as new users of some ports leave it: it waits where it meets them. -/
def Core.meeting (c : Core) (ps : List PortUse) (o : PendingOp) : PendingOp :=
  if c.contends o.ports ps then { o with contended := true } else o

@[simp] theorem Core.settled_meeting (c : Core) (ps : List PortUse) (o : PendingOp) : (c.meeting ps o).settled = o.settled := by
  unfold Core.meeting
  split <;> rfl

/-- The instruction that issued last takes its ports behind those that were in flight before it. -/
theorem Core.joinPorts_last (hi : channelOf i = none) {l : List PendingOp} {op : PendingOp} (hz : z.inflight = l ++ [op]) :
    ∃ l' ps hit, (z.joinPorts i l.length).inflight = l' ++ [{ op with ports := ps, contended := hit }] ∧
      l'.map PendingOp.settled = l.map PendingOp.settled := by
  let ps := z.portsOf i
  let hit := z.contends ps (({ z with inflight := l } : Core).portsInUse ++ z.visitors)
  refine ⟨l.map (z.meeting ps), ps, hit, ?_, ?_⟩
  · unfold Core.joinPorts
    rw [hi]
    simp only [Core.crowd, hz, List.take_left', List.drop_left', List.map_cons, List.map_nil]
    rfl
  · rw [List.map_map]
    exact List.map_congr_left fun o _ => z.settled_meeting ps o

/-! ## The issue -/

/-- With an instruction in flight no frame retires. -/
theorem Core.checkRetire_busy (h : x.inflight ≠ []) (k : Ctx) : x.checkRetire k = x :=
  Core.checkRetire_eq_self (by simp [Core.quietEnd, h])

/-- What an engine's instruction leaves of its core at its issue, if something is in flight then. -/
theorem State.core_issue {cyc : Nat} {f : Ctx → Core → At → Core} (h : s.issues a i cyc) (hch : channelOf i = none)
    (hz : f (s.ctxAt a.core cyc) (s.arrived a i cyc) ⟨a.core, a.bundle, false⟩ = z) (hne : z.inflight ≠ []) :
    (s.issue a i f).core a.core = (z.joinPorts i (s.core a.core).inflight.length).drained := by
  obtain ⟨⟨hc, hd, -, hret, hl⟩, hsupp⟩ := h
  let k := s.ctxAt a.core cyc
  let w := z.joinPorts i (s.core a.core).inflight.length
  have hopen : (s.core a.core).reopen a.bundle (slotNo i) = s.core a.core := by
    rw [Core.reopen, hret]
    simp
  have hdone : f k (s.arrived a i cyc) ((s.arrived a i cyc).siteOf k a) = z := by
    unfold State.suppresses at hsupp
    rw [← hz, ← hsupp]
    rfl
  have hrun : Core.performed k a i f (s.core a.core) =
      Core.drained (if decide (slotNo i ≠ 0) || w.seq.stopped then w.checkRetire k else w) := by
    unfold Core.performed
    rw [hopen]
    dsimp only
    rw [show (s.core a.core).arrive k a.bundle (slotNo i) = s.arrived a i cyc from rfl, hdone]
  have hbusy : w.inflight ≠ [] := by
    intro hw
    have := Core.joinPorts_inflight z hch (s.core a.core).inflight.length
    rw [show (z.joinPorts i _).inflight = [] from hw] at this
    exact hne (List.isEmpty_iff.1 this.symm)
  rw [State.issue, State.issueWith_eq _ hc hd hl, (State.perform_spec s a i cyc f).1]
  exact hrun.trans (by rw [Core.checkRetire_busy hbusy, ite_self])

/-- What the issue of an unsuppressed instruction puts in flight (R257). -/
def Core.started (k : Ctx) (c : Core) (b : BitVec 13) (u : EngUnit) (lat interval tokens : Nat) (op : PendingOp) : PendingOp :=
  { op with
    id := c.nextId, unit := u, bundle := b, supp := false, issue := k.clock
    due := k.clock + lat, free := k.clock + interval, tokens := tokens, tokenEnd := k.clock + interval
    waits := c.waitsOf k b (unitIdx u), fate := Config.fate k.ctr
    early := op.early ++ earlyFences k lat op.effs, effs := op.effs.filter fun e => !e.isFence }

theorem Core.issue_inflight (k : Ctx) (c : Core) {at_ : At} (h : at_.supp = false) (u : EngUnit) (lat interval tokens : Nat) (op : PendingOp) :
    ∃ l, (c.issue k at_ u lat interval tokens op).inflight = l ++ [c.started k at_.bundle u lat interval tokens op] ∧
      l.map PendingOp.settled = c.inflight.map PendingOp.settled := by
  refine ⟨c.inflight.map (PendingOp.disturbed k.ctr ((c.started k at_.bundle u lat interval tokens op).effs.filterMap (·.run))), ?_, ?_⟩
  · unfold Core.issue
    rw [h]
    rfl
  · rw [List.map_map]
    exact List.map_congr_left fun o _ => o.settled_disturbed _ _

/-- An engine's instruction that issues, not suppressed, starts its operation (R257); its core's tensor engine and memory are as the
instruction leaves them. -/
theorem State.startsOp_issue {cyc : Nat} {f : Ctx → Core → At → Core} {u : EngUnit} {lat interval tokens : Nat} {op : PendingOp}
    (h : s.issues a i cyc) (hch : channelOf i = none)
    (hf : f (s.ctxAt a.core cyc) (s.arrived a i cyc) ⟨a.core, a.bundle, false⟩ =
      x.issue (s.ctxAt a.core cyc) ⟨a.core, a.bundle, false⟩ u lat interval tokens op)
    (hin : x.inflight = (s.core a.core).inflight) :
    let t := s.issue a i f
    (∃ ps hit, s.startsOp t a cyc u lat
      (· = { x.started (s.ctxAt a.core cyc) a.bundle u lat interval tokens op with ports := ps, contended := hit })) ∧
      (t.core a.core).te = x.te ∧ (t.core a.core).mem = x.mem := by
  intro t
  obtain ⟨l, hl, hset⟩ := x.issue_inflight (s.ctxAt a.core cyc) (at_ := ⟨a.core, a.bundle, false⟩) rfl u lat interval tokens op
  have hcore : t.core a.core = _ := State.core_issue h hch hf (by rw [hl]; simp)
  have hlen : (s.core a.core).inflight.length = l.length := by
    rw [← hin]
    simpa using congrArg List.length hset.symm
  rw [hcore, hlen]
  obtain ⟨l', ps, hit, hl', hset'⟩ := Core.joinPorts_last hch hl
  obtain ⟨hte, hmem⟩ := (x.issue (s.ctxAt a.core cyc) ⟨a.core, a.bundle, false⟩ u lat interval tokens op).joinPorts_engines i l.length
  refine ⟨⟨ps, hit, l', _, ?_, hset'.trans (hset.trans (by rw [hin])), rfl, rfl, rfl, rfl, rfl, rfl⟩, hte, hmem⟩
  rw [hcore, hlen]
  exact hl'

theorem State.startsOp.imp {t : State} {cyc lat : Nat} {u : EngUnit} {p q : PendingOp → Prop} (h : s.startsOp t a cyc u lat p)
    (hpq : ∀ o, p o → q o) : s.startsOp t a cyc u lat q := by
  obtain ⟨l, op, hl, hset, hu, hb, hs, hi, hd, hp⟩ := h
  exact ⟨l, op, hl, hset, hu, hb, hs, hi, hd, hpq op hp⟩

end Sys2Proof.Machine
end

section
/-! O18: TPRINT (R75–R81, R262). -/

namespace Sys2Proof.Machine

variable {x y : Core} {k : Ctx} {s : State} {a : Site}

/-! ## The descriptor and the time of a print -/

theorem Core.printDesc_congr {n : Nat} (h : ∀ r, 0x4800 ≤ r → y.reg r = x.reg r) : y.printDesc n = x.printDesc n := by
  have hr : ∀ j, y.reg (0x4800 + 32 * n + j) = x.reg (0x4800 + 32 * n + j) := fun j => h _ (by omega)
  simp only [Core.printDesc, Core.rf, hr, show y.reg (0x4800 + 32 * n) = x.reg (0x4800 + 32 * n) from hr 0]

theorem printTime_eq (d : PrintDesc) :
    printTime d = if isMx d.ofmt ∧ d.mxax = true then 128 + printLen d.ofmt / 128 else max (printLen d.ofmt / 128) 128 := by
  have hmax : ∀ n, (if n < 128 then 128 else n) = max n 128 := fun n => by split <;> omega
  simp only [printTime, Bool.and_eq_true, hmax]

/-! ## The claim (R120) -/

theorem Core.claimed_free {t : Nat} (h : x.te.owners.getD t none = none) (ch : Option Nat) : x.claimed [t] ch = none := by
  simp only [Core.claimed, List.findSome?_cons, List.findSome?_nil, h]

theorem Core.claim_owner {t : Nat} (h : t < x.te.owners.length) (id : Nat) (b : BitVec 13) :
    (x.claim [t] id b).te.owners.getD t none = some (id, b) := getD_setAt_self _ _ _ h

/-! ## The effects of a print -/

/-- The effect neither contributes to an amax nor marks an entry for a push. -/
def Eff.plain (e : Eff) : Prop := (∀ n w, e ≠ .amax n w) ∧ ∀ n, e ≠ .push n

theorem Core.plain_readE {m n len : Nat} : ∀ e ∈ (x.readE k m n len).2, e.plain := by
  intro e he
  unfold Core.readE at he
  dsimp only at he
  split at he
  · cases he
  · obtain ⟨r, -, rfl⟩ := List.mem_map.1 he
    exact ⟨nofun, nofun⟩

theorem Core.plain_writeE {m n : Nat} {bs : List Byte} : ∀ e ∈ x.writeE m n bs, e.plain := by
  intro e he
  obtain ⟨r, -, rfl⟩ := List.mem_map.1 he
  split <;> exact ⟨nofun, nofun⟩

/-- A print whose tile is free and whose block lies in its bank claims the tile and issues, with its contribution to the amax and its
mark among its effects where the descriptor asks for them. -/
theorem Core.tprint_issue {at_ : At} {o : TPrintOp} (hs : at_.supp = false) (hfree : x.te.owners.getD o.tile.toNat none = none)
    (hbank : inBank (o.dbase.toNat * 128) (x.engAddr k (o.dbase.toNat * 128) o.ar 128) (printLen (x.printDesc o.pd.toNat).ofmt) = true) :
    let d := x.printDesc o.pd.toNat
    ∃ (op : PendingOp) (w : Word) (before after : List Eff), x.tprint k at_ o =
        (x.claim [o.tile.toNat] x.nextId at_.bundle).issue k at_ .tePrint (printTime d + if k.tc1 then 24 else 28) (printTime d) 1 op ∧
      op.claims = [o.tile.toNat] ∧ op.raises = [] ∧
      op.effs = before ++ (if d.cap then [.amax d.sidx w] else []) ++ (if d.hpush then [.push d.sidx] else []) ++ after ∧
      (∀ e ∈ before, e.plain) ∧ ∀ e ∈ after, e.plain := by
  have hclaimed := Core.claimed_free hfree none
  have hin : ¬ (!inBank (o.dbase.toNat * 128) (x.engAddr k (o.dbase.toNat * 128) o.ar 128)
      (printLen (x.printDesc o.pd.toNat).ofmt)) = true := by rw [hbank]; decide
  have reads : ∀ m n len, ∀ e ∈ (Core.readE k (x.claim [o.tile.toNat] x.nextId at_.bundle) m n len).2, e.plain :=
    fun _ _ _ => Core.plain_readE
  intro d
  -- The reads stand under a name, so that nothing below evaluates one (`readE_named`).
  generalize hx : x.tprint k at_ o = z
  unfold Core.tprint at hx
  obtain ⟨rd, hrd⟩ := Core.readE_named
  rw [hrd] at hx reads
  extract_lets at hx
  rw [if_neg (by rw [hs]; decide), hclaimed] at hx
  dsimp only at hx
  rw [if_neg hin] at hx
  refine ⟨_, _, _, _, hx.symm, rfl, rfl, rfl, ?_, ?_⟩
  · intro e he
    rcases List.mem_append.1 he with he | he
    · rcases List.mem_append.1 he with he | he
      · exact reads _ _ _ e he
      · split at he
        · exact reads _ _ _ e he
        · cases he
    · exact Core.plain_writeE e he
  · intro e he
    split at he
    · cases he
    · rw [List.mem_singleton.1 he]
      exact ⟨nofun, nofun⟩

/-- Which marks a print leaves is told by its descriptor. -/
theorem Eff.marks_iff {before after : List Eff} (hb : ∀ e ∈ before, e.plain) (ha : ∀ e ∈ after, e.plain) (n : Nat) (w : Word)
    (cap hpush : Bool) :
    let l := (before ++ (if cap then [Eff.amax n w] else []) ++ (if hpush then [Eff.push n] else []) ++ after).filter fun e => !e.isFence
    ((∃ v, Eff.amax n v ∈ l) ↔ cap = true) ∧ (Eff.push n ∈ l ↔ hpush = true) := by
  have noAmax : ∀ v, Eff.amax n v ∉ before ∧ Eff.amax n v ∉ after := fun v => ⟨fun h => (hb _ h).1 n v rfl, fun h => (ha _ h).1 n v rfl⟩
  have noPush : Eff.push n ∉ before ∧ Eff.push n ∉ after := ⟨fun h => (hb _ h).2 n rfl, fun h => (ha _ h).2 n rfl⟩
  constructor <;> simp [noAmax, noPush, Eff.isFence]

/-- Settles O18: the print's issue puts it in flight with its claim, its time and its marks. -/
theorem tprintClaimsTile : Obligations.TprintClaimsTile := by
  intro s a cyc o hlen c k d base addr len rows hfree hfirst hlast hiss
  let y := s.arrived a (.tprint a o) cyc
  have hy : c.atBundle y := s.atBundle_arrived a _ cyc
  obtain ⟨hte, hmem, hin⟩ : y.te = c.te ∧ y.mem = c.mem ∧ y.inflight = c.inflight := s.arrived_engines a _ cyc
  have hd : y.printDesc o.pd.toNat = d := Core.printDesc_congr fun r hr => hy.reg r (by omega)
  have haddr : y.engAddr k base o.ar 128 = addr := hy.engAddr k base o.ar 128
  have hbank : inBank base (y.engAddr k base o.ar 128) (printLen (y.printDesc o.pd.toNat).ofmt) = true := by
    rw [haddr, hd, inBank, Bool.and_eq_true, decide_eq_true_eq, decide_eq_true_eq]
    exact ⟨hfirst, hlast⟩
  have hfree' : y.te.owners.getD o.tile.toNat none = none := by rw [hte]; exact hfree
  obtain ⟨op, w, before, after, hf, hclaims, hraises, heffs, hb, ha⟩ :=
    Core.tprint_issue (k := k) (at_ := ⟨a.core, a.bundle, false⟩) rfl hfree' hbank
  rw [hd] at hf heffs
  obtain ⟨⟨ps, hit, hstarts⟩, hte', hmem'⟩ := State.startsOp_issue (f := fun k c a => c.tprint k a o) hiss rfl hf hin
  obtain ⟨hcap, hpush⟩ := Eff.marks_iff hb ha d.sidx w d.cap d.hpush
  rw [← heffs] at hcap hpush
  refine ⟨_, rfl, ?_, hmem'.trans hmem⟩
  rw [← printTime_eq, ← s.tc1_ctxAt a.core cyc]
  refine hstarts.imp fun p hp => ?_
  subst hp
  refine ⟨hclaims, hraises, hcap, hpush, ?_⟩
  rw [hte']
  exact Core.claim_owner (by rw [hte, hlen]; exact o.tile.isLt) _ _

end Sys2Proof.Machine
end

section
/-! SUPPORT. An engine's instruction at its issue (R223, R257): the core it leaves, whatever it does beside what it puts in flight. -/

namespace Sys2Proof.Machine

variable {x y z : Core} {k : Ctx} {s : State} {a : Site} {i : Instr}

/-! ## The core an instruction leaves -/

/-- What an engine's instruction leaves of its core at its issue. -/
theorem State.core_issue_retired {cyc : Nat} {f : Ctx → Core → At → Core} (h : s.issues a i cyc) (hslot : slotNo i ≠ 0)
    (hz : f (s.ctxAt a.core cyc) (s.arrived a i cyc) ⟨a.core, a.bundle, false⟩ = z) :
    (s.issue a i f).core a.core =
      ((z.joinPorts i (s.core a.core).inflight.length).checkRetire (s.ctxAt a.core cyc)).drained := by
  obtain ⟨⟨hc, hd, -, hret, hl⟩, hsupp⟩ := h
  have hopen : (s.core a.core).reopen a.bundle (slotNo i) = s.core a.core := by
    rw [Core.reopen, hret]
    simp
  have hdone : f (s.ctxAt a.core cyc) (s.arrived a i cyc) ((s.arrived a i cyc).siteOf (s.ctxAt a.core cyc) a) = z := by
    unfold State.suppresses at hsupp
    rw [← hz, ← hsupp]
    rfl
  rw [State.issue, State.issueWith_eq _ hc hd hl, (State.perform_spec s a i cyc f).1]
  change Core.performed (s.ctxAt a.core cyc) a i f (s.core a.core) = _
  unfold Core.performed
  dsimp only
  rw [hopen, show (s.core a.core).arrive (s.ctxAt a.core cyc) a.bundle (slotNo i) = s.arrived a i cyc from rfl, hdone,
    show (decide (slotNo i ≠ 0) || _) = true by simp [hslot], if_pos rfl]

/-- An engine's instruction that issues, not suppressed, starts the operation that it puts in flight (R257); the rest of its core is as
the instruction leaves it. -/
theorem State.startsOp_of_inflight {cyc : Nat} {f : Ctx → Core → At → Core} {u : EngUnit} {lat interval tokens : Nat} {op : PendingOp}
    (h : s.issues a i cyc) (hch : channelOf i = none)
    (hf : f (s.ctxAt a.core cyc) (s.arrived a i cyc) ⟨a.core, a.bundle, false⟩ = z)
    (hz : z.inflight = (x.issue (s.ctxAt a.core cyc) ⟨a.core, a.bundle, false⟩ u lat interval tokens op).inflight)
    (hin : x.inflight = (s.core a.core).inflight) :
    let t := s.issue a i f
    (∃ ps hit, s.startsOp t a cyc u lat
      (· = { x.started (s.ctxAt a.core cyc) a.bundle u lat interval tokens op with ports := ps, contended := hit })) ∧
      (t.core a.core).te = z.te ∧ (t.core a.core).mem = z.mem ∧ (t.core a.core).regs = z.regs := by
  intro t
  obtain ⟨l, hl, hset⟩ := x.issue_inflight (s.ctxAt a.core cyc) (at_ := ⟨a.core, a.bundle, false⟩) rfl u lat interval tokens op
  rw [hl] at hz
  have hcore : t.core a.core = _ := State.core_issue h hch hf (by rw [hz]; simp)
  have hlen : (s.core a.core).inflight.length = l.length := by
    rw [← hin]
    simpa using congrArg List.length hset.symm
  rw [hcore, hlen]
  obtain ⟨l', ps, hit, hl', hset'⟩ := Core.joinPorts_last hch hz
  obtain ⟨hte, hmem⟩ := z.joinPorts_engines i l.length
  obtain ⟨-, -, hregs⟩ := z.joinPorts_keeps i l.length
  refine ⟨⟨ps, hit, l', _, ?_, hset'.trans (hset.trans (by rw [hin])), rfl, rfl, rfl, rfl, rfl, rfl⟩, hte, hmem, hregs⟩
  rw [hcore, hlen]
  exact hl'

/-- The instruction that issued last stands last in flight. -/
theorem Core.issue_getLast (k : Ctx) (c : Core) {at_ : At} (h : at_.supp = false) (u : EngUnit) (lat interval tokens : Nat)
    (op : PendingOp) : (c.issue k at_ u lat interval tokens op).inflight.getLast? =
      some (c.started k at_.bundle u lat interval tokens op) := by
  obtain ⟨l, hl, -⟩ := c.issue_inflight k h u lat interval tokens op
  rw [hl, List.getLast?_concat]

/-! ## What an instruction reads (R52, R57) -/

/-- Two cores whose memories read alike: their bytes, what is in flight over them, and their fences. -/
structure Core.readsAs (x y : Core) : Prop where
  mem : y.mem = x.mem
  inflight : y.inflight = x.inflight
  fences : ∀ r, 0x1100 ≤ r → r < 0x1180 → y.reg r = x.reg r

theorem State.readsAs_arrived (s : State) (a : Site) (i : Instr) (n : Nat) : (s.core a.core).readsAs (s.arrived a i n) := by
  obtain ⟨-, hmem, hin⟩ := s.arrived_engines a i n
  exact ⟨hmem, hin, fun r _ hr => (s.atBundle_arrived a i n).reg r (by omega)⟩

theorem Core.readsAs.fenceOn (h : x.readsAs y) {i : Nat} (hi : i < 8) (a : Nat) : y.fenceOn i a = x.fenceOn i a := by
  rw [Core.fenceOn, Core.fenceOn, Core.rf, Core.rf, Core.rf, Core.rf, h.fences (0x1108 + 16 * i) (by omega) (by omega),
    h.fences (0x1100 + 16 * i) (by omega) (by omega), h.fences (0x1104 + 16 * i) (by omega) (by omega)]

theorem Core.readsAs.denies (h : x.readsAs y) (m : Nat) (wr : Bool) (a : Nat) : y.denies m wr a = x.denies m wr a := by
  unfold Core.denies
  congr 1
  rw [Bool.eq_iff_iff, List.any_eq_true, List.any_eq_true]
  refine exists_congr fun i => and_congr_right fun hi => ?_
  have hi8 := List.mem_range.1 hi
  rw [h.fenceOn hi8, h.fences (0x1108 + 16 * i) (by omega) (by omega)]

theorem Core.readsAs.read (h : x.readsAs y) (k : Ctx) (a n : Nat) : y.read k a n = x.read k a n := by
  unfold Core.read Core.inFlightOver
  rw [h.mem, h.inflight]

theorem Core.readsAs.readE (h : x.readsAs y) (k : Ctx) (m a n : Nat) : y.readE k m a n = x.readE k m a n := by
  unfold Core.readE
  simp only [h.denies, h.read]

end Sys2Proof.Machine
end

section
/-! O16: TLOAD (R100, R259). -/

namespace Sys2Proof.Machine

variable {x y : Core} {k : Ctx} {s : State} {a : Site}

theorem loadTime_eq (lay : BitVec 4) (len : Nat) :
    loadTime lay.toNat len = if lay = 5#4 ∧ (len + 127) / 128 < 40 then 40 else (len + 127) / 128 := by
  have hlay : lay.toNat = 5 ↔ lay = 5#4 := BitVec.toNat_inj (y := 5#4)
  simp only [loadTime, Bool.and_eq_true, decide_eq_true_eq, hlay]
  rfl

/-- A TLOAD whose body lies in its bank issues and fills the standby buffer: with the tag it asks for, the body as its master reads it,
defined from its completion on. -/
theorem Core.tload_issue {at_ : At} {o : TLoadOp} (hs : at_.supp = false)
    (hbank : inBank (o.abase.toNat * 128) (x.engAddr k (o.abase.toNat * 128) o.ar 128)
      (bodyLen o.lay.toNat o.wfmt.toNat (o.qm1.toNat + 1)) = true) :
    let len := bodyLen o.lay.toNat o.wfmt.toNat (o.qm1.toNat + 1)
    let lw := loadTime o.lay.toNat len
    let lat := lw + if k.tc1 then 14 else 16
    ∃ (op : PendingOp) (sheet : List Byte), op.header.isSome = decide (o.lay.toNat = 5) ∧
      x.tload k at_ o = { x.issue k at_ .teLoad lat lw 0 op with te := { x.te with
        standby := ⟨some ⟨o.lay.toNat, o.wfmt.toNat, o.qm1.toNat + 1⟩,
          (x.readE k 2 (x.engAddr k (o.abase.toNat * 128) o.ar 128) len).1, sheet, k.clock + lat⟩
        loaded := true } } := by
  intro len lw lat
  have hin : ¬ (!inBank (o.abase.toNat * 128) (x.engAddr k (o.abase.toNat * 128) o.ar 128) len) = true := by rw [hbank]; decide
  -- The reads stand under a name, so that nothing below evaluates one (`readE_named`).
  generalize hz : x.tload k at_ o = z
  unfold Core.tload at hz
  obtain ⟨rd, hrd⟩ := Core.readE_named
  rw [hrd] at hz ⊢
  extract_lets at hz
  rw [if_neg (by rw [hs]; decide), if_neg hin] at hz
  generalize hb : rd k x 2 _ _ = body at hz
  obtain ⟨body, bad⟩ := body
  dsimp only at hz
  rw [Core.issue_getLast k x hs] at hz
  exact ⟨_, _, Bool.eq_iff_iff.2 Option.isSome_ite, hz.symm⟩

/-- Settles O16: the load's issue puts it in flight with its time, and the standby buffer holds what it read. -/
theorem tloadFillsStandby : Obligations.TloadFillsStandby := by
  intro s a cyc o c k base addr len rows hfirst hlast hiss
  let y := s.arrived a (.tload a o) cyc
  have hy : c.atBundle y := s.atBundle_arrived a _ cyc
  obtain ⟨hte, hmem, hin⟩ : y.te = c.te ∧ y.mem = c.mem ∧ y.inflight = c.inflight := s.arrived_engines a _ cyc
  have haddr : y.engAddr k base o.ar 128 = addr := hy.engAddr k base o.ar 128
  have hbank : inBank base (y.engAddr k base o.ar 128) len = true := by
    rw [haddr, inBank, Bool.and_eq_true, decide_eq_true_eq, decide_eq_true_eq]
    exact ⟨hfirst, hlast⟩
  obtain ⟨op, sheet, hhdr, hf⟩ := Core.tload_issue (k := k) (at_ := ⟨a.core, a.bundle, false⟩) rfl hbank
  obtain ⟨⟨ps, hit, hstarts⟩, hte', hmem', -⟩ := State.startsOp_of_inflight (f := fun k c a => c.tload k a o) hiss rfl hf rfl hin
  rw [← s.tc1_ctxAt a.core cyc, ← loadTime_eq]
  refine ⟨_, rfl, hstarts.imp fun p hp => ?_, by rw [hte'], by rw [hte'], ?_, by rw [hte', ← hte], hmem'.trans hmem⟩
  · subst hp
    refine ⟨hhdr.trans ?_, by rw [hte']; rfl⟩
    exact decide_eq_decide.2 (BitVec.toNat_inj (y := 5#4))
  · rw [hte', ← haddr]
    exact congrArg Prod.fst ((s.readsAs_arrived a _ cyc).readE k 2 _ _)

end Sys2Proof.Machine
end

section
/-! O19: an instruction that claims an owned tile (R122). -/

namespace Sys2Proof.Machine

variable {x y z : Core} {k : Ctx} {s : State} {a : Site} {i : Instr}

/-! ## What a retirement and a taking of ports leave -/

theorem Core.showWords_engines (x : Core) : x.showWords.te = x.te ∧ x.showWords.inflight = x.inflight :=
  ⟨foldl_keeps (g := Core.te) (fun c _ _ => Core.setReg_te c _ _) x,
    foldl_keeps (g := Core.inflight) (fun c _ _ => Core.setReg_inflight c _ _) x⟩

theorem Core.showRetired_engines (x : Core) : x.showRetired.te = x.te ∧ x.showRetired.inflight = x.inflight := by
  rw [Core.showRetired, Core.setRf, Core.setReg_te, Core.setReg_inflight, Core.setRf, Core.setReg_te, Core.setReg_inflight]
  exact x.showWords_engines

theorem Core.retiring_engines (k : Ctx) (x : Core) : (x.retiring k).te = x.te ∧ (x.retiring k).inflight = x.inflight := by
  unfold Core.retiring Core.waitAbandoned
  split <;> exact ⟨rfl, rfl⟩

theorem Core.reg_retiring_ne (k : Ctx) (x : Core) {r : Nat} (h : r ≠ 0x2000) : (x.retiring k).reg r = x.reg r := by
  have hregs : (x.retiring k).regs = (x.waitAbandoned k.clock).regs := rfl
  rw [Core.reg_congr hregs]
  obtain ⟨-, -, hr | hr⟩ := x.waitAbandoned_keeps k.clock
  · exact Core.reg_congr hr r
  · exact (Core.reg_congr hr r).trans (Core.reg_setRf_ne x _ _ _ (Ne.symm h))

/-- Retirement leaves the tensor engine and what is in flight, and the registers but those that show the sequencer's words. -/
theorem Core.checkRetire_engines (k : Ctx) (x : Core) :
    (x.checkRetire k).te = x.te ∧ (x.checkRetire k).inflight = x.inflight ∧
      ∀ r, r < 0x2000 ∨ 0x2184 ≤ r → (x.checkRetire k).reg r = x.reg r := by
  cases h : x.frame.live && x.frame.retiredAt.isNone && x.quietEnd
  · rw [Core.checkRetire_eq_self h]
    exact ⟨rfl, rfl, fun _ _ => rfl⟩
  · obtain ⟨hte, hin⟩ := (x.retiring k).showRetired_engines
    obtain ⟨hte', hin'⟩ := x.retiring_engines k
    rw [Core.checkRetire_eq h]
    refine ⟨hte.trans hte', hin.trans hin', fun r hr => ?_⟩
    exact ((x.retiring k).showRetired_keeps.2.2 r hr).trans (x.reg_retiring_ne k (by omega))

/-- An instruction that puts nothing in flight takes no ports for it, and who is in flight waits at most. -/
theorem Core.joinPorts_none (hi : channelOf i = none) :
    (z.joinPorts i z.inflight.length).inflight.map PendingOp.settled = z.inflight.map PendingOp.settled := by
  have hl : (z.joinPorts i z.inflight.length).inflight = z.inflight.map (z.meeting (z.portsOf i)) := by
    unfold Core.joinPorts
    rw [hi]
    simp only [Core.crowd, List.take_length, List.drop_length, List.map_nil, List.append_nil]
    rfl
  rw [hl, List.map_map]
  exact List.map_congr_left fun o _ => z.settled_meeting _ o

/-! ## The double claim -/

theorem Core.rf_raise_self (hx : x.canonical) (u : Nat) (code : Half) : (x.raise u code).rf (lastCodeOff u) 31 16 = code.toNat := by
  unfold Core.raise
  rw [Core.rf_setRf_self (hx.setFrame) (by decide) (by decide)]
  exact Nat.mod_eq_of_lt code.isLt

theorem Core.reg_raise_ne (x : Core) {u r : Nat} (code : Half) (h : lastCodeOff u ≠ r) : (x.raise u code).reg r = x.reg r :=
  Core.reg_setRf_ne { x with frame := { x.frame with codes := setAt x.frame.codes u code } } 31 16 _ h

/-- The first fault of a frame is the one that an abort records. -/
theorem Core.abort_frame (h : x.frame.aborted = false) (code : Half) (b : BitVec 13) :
    (x.abort code b).frame = { x.frame with aborted := true, faultCode := code, faultBundle := b } := by
  simp [Core.abort, h]

/-- TE_CLAIM_FAULT once a double claim has met it: it holds the first fault since cleared (R122). -/
def Core.claimFault (x : Core) (tile : Nat) (b owner : BitVec 13) : Core :=
  if bitAt (x.reg 0x3010) 31 then x
  else x.setReg 0x3010 (BitVec.ofNat 32 (0x80000000 + owner.toNat * 0x20000 + b.toNat * 16 + tile))

theorem Core.doubleClaim_eq (x : Core) (u tile : Nat) (b owner : BitVec 13) :
    x.doubleClaim u tile b owner = ((x.raise u 0x0202#16).claimFault tile b owner).abort 0x0202#16 b := rfl

/-- A register written unless something holds: all else stays. -/
theorem Core.setReg_unless_keeps (x : Core) (held : Bool) (off : Nat) (w : Word) :
    let y := if held then x else x.setReg off w
    y.te = x.te ∧ y.inflight = x.inflight ∧ y.frame = x.frame ∧ ∀ r, r ≠ off → y.reg r = x.reg r := by
  cases held
  · exact ⟨rfl, rfl, rfl, fun r hr => Core.reg_setReg_ne x w (Ne.symm hr)⟩
  · exact ⟨rfl, rfl, rfl, fun _ _ => rfl⟩

theorem Core.claimFault_keeps (x : Core) (tile : Nat) (b owner : BitVec 13) :
    (x.claimFault tile b owner).te = x.te ∧ (x.claimFault tile b owner).inflight = x.inflight ∧
      (x.claimFault tile b owner).frame = x.frame ∧ ∀ r, r ≠ 0x3010 → (x.claimFault tile b owner).reg r = x.reg r :=
  x.setReg_unless_keeps (bitAt (x.reg 0x3010) 31) 0x3010 _

theorem Core.reg_claimFault (hx : x.canonical) (h : x.rf 0x3010 31 31 = 0) (tile : Nat) (b owner : BitVec 13) :
    (x.claimFault tile b owner).reg 0x3010 =
      BitVec.ofNat 32 (tile + b.toNat * 16 + owner.toNat * 0x20000 + 0x80000000) := by
  have hclear : bitAt (x.reg 0x3010) 31 = false := (fld_eq_zero_iff _ _).1 h
  rw [Core.claimFault, hclear, if_neg (by decide), Core.reg_setReg_self hx.regs_wf]
  congr 1
  omega

/-- What a double claim leaves: the claims and what is in flight as they were, the frame aborted, the claimant's engine its code, and the
first fault's record. -/
theorem Core.doubleClaim_spec (hx : x.canonical) (ha : x.frame.aborted = false) {u : Nat} (hu : lastCodeOff u ≠ 0x3010) (tile : Nat)
    (b owner : BitVec 13) :
    let y := x.doubleClaim u tile b owner
    y.te = x.te ∧ y.inflight = x.inflight ∧
      y.frame = { (x.raise u 0x0202#16).frame with aborted := true, faultCode := 0x0202#16, faultBundle := b } ∧
      y.rf (lastCodeOff u) 31 16 = 0x0202 ∧ (x.rf 0x3010 31 31 = 0 → y.reg 0x3010 =
        BitVec.ofNat 32 (tile + b.toNat * 16 + owner.toNat * 0x20000 + 0x80000000)) := by
  intro y
  obtain ⟨hte, hin, hframe, hreg⟩ := (x.raise u 0x0202#16).claimFault_keeps tile b owner
  have hregs : y.regs = ((x.raise u 0x0202#16).claimFault tile b owner).regs := rfl
  refine ⟨hte, hin, ?_, ?_, fun h0 => ?_⟩
  · rw [show y = _ from x.doubleClaim_eq u tile b owner, Core.abort_frame (by rw [hframe]; exact ha), hframe]
  · rw [Core.rf_congr hregs, Core.rf, hreg _ hu]
    exact Core.rf_raise_self hx u _
  · rw [Core.reg_congr hregs]
    exact Core.reg_claimFault hx.raise (by rw [Core.rf, Core.reg_raise_ne x _ hu]; exact h0) tile b owner

theorem Core.product_claimed {at_ : At} {p : Product} {t : Nat} {owner : BitVec 13} (hs : at_.supp = false)
    (h : x.claimed p.tiles (x.chained p) = some (t, owner)) : x.product k at_ p = x.doubleClaim 1 t at_.bundle owner := by
  unfold Core.product
  rcases x.productTime k p with ⟨lat, interval⟩
  dsimp only
  rw [h, if_neg (by rw [hs]; decide)]

theorem Core.tprint_claimed {at_ : At} {o : TPrintOp} {t : Nat} {owner : BitVec 13} (hs : at_.supp = false)
    (h : x.claimed [o.tile.toNat] none = some (t, owner)) : x.tprint k at_ o = x.doubleClaim 1 t at_.bundle owner := by
  obtain ⟨rd, hrd⟩ := Core.readE_named
  unfold Core.tprint
  rw [hrd]
  extract_lets
  rw [h, if_neg (by rw [hs]; decide)]

theorem Core.xrun_claimed {at_ : At} {o : XrunOp} {t : Nat} {owner : BitVec 13} (hs : at_.supp = false)
    (hop : (x.xdesc o.desc.toNat).op = 4)
    (h : x.claimed ((tileRange (x.xdesc o.desc.toNat).at0 ((x.xdesc o.desc.toNat).atnm1 + 1)).filter fun t => decide (t < 16)) none =
      some (t, owner)) : x.xrun k at_ o 4 = x.doubleClaim 4 t at_.bundle owner := by
  unfold Core.xrun
  extract_lets n d src dst idx tiles
  rw [if_neg (fun hne => hne hop), if_neg (by rw [hs]; decide), show x.claimed tiles none = some (t, owner) from h]

/-! ## The core that a claimant finds -/

theorem Core.claimed_congr (h : y.te = x.te) (tiles : List Nat) (ch : Option Nat) : y.claimed tiles ch = x.claimed tiles ch := by
  rw [Core.claimed, Core.claimed, h]

theorem Core.chained_congr (h : y.te = x.te) (p : Product) : y.chained p = x.chained p := by
  rw [Core.chained, Core.chained, h]

theorem Core.xdesc_congr {n : Nat} (h : ∀ r, 0x5400 ≤ r → y.reg r = x.reg r) : y.xdesc n = x.xdesc n := by
  unfold Core.xdesc
  exact congrArg xdescOf (funext fun w => h _ (by omega))

theorem State.rowSets_arrived (s : State) (a : Site) (i : Instr) (n : Nat) : (s.arrived a i n).rowSets = (s.core a.core).rowSets := by
  unfold State.arrived Core.arrive
  split <;> rfl

/-- The product of a TMULR is that of the core it arrives at. -/
theorem State.tmulrProduct_arrived (s : State) (a : Site) (i : Instr) (n : Nat) (o : TMulOp) (kmode : Bool) (rs : BitVec 3) :
    let c := s.core a.core
    let set := c.rowSets.getD rs.toNat RowSet.reset
    let cap := c.rf (0x7C00 + 32 * set.pent) 7 1
    (s.arrived a i n).tmulrProduct o kmode rs =
      if kmode then ⟨o, cap / 8, 16, none, some set⟩ else ⟨o, cap / 8 + 1, 16, some set, none⟩ := by
  intro c set cap
  have hcap : (s.arrived a i n).rowCap rs.toNat = cap := by
    unfold Core.rowCap
    rw [s.rowSets_arrived, Core.rf, (s.atBundle_arrived a i n).reg _ (by omega)]
    rfl
  unfold Core.tmulrProduct
  rw [hcap, s.rowSets_arrived]
  cases kmode <;> rfl

/-- An instruction whose claim meets an owner does not issue: its frame is aborted and the claimant's engine shows the code. -/
theorem State.doubleClaim_issue {cyc u tile : Nat} {owner : BitVec 13} {f : Ctx → Core → At → Core} (hx : (s.core a.core).canonical)
    (ha : (s.core a.core).frame.aborted = false) (h : s.issues a i cyc) (hslot : slotNo i ≠ 0) (hch : channelOf i = none)
    (hu : 0x2184 ≤ lastCodeOff u) (hne : lastCodeOff u ≠ 0x3010)
    (hf : f (s.ctxAt a.core cyc) (s.arrived a i cyc) ⟨a.core, a.bundle, false⟩ = (s.arrived a i cyc).doubleClaim u tile a.bundle owner) :
    let c := s.core a.core
    let t := s.issue a i f
    (t.core a.core).inflight.map PendingOp.settled = c.inflight.map PendingOp.settled ∧ (t.core a.core).te = c.te ∧
      (t.core a.core).frame.aborted = true ∧ (t.core a.core).frame.faultCode = 0x0202#16 ∧
      (t.core a.core).frame.faultBundle = a.bundle ∧ (t.core a.core).rf (lastCodeOff u) 31 16 = 0x0202 ∧
      (c.rf 0x3010 31 31 = 0 → (t.core a.core).reg 0x3010 =
        BitVec.ofNat 32 (tile + a.bundle.toNat * 16 + owner.toNat * 0x20000 + 0x80000000)) := by
  intro c t
  let y := s.arrived a i cyc
  have hy : c.atBundle y := s.atBundle_arrived a i cyc
  obtain ⟨hte, -, hin⟩ : y.te = c.te ∧ y.mem = c.mem ∧ y.inflight = c.inflight := s.arrived_engines a i cyc
  obtain ⟨hdte, hdin, hdframe, hlast, hinfo⟩ :=
    Core.doubleClaim_spec (hy.canonical hx) (by rw [hy.frame]; exact ha) hne tile a.bundle owner
  let z := y.doubleClaim u tile a.bundle owner
  let w := z.joinPorts i c.inflight.length
  obtain ⟨hwf, -, hwregs⟩ := z.joinPorts_keeps i c.inflight.length
  have hwte : w.te = z.te := (z.joinPorts_engines i c.inflight.length).1
  have hwin : w.inflight.map PendingOp.settled = z.inflight.map PendingOp.settled := by
    have hz : z.inflight = c.inflight := hdin.trans hin
    rw [show w = z.joinPorts i z.inflight.length by rw [hz]]
    exact Core.joinPorts_none hch
  obtain ⟨hrte, hrin, hrreg⟩ := w.checkRetire_engines (s.ctxAt a.core cyc)
  obtain ⟨⟨r, v, hrf⟩, -⟩ := w.checkRetire_keeps (s.ctxAt a.core cyc)
  have hcore : t.core a.core = (w.checkRetire (s.ctxAt a.core cyc)).drained := State.core_issue_retired h hslot hf
  have hframe : (t.core a.core).frame = { z.frame with retiredAt := r, waitLate := v } := by rw [hcore, ← hwf]; exact hrf
  rw [hdframe] at hframe
  have hreg : ∀ r, 0x2184 ≤ r → (t.core a.core).reg r = z.reg r := fun r hr => by
    rw [hcore]
    exact (hrreg r (.inr hr)).trans (Core.reg_congr hwregs r)
  refine ⟨?_, ?_, by rw [hframe], by rw [hframe], by rw [hframe], ?_, fun h0 => ?_⟩
  · rw [hcore, ← hin, ← hdin]
    exact (congrArg _ hrin).trans hwin
  · rw [hcore]
    exact hrte.trans (hwte.trans (hdte.trans hte))
  · rw [Core.rf, hreg _ hu]
    exact hlast
  · rw [hreg _ (by decide)]
    exact hinfo (by rw [Core.rf, hy.reg _ (by decide)]; exact h0)

/-- Settles O19: each claimant's issue comes to the double claim, which leaves the owner and aborts the frame. -/
theorem doubleClaimAborts : Obligations.DoubleClaimAborts := by
  intro s a cyc o qm1 kmode rs q xo tile owner hx ha c set cap p pr d tiles r hr hclaim hiss
  have claim (i : Instr) (l : List Nat) (ch : Option Nat) : (s.arrived a i cyc).claimed l ch = c.claimed l ch :=
    Core.claimed_congr (s.arrived_engines a i cyc).1 l ch
  have chain (i : Instr) (p : Product) : (s.arrived a i cyc).chained p = c.chained p :=
    Core.chained_congr (s.arrived_engines a i cyc).1 p
  simp only [List.mem_cons, List.not_mem_nil, or_false] at hr
  rcases hr with rfl | rfl | rfl | rfl
  · refine ⟨_, rfl, State.doubleClaim_issue (u := 1) hx ha hiss Nat.one_ne_zero rfl (by decide) (by decide) ?_⟩
    exact Core.product_claimed rfl (by rw [claim, chain]; exact hclaim)
  · refine ⟨_, rfl, State.doubleClaim_issue (u := 1) hx ha hiss Nat.one_ne_zero rfl (by decide) (by decide) ?_⟩
    refine Core.product_claimed rfl ?_
    rw [s.tmulrProduct_arrived, claim, chain]
    exact hclaim
  · refine ⟨_, rfl, State.doubleClaim_issue (u := 1) hx ha hiss Nat.one_ne_zero rfl (by decide) (by decide) ?_⟩
    exact Core.tprint_claimed rfl (by rw [claim]; exact hclaim)
  · have hd : (s.arrived a (.xeScatterAdd a xo) cyc).xdesc xo.desc.toNat = d :=
      Core.xdesc_congr fun r hr => (s.atBundle_arrived a _ cyc).reg r (by omega)
    have hop : d.op = 4 := by
      by_contra hne
      simp [hne] at hclaim
    refine ⟨_, rfl, State.doubleClaim_issue (u := 4) hx ha hiss (Nat.succ_ne_zero 3) rfl (by decide) (by decide) ?_⟩
    refine Core.xrun_claimed rfl (by rw [hd]; exact hop) ?_
    rw [hd, claim]
    exact (if_pos hop).symm.trans hclaim

end Sys2Proof.Machine
end

section
/-! O17: TMUL and TMULR (R91, R100, R107, R115, R120, R261). -/

namespace Sys2Proof.Machine

variable {x y z : Core} {k : Ctx} {s : State} {a : Site} {i : Instr}

/-! ## Claims, flags and the swap of the weight buffers -/

/-- A place that a list of writes names holds what they write. -/
theorem getD_foldl_setAt {α : Type} {l : List Nat} {i : Nat} (hi : i ∈ l) (v d : α) (o : List α) (h : i < o.length) :
    (l.foldl (fun o t => setAt o t v) o).getD i d = v := by
  have stays : ∀ (l : List Nat) (o : List α), o.getD i d = v → (l.foldl (fun o t => setAt o t v) o).getD i d = v := by
    intro l o ho
    refine List.foldlRecOn (motive := fun o : List α => o.getD i d = v) l _ ho fun o ho t _ => ?_
    by_cases hti : t = i
    · subst hti
      rcases Nat.lt_or_ge t o.length with hlt | hge
      · exact getD_setAt_self o v d hlt
      · rw [List.getD_eq_default _ _ (by rwa [length_setAt]), ← ho, List.getD_eq_default _ _ hge]
    · exact (getD_setAt_ne o v d hti).trans ho
  obtain ⟨l1, l2, rfl⟩ := List.append_of_mem hi
  rw [List.foldl_append, List.foldl_cons]
  refine stays l2 _ (getD_setAt_self _ v d ?_)
  rw [foldl_keeps (g := List.length) (fun o t _ => length_setAt o t v)]
  exact h

/-- The standby buffer, if it is loaded, becomes the active one (R100). -/
def Core.swapped (c : Core) : Core :=
  if c.te.loaded then { c with te := { c.te with active := c.te.standby, loaded := false } } else c

theorem Core.swapped_eq (c : Core) :
    c.swapped = { c with te := { c.te with active := if c.te.loaded then c.te.standby else c.te.active, loaded := false } } := by
  unfold Core.swapped
  split
  · rfl
  · next h =>
    have hl : c.te.loaded = false := by simpa using h
    rw [← hl]

/-- A product's claims taken, the buffers swapped, and its tiles' types and flags set (R118, R120, R463). -/
def Core.productReady (x : Core) (p : Product) (b : BitVec 13) : Core :=
  let c := ((x.claim p.tiles x.nextId b).swapped).setType p.tiles (decide (p.o.wfmt.toNat = 10))
  if p.o.acc then c else c.clearTileFlags p.tiles

/-- What stands ready for a product differs from the core before it in the tensor engine and in the registers of its tiles. -/
theorem Core.productReady_eq (x : Core) (p : Product) (b : BitVec 13) :
    (∃ R, x.productReady p b = { x with regs := R, te := { x.te with
      active := if x.te.loaded then x.te.standby else x.te.active, loaded := false
      owners := p.tiles.foldl (fun o t => setAt o t (some (x.nextId, b))) x.te.owners } }) ∧
    ∀ r, r ≠ 0x3004 → r ≠ 0x3008 → r ≠ 0x300C → (x.productReady p b).reg r = x.reg r := by
  have hset : ∀ r, r ≠ 0x3004 → r ≠ 0x300C →
      (((x.claim p.tiles x.nextId b).swapped).setType p.tiles (decide (p.o.wfmt.toNat = 10))).reg r = x.reg r := by
    intro r h4 hc
    refine (Core.reg_setRf_ne _ _ _ _ (Ne.symm hc)).trans ?_
    rw [Core.swapped_eq]
    exact Core.reg_setRf_ne { x with te := { x.te with owners := p.tiles.foldl (fun o t => setAt o t (some (x.nextId, b))) x.te.owners } }
      15 0 _ (Ne.symm h4)
  unfold Core.productReady
  rw [Core.swapped_eq] at hset ⊢
  cases p.o.acc
  case true => exact ⟨⟨_, rfl⟩, fun r h4 _ hc => hset r h4 hc⟩
  case false =>
    refine ⟨⟨_, rfl⟩, fun r h4 h8 hc => ?_⟩
    exact (Core.reg_setRf_ne _ _ _ _ (Ne.symm hc)).trans ((Core.reg_setReg_ne _ _ (Ne.symm h8)).trans (hset r h4 hc))

theorem Core.canonical.productReady {p : Product} {b : BitVec 13} (h : x.canonical) : (x.productReady p b).canonical := by
  unfold Core.productReady
  rw [Core.swapped_eq]
  have claimed : ∀ {te}, ({ x.claim p.tiles x.nextId b with te := te } : Core).canonical := h.claim
  exact .ite claimed.setType claimed.setType.clearTileFlags

/-! ## What a product computes -/

theorem Core.readsAs.fenceAcc (h : x.readsAs y) (m : Nat) (l : List Eff) : y.fenceAcc m l = x.fenceAcc m l := by
  have hall : (List.range 8).all (fun i => !bitAt (y.reg (0x1108 + 16 * i)) 0) =
      (List.range 8).all fun i => !bitAt (x.reg (0x1108 + 16 * i)) 0 := by
    rw [Bool.eq_iff_iff, List.all_eq_true, List.all_eq_true]
    refine forall_congr' fun i => forall_congr' fun hi => ?_
    have hi8 := List.mem_range.1 hi
    rw [h.fences (0x1108 + 16 * i) (by omega) (by omega)]
  unfold Core.fenceAcc
  rw [hall]
  simp only [h.denies]

/-- A product computes alike on cores that read alike, with the same flushing, number and chunk ordinals. -/
theorem Core.productEffs_congr (h : x.readsAs y) (hftz : y.reg 0x4000 = x.reg 0x4000) (hid : y.nextId = x.nextId)
    (hctr : y.frame.chunkCtr = x.frame.chunkCtr) (p : Product) (b : WeightBuf) (n : Nat) :
    y.productEffs k p b n = x.productEffs k p b n := by
  have hf : y.ftz = x.ftz := by rw [Core.ftz, Core.ftz, hftz]
  unfold Core.productEffs
  rw [hf, hid, hctr, h.readE]
  simp only [h.fenceAcc]

theorem Core.productTime_congr (h : y.te = x.te) (p : Product) : y.productTime k p = x.productTime k p := by
  unfold Core.productTime
  rw [h]

/-! ## The issue -/

/-- What an instruction that raises nothing early does at its completion, and its violations before it, are its effects. -/
theorem Core.started_does (k : Ctx) (c : Core) (b : BitVec 13) (u : EngUnit) (lat interval tokens : Nat) (op : PendingOp) :
    ∀ ps hit, ({ c.started k b u lat interval tokens op with ports := ps, contended := hit } : PendingOp).does op.effs := by
  refine fun ps hit => ⟨rfl, fun e he hfence => ?_⟩
  obtain ⟨n, hn, hget⟩ := List.mem_iff_getElem.1 (List.mem_filter.2 ⟨he, hfence⟩)
  refine ⟨⟨k.clock + Config.accessCycle k.ctr n % (lat + 1), [e], []⟩, ?_, rfl, Nat.le_add_right _ _, ?_⟩
  · exact List.mem_append_right _ (List.mem_mapIdx.2 ⟨n, hn, by rw [hget]⟩)
  · exact Nat.add_le_add_left (Nat.lt_succ_iff.1 (Nat.mod_lt _ (Nat.succ_pos lat))) _

theorem State.nextId_arrived (s : State) (a : Site) (i : Instr) (n : Nat) : (s.arrived a i n).nextId = (s.core a.core).nextId := by
  unfold State.arrived Core.arrive
  split <;> rfl

/-- A product in flight. -/
def Core.productOp (k : Ctx) (c : Core) (p : Product) (n : Nat) : PendingOp :=
  { PendingOp.blank with
    master := 2, claims := p.tiles, reads := [(n, p.footprint)], effs := (c.productEffs k p c.te.active n).1
    ev := (c.productEffs k p c.te.active n).2 }

/-- A product put in flight, with the array in its state and the product counted. -/
def Core.productDone (k : Ctx) (c : Core) (at_ : At) (p : Product) (n id : Nat) (time : Nat × Nat) : Core :=
  ((c.issue k at_ .teArray time.1 time.2 p.tokens (c.productOp k p n)).setArray p id (k.clock + time.1)).bump 0x3028 1

/-- A product put in flight counts in TE_PRODUCTS and changes, of the tensor engine, the preceding product alone. -/
theorem Core.productDone_spec (hx : x.canonical) (k : Ctx) (at_ : At) (p : Product) (n id : Nat) (time : Nat × Nat) :
    let z := x.productDone k at_ p n id time
    (∃ l, z.te = { x.te with last := l }) ∧ z.mem = x.mem ∧ z.reg 0x3028 = satAdd32 (x.reg 0x3028) 1 := by
  intro z
  let v := x.issue k at_ .teArray time.1 time.2 p.tokens (x.productOp k p n)
  have hshown : (v.setArray p id (k.clock + time.1)).reg 0x3028 = x.reg 0x3028 := by
    refine (Core.reg_setRf_ne _ _ _ _ (by decide)).trans ((Core.reg_setRf_ne _ _ _ _ (by decide)).trans ?_)
    exact (Core.reg_setRf_ne _ _ _ _ (by decide)).trans (Core.reg_setRf_ne _ 0 0 _ (by decide))
  refine ⟨⟨_, rfl⟩, rfl, ?_⟩
  rw [← hshown]
  exact Core.reg_setReg_self (Core.canonical.issue hx).setArray.regs_wf _ _

/-- A product whose tiles are free, whose buffer's tag agrees and whose activations lie in their bank issues. -/
theorem Core.product_issue {at_ : At} {p : Product} (hs : at_.supp = false) (hfree : x.claimed p.tiles (x.chained p) = none)
    (htag : p.tagOk (if x.te.loaded then x.te.standby else x.te.active).tag = true)
    (hbank : inBank (p.o.xbase.toNat * 128) (x.engAddr k (p.o.xbase.toNat * 128) p.o.ar 128) p.footprint = true) :
    ∃ f, x.product k at_ p = { (x.productReady p at_.bundle).productDone k at_ p (x.engAddr k (p.o.xbase.toNat * 128) p.o.ar 128)
      x.nextId (x.productTime k p) with frame := f } := by
  have hswap := (x.claim p.tiles x.nextId at_.bundle).swapped_eq
  have htag' : ¬ (!p.tagOk (x.claim p.tiles x.nextId at_.bundle).swapped.te.active.tag) = true := by
    rw [hswap]
    show ¬ (!p.tagOk (if x.te.loaded then x.te.standby else x.te.active).tag) = true
    rw [htag]
    decide
  have haddr : (x.claim p.tiles x.nextId at_.bundle).swapped.engAddr k (p.o.xbase.toNat * 128) p.o.ar 128 =
      x.engAddr k (p.o.xbase.toNat * 128) p.o.ar 128 := by
    rw [hswap]
    rfl
  have hbank' : ¬ (!inBank (p.o.xbase.toNat * 128)
      ((x.claim p.tiles x.nextId at_.bundle).swapped.engAddr k (p.o.xbase.toNat * 128) p.o.ar 128) p.footprint) = true := by
    rw [haddr, hbank]
    decide
  -- The effects stand under a name, so that nothing below evaluates them (`readE_named`).
  generalize hz : x.product k at_ p = z
  unfold Core.product at hz
  obtain ⟨pe, hpe⟩ : ∃ pe, Core.productEffs = pe := ⟨_, rfl⟩
  unfold Core.productDone Core.productOp
  rw [hpe] at hz ⊢
  generalize x.productTime k p = time at hz ⊢
  obtain ⟨lat, interval⟩ := time
  extract_lets at hz
  dsimp only at hz
  rw [if_neg (by rw [hs]; decide), hfree] at hz
  dsimp only at hz
  replace hz := (if_neg hbank').symm.trans ((if_neg htag').symm.trans hz)
  rw [← haddr]
  exact ⟨_, hz.symm⟩

/-- What a product that issues leaves of its core: the active buffer, the claims, the count of the products and the memory. -/
theorem State.product_issue {cyc : Nat} {f : Ctx → Core → At → Core} {p : Product} {o : TMulOp} (hx : (s.core a.core).canonical)
    (hlen : (s.core a.core).te.owners.length = 16) (h : s.issues a i cyc) (hch : channelOf i = none) (ho : p.o = o)
    (hf : f (s.ctxAt a.core cyc) (s.arrived a i cyc) ⟨a.core, a.bundle, false⟩ =
      (s.arrived a i cyc).product (s.ctxAt a.core cyc) ⟨a.core, a.bundle, false⟩ p) :
    let c := s.core a.core
    let k := s.ctxAt a.core cyc
    let buf := if c.te.loaded then c.te.standby else c.te.active
    let base := o.xbase.toNat * 128
    let n := (base + (c.sreg k o.ar).toNat / 128 * 128) % 2 ^ 32
    let t := s.issue a i f
    c.claimed p.tiles (c.chained p) = none → p.tagOk buf.tag = true → n / 0x80000 = base / 0x80000 →
    (n + 128 * ((p.n * unitBytes o.afmt.toNat + 127) / 128) - 1) / 0x80000 = base / 0x80000 →
      s.startsOp t a cyc .teArray (c.productTime k p).1 (fun op => op.claims = p.tiles ∧
        op.does (c.productEffs k p buf n).1 ∧ op.ev = (c.productEffs k p buf n).2 ∧
        ∀ i ∈ p.tiles, (t.core a.core).te.owners.getD i none = some (op.id, a.bundle)) ∧
      (t.core a.core).te.active = buf ∧ (t.core a.core).te.loaded = false ∧
      ((t.core a.core).reg 0x3028).toNat = min ((c.reg 0x3028).toNat + 1) 0xFFFFFFFF ∧ (t.core a.core).mem = c.mem := by
  subst ho
  intro c k buf base n t hfree htag hfirst hlast
  let y := s.arrived a i cyc
  have hy : c.atBundle y := s.atBundle_arrived a i cyc
  obtain ⟨hte, hmem, hin⟩ : y.te = c.te ∧ y.mem = c.mem ∧ y.inflight = c.inflight := s.arrived_engines a i cyc
  have hn : y.engAddr k base p.o.ar 128 = n := hy.engAddr k base p.o.ar 128
  obtain ⟨frame, hdone⟩ := Core.product_issue (x := y) (k := k) (at_ := ⟨a.core, a.bundle, false⟩) (p := p) rfl
    (by rw [Core.claimed_congr hte, Core.chained_congr hte]; exact hfree) (by rw [hte]; exact htag)
    (by rw [hn, inBank, Bool.and_eq_true, decide_eq_true_eq, decide_eq_true_eq]; exact ⟨hfirst, hlast⟩)
  rw [Core.productTime_congr hte, hn] at hdone
  let w := y.productReady p a.bundle
  obtain ⟨⟨R, hw⟩, hwreg⟩ : (∃ R, w = _) ∧ _ := y.productReady_eq p a.bundle
  have heffs : w.productEffs k p w.te.active n = c.productEffs k p buf n := by
    have hreads : y.readsAs w := ⟨by rw [hw], by rw [hw], fun r _ hr => hwreg r (by omega) (by omega) (by omega)⟩
    rw [Core.productEffs_congr hreads (hwreg _ (by decide) (by decide) (by decide)) (by rw [hw]) (by rw [hw]),
      Core.productEffs_congr (s.readsAs_arrived a i cyc) (hy.reg _ (by decide)) (s.nextId_arrived a i cyc)
        (congrArg Frame.chunkCtr hy.frame), hw, hte]
  obtain ⟨⟨ps, hit, hstarts⟩, hte', hmem', hregs'⟩ := State.startsOp_of_inflight (x := w) h hch (hf.trans hdone) rfl (by rw [hw]; exact hin)
  obtain ⟨⟨last, hlast'⟩, hwmem, hcount⟩ := Core.productDone_spec (x := w) (hy.canonical hx).productReady k
    ⟨a.core, a.bundle, false⟩ p n y.nextId (c.productTime k p)
  have hte'' : (t.core a.core).te = { w.te with last := last } := hte'.trans hlast'
  refine ⟨hstarts.imp fun op hop => ?_, by rw [hte'', hw, hte], by rw [hte'', hw], ?_, ?_⟩
  · subst hop
    rw [← heffs]
    refine ⟨rfl, w.started_does k a.bundle _ _ _ _ (w.productOp k p n) ps hit, rfl, fun i hi => ?_⟩
    rw [hte'', hw]
    refine getD_foldl_setAt hi _ _ _ ?_
    rw [hte, hlen]
    exact of_decide_eq_true (List.mem_filter.1 hi).2
  · rw [Core.reg_congr hregs']
    refine (congrArg BitVec.toNat hcount).trans ?_
    rw [toNat_satAdd32_one, hwreg _ (by decide) (by decide) (by decide), hy.reg _ (by decide)]
  · exact hmem'.trans (hwmem.trans (by rw [hw]; exact hmem))

/-- Settles O17: TMUL's product and TMULR's issue alike, each from the core it arrives at. -/
theorem productClaimsTiles : Obligations.ProductClaimsTiles := by
  intro s a cyc o qm1 kmode rs hx hlen c k set cap buf r hr p base n len hfree htag hfirst hlast hiss
  simp only [List.mem_cons, List.not_mem_nil, or_false] at hr
  rcases hr with rfl | rfl
  · exact ⟨_, rfl, State.product_issue hx hlen hiss rfl rfl rfl hfree htag hfirst hlast⟩
  · refine ⟨_, rfl, State.product_issue hx hlen hiss rfl ?_ ?_ hfree htag hfirst hlast⟩
    · cases kmode <;> rfl
    · exact congrArg (Core.product _ _ _) (s.tmulrProduct_arrived a _ cyc o kmode rs)

end Sys2Proof.Machine
end

section
/-! O31: the contract completion of an instruction (R101, R142, R257). INSTRUCTION_COMPLETE tells the instructions in flight apart by
their numbers (`Core.setOp`). Each issue takes a fresh number (`Core.issue`), but the statement is about every canonical core, also one
on which two of them bear the same: there the first, with its fate, takes the second's place too, and what the second held, such as a
slot in edit, is gone before the first's header is checked. -/

namespace Sys2Proof.Machine

/-- The header check, due in cycle 14, of a grain tile in slot 0 whose header holds another capacity than the instruction's. -/
def wrongCapacity : HdrCheck := ⟨14, 0, 0, 1, 3, none, List.replicate 64 0#8⟩

/-- The tile's TLOAD, which completes in cycle 20. -/
def tileLoad : PendingOp :=
  { PendingOp.blank with id := 7, unit := .teLoad, bundle := 3#13, due := 20, free := 20, header := some wrongCapacity }

/-- An edit of slot 0, in flight until cycle 40 under the number of the TLOAD. -/
def slotEdit : PendingOp := { PendingOp.blank with id := 7, unit := .me, bundle := 4#13, due := 40, free := 40, edits := [0] }

/-- Core 0 with the two in flight. -/
def twoOfOneNumber : State := State.reset.setCore 0 { Core.reset with inflight := [tileLoad, slotEdit] }

/-- Nothing befalls an instruction. -/
def noFate : Fate := ⟨[], [], false⟩

theorem twoOfOneNumber_canonical : (twoOfOneNumber.core 0).canonical := by
  rw [twoOfOneNumber, State.core_setCore_self]
  exact ⟨rfl, rfl, rfl⟩

theorem twoOfOneNumber_nextDone : (twoOfOneNumber.core 0).nextDone .teLoad = some tileLoad := by decide +kernel

/-- With its slot in edit, the tile fails check 4 (R142). -/
theorem twoOfOneNumber_headerFault : (twoOfOneNumber.core 0).headerFault wrongCapacity = some (4, 0x0205#16) := by decide +kernel

/-- By the TLOAD's completion only its header check and the completion itself are due. -/
theorem twoOfOneNumber_dues : ∀ y ∈ (twoOfOneNumber.core 0).allDues, y.1 ≤ tileLoad.dueNow →
    y.2 = .engine (.done tileLoad) ∨ y.2 = .engine (.header tileLoad wrongCapacity) := by decide +kernel

/-- The completion aborts the frame with check 1's code, the edit no longer being in flight when the header is checked. -/
theorem twoOfOneNumber_faultCode : (match exec (.instructionComplete 0 .teLoad noFate) twoOfOneNumber with
    | .next t => decide ((t.core 0).frame.faultCode = 0x0208#16)
    | _ => false) = true := by decide +kernel

/-- Refutes O31: of two instructions in flight under one number, a TLOAD and an edit of its tile's slot, the TLOAD's header fails check 4
before INSTRUCTION_COMPLETE and check 1 under it, so that the frame aborts with 0x0208 where the statement has 0x0205. -/
theorem not_instructionCompletes : ¬ Obligations.InstructionCompletes := by
  intro h
  obtain ⟨-, aborts⟩ := h twoOfOneNumber 0 .teLoad noFate tileLoad twoOfOneNumber_canonical twoOfOneNumber_nextDone
  obtain ⟨t, ht, -, -, hcode, -⟩ := aborts wrongCapacity 4 0x0205#16 rfl (by decide) twoOfOneNumber_headerFault rfl rfl
    twoOfOneNumber_dues (by decide +kernel)
  have hmodel := twoOfOneNumber_faultCode
  rw [ht] at hmodel
  simp [hcode] at hmodel

end Sys2Proof.Machine
end

section
/-! O27: MDODGE, MBURN and MREFRESH (R130–R143, R158, R273). -/

namespace Sys2Proof.Machine

variable {x y : Core} {k : Ctx} {s : State} {a : Site} {i : Instr} {o : MEditOp} {dodge burn : Bool}

/-! ## What an edit finds -/

/-- The scores staged are those of descriptor `d` for the tile of header `h` (R136, R138). -/
def ScoreStage.isFor (v : ScoreStage) (d : Nat) (h : TileHeader) : Prop :=
  v.valid = true ∧ v.desc = d ∧ v.tensor.toNat = h.tensor ∧ v.brow = h.brow ∧ v.bcol = h.bcol

/-- The contract time of an edit in TC1 (R143). -/
def MDesc.editTime (d : MDesc) (dodge burn : Bool) : Nat :=
  32 + (if dodge then 32 * d.q else 0) + (if burn then 512 else 0) + d.rr + (if burn then d.rs else 0) + 48

theorem MDesc.editTime_dodge (d : MDesc) : d.editTime true false = 80 + 32 * d.q + d.rr := by
  simp only [MDesc.editTime, if_true, Bool.false_eq_true, if_false]
  omega

theorem MDesc.editTime_burn (d : MDesc) : d.editTime false true = 592 + d.rr + d.rs := by
  simp only [MDesc.editTime, if_true, Bool.false_eq_true, if_false]
  omega

theorem MDesc.editTime_refresh (d : MDesc) : d.editTime true true = 592 + 32 * d.q + d.rr + d.rs := by
  simp only [MDesc.editTime, if_true]
  omega

theorem Core.maskCheck_congr (h : ∀ r, 0x7100 ≤ r → y.reg r = x.reg r) (d : MDesc) (th : TileHeader) (sheet : List Byte) :
    y.maskCheck d th sheet = x.maskCheck d th sheet := by
  rw [Core.maskCheck, Core.maskCheck, Core.slotTag, Core.slotTag, h _ (by omega)]

theorem Core.mdesc_congr (h : ∀ r, 0x7400 ≤ r → y.reg r = x.reg r) (n : Nat) : y.mdesc n = x.mdesc n := by
  have hr : ∀ i, y.reg (0x7400 + 64 * n + 4 * i) = x.reg (0x7400 + 64 * n + 4 * i) := fun i => h _ (by omega)
  simp only [Core.mdesc, hr]

theorem Core.readsAs.tileView (h : x.readsAs y) (k : Ctx) (d : MDesc) : y.tileView k d = x.tileView k d := by
  simp only [Core.tileView, h.readE, h.read]

theorem State.stage_arrived (s : State) (a : Site) (i : Instr) (n : Nat) : (s.arrived a i n).stage = (s.core a.core).stage := by
  unfold State.arrived Core.arrive
  split <;> rfl

/-- ME_STATUS.OP and the frame's count are all that the start of an operation changes. -/
theorem Core.meOp_keeps (x : Core) (at_ : At) (code : Nat) :
    let y := x.meOp at_ code
    y.stage = x.stage ∧ y.inflight = x.inflight ∧ y.mem = x.mem ∧ ∀ r, r ≠ 0x7000 → y.reg r = x.reg r := by
  intro y
  cases hs : at_.supp with
  | true =>
    rw [show y = x from if_pos hs]
    exact ⟨rfl, rfl, rfl, fun _ _ => rfl⟩
  | false =>
    rw [show y = _ from if_neg (by rw [hs]; decide)]
    exact ⟨rfl, rfl, rfl, fun _ hr => Core.reg_setRf_ne x _ _ _ (Ne.symm hr)⟩

theorem Core.maskCheck_meOp (x : Core) (at_ : At) (code : Nat) (d : MDesc) (th : TileHeader) (sheet : List Byte) :
    (x.meOp at_ code).maskCheck d th sheet = x.maskCheck d th sheet :=
  Core.maskCheck_congr (fun _ hr => (x.meOp_keeps at_ code).2.2.2 _ (by omega)) d th sheet

/-- What a read leaves to be done is to record its violations (R58). -/
theorem Core.isFence_readE {m n len : Nat} : ∀ e ∈ (x.readE k m n len).2, e.isFence = true := by
  intro e he
  unfold Core.readE at he
  dsimp only at he
  split at he
  · cases he
  · obtain ⟨r, -, rfl⟩ := List.mem_map.1 he
    rfl

theorem Core.isFence_tileView {d : MDesc} : ∀ e ∈ (x.tileView k d).2, e.isFence = true := by
  intro e he
  rcases List.mem_append.1 he with he | he
  · exact Core.isFence_readE e he
  · obtain ⟨p, hp, he⟩ := List.mem_flatMap.1 he
    obtain ⟨q, -, rfl⟩ := List.mem_map.1 hp
    exact Core.isFence_readE e he

/-! ## The positions an edit drops and adds (R134, R137, R139) -/

theorem MDesc.length_dodged (d : MDesc) (t : TileView) (n : Nat) : (d.dodged t n).length = min n t.act.length := by
  simp [MDesc.dodged]

theorem MDesc.length_burned_le (d : MDesc) (t : TileView) (kept : List Nat) (score : Array Word) (n : Nat) :
    (d.burned t kept score n).length ≤ n := by
  unfold MDesc.burned
  rw [List.length_map, List.length_take]
  omega

/-! ## What an edit puts in flight -/

/-- An edit that fails a check in its first `n` cycles: it rewrites nothing, and its only effects at its completion are the violations
`bad` and, for a burn, the emptying of the stage. -/
def MDesc.failedEdit (k : Ctx) (d : MDesc) (di n : Nat) (code : Half) (bad : List Eff) (burn : Bool) : PendingOp :=
  { PendingOp.blank with
    reads := d.tileRuns, edits := [d.slot], effs := bad ++ if burn then [.stage ScoreStage.reset] else []
    early := [meFailed k n code di d.slot] }

/-- Why an edit fails, by the code `v` within its first `n` cycles: a check of the tile's header (R132), or the scores of a burn, which are
not staged (R138). -/
def Core.editFails (k : Ctx) (c : Core) (o : MEditOp) (dodge burn : Bool) (v : Half) (n : Nat) : Prop :=
  let d := c.mdesc o.d.toNat
  let t := (c.tileView k d).1
  c.maskCheck d t.h t.sheet = some v ∧ n = 32 ∨
    c.maskCheck d t.h t.sheet = none ∧ burn = true ∧ ¬c.stage.isFor o.d.toNat t.h ∧ v = 0x0209#16 ∧ n = d.editTime dodge burn

/-- An edit that is made: it holds its tile's slot, reports `drops` positions dropped and `adds` added, and a burn empties the stage. -/
structure PendingOp.makesEdit (op : PendingOp) (slot drops adds : Nat) (burn : Bool) : Prop where
  raises : op.raises = []
  edits : op.edits = [slot]
  counts : Eff.reg 0x7004 (BitVec.ofNat 32 (drops + adds * 65536)) ∈ op.effs
  stage : burn = true → Eff.stage ScoreStage.reset ∈ op.effs

/-- The cycles in which a failed edit raises its code: the first 32, or all of them where the scores are not staged (R132, R138). -/
theorem Core.editFails.window {v : Half} {n : Nat} (h : x.editFails k o dodge burn v n) :
    0 < n ∧ n ≤ if v = 0x0209#16 then (x.mdesc o.d.toNat).editTime dodge burn else 32 := by
  have htime : 32 ≤ (x.mdesc o.d.toNat).editTime dodge burn := by
    unfold MDesc.editTime
    omega
  rcases h with ⟨-, rfl⟩ | ⟨-, -, -, rfl, rfl⟩
  · refine ⟨by decide, ?_⟩
    split
    · exact htime
    · exact Nat.le_refl 32
  · rw [if_pos rfl]
    exact ⟨by omega, Nat.le_refl _⟩

/-- At its completion a failed edit does no more than to empty the stage. -/
theorem MDesc.effs_failedEdit {d : MDesc} {di n : Nat} {v : Half} {bad : List Eff} (hbad : ∀ e ∈ bad, e.isFence = true) :
    ∀ e ∈ (d.failedEdit k di n v bad burn).effs.filter (fun e => !e.isFence), e = .stage ScoreStage.reset := by
  intro e he
  obtain ⟨he, hf⟩ := List.mem_filter.1 he
  rcases List.mem_append.1 he with he | he
  · rw [hbad e he] at hf
    cases hf
  · split at he
    · exact List.mem_singleton.1 he
    · cases he

theorem ScoreStage.isFor_iff (v : ScoreStage) (d : Nat) (h : TileHeader) :
    v.isFor d h ↔ (v.valid && v.desc = d && v.tensor.toNat = h.tensor && v.brow = h.brow && v.bcol = h.bcol) = true := by
  simp only [ScoreStage.isFor, Bool.and_eq_true, decide_eq_true_eq, and_assoc]

/-- An edit that fails starts, for its contract time, and is put in flight as a failed one. -/
theorem Core.meEdit_failed {at_ : At} {v : Half} {n : Nat} (hs : at_.supp = false) (code : Nat) (h : x.editFails k o dodge burn v n) :
    let d := x.mdesc o.d.toNat
    x.meEdit k at_ o code dodge burn = (x.meOp at_ code).meIssue k at_ (d.editTime dodge burn)
      (d.failedEdit k o.d.toNat n v (x.tileView k d).2 burn) := by
  intro d
  unfold Core.meEdit
  rw [if_neg (by rw [hs]; decide)]
  dsimp only
  rw [x.maskCheck_meOp]
  rcases h with ⟨hcheck, rfl⟩ | ⟨hcheck, rfl, hstage, rfl, rfl⟩
  · rw [hcheck]
    rfl
  · rw [ScoreStage.isFor_iff, Bool.not_eq_true] at hstage
    rw [hcheck, (x.meOp_keeps at_ code).1]
    dsimp only
    rw [hstage, if_pos rfl]
    rfl

/-- An edit that passes its checks starts, for its contract time, and is put in flight as one that is made. -/
theorem Core.meEdit_made {at_ : At} (hs : at_.supp = false) (code : Nat) :
    let d := x.mdesc o.d.toNat
    let t := (x.tileView k d).1
    x.maskCheck d t.h t.sheet = none → (burn = true → x.stage.isFor o.d.toNat t.h) →
    ∃ op adds, x.meEdit k at_ o code dodge burn = (x.meOp at_ code).meIssue k at_ (d.editTime dodge burn) op ∧
      adds ≤ (if burn then x.meCount k o else 0) ∧
      op.makesEdit d.slot (if dodge then min (x.meCount k o) t.act.length else 0) adds burn := by
  intro d t hcheck hstage
  have hstaged : (burn && !(x.stage.valid && x.stage.desc = o.d.toNat && x.stage.tensor.toNat = t.h.tensor &&
      x.stage.brow = t.h.brow && x.stage.bcol = t.h.bcol)) = false := by
    cases burn
    · rfl
    · rw [(x.stage.isFor_iff _ _).1 (hstage rfl)]
      rfl
  generalize hz : x.meEdit k at_ o code dodge burn = z
  unfold Core.meEdit at hz
  rw [if_neg (by rw [hs]; decide)] at hz
  dsimp only at hz
  rw [x.maskCheck_meOp, show x.maskCheck _ _ _ = none from hcheck, (x.meOp_keeps at_ code).1] at hz
  dsimp only at hz
  rw [hstaged, if_neg (by decide)] at hz
  dsimp only at hz
  -- Of the positions dropped and added only the numbers matter from here on: the two lists stand under names.
  generalize hdrops : (if dodge then MDesc.dodged _ _ _ else []) = drops at hz
  generalize hadds : (if burn then MDesc.burned _ _ _ _ _ else []) = adds at hz
  have hnd : drops.length = if dodge then min (x.meCount k o) t.act.length else 0 := by
    subst hdrops
    split
    · exact d.length_dodged t _
    · rfl
  have hna : adds.length ≤ if burn then x.meCount k o else 0 := by
    subst hadds
    split
    · exact d.length_burned_le t _ _ _
    · exact Nat.le_refl 0
  rw [← hnd]
  refine ⟨_, adds.length, hz.symm, hna, rfl, rfl, ?_, fun hb => ?_⟩
  · exact List.mem_append_right _ List.mem_cons_self
  · exact List.mem_append_left _ (List.mem_append_right _ (by rw [if_pos hb]; exact List.mem_cons_self))

/-! ## The issue of an edit -/

/-- An operation of the ME that issues, not suppressed, is in flight with its effects but for its violations, and writes nothing yet. -/
theorem State.startsOp_me {cyc code lat : Nat} {f : Ctx → Core → At → Core} {op : PendingOp} (h : s.issues a i cyc)
    (hch : channelOf i = none)
    (hf : f (s.ctxAt a.core cyc) (s.arrived a i cyc) ⟨a.core, a.bundle, false⟩ =
      ((s.arrived a i cyc).meOp ⟨a.core, a.bundle, false⟩ code).meIssue (s.ctxAt a.core cyc) ⟨a.core, a.bundle, false⟩ lat op) :
    let t := s.issue a i f
    s.startsOp t a cyc .me (lat + if s.tc1 then 0 else 8) (fun p => p.raises = op.raises ∧ p.edits = op.edits ∧
      p.effs = op.effs.filter (fun e => !e.isFence) ∧ ∀ e ∈ op.early, e ∈ p.early) ∧ (t.core a.core).mem = (s.core a.core).mem := by
  intro t
  obtain ⟨-, hmem, hin⟩ := s.arrived_engines a i cyc
  obtain ⟨-, hin', hmem', -⟩ := (s.arrived a i cyc).meOp_keeps ⟨a.core, a.bundle, false⟩ code
  obtain ⟨⟨ps, hit, hstarts⟩, -, hm⟩ := State.startsOp_issue h hch hf (hin'.trans hin)
  rw [← s.tc1_ctxAt a.core cyc]
  refine ⟨hstarts.imp fun p hp => ?_, hm.trans (hmem'.trans hmem)⟩
  subst hp
  exact ⟨rfl, rfl, rfl, fun e he => List.mem_append_left _ he⟩

/-- An edit finds at its bundle what its core held before. -/
theorem State.editFinds_arrived (s : State) (a : Site) (i : Instr) (n : Nat) (k : Ctx) (o : MEditOp) :
    let c := s.core a.core
    let y := s.arrived a i n
    y.mdesc o.d.toNat = c.mdesc o.d.toNat ∧ (∀ d, y.tileView k d = c.tileView k d) ∧
      (∀ d th sheet, y.maskCheck d th sheet = c.maskCheck d th sheet) ∧ y.meCount k o = c.meCount k o ∧ y.stage = c.stage := by
  intro c y
  have hy : c.atBundle y := s.atBundle_arrived a i n
  refine ⟨Core.mdesc_congr (fun r hr => hy.reg r (by omega)) _, (s.readsAs_arrived a i n).tileView k,
    Core.maskCheck_congr fun r hr => hy.reg r (by omega), ?_, s.stage_arrived a i n⟩
  rw [Core.meCount, Core.meCount, hy.sreg]

theorem State.editFails_arrived (s : State) (a : Site) (i : Instr) (n : Nat) (k : Ctx) (o : MEditOp) (dodge burn : Bool) (v : Half)
    (m : Nat) : (s.arrived a i n).editFails k o dodge burn v m ↔ (s.core a.core).editFails k o dodge burn v m := by
  obtain ⟨hd, ht, hcheck, -, hstage⟩ := s.editFinds_arrived a i n k o
  simp only [Core.editFails, hd, ht, hcheck, hstage]

/-- A failed edit issues and aborts the frame, within the cycles of its check, rewriting nothing. -/
theorem State.edit_fails {cyc code n : Nat} {v : Half} (hx : exec i s = .next (s.issue a i fun k c a => c.meEdit k a o code dodge burn))
    (hch : channelOf i = none) (hfail : (s.core a.core).editFails (s.ctxAt a.core cyc) o dodge burn v n) (h : s.issues a i cyc) :
    ∃ t, exec i s = .next t ∧ ∃ lat, s.startsOp t a cyc .me lat fun op =>
      op.raises = [] ∧ (∃ e ∈ op.early, e.raises = [⟨v, true⟩] ∧ cyc ≤ e.cycle ∧ e.cycle < cyc + (if v = 0x0209#16 then lat else 32)) ∧
        ∀ x ∈ op.effs, ∀ b bs, x ≠ .mem b bs := by
  have hfail' := (s.editFails_arrived a i cyc _ o dodge burn v n).2 hfail
  obtain ⟨hpos, hle⟩ := hfail'.window
  have hdone := Core.meEdit_failed (at_ := ⟨a.core, a.bundle, false⟩) rfl code hfail'
  refine ⟨_, hx, _, (State.startsOp_me (f := fun k c a => c.meEdit k a o code dodge burn) h hch hdone).1.imp fun p hp => ?_⟩
  obtain ⟨hraises, -, heffs, hearly⟩ := hp
  refine ⟨hraises, ⟨_, hearly _ List.mem_cons_self, rfl, Nat.le_add_right _ _, ?_⟩, fun e he b bs => ?_⟩
  · refine Nat.add_lt_add_left (Nat.lt_of_lt_of_le (Nat.mod_lt _ hpos) (hle.trans ?_)) _
    split <;> omega
  · rw [heffs] at he
    rw [MDesc.effs_failedEdit Core.isFence_tileView e he]
    nofun

/-- An edit that passes its checks issues and is made. -/
theorem State.edit_made {cyc code : Nat} {p : PendingOp → Prop}
    (hx : exec i s = .next (s.issue a i fun k c a => c.meEdit k a o code dodge burn)) (hch : channelOf i = none)
    (hp : ∀ op : PendingOp, (burn = true → Eff.stage ScoreStage.reset ∈ op.effs) → p op) :
    let c := s.core a.core
    let k := s.ctxAt a.core cyc
    let d := c.mdesc o.d.toNat
    let t := (c.tileView k d).1
    let drops := if dodge then min (c.meCount k o) t.act.length else 0
    c.maskCheck d t.h t.sheet = none → (burn = true → c.stage.isFor o.d.toNat t.h) →
    ∃ adds, adds ≤ (if burn then c.meCount k o else 0) ∧ (s.issues a i cyc → ∃ t', exec i s = .next t' ∧
      s.startsOp t' a cyc .me (d.editTime dodge burn + if s.tc1 then 0 else 8) (fun op => op.raises = [] ∧ op.edits = [d.slot] ∧
        Eff.reg 0x7004 (BitVec.ofNat 32 (drops + adds * 65536)) ∈ op.effs ∧ p op) ∧ (t'.core a.core).mem = c.mem) := by
  intro c k d t drops hcheck hstage
  obtain ⟨hd, ht, hcheck', hcount, hstage'⟩ := s.editFinds_arrived a i cyc k o
  have hmade := Core.meEdit_made (x := s.arrived a i cyc) (k := k) (o := o) (dodge := dodge) (burn := burn)
    (at_ := ⟨a.core, a.bundle, false⟩) rfl code
  simp only [hd, ht, hcheck', hcount, hstage'] at hmade
  obtain ⟨op, adds, hdone, hadds, hop⟩ := hmade hcheck hstage
  refine ⟨adds, hadds, fun h => ⟨_, hx, ?_⟩⟩
  obtain ⟨hstarts, hmem⟩ := State.startsOp_me (f := fun k c a => c.meEdit k a o code dodge burn) h hch hdone
  refine ⟨hstarts.imp fun q hq => ?_, hmem⟩
  obtain ⟨hraises, hedits, heffs, -⟩ := hq
  have kept : ∀ e ∈ op.effs, e.isFence = false → e ∈ q.effs := fun e he hf => by
    rw [heffs]
    exact List.mem_filter.2 ⟨he, by rw [hf]; rfl⟩
  exact ⟨hraises.trans hop.raises, hedits.trans hop.edits, kept _ hop.counts rfl, hp q fun hb => kept _ (hop.stage hb) rfl⟩

/-- Settles O27: each of the three is an edit that fails its header's check, or for want of staged scores, or is made. -/
theorem maskEdits : Obligations.MaskEdits := by
  intro s a cyc o c k d t req late staged edits fails
  have refused {i : Instr} {code : Nat} {dodge burn : Bool} {v : Half} (hcheck : c.maskCheck d t.h t.sheet = some v)
      (hx : exec i s = .next (s.issue a i fun k c a => c.meEdit k a o code dodge burn)) (hch : channelOf i = none) : fails i v :=
    State.edit_fails hx hch (.inl ⟨hcheck, rfl⟩)
  have unstaged {i : Instr} {code : Nat} {dodge : Bool} (hcheck : c.maskCheck d t.h t.sheet = none) (hstage : ¬staged)
      (hx : exec i s = .next (s.issue a i fun k c a => c.meEdit k a o code dodge true)) (hch : channelOf i = none) :
      fails i 0x0209#16 :=
    State.edit_fails hx hch (.inr ⟨hcheck, rfl, hstage, rfl, rfl⟩)
  refine ⟨fun hcheck => ⟨?_, fun hstage => ⟨?_, ?_⟩, fun hstage => ⟨unstaged hcheck hstage rfl rfl, unstaged hcheck hstage rfl rfl⟩⟩,
    fun v hcheck => ⟨refused hcheck rfl rfl, refused hcheck rfl rfl, refused hcheck rfl rfl⟩⟩
  · obtain ⟨adds, hadds, hdodge⟩ := State.edit_made (i := .mdodge a o) (dodge := true) (burn := false) (p := fun _ => True) rfl rfl
      (fun _ _ => trivial) hcheck nofun
    obtain rfl : adds = 0 := Nat.le_zero.1 hadds
    rw [← d.editTime_dodge]
    exact hdodge
  · rw [← d.editTime_burn]
    exact State.edit_made (dodge := false) (burn := true) rfl rfl (fun _ h => h rfl) hcheck fun _ => hstage
  · rw [← d.editTime_refresh]
    exact State.edit_made (dodge := true) (burn := true) rfl rfl (fun _ h => h rfl) hcheck fun _ => hstage

end Sys2Proof.Machine
end

section
/-! SUPPORT. What an instruction of a VE finds at its bundle, and what its issue puts in flight (R160–R170, R257). -/

namespace Sys2Proof.Machine

variable {x y : Core} {s : State} {a : Site} {i : Instr}

/-! ## What an instruction of a VE finds -/

theorem Core.atBundle.mask (h : x.atBundle y) (ve : Bool) (m : BitVec 3) : y.mask ve m = x.mask ve m := by
  have hoff : 0x5100 ≤ veMaskOff ve m.toNat := by unfold veMaskOff; omega
  rw [Core.mask, Core.mask, h.reg _ (by omega), h.reg _ (by omega)]

theorem Core.readsAs.laneCodes (h : x.readsAs y) (k : Ctx) (ve : Bool) (sty n : Nat) : y.laneCodes k ve sty n = x.laneCodes k ve sty n := by
  rw [Core.laneCodes, Core.laneCodes, h.read]

theorem Core.readsAs.vecEffs (h : x.readsAs y) (ve : Bool) (vd : Nat) (m : BitVec 64) (mz : Bool) (vals : List Word) :
    y.vecEffs ve vd m mz vals = x.vecEffs ve vd m mz vals := by
  unfold Core.vecEffs Core.writeLanes
  simp only [h.denies]

/-! ## The issue -/

/-- An instruction of a VE that issues, not suppressed, does at its completion what its core puts in flight has for effects. -/
theorem State.startsOp_ve {cyc lat interval : Nat} {f : Ctx → Core → At → Core} {ve : Bool} {op : PendingOp} (h : s.issues a i cyc)
    (hch : channelOf i = none)
    (hf : f (s.ctxAt a.core cyc) (s.arrived a i cyc) ⟨a.core, a.bundle, false⟩ =
      (s.arrived a i cyc).veIssue (s.ctxAt a.core cyc) ⟨a.core, a.bundle, false⟩ ve lat interval op) :
    s.startsOp (s.issue a i f) a cyc (if ve then .ve1 else .ve0) (lat + if s.tc1 then 0 else 2) fun p => p.does op.effs := by
  obtain ⟨-, -, hin⟩ := s.arrived_engines a i cyc
  rw [Core.veIssue] at hf
  obtain ⟨⟨ps, hit, hstarts⟩, -⟩ := State.startsOp_issue h hch hf hin
  rw [← s.tc1_ctxAt a.core cyc]
  refine hstarts.imp fun p hp => ?_
  subst hp
  exact Core.started_does _ _ _ _ _ _ _ _ ps hit

end Sys2Proof.Machine
end

section
/-! O21: VCMP, VMLOG, VMLANE, VMSR, VSPL and VSCL (R165, R264, R265, R267). -/

namespace Sys2Proof.Machine

variable {x : Core} {k : Ctx} {s : State} {a : Site} {i : Instr}

/-! ## Masks lane by lane -/

/-- The number whose bits below `n` are those of `g`, as VCMP gathers them. -/
def gathered (g : Nat → Bool) (n : Nat) : Nat := (List.range n).foldl (fun v i => if g i then v + 2 ^ i else v) 0

theorem gathered_succ (g : Nat → Bool) (n : Nat) : gathered g (n + 1) = if g n then gathered g n + 2 ^ n else gathered g n := by
  simp [gathered, List.range_succ]

theorem gathered_lt (g : Nat → Bool) (n : Nat) : gathered g n < 2 ^ n := by
  induction n with
  | zero => exact Nat.one_pos
  | succ n ih =>
    rw [gathered_succ, Nat.pow_succ]
    split <;> omega

theorem testBit_gathered (g : Nat → Bool) {n i : Nat} (h : i < n) : (gathered g n).testBit i = g i := by
  induction n with
  | zero => cases h
  | succ n ih =>
    have hlt := gathered_lt g n
    rw [gathered_succ]
    rcases Nat.lt_succ_iff_lt_or_eq.1 h with h | rfl
    · rw [← ih h]
      split
      · rw [Nat.add_comm, Nat.testBit_two_pow_add_gt h]
      · rfl
    · have hclear : (gathered g i).testBit i = false := Nat.testBit_lt_two_pow hlt
      split
      · next hg => rw [Nat.add_comm, Nat.testBit_two_pow_add_eq, hclear, hg]; rfl
      · next hg => rw [hclear, Bool.eq_false_of_not_eq_true hg]

/-- A comparison of integers by its condition's place in R265's list. -/
theorem intCond_eq (cond : BitVec 3) (v w : Word) : intCond cond v w =
    [decide (v = w), decide (v ≠ w), decide (v.toInt < w.toInt), decide (v.toInt ≤ w.toInt), decide (w.toInt < v.toInt),
      decide (w.toInt ≤ v.toInt)].getD cond.toNat false := by
  have hle : ∀ v w : Word, (BitVec.slt v w || decide (v = w)) = decide (v.toInt ≤ w.toInt) := fun v w => by
    rw [BitVec.slt_eq_decide, ← Bool.decide_or, decide_eq_decide, ← BitVec.toInt_inj]
    omega
  unfold intCond orderCond
  generalize cond.toNat = n
  match n with
  | 0 => rfl
  | 1 => exact (decide_not ..).symm
  | 2 => exact BitVec.slt_eq_decide
  | 3 => exact hle v w
  | 4 => exact BitVec.slt_eq_decide
  | 5 => rw [show decide (v = w) = decide (w = v) from decide_eq_decide.2 eq_comm]; exact hle w v
  | _ + 6 => rfl

theorem getLsbD_maskLogic (fn : BitVec 2) (v w : BitVec 64) {i : Nat} (h : i < 64) : (maskLogic fn v w).getLsbD i =
    [v.getLsbD i && w.getLsbD i, v.getLsbD i || w.getLsbD i, xor (v.getLsbD i) (w.getLsbD i), v.getLsbD i && !w.getLsbD i].getD
      fn.toNat false := by
  unfold maskLogic
  have hlt := fn.isLt
  generalize fn.toNat = n at hlt
  match n with
  | 0 => exact BitVec.getLsbD_and
  | 1 => exact BitVec.getLsbD_or
  | 2 => exact BitVec.getLsbD_xor
  | 3 => simp [h]
  | _ + 4 => omega

theorem getLsbD_laneMask (lo hi : BitVec 6) {i : Nat} (h : i < 64) :
    (laneMask lo hi).getLsbD i = (decide (lo.toNat ≤ i) && decide (i ≤ hi.toNat)) := by
  unfold laneMask
  rw [BitVec.getLsbD_ofNat, decide_eq_true h, Bool.true_and]
  split
  · next hlt =>
    have hlt' : hi.toNat < lo.toNat := hlt
    rw [Nat.zero_testBit, ← Bool.decide_and, eq_comm, decide_eq_false_iff_not]
    omega
  · next hle =>
    have hle' : lo.toNat ≤ hi.toNat := Nat.not_lt.1 hle
    rw [Nat.testBit_mul_two_pow, Nat.testBit_two_pow_sub_one, ← Bool.decide_and, ← Bool.decide_and, decide_eq_decide]
    omega

theorem getLsbD_maskHalf (old : BitVec 64) (h : Bool) (w : Word) {i : Nat} (hi : i < 64) : (maskHalf old h w).getLsbD i =
    if h then if i < 32 then old.getLsbD i else w.getLsbD (i - 32) else if i < 32 then w.getLsbD i else old.getLsbD i := by
  unfold maskHalf
  cases h
  · simp only [Bool.false_eq_true, if_false, BitVec.getLsbD_append]
    split
    · rfl
    · rw [BitVec.getLsbD_setWidth, BitVec.getLsbD_ushiftRight]
      simp [show i - 32 < 32 by omega, show 32 + (i - 32) = i by omega]
  · simp only [if_true, BitVec.getLsbD_append]
    split
    · next h32 => simp [h32]
    · rfl

/-! ## The issue -/

/-- A VCMP of INT32 lanes that is not suppressed issues, to write the mask of its comparisons. -/
theorem Core.vCmp_int {at_ : At} {o : VcmpOp} (hs : at_.supp = false) (hsty : o.sty = 1#2) :
    ∃ op v, x.vCmp k at_ o = x.veIssue k at_ o.ve 6 1 op ∧ op.effs = maskEffs o.ve o.md v ∧
      ∀ i, i < 64 → v.getLsbD i =
        if (x.mask o.ve o.msk).getLsbD i then
          intCond o.cond (BitVec.ofNat 32 ((x.laneCodes k o.ve 1 o.va.toNat).getD i 0))
            (BitVec.ofNat 32 ((x.laneCodes k o.ve 1 o.vb.toNat).getD i 0))
        else !o.mz && (x.mask o.ve o.md).getLsbD i := by
  unfold Core.vCmp
  rw [if_neg (by rw [hs]; decide), show o.sty.toNat = 1 by rw [hsty]; rfl]
  refine ⟨_, _, rfl, rfl, fun i hi => ?_⟩
  rw [BitVec.getLsbD_ofNat, decide_eq_true hi, Bool.true_and]
  refine (testBit_gathered _ hi).trans ?_
  simp [hi]

/-- An instruction of a VE whose latency is 6 starts its operation if its core, as it finds it, issues one of which `p` holds. -/
theorem State.gives_ve {cyc : Nat} {f : Ctx → Core → At → Core} {ve : Bool} {p : List Eff → Prop}
    (hx : exec i s = .next (s.issue a i f)) (hch : channelOf i = none)
    (hf : ∃ op, f (s.ctxAt a.core cyc) (s.arrived a i cyc) ⟨a.core, a.bundle, false⟩ =
      (s.arrived a i cyc).veIssue (s.ctxAt a.core cyc) ⟨a.core, a.bundle, false⟩ ve 6 1 op ∧ p op.effs) (h : s.issues a i cyc) :
    ∃ t, exec i s = .next t ∧ s.startsOp t a cyc (if ve then .ve1 else .ve0) (6 + if s.tc1 then 0 else 2) fun op =>
      ∃ effs, op.does effs ∧ p effs := by
  obtain ⟨op, hf, hp⟩ := hf
  exact ⟨_, hx, (State.startsOp_ve h hch hf).imp fun q hq => ⟨_, hq, hp⟩⟩

/-- Settles O21: what each of the six puts in flight, on the core that it finds at its bundle, is what the statement names lane by lane. -/
theorem laneMasksAndControls : Obligations.LaneMasksAndControls := by
  intro s a cyc o l ve h mz ssrc cap lo hi msk md rs vd sidx qexp c k x y rel gives masks old
  have found (i : Instr) : c.atBundle (s.arrived a i cyc) := s.atBundle_arrived a i cyc
  have reads (i : Instr) : c.readsAs (s.arrived a i cyc) := s.readsAs_arrived a i cyc
  refine ⟨fun hsty => ?vcmp, ?vmlog, ?vmlane, ?vmsr, ?vspl, ?vscl⟩
  case vcmp =>
    obtain ⟨op, v, hissue, heffs, hv⟩ :=
      Core.vCmp_int (x := s.arrived a (.vcmp a o) cyc) (k := k) (at_ := ⟨a.core, a.bundle, false⟩) rfl hsty
    refine State.gives_ve rfl rfl ⟨op, hissue, v, heffs, fun i hi => ?_⟩
    rw [hv i hi, (found _).mask, (found _).mask, (reads _).laneCodes, (reads _).laneCodes, intCond_eq]
  case vmlog =>
    refine State.gives_ve rfl rfl ⟨_, rfl, _, rfl, fun i hi => ?_⟩
    rw [(found _).mask, (found _).mask]
    exact getLsbD_maskLogic _ _ _ hi
  case vmlane =>
    exact State.gives_ve rfl rfl ⟨_, rfl, _, rfl, fun i hlt => getLsbD_laneMask lo hi hlt⟩
  case vmsr =>
    refine State.gives_ve rfl rfl ⟨_, rfl, _, rfl, fun i hi => ?_⟩
    rw [(found _).mask, (found _).sreg]
    exact getLsbD_maskHalf _ h _ hi
  case vspl =>
    refine State.gives_ve rfl rfl ⟨_, rfl, ?_⟩
    rw [(found _).mask, (found _).sreg]
    exact (reads _).vecEffs _ _ _ _ _
  case vscl => exact State.gives_ve rfl rfl ⟨_, rfl, rfl⟩

end Sys2Proof.Machine
end

section
/-! O24: XRUN (R176–R197, R271). -/

namespace Sys2Proof.Machine

variable {x : Core} {k : Ctx} {s : State} {a : Site} {i : Instr}

/-! ## An instruction that issues nothing -/

theorem Core.checkRetire_mem (k : Ctx) (x : Core) : (x.checkRetire k).mem = x.mem := by
  cases h : x.frame.live && x.frame.retiredAt.isNone && x.quietEnd
  · rw [Core.checkRetire_eq_self h]
  · have hwait : (x.retiring k).mem = x.mem := by
      unfold Core.retiring Core.waitAbandoned
      split <;> rfl
    rw [Core.checkRetire_eq h, Core.showRetired, Core.setRf, Core.setReg_mem, Core.setRf, Core.setReg_mem, ← hwait]
    exact foldl_keeps (g := Core.mem) (fun c _ _ => Core.setReg_mem c _ _) (x.retiring k)

/-- An instruction that leaves its core as it finds it puts nothing in flight and writes nothing. -/
theorem State.issues_nothing {cyc : Nat} {f : Ctx → Core → At → Core} (h : s.issues a i cyc) (hslot : slotNo i ≠ 0)
    (hch : channelOf i = none)
    (hf : f (s.ctxAt a.core cyc) (s.arrived a i cyc) ⟨a.core, a.bundle, false⟩ = s.arrived a i cyc) :
    let c := s.core a.core
    let t := s.issue a i f
    (t.core a.core).inflight.map PendingOp.settled = c.inflight.map PendingOp.settled ∧ (t.core a.core).mem = c.mem := by
  intro c t
  let y := s.arrived a i cyc
  obtain ⟨-, hmem, hin⟩ : y.te = c.te ∧ y.mem = c.mem ∧ y.inflight = c.inflight := s.arrived_engines a i cyc
  let w := y.joinPorts i c.inflight.length
  have hcore : t.core a.core = (w.checkRetire (s.ctxAt a.core cyc)).drained := State.core_issue_retired h hslot hf
  have hports : w.inflight.map PendingOp.settled = y.inflight.map PendingOp.settled := by
    rw [show w = y.joinPorts i y.inflight.length by rw [hin]]
    exact Core.joinPorts_none hch
  rw [hcore, ← hin, ← hmem]
  exact ⟨(congrArg _ (w.checkRetire_engines _).2.1).trans hports, (w.checkRetire_mem _).trans (y.joinPorts_engines i _).2⟩

/-! ## The claims and the start of an XRUN -/

theorem Core.claimed_none {tiles : List Nat} (h : ∀ t ∈ tiles, x.te.owners.getD t none = none) (ch : Option Nat) :
    x.claimed tiles ch = none := by
  refine List.findSome?_eq_none_iff.2 fun t ht => ?_
  rw [h t ht]

/-- The tiles that a descriptor's SCATTER_ADD claims. -/
def XDesc.tiles (d : XDesc) : List Nat := (tileRange d.at0 (d.atnm1 + 1)).filter fun t => decide (t < 16)

/-- An XRUN's core ready for its operation: a SCATTER_ADD's tiles claimed and typed, and its descriptor shown in XE_STATUS. -/
def Core.xrunReady (x : Core) (d : BitVec 5) (op : Nat) (b : BitVec 13) : Core :=
  let c := x.xdesc d.toNat
  (if op = 4 then (x.claim c.tiles x.nextId b).setType c.tiles c.int else x).setRf 0x5200 5 1 d.toNat

theorem Core.canonical.xrunReady {d : BitVec 5} {op : Nat} {b : BitVec 13} (h : x.canonical) : (x.xrunReady d op b).canonical :=
  .setRf (.ite h.claim.setType h)

theorem Core.rf_xrunReady {d : BitVec 5} {op : Nat} {b : BitVec 13} (h : x.canonical) : (x.xrunReady d op b).rf 0x5200 5 1 = d.toNat :=
  (Core.rf_setRf_self (.ite h.claim.setType h) (by decide) (by decide)).trans (Nat.mod_eq_of_lt d.isLt)

theorem Core.xrunReady_keeps (x : Core) (d : BitVec 5) (op : Nat) (b : BitVec 13) :
    (x.xrunReady d op b).inflight = x.inflight ∧ (x.xrunReady d op b).mem = x.mem := by
  unfold Core.xrunReady
  dsimp only
  split <;> exact ⟨rfl, rfl⟩

theorem Core.xeMove_issue (k : Ctx) (x : Core) (at_ : At) (n : Nat) (d : XDesc) (src dst idx : Nat) :
    ∃ p, x.xeMove k at_ n d src dst idx = x.xeIssue k at_ d.time p ∧ p.claims = [] := by
  unfold Core.xeMove
  generalize x.readIndices k idx d.idxLen = found
  exact ⟨_, rfl, rfl⟩

theorem Core.xeAdd_issue (k : Ctx) (x : Core) (at_ : At) (d : XDesc) (tiles : List Nat) (src idx : Nat) :
    ∃ p, x.xeAdd k at_ d tiles src idx = x.xeIssue k at_ d.time p ∧ p.claims = tiles := by
  unfold Core.xeAdd
  generalize x.readIndices k idx (dim d.e 1) = found
  exact ⟨_, rfl, rfl⟩

theorem Core.xeIssue_eq (k : Ctx) (x : Core) (at_ : At) (n : Nat) (p : PendingOp) :
    x.xeIssue k at_ n p = x.issue k at_ .xe (n + if k.tc1 then 20 else 24) (n + if k.tc1 then 20 else 24) 1 { p with master := 1 } := rfl

/-- Without base replacement an XRUN of its row's operation, whose tiles are free, issues for its access time. -/
theorem Core.xrun_issue {at_ : At} {d : BitVec 5} {op : Nat} (hs : at_.supp = false) (hop : (x.xdesc d.toNat).op = op)
    (hfree : op = 4 → ∀ t ∈ (x.xdesc d.toNat).tiles, x.te.owners.getD t none = none) :
    ∃ p, x.xrun k at_ ⟨d, 0#5, 0#5, 0#5⟩ op = (x.xrunReady d op at_.bundle).xeIssue k at_ (x.xdesc d.toNat).time p ∧
      p.claims = if op = 4 then (x.xdesc d.toNat).tiles else [] := by
  have hclaimed : x.claimed (if op = 4 then (x.xdesc d.toNat).tiles else []) none = none := by
    refine Core.claimed_none (fun t ht => ?_) none
    split at ht
    · next h4 => exact hfree h4 t ht
    · cases ht
  generalize hz : x.xrun k at_ ⟨d, 0#5, 0#5, 0#5⟩ op = z
  unfold Core.xrun at hz
  extract_lets n c src dst idx tiles id y srcR dstR ok at hz
  rw [if_neg (fun h => h hop), if_neg (by rw [hs]; decide), show x.claimed tiles none = none from hclaimed] at hz
  dsimp only at hz
  rw [if_neg (by simp [ok])] at hz
  subst hz
  by_cases h4 : op = 4
  · have htiles : tiles = c.tiles := if_pos h4
    rw [if_pos h4, if_pos h4, htiles, Core.xrunReady, if_pos h4, show y = _ from if_pos h4, htiles]
    exact Core.xeAdd_issue k _ at_ c c.tiles src idx
  · rw [if_neg h4, if_neg h4, Core.xrunReady, if_neg h4, show y = x from if_neg h4]
    exact Core.xeMove_issue k _ at_ n c src dst idx

/-- An XRUN whose descriptor asks for another operation than its row's does nothing (log entry 17). -/
theorem Core.xrun_other {at_ : At} {o : XrunOp} {op : Nat} (h : (x.xdesc o.desc.toNat).op ≠ op) : x.xrun k at_ o op = x := if_pos h

/-! ## The issue of an XRUN -/

theorem State.xdesc_arrived (s : State) (a : Site) (i : Instr) (n m : Nat) : (s.arrived a i n).xdesc m = (s.core a.core).xdesc m :=
  Core.xdesc_congr fun r hr => (s.atBundle_arrived a i n).reg r (by omega)

/-- An XRUN that issues holds the XE until it completes, and shows its descriptor. -/
theorem State.xrun_issue {cyc op : Nat} {d : BitVec 5} (hx : (s.core a.core).canonical) (h : s.issues a i cyc) (hch : channelOf i = none)
    (hop : ((s.core a.core).xdesc d.toNat).op = op)
    (hfree : op = 4 → ∀ t ∈ ((s.core a.core).xdesc d.toNat).tiles, (s.core a.core).te.owners.getD t none = none) :
    let c := s.core a.core
    let t := s.issue a i fun k c a => c.xrun k a ⟨d, 0#5, 0#5, 0#5⟩ op
    s.startsOp t a cyc .xe ((c.xdesc d.toNat).time + if s.tc1 then 20 else 24)
      (fun p => p.free = p.due ∧ p.claims = if op = 4 then (c.xdesc d.toNat).tiles else []) ∧
      (t.core a.core).rf 0x5200 5 1 = d.toNat ∧ (t.core a.core).mem = c.mem := by
  intro c t
  let y := s.arrived a i cyc
  obtain ⟨hte, hmem, hin⟩ : y.te = c.te ∧ y.mem = c.mem ∧ y.inflight = c.inflight := s.arrived_engines a i cyc
  have hd : y.xdesc d.toNat = c.xdesc d.toNat := s.xdesc_arrived a i cyc d.toNat
  obtain ⟨p, hf, hclaims⟩ := Core.xrun_issue (x := y) (op := op) (k := s.ctxAt a.core cyc) (at_ := ⟨a.core, a.bundle, false⟩) rfl
    (by rw [hd]; exact hop) (by rw [hd, hte]; exact hfree)
  rw [Core.xeIssue_eq] at hf
  let w := y.xrunReady d op a.bundle
  obtain ⟨hwin, hwmem⟩ : w.inflight = y.inflight ∧ w.mem = y.mem := y.xrunReady_keeps d op a.bundle
  have hy : y.canonical := (s.atBundle_arrived a i cyc).canonical hx
  obtain ⟨⟨ps, hit, hstarts⟩, -, hmem', hregs⟩ :=
    State.startsOp_of_inflight (x := w) (f := fun k c a => c.xrun k a ⟨d, 0#5, 0#5, 0#5⟩ op) h hch hf rfl (hwin.trans hin)
  rw [← s.tc1_ctxAt a.core cyc, ← hd]
  refine ⟨hstarts.imp fun q hq => ?_, ?_, hmem'.trans (hwmem.trans hmem)⟩
  · subst hq
    exact ⟨rfl, hclaims⟩
  · have hbusy : (t.core a.core).rf 0x5200 5 1 = w.rf 0x5200 5 1 :=
      (Core.rf_congr hregs _ _ _).trans (Core.rf_setRf_ne hy.xrunReady (by decide) (by decide) (.inr (.inr (by decide))))
    exact hbusy.trans (Core.rf_xrunReady hy)

/-- Settles O24: a row's XRUN starts its descriptor's operation if that is the row's, and does nothing if it is another. -/
theorem xrunIssues : Obligations.XrunIssues := by
  intro s a cyc d hx _ c o x tiles r hr
  simp only [List.mem_cons, List.not_mem_nil, or_false] at hr
  rcases hr with rfl | rfl | rfl | rfl | rfl <;>
    exact ⟨fun hop hfree h => ⟨_, rfl, State.xrun_issue hx h rfl hop hfree⟩, fun hop h => ⟨_, rfl,
      State.issues_nothing h (Nat.succ_ne_zero 3) rfl (Core.xrun_other (by rw [s.xdesc_arrived]; exact hop))⟩⟩

end Sys2Proof.Machine
end

section
/-! O20 and O22: VDIV and VACC beside an instruction of their number (R110, R170, R171, R269). A divide and a read of the accumulator set
the hold of what they have just put in flight, which they find by its number (`Core.holdDivide`, `Core.holdBanks`). Each issue takes a
fresh number (`Core.issue`), but the statements are about every core, also one on which another instruction in flight bears the number
of the next to issue: its hold is then set too, while the statements have those in flight before it left as they were. -/

namespace Sys2Proof.Machine

/-- An instruction of the UE under number 0, in flight until cycle 100. -/
def otherOp : PendingOp := { PendingOp.blank with unit := .ue, due := 100, free := 100 }

/-- Core 0 runs a frame, in line for bundle 4, the instruction of the UE in flight under the number of the next to issue. -/
def numberTaken : State := State.reset.setCore 0 { Core.reset with
  frame := { Frame.none with live := true }, seq := { Seq.reset with prev := 3 }
  inflight := [otherOp] }

/-- The site of the next bundle. -/
def nextBundle : Site := ⟨0, 4#13, none⟩

/-- Vector 0 divided by itself, FP32, in every lane. -/
def divideLanes : VaOp := ⟨false, 0#3, false, 0#2, 0#9, 0#9, 0#9⟩

/-- The first half of row 0 of tile 0 read into vector 0. -/
def readTileRow : VaccOp := ⟨false, 0#3, false, 0#9, 0#4, 0#7, false, 0#5⟩

theorem numberTaken_issues : numberTaken.issues nextBundle (.vdiv nextBundle divideLanes) 0 ∧
    numberTaken.issues nextBundle (.vacc nextBundle readTileRow) 0 := by
  unfold State.issues State.reaches
  decide +kernel

theorem numberTaken_inflight : (numberTaken.core nextBundle.core).inflight = [otherOp] := by
  rw [numberTaken, nextBundle, State.core_setCore_self]

/-- A divide holds its token for 4 cycles, and with it the other instruction's, which was over. -/
theorem numberTaken_vdiv : (match exec (.vdiv nextBundle divideLanes) numberTaken with
    | .next t => decide ((t.core 0).inflight.map PendingOp.tokenEnd = [4, 4])
    | _ => false) = true := by decide +kernel

/-- A read of the accumulator holds four of its banks for its cycle, and gives them to the other instruction too, which had none. -/
theorem numberTaken_vacc : (match exec (.vacc nextBundle readTileRow) numberTaken with
    | .next t => decide ((t.core 0).inflight.map (fun o => o.accBanks.length) = [4, 4])
    | _ => false) = true := by decide +kernel

/-- A value of the instructions in flight that a later one cannot change of them stands first in what it leaves in flight. -/
theorem State.startsOp.kept {α : Type} {s t : State} {a : Site} {cyc lat : Nat} {u : EngUnit} {p : PendingOp → Prop}
    (h : s.startsOp t a cyc u lat p) (g : PendingOp → α) (hg : ∀ o : PendingOp, g o.settled = g o) :
    (s.core a.core).inflight.map g <+: (t.core a.core).inflight.map g := by
  obtain ⟨l, op, hl, hset, -⟩ := h
  have hmap : ∀ l : List PendingOp, (l.map PendingOp.settled).map g = l.map g := fun l => by
    rw [List.map_map]
    exact List.map_congr_left fun o _ => hg o
  rw [hl, List.map_append, ← hmap l, hset, hmap]
  exact ⟨[g op], rfl⟩

/-- Refutes O20: VDIV changes the hold of another instruction in flight, if that bears its number. -/
theorem not_laneArithmetic : ¬ Obligations.LaneArithmetic := by
  intro h
  obtain ⟨-, -, floating⟩ := h numberTaken nextBundle 0 divideLanes
  obtain ⟨t, ht, hstarts, -⟩ := floating (by decide) _ (List.mem_of_getElem? (i := 10) rfl) numberTaken_issues.1
  have hkept := hstarts.kept PendingOp.tokenEnd fun _ => rfl
  have hmodel := numberTaken_vdiv
  rw [ht] at hmodel
  rw [show (t.core nextBundle.core).inflight.map _ = _ from of_decide_eq_true hmodel, numberTaken_inflight] at hkept
  exact absurd hkept (by decide)

/-- Refutes O22: VACC changes the banks that another instruction in flight holds, if that bears its number. -/
theorem not_reductionsAndTileReads : ¬ Obligations.ReductionsAndTileReads := by
  intro h
  obtain ⟨-, -, reads⟩ := h numberTaken nextBundle 0 ⟨false, 0#3, false, 0#2, 0#3, 0#6, 0#9, 0#9⟩ readTileRow
  obtain ⟨t, ht, hstarts⟩ := reads (by decide +kernel) (by decide +kernel) numberTaken_issues.2
  have hkept := hstarts.kept (fun o => o.accBanks.length) fun _ => rfl
  have hmodel := numberTaken_vacc
  rw [ht] at hmodel
  rw [show (t.core nextBundle.core).inflight.map _ = _ from of_decide_eq_true hmodel, numberTaken_inflight] at hkept
  exact absurd hkept (by decide)

end Sys2Proof.Machine
end

section
/-! O25: UADV, UGFAC, UFLIST and UFILT (R200–R204, R211, R272). -/

namespace Sys2Proof.Machine

variable {x y : Core} {k : Ctx} {s : State} {a : Site} {i : Instr} {at_ : At}

/-! ## The issue of an update operation -/

/-- Of the registers the start of an operation changes UE_STATUS alone. -/
theorem Core.reg_ueOp_ne (x : Core) (at_ : At) (code : Nat) {r : Nat} (hr : r ≠ 0x6000) : (x.ueOp at_ code).reg r = x.reg r := by
  unfold Core.ueOp
  split
  · rfl
  · exact Core.reg_setRf_ne x _ _ _ (Ne.symm hr)

/-- The global step depends on its two registers alone. -/
theorem Core.gstep_congr (hlow : y.reg 0x6004 = x.reg 0x6004) (hhigh : y.rf 0x6008 7 0 = x.rf 0x6008 7 0) : y.gstep = x.gstep := by
  rw [Core.gstep, Core.gstep, hlow, hhigh]

theorem Core.gstep_congr_reg (h : ∀ r, 0x6004 ≤ r → y.reg r = x.reg r) : y.gstep = x.gstep :=
  Core.gstep_congr (h _ (by omega)) (by rw [Core.rf, Core.rf, h _ (by omega)])

theorem Core.ftz_congr (h : y.reg 0x4000 = x.reg 0x4000) : y.ftz = x.ftz := by rw [Core.ftz, Core.ftz, h]

theorem Core.udesc_congr (h : ∀ r, 0x6400 ≤ r → y.reg r = x.reg r) (n : Nat) : y.udesc n = x.udesc n := by
  have hr : ∀ i, y.reg (0x6400 + 64 * n + 4 * i) = x.reg (0x6400 + 64 * n + 4 * i) := fun i => h _ (by omega)
  simp only [Core.udesc, hr]

theorem Core.readsAs.writeE (h : x.readsAs y) (m n : Nat) (bs : List Byte) : y.writeE m n bs = x.writeE m n bs := by
  unfold Core.writeE
  simp only [h.denies]

/-- The sequencer's arrival leaves the touched-row filter and the lists' declared counts alone. -/
theorem State.filter_arrived (s : State) (a : Site) (i : Instr) (n : Nat) :
    (s.arrived a i n).filter = (s.core a.core).filter ∧ (s.arrived a i n).filtMax = (s.core a.core).filtMax := by
  unfold State.arrived Core.arrive
  split <;> exact ⟨rfl, rfl⟩

theorem Core.joinPorts_filter (x : Core) (i : Instr) (n : Nat) : (x.joinPorts i n).filter = x.filter := by
  unfold Core.joinPorts
  split
  · dsimp only
    split <;> rfl
  · rfl

/-- An update operation that issues, not suppressed, is in flight with its codes and its effects, and leaves the registers and the filter
as the instruction does. -/
theorem State.startsOp_ue {cyc lat : Nat} {f : Ctx → Core → At → Core} {op : PendingOp} (h : s.issues a i cyc)
    (hch : channelOf i = none) (hf : f (s.ctxAt a.core cyc) (s.arrived a i cyc) ⟨a.core, a.bundle, false⟩ =
      x.ueIssue (s.ctxAt a.core cyc) ⟨a.core, a.bundle, false⟩ lat op) (hin : x.inflight = (s.arrived a i cyc).inflight) :
    let t := s.issue a i f
    s.startsOp t a cyc .ue (lat + if s.tc1 then 0 else 8) (fun p => p.does op.effs ∧ p.raises = op.raises) ∧
      (t.core a.core).filter = x.filter ∧ ∀ r, r ≠ 0x6000 → (t.core a.core).reg r = x.reg r := by
  intro t
  rw [Core.ueIssue, s.tc1_ctxAt] at hf
  obtain ⟨⟨ps, hit, hstarts⟩, -, -, hregs⟩ := State.startsOp_of_inflight h hch hf rfl (hin.trans (s.arrived_engines a i cyc).2.2)
  refine ⟨hstarts.imp fun p hp => ?_, ?_, fun r hr => (Core.reg_congr hregs r).trans (Core.reg_setRf_ne _ 0 0 _ (Ne.symm hr))⟩
  · subst hp
    exact ⟨Core.started_does _ _ _ _ _ _ _ _ ps hit, rfl⟩
  · obtain ⟨l, hl, -⟩ := x.issue_inflight (s.ctxAt a.core cyc) (at_ := ⟨a.core, a.bundle, false⟩) rfl .ue _ _ 1
      { op with master := 6 }
    rw [State.core_issue h hch hf (by rw [hl]; simp)]
    exact Core.joinPorts_filter _ _ _

/-- An effect that is no violation is left to the completion (R58). -/
theorem PendingOp.does.mem {o : PendingOp} {effs : List Eff} {e : Eff} (h : o.does effs) (he : e ∈ effs) (hfence : e.isFence = false) :
    e ∈ o.effs := by
  rw [h.1]
  exact List.mem_filter.2 ⟨he, by rw [hfence]; rfl⟩

theorem inBank_of_bounds {base n len : Nat} (h : n / 0x80000 = base / 0x80000 ∧ (n + len - 1) / 0x80000 = base / 0x80000) :
    inBank base n len = true := by
  rw [inBank, Bool.and_eq_true, decide_eq_true_eq, decide_eq_true_eq]
  exact h

/-! ## The four operations -/

/-- The group at `n`, as UGFAC reads it (R201). -/
def Core.group (k : Ctx) (x : Core) (n : Nat) : List Byte := (x.readE k 6 n (groupBytes (x.readE k 6 n 128).1)).1

theorem Core.readsAs.group (h : x.readsAs y) (k : Ctx) (n : Nat) : y.group k n = x.group k n := by
  rw [Core.group, Core.group, h.readE, h.readE]

/-- A UGFAC of a sound group in its bank issues, to make its factor set valid, and raises nothing. -/
theorem Core.ugfac_sound (x : Core) (k : Ctx) (f : BitVec 4) (bank : BitVec 3) (ra : BitVec 5) (ofs : BitVec 12) (hs : at_.supp = false) :
    let base := bank.toNat * 0x80000 + ofs.toNat * 128
    let n := x.engAddr k base ra 128
    inBank base n 1152 = true → groupOk (x.group k n) = true →
    ∃ op, x.ugfac k at_ f bank ra ofs = (x.ueOp at_ 3).ueIssue k at_ 120 op ∧ op.raises = [] ∧
      Eff.factor f.toNat (some (factorSet (x.ueOp at_ 3).ftz (x.group k n) (x.ueOp at_ 3).gstep).1) ∈ op.effs := by
  intro base n hbank hok
  generalize hz : x.ugfac k at_ f bank ra ofs = z
  unfold Core.ugfac at hz
  rw [Core.group] at hok ⊢
  -- The reads stand under a name, so that nothing below evaluates one (`readE_named`).
  obtain ⟨rd, hrd⟩ := Core.readE_named
  rw [hrd] at hz hok ⊢
  dsimp only at hz
  rw [if_neg (by rw [hs]; decide), if_neg (by rw [show inBank _ _ 1152 = true from hbank]; decide), if_pos hok] at hz
  exact ⟨_, hz.symm, rfl, List.mem_append_right _ List.mem_cons_self⟩

/-- A UFLIST whose list lies in its bank issues, to write the ids. -/
theorem Core.uflist_issue (x : Core) (k : Ctx) (d : BitVec 4) (bank : BitVec 3) (ra : BitVec 5) (hs : at_.supp = false) :
    let n := x.engAddr k (bank.toNat * 0x80000) ra 4
    let nmax := x.filtMax.getD d.toNat 0
    inBank (bank.toNat * 0x80000) n (4 * nmax) = true →
    ∃ op, x.uflist k at_ d bank ra = (x.ueOp at_ 5).ueIssue k at_ (32 + 2 * ceilDiv nmax 32) op ∧
      op.effs = x.writeE 6 n ((filterRows x.filter d).flatMap fun w => leBytes 4 w.toNat) := by
  intro n nmax hbank
  unfold Core.uflist
  dsimp only
  rw [if_neg (by rw [hs]; decide), if_neg (by rw [show inBank _ _ (4 * x.filtMax.getD d.toNat 0) = true from hbank]; simp)]
  exact ⟨_, rfl, rfl⟩

/-- A UFILT of a count within its declared one, its lists in their bank, issues, to take its ids into the filter. -/
theorem Core.ufilt_issue (x : Core) (k : Ctx) (d : BitVec 4) (bank : BitVec 3) (ra rb rn nmx : BitVec 5) (hs : at_.supp = false) :
    let base := bank.toNat * 0x80000
    let n := x.engAddr k base ra 4
    let nmax := 1024 * (nmx.toNat + 1)
    let count := (x.sreg k rn).toNat
    inBank base n (4 * nmax) = true → inBank base (x.engAddr k base rb 4) (4 * nmax) = true → count ≤ nmax →
    ∃ op, x.ufilt k at_ d bank ra rb rn nmx = (x.ueOp at_ 4).ueIssue k at_ (32 + nmax + 2 * ceilDiv nmax 32) op ∧
      Eff.filter (filterAll d (x.udesc d.toNat).rows x.filter ((unpack 32 (x.readE k 6 n (4 * count)).1).map (BitVec.ofNat 32))).1 ∈
        op.effs := by
  intro base n nmax count hids houts hcount
  generalize hz : x.ufilt k at_ d bank ra rb rn nmx = z
  unfold Core.ufilt at hz
  obtain ⟨⟨rd, hrd⟩, fa, hfa⟩ := And.intro Core.readE_named filterAll_named
  rw [hrd, hfa] at hz ⊢
  extract_lets out lat blank at hz
  rw [if_neg (by rw [hs]; decide), if_neg (by rw [hids, show inBank base out (4 * nmax) = true from houts]; decide),
    show x.clampCount .ue count nmax = (x, count) from if_neg (Nat.not_lt.2 hcount)] at hz
  exact ⟨_, hz.symm, List.mem_append_left _ (List.mem_append_right _ List.mem_cons_self)⟩

/-- A UADV issues with the request to advance standing beside the step. -/
theorem Core.uadv_eq (hs : at_.supp = false) :
    x.uadv k at_ = ((x.ueOp at_ 6).setRf 0x6008 8 8 1).ueIssue k at_ 4 PendingOp.blank := by
  unfold Core.uadv
  dsimp only
  rw [if_neg (by rw [hs]; decide)]

/-! ## The statement -/

/-- Settles O25: what each of the four puts in flight, on the core that it finds at its bundle. -/
theorem updateControls : Obligations.UpdateControls := by
  intro s a cyc f d bank ra rb rn nmx ofs hx c k late gbase g fbase ids outs nmax nf inOne
  have found (i : Instr) : c.atBundle (s.arrived a i cyc) := s.atBundle_arrived a i cyc
  have reads (i : Instr) : c.readsAs (s.arrived a i cyc) := s.readsAs_arrived a i cyc
  have filter (i : Instr) : (s.arrived a i cyc).filter = c.filter := (s.filter_arrived a i cyc).1
  have regs (i : Instr) (code : Nat) {r : Nat} (hr : 0x4000 ≤ r) (hne : r ≠ 0x6000) :
      ((s.arrived a i cyc).ueOp ⟨a.core, a.bundle, false⟩ code).reg r = c.reg r :=
    ((s.arrived a i cyc).reg_ueOp_ne _ code hne).trans ((found i).reg r (by omega))
  have step (i : Instr) (code : Nat) : ((s.arrived a i cyc).ueOp ⟨a.core, a.bundle, false⟩ code).gstep = c.gstep :=
    Core.gstep_congr_reg fun r hr => regs i code (by omega) (by omega)
  refine ⟨fun h => ?uadv, ?ugfac, fun hbank h => ?uflist, fun hids houts hcount h => ?ufilt⟩
  case uadv =>
    let y := (s.arrived a (.uadv a) cyc).ueOp ⟨a.core, a.bundle, false⟩ 6
    let w := y.setRf 0x6008 8 8 1
    let t := s.issue a (.uadv a) fun k c a => c.uadv k a
    have hy : y.canonical := ((found _).canonical hx).ueOp
    obtain ⟨hstarts, -, hregs⟩ := State.startsOp_ue (x := w) (f := fun k c a => c.uadv k a) h rfl (Core.uadv_eq rfl) rfl
    have hrf (hi lo : Nat) : (t.core a.core).rf 0x6008 hi lo = w.rf 0x6008 hi lo := congrArg (fld · hi lo) (hregs _ (by decide))
    refine ⟨t, rfl, hstarts.imp fun _ ⟨⟨heffs, _⟩, _⟩ => heffs, (hrf 8 8).trans (Core.rf_setRf_self hy (by decide) (by decide)), ?_⟩
    refine (Core.gstep_congr (x := y) ?_ ?_).trans (step _ _)
    · exact (hregs _ (by decide)).trans (Core.reg_setRf_ne y _ _ _ (by decide))
    · exact (hrf 7 0).trans (Core.rf_setRf_ne hy (by decide) (by decide) (.inr (.inl (by decide))))
  case ugfac =>
    intro hbank group hok h
    let y := s.arrived a (.ugfac a f bank ra ofs) cyc
    have haddr : y.engAddr k gbase ra 128 = g := (found _).engAddr k gbase ra 128
    have hgroup : y.group k g = group := by rw [(reads _).group, Core.group]
    obtain ⟨op, hissue, hraises, heff⟩ := y.ugfac_sound k f bank ra ofs (at_ := ⟨a.core, a.bundle, false⟩) rfl
      (by rw [haddr]; exact inBank_of_bounds hbank) (by rw [haddr, hgroup]; exact hok)
    rw [haddr, hgroup, Core.ftz_congr (regs _ 3 (by decide) (by decide)), step] at heff
    obtain ⟨hstarts, -⟩ := State.startsOp_ue (f := fun k c s => c.ugfac k s f bank ra ofs) h rfl hissue rfl
    exact ⟨_, rfl, hstarts.imp fun _ ⟨hdoes, hr⟩ => ⟨hdoes.mem heff rfl, hr.trans hraises⟩⟩
  case uflist =>
    let y := s.arrived a (.uflist a d bank ra) cyc
    have haddr : y.engAddr k fbase ra 4 = ids := (found _).engAddr k fbase ra 4
    have hmax : y.filtMax = c.filtMax := (s.filter_arrived a _ cyc).2
    obtain ⟨op, hissue, heffs⟩ := y.uflist_issue k d bank ra (at_ := ⟨a.core, a.bundle, false⟩) rfl
      (by rw [haddr, hmax]; exact inBank_of_bounds hbank)
    rw [haddr, filter, (reads _).writeE] at heffs
    rw [hmax] at hissue
    obtain ⟨hstarts, -⟩ := State.startsOp_ue (f := fun k c s => c.uflist k s d bank ra) h rfl hissue rfl
    exact ⟨_, rfl, hstarts.imp fun _ ⟨hdoes, _⟩ => heffs ▸ hdoes⟩
  case ufilt =>
    let y := s.arrived a (.ufilt a d bank ra rb rn nmx) cyc
    have haddr (r : BitVec 5) : y.engAddr k fbase r 4 = (fbase + (c.sreg k r).toNat / 4 * 4) % 2 ^ 32 := (found _).engAddr k fbase r 4
    have hrn : y.sreg k rn = c.sreg k rn := (found _).sreg k rn
    have hd : y.udesc d.toNat = c.udesc d.toNat := Core.udesc_congr (fun r hr => (found _).reg r (by omega)) _
    obtain ⟨op, hissue, heff⟩ := y.ufilt_issue k d bank ra rb rn nmx (at_ := ⟨a.core, a.bundle, false⟩) rfl
      (by rw [haddr]; exact inBank_of_bounds hids) (by rw [haddr]; exact inBank_of_bounds houts) (by rw [hrn]; exact hcount)
    rw [haddr, hrn, hd, filter, (reads _).readE] at heff
    obtain ⟨hstarts, hkept, -⟩ :=
      State.startsOp_ue (f := fun k c s => c.ufilt k s d bank ra rb rn nmx) h rfl hissue rfl
    exact ⟨_, rfl, hstarts.imp fun _ ⟨hdoes, _⟩ => hdoes.mem heff rfl, hkept.trans (filter _)⟩

end Sys2Proof.Machine
end

section
/-! SUPPORT. What keeps the sizes of a core's tables and the order of the results on their way: the named operations of a core, one lemma
each. -/

namespace Sys2Proof.Machine

variable {x y : Core} {k : Ctx}

/-! ## A sequencer and the integrity logic -/

/-- The sizes of a sequencer's tables, and the order of the results on their way. -/
def Seq.fits (q : Seq) : Prop := q.shaped ∧ q.lc.length = 4 ∧ q.spre.length = 32

/-- The sizes of the tables of a core's integrity logic. -/
def Integ.sized (g : Integ) : Prop := g.patrol.length = 13 ∧ g.leak.length = 6

/-! ## The sequencer's results on their way (R229) -/

theorem Seq.fits.put {q : Seq} {d : SeqDst} {v : Word} (h : q.fits) : (q.put d v).fits := by
  obtain ⟨⟨hs, ho, hc⟩, hlc, hsp⟩ := h
  cases d with
  | sreg r =>
    simp only [Seq.put]
    split
    · exact ⟨⟨hs, ho, hc⟩, hlc, hsp⟩
    · exact ⟨⟨(length_setAt _ _ _).trans hs, ho, hc⟩, hlc, hsp⟩
  | pred p =>
    simp only [Seq.put]
    split <;> exact ⟨⟨hs, ho, hc⟩, hlc, hsp⟩
  | ovr ch r => exact ⟨⟨hs, (length_setAt _ _ _).trans ho, hc⟩, hlc, hsp⟩

theorem Seq.fits.puts {q : Seq} {l : List SeqWrite} (h : q.fits) : (l.foldl (fun q w => q.put w.dst w.val) q).fits :=
  List.foldlRecOn l _ h fun _ hq _ _ => hq.put

theorem Seq.fits.withComing {q : Seq} {l : List SeqWrite} (h : q.fits) (hl : l.Pairwise fun v w => v.due ≤ w.due) :
    ({ q with coming := l } : Seq).fits := ⟨⟨h.1.1, h.1.2.1, hl⟩, h.2⟩

theorem Seq.fits.settle {q : Seq} {n : Nat} (h : q.fits) : (q.settle n).fits :=
  (h.withComing (h.1.2.2.filter _)).puts

/-- A result takes its place in the order in which results come. -/
theorem SeqWrite.place_sorted {w : SeqWrite} {l : List SeqWrite} (h : l.Pairwise fun v w => v.due ≤ w.due) :
    (SeqWrite.place w l).Pairwise fun v w => v.due ≤ w.due := by
  induction l with
  | nil => exact List.pairwise_singleton _ _
  | cons x l ih =>
    obtain ⟨hx, hl⟩ := List.pairwise_cons.1 h
    simp only [SeqWrite.place]
    split
    · next hw =>
      refine List.pairwise_cons.2 ⟨fun y hy => ?_, h⟩
      rcases List.mem_cons.1 hy with rfl | hy
      · exact hw.le
      · exact hw.le.trans (hx y hy)
    · next hw =>
      obtain ⟨l₁, l₂, rfl, hp⟩ := SeqWrite.place_split w l
      refine List.pairwise_cons.2 ⟨fun y hy => ?_, ih hl⟩
      rw [hp, List.mem_append, List.mem_cons] at hy
      rcases hy with hy | rfl | hy
      · exact hx y (List.mem_append_left _ hy)
      · exact Nat.le_of_not_lt hw
      · exact hx y (List.mem_append_right _ hy)

theorem Seq.fits.place {q : Seq} {w : SeqWrite} (h : q.fits) : ({ q with coming := SeqWrite.place w q.coming } : Seq).fits :=
  h.withComing (SeqWrite.place_sorted h.1.2.2)

/-! ## The tables of a core -/

theorem Seq.fits.ite {p : Prop} [Decidable p] {q r : Seq} (h : q.fits) (h' : r.fits) : (if p then q else r).fits := by
  split <;> assumption

theorem Core.shaped.fits (h : x.shaped) : x.seq.fits := ⟨h.1, h.2.1, h.2.2.1⟩

theorem Core.shaped.owners (h : x.shaped) : x.te.owners.length = 16 := h.2.2.2.1

theorem Core.shaped.rowSets (h : x.shaped) : x.rowSets.length = 8 := h.2.2.2.2.1

theorem Core.shaped.factors (h : x.shaped) : x.factors.length = 16 := h.2.2.2.2.2.1

theorem Core.shaped.filtMax (h : x.shaped) : x.filtMax.length = 16 := h.2.2.2.2.2.2.1

theorem Core.shaped.dma (h : x.shaped) : x.dma.length = 4 := h.2.2.2.2.2.2.2.1

theorem Core.shaped.unitFree (h : x.shaped) : x.unitFree.length = 10 := h.2.2.2.2.2.2.2.2.1

theorem Core.shaped.numAt (h : x.shaped) : x.numAt.length = 12 := h.2.2.2.2.2.2.2.2.2.1

theorem Core.shaped.integ (h : x.shaped) : x.integ.sized := h.2.2.2.2.2.2.2.2.2.2

theorem Core.shaped.withSeq {q : Seq} (h : x.shaped) (hq : q.fits) : ({ x with seq := q } : Core).shaped := ⟨hq.1, hq.2.1, hq.2.2, h.2.2.2⟩

theorem Core.shaped.withTe {e : Te} (h : x.shaped) (he : e.owners.length = 16) : ({ x with te := e } : Core).shaped :=
  ⟨h.1, h.2.1, h.2.2.1, he, h.2.2.2.2⟩

theorem Core.shaped.withRowSets {l : List RowSet} (h : x.shaped) (hl : l.length = 8) : ({ x with rowSets := l } : Core).shaped :=
  ⟨h.1, h.2.1, h.2.2.1, h.owners, hl, h.2.2.2.2.2⟩

theorem Core.shaped.withFactors {l : List (Option FactorSet)} (h : x.shaped) (hl : l.length = 16) : ({ x with factors := l } : Core).shaped :=
  ⟨h.1, h.2.1, h.2.2.1, h.owners, h.rowSets, hl, h.2.2.2.2.2.2⟩

theorem Core.shaped.withDma {l : List DmaCh} (h : x.shaped) (hl : l.length = 4) : ({ x with dma := l } : Core).shaped :=
  ⟨h.1, h.2.1, h.2.2.1, h.owners, h.rowSets, h.factors, h.filtMax, hl, h.2.2.2.2.2.2.2.2⟩

theorem Core.shaped.withUnitFree {l : List Nat} (h : x.shaped) (hl : l.length = 10) : ({ x with unitFree := l } : Core).shaped :=
  ⟨h.1, h.2.1, h.2.2.1, h.owners, h.rowSets, h.factors, h.filtMax, h.dma, hl, h.2.2.2.2.2.2.2.2.2⟩

theorem Core.shaped.withNumAt {l : List (Option Nat)} (h : x.shaped) (hl : l.length = 12) : ({ x with numAt := l } : Core).shaped :=
  ⟨h.1, h.2.1, h.2.2.1, h.owners, h.rowSets, h.factors, h.filtMax, h.dma, h.unitFree, hl, h.integ⟩

theorem Core.shaped.withInteg {g : Integ} (h : x.shaped) (hg : g.sized) : ({ x with integ := g } : Core).shaped :=
  ⟨h.1, h.2.1, h.2.2.1, h.owners, h.rowSets, h.factors, h.filtMax, h.dma, h.unitFree, h.numAt, hg⟩

theorem Core.shaped.ite {p : Prop} [Decidable p] (h : x.shaped) (h' : y.shaped) : (if p then x else y).shaped := by
  split <;> assumption

/-- An operation repeated over a list. -/
theorem Core.shaped.foldl {α : Type} {f : Core → α → Core} {l : List α} (h : x.shaped)
    (hf : ∀ {z a}, z.shaped → (f z a).shaped) : (l.foldl f x).shaped :=
  List.foldlRecOn l f h fun _ hz _ _ => hf hz

theorem Core.shaped.setReg {a : Nat} {w : Word} (h : x.shaped) : (x.setReg a w).shaped := h

theorem Core.shaped.setRf {a hi lo v : Nat} (h : x.shaped) : (x.setRf a hi lo v).shaped := h.setReg

theorem Core.shaped.bump {a n : Nat} (h : x.shaped) : (x.bump a n).shaped := h.setReg

theorem Core.shaped.write {a : Nat} {bs : List Byte} (h : x.shaped) : (x.write a bs).shaped := h

theorem Core.shaped.setFrame {f : Frame} (h : x.shaped) : ({ x with frame := f } : Core).shaped := h

/-- The integrity logic changed, its tables' sizes kept. -/
theorem Core.shaped.setInteg {g : Integ} (h : x.shaped) (hp : g.patrol.length = x.integ.patrol.length := by rfl)
    (hl : g.leak.length = x.integ.leak.length := by rfl) : ({ x with integ := g } : Core).shaped :=
  h.withInteg ⟨hp.trans h.integ.1, hl.trans h.integ.2⟩

theorem Core.shaped.drained (h : x.shaped) : x.drained.shaped := h

/-! ## Status codes and aborts -/

theorem Core.shaped.abort {code : Half} {b : BitVec 13} (h : x.shaped) : (x.abort code b).shaped := h

theorem Core.shaped.raise {u : Nat} {code : Half} (h : x.shaped) : (x.raise u code).shaped := .setRf h

theorem Core.shaped.raiseInt {code : Half} (h : x.shaped) : (x.raiseInt code).shaped := h.setRf

theorem Core.shaped.raiseNum {now u : Nat} {code : Half} (h : x.shaped) : (x.raiseNum now u code).shaped := by
  have h1 : (if x.numKeeps now u (lastCodeOff u) code then x else x.raise u code).shaped := .ite h h.raise
  have h2 : ∀ {y : Core}, y.shaped → (if y.numKeeps now 11 0x4010 code then y else y.setRf 0x4010 31 16 code.toNat).shaped :=
    fun hy => .ite hy hy.setRf
  exact (h2 h1).withNumAt (by simpa using (h2 h1).numAt)

theorem Core.shaped.raiseAt {now u : Nat} {code : Half} (h : x.shaped) : (x.raiseAt now u code).shaped :=
  .ite h.raiseNum h.raise

theorem Core.shaped.raises {now u : Nat} {b : BitVec 13} {l : List Raise} (h : x.shaped) :
    (Core.raises now u b x l).shaped :=
  h.foldl fun hz => .ite hz.raiseAt.abort hz.raiseAt

theorem Core.shaped.noteViolation {a m : Nat} {wr : Bool} (h : x.shaped) : (x.noteViolation a m wr).shaped :=
  .ite h (.ite h (.setReg (.setReg h)))

theorem Core.shaped.violation {u a m : Nat} {b : BitVec 13} {wr : Bool} (h : x.shaped) :
    (x.violation u b a m wr).shaped := h.raise.noteViolation.abort

/-! ## Effects of an instruction -/

theorem Core.shaped.showOwners (h : x.shaped) : x.showOwners.shaped := h.setRf

theorem Core.shaped.release {id : Nat} (h : x.shaped) : (x.release id).shaped :=
  .showOwners (h.withTe ((List.length_map _).trans h.owners))

theorem Core.shaped.setTileFlags {i o s : Half} (h : x.shaped) : (x.setTileFlags i o s).shaped := by
  simp only [Core.setTileFlags]
  exact .setFrame (.setRf (.setReg h))

theorem Core.shaped.showBusy {u : EngUnit} (h : x.shaped) : (x.showBusy u).shaped := h.setRf

theorem Core.shaped.collide {line l w : Nat} (h : x.shaped) : (x.collide line l w).shaped := by
  simp only [Core.collide]
  exact .setFrame (.setReg (.setReg h))

theorem Core.shaped.fullWrite {line : Nat} (h : x.shaped) : (x.fullWrite line).shaped := h

theorem Core.shaped.store {a : Nat} {bs : List Byte} (h : x.shaped) : (x.store a bs).shaped :=
  h.write.foldl .fullWrite

/-- One effect of an instruction. -/
theorem Core.shaped.apply {u : Nat} {b : BitVec 13} {e : Eff} (h : x.shaped) : (Core.apply u b x e).1.shaped := by
  cases e with
  | mem a bs => exact h.store
  | fence a m wr => exact h.violation
  | reg off w => exact h.setReg
  | first off w more => exact .ite h (h.setReg.foldl .setReg)
  | count off n => exact h.bump
  | acc t i ow quiet order terms =>
    simp only [Core.apply]
    split
    · exact h.write
    · split
      · exact .setFrame h.write.setTileFlags
      · exact h.write.setTileFlags
  | accInt t i ow quiet terms =>
    simp only [Core.apply]
    split
    · exact h.write
    · exact h.write.setTileFlags
  | stage v => exact .setRf h
  | conv ve v => exact .ite h h
  | factor i f => exact .setRf (h.withFactors ((length_setAt _ _ _).trans h.factors))
  | filter l => exact .setRf h
  | tileFlags i o s => exact h.setTileFlags
  | amax _ _ | push _ | audit _ _ _ | edited | gatherOor _ | firstInv _ => exact .setFrame h
  | standby _ => exact h
  | rowSet i r => exact h.withRowSets ((length_setAt _ _ _).trans h.rowSets)

theorem Core.shaped.applyAll {u : Nat} {b : BitVec 13} {l : List Eff} (h : x.shaped) :
    (Core.applyAll u b x l).1.shaped :=
  List.foldlRecOn (motive := fun r : Core × NumEv => r.1.shaped) l _ h fun _ hz _ _ => hz.apply

theorem Core.shaped.fire {op : PendingOp} {e : Early} (h : x.shaped) : (x.fire k op e).shaped := h.applyAll.raises

theorem Core.shaped.satCount {f : Nat} (h : x.shaped) : (x.satCount f).shaped := h

theorem Core.shaped.numFlag {now u b : Nat} {set : Bool} {code : Half} (h : x.shaped) :
    (x.numFlag now u set b code).shaped :=
  .ite (Core.shaped.raiseNum (x := { x.setReg _ _ with frame := _ }) h) h

theorem Core.shaped.numEvents {now u : Nat} {ev : NumEv} (h : x.shaped) : (x.numEvents now u ev).shaped :=
  (h.foldl .satCount).numFlag.numFlag.numFlag.numFlag.numFlag

/-! ## Misses -/

theorem Core.shaped.showRemaps (h : x.shaped) : x.showRemaps.shaped := h.foldl .setReg

theorem Core.shaped.showFills (h : x.shaped) : x.showFills.shaped := h.setRf.setRf

theorem Core.shaped.uncontained (h : x.shaped) : x.uncontained.shaped := .setFrame h.raiseInt.setRf

theorem Core.shaped.corrected {m : Nat} (h : x.shaped) : (x.corrected m).shaped := by
  unfold Core.corrected
  exact .ite (.setInteg h.setRf.setRf.raiseInt.setRf) h.setRf.setRf

theorem Core.shaped.remapLine {ctr line : Nat} (h : x.shaped) : (x.remapLine ctr line).shaped := by
  simp only [Core.remapLine]
  split
  · have full : ((x.raiseInt 0x0405#16).setRf 0x8000 3 3 1).shaped := h.raiseInt.setRf
    split <;> exact full
  · refine .showFills (.showRemaps ?_)
    split
    · exact h
    · exact h
    · exact h

theorem Core.shaped.refetch {line : Nat} (h : x.shaped) : (x.refetch line).shaped := by
  unfold Core.refetch
  exact .setInteg (Core.shaped.corrected (x := (x.raiseInt _).bump _ _) h)

theorem Core.shaped.lastMiss {line : Nat} {p l : Bool} (h : x.shaped) : (x.lastMiss line p l).shaped := .ite h h.setReg

theorem Core.shaped.miss {line : Nat} {p : Bool} (h : x.shaped) : (x.miss k line p).shaped := by
  have counted : ∀ {l}, ((x.bump 0x8008 1).lastMiss line p l).shaped := .lastMiss (.bump h)
  have patrolled : ∀ {z : Core}, z.shaped → (if p then z.bump 0x8010 1 else z).shaped := fun hz => .ite hz.bump hz
  have filled : ∀ {z : Core} {b : Bool}, z.shaped → (if b then z.uncontained else z).shaped :=
    fun hz => .ite hz.uncontained hz
  have refetched : ∀ {z : Core}, z.shaped → (if z.isClean line then z.refetch line else z).shaped :=
    fun hz => .ite hz.refetch hz
  unfold Core.miss
  refine .ite h.lastMiss (refetched (.ite ?_ (.ite (.remapLine (.raiseInt (.setInteg ?_))) (.setInteg ?_))))
  all_goals exact filled (.setInteg (patrolled counted))

theorem Core.shaped.missFrame {code : Half} {b : BitVec 13} {l : List Nat} (h : x.shaped) :
    (x.missFrame k code b l).shaped := by
  have hm : (l.foldl (fun c l => c.miss k l false) x).shaped := h.foldl .miss
  refine .ite h (.ite ?_ (.abort (.raiseInt hm)))
  exact .ite (.raiseInt hm) (.raiseInt (.corrected (.raiseInt hm)))

theorem Core.shaped.frameMiss {u : Nat} {code : Half} {b : BitVec 13} {l : List Nat} (h : x.shaped) :
    (x.frameMiss k u code b l).shaped := .ite h h.raise.missFrame

/-! ## Completion -/

theorem Core.shaped.queuePeak (h : x.shaped) : (x.queuePeak k).shaped := .ite h.setRf h

theorem Core.shaped.leave {op : PendingOp} (h : x.shaped) : (x.leave op).shaped :=
  have left {f l e i n} : ({ x with inflight := l, frame := f, unitFree := setAt x.unitFree i n, te := { x.te with last := e } } : Core).shaped :=
    Core.shaped.withUnitFree (x := { x with inflight := l, frame := f, te := { x.te with last := e } }) h
      ((length_setAt _ _ _).trans h.unitFree)
  .ite left left.release

theorem Core.shaped.waitAbandoned {now : Nat} (h : x.shaped) : (x.waitAbandoned now).shaped := by
  simp only [Core.waitAbandoned]
  split
  · exact h
  · exact h

theorem Core.shaped.checkRetire (h : x.shaped) : (x.checkRetire k).shaped :=
  have retired {f} : ({ x.waitAbandoned k.clock with seq := (x.waitAbandoned k.clock).lastWords, frame := f } : Core).shaped :=
    h.waitAbandoned.withSeq (h.waitAbandoned.fits.withComing .nil).puts
  .ite (.setRf (.setRf (retired.foldl .setReg))) h

/-- The contract completion of an instruction. -/
theorem Core.shaped.complete {op : PendingOp} {f : Fate} (h : x.shaped) : (x.complete k op f).shaped := by
  refine .checkRetire (.showBusy (.ite h.leave ?_))
  refine .numEvents (.raises (.ite (.queuePeak ?_) ?_))
  all_goals exact .applyAll (.foldl (.frameMiss (.foldl h.leave .fire)) fun hz => hz.collide.raise)

/-! ## What falls due -/

theorem Core.shaped.takeWord {w : CacheWord} (h : x.shaped) : (x.takeWord k w).shaped := by
  simp only [Core.takeWord]
  split
  · exact .frameMiss (h.withSeq h.fits.place)
  · exact h.store.frameMiss

theorem Core.shaped.checkHeader {hc : HdrCheck} {b : BitVec 13} (h : x.shaped) : (x.checkHeader hc b).shaped := by
  simp only [Core.checkHeader]
  split
  · exact h
  · exact .ite (.abort (.raise h)) (.setReg (.setReg (.setReg (.setReg (.abort (.raise h))))))

theorem Core.shaped.fetchTrap {b : Nat} {l : List Nat} (h : x.shaped) : (x.fetchTrap k b l).shaped := by
  simp only [Core.fetchTrap]
  refine .checkRetire (.frameMiss (h.withSeq ?_))
  split
  · exact ⟨⟨by simp, h.fits.1.2⟩, h.fits.2⟩
  · exact h.fits

theorem Core.shaped.doDue {d : Due} (h : x.shaped) : (x.doDue k d).shaped := by
  cases d with
  | word w => exact .takeWord h
  | early o e => exact .fire h
  | header o hc => exact .checkHeader h
  | trap l => exact h.fetchTrap
  | done o => exact h.complete

end Sys2Proof.Machine
end

section
/-! SUPPORT. What keeps the sizes of the tables of the module: the named operations over the whole chip, one
lemma each, and with them all that falls due. -/

namespace Sys2Proof.Machine

variable {s t : State}

/-! ## Registers, cores and HBM -/

/-- The sizes of the services' tables. -/
def Services.sized (v : Services) : Prop := v.running.length = 17 ∧ v.queues.length = 16 ∧ v.rings.length = 16

/-- The sizes of the security block's tables. -/
def Security.sized (x : Security) : Prop := x.tenants.length = 16 ∧ x.tenantIds.length = 16 ∧ x.signers.length = 16

theorem State.shaped.core (h : s.shaped) (c : CoreId) : (s.core c).shaped := h.1 c

theorem State.shaped.ports (h : s.shaped) : s.ports.length = 16 := h.2.1

theorem State.shaped.health (h : s.shaped) : s.health.length = 256 := h.2.2.1

theorem State.shaped.svc (h : s.shaped) : s.svc.sized := ⟨h.2.2.2.1, h.2.2.2.2.1, h.2.2.2.2.2.1⟩

theorem State.shaped.sec (h : s.shaped) : s.sec.sized := ⟨h.2.2.2.2.2.2.1, h.2.2.2.2.2.2.2.1, h.2.2.2.2.2.2.2.2.1⟩

theorem State.shaped.leaks (h : s.shaped) : s.htu.leaks.length = 26 := h.2.2.2.2.2.2.2.2.2.1

theorem State.shaped.dieTemp (h : s.shaped) : s.power.dieTemp.length = 48 := h.2.2.2.2.2.2.2.2.2.2

theorem State.shaped.of (hc : ∀ c, (s.core c).shaped) (hp : s.ports.length = 16) (hh : s.health.length = 256) (hv : s.svc.sized)
    (hx : s.sec.sized) (hl : s.htu.leaks.length = 26) (hd : s.power.dieTemp.length = 48) : s.shaped :=
  ⟨hc, hp, hh, hv.1, hv.2.1, hv.2.2, hx.1, hx.2.1, hx.2.2, hl, hd⟩

theorem State.shaped.withPorts {l : List Port} (h : s.shaped) (hl : l.length = 16) : ({ s with ports := l } : State).shaped :=
  .of h.core hl h.health h.svc h.sec h.leaks h.dieTemp

theorem State.shaped.withHealth {l : List Health} (h : s.shaped) (hl : l.length = 256) : ({ s with health := l } : State).shaped :=
  .of h.core h.ports hl h.svc h.sec h.leaks h.dieTemp

theorem State.shaped.withSvc {v : Services} (h : s.shaped) (hv : v.sized) : ({ s with svc := v } : State).shaped :=
  .of h.core h.ports h.health hv h.sec h.leaks h.dieTemp

theorem State.shaped.withSec {x : Security} (h : s.shaped) (hx : x.sized) : ({ s with sec := x } : State).shaped :=
  .of h.core h.ports h.health h.svc hx h.leaks h.dieTemp

theorem State.shaped.withHtu {u : Htu} (h : s.shaped) (hu : u.leaks.length = 26) : ({ s with htu := u } : State).shaped :=
  .of h.core h.ports h.health h.svc h.sec hu h.dieTemp

theorem State.shaped.withPower {p : Power} (h : s.shaped) (hp : p.dieTemp.length = 48) : ({ s with power := p } : State).shaped :=
  .of h.core h.ports h.health h.svc h.sec h.leaks hp

theorem State.shaped.ite {p : Prop} [Decidable p] (h : s.shaped) (h' : t.shaped) : (if p then s else t).shaped := by
  split <;> assumption

/-- An operation repeated over a list. -/
theorem State.shaped.foldl {α : Type} {f : State → α → State} {l : List α} (h : s.shaped)
    (hf : ∀ {u a}, u.shaped → (f u a).shaped) : (l.foldl f s).shaped :=
  List.foldlRecOn l f h fun _ hu _ _ => hf hu

theorem State.shaped.setCore {c : CoreId} {x : Core} (h : s.shaped) (hx : x.shaped) : (s.setCore c x).shaped := by
  refine ⟨fun d => ?_, h.2⟩
  by_cases hd : d = c
  · rw [hd, State.core_setCore_self]; exact hx
  · rw [State.core_setCore_ne s x hd]; exact h.core d

theorem State.shaped.mapCores {f : CoreId → Core → Core} (h : s.shaped) (hf : ∀ {c x}, x.shaped → (f c x).shaped) :
    (s.mapCores f).shaped := by
  refine ⟨fun d => ?_, by simpa using h.2⟩
  rw [State.core_mapCores]
  exact hf (h.core d)

theorem State.shaped.setGreg {a : Nat} {w : Word} (h : s.shaped) : (s.setGreg a w).shaped := h

theorem State.shaped.setGf {a hi lo v : Nat} (h : s.shaped) : (s.setGf a hi lo v).shaped := h.setGreg

theorem State.shaped.bumpG {a n : Nat} (h : s.shaped) : (s.bumpG a n).shaped := h.setGreg

theorem State.shaped.hbmWrite {a : Nat} {bs : List Byte} (h : s.shaped) : (s.hbmWrite a bs).shaped := h

theorem State.shaped.emit {o : Output} (h : s.shaped) : (s.emit o).shaped := h

theorem State.shaped.tick1 (h : s.shaped) : s.tick1.shaped := h

theorem State.shaped.atCycle {n : Nat} (h : s.shaped) : (s.atCycle n).shaped := .ite h h

theorem Core.shaped.addEvents {x : Core} {src n : Nat} (h : x.shaped) : (x.addEvents src n).shaped :=
  h.foldl fun hz => .ite hz.bump hz

theorem State.shaped.event {src : Nat} (h : s.shaped) : (s.event src).shaped := h.mapCores .addEvents

/-! ## Reports of the integrity logic -/

theorem State.shaped.alertFor {n : Nat} (h : s.shaped) : (s.alertFor n).shaped := .ite h h

theorem State.shaped.setHealth {u st fl : Nat} {code : Half} (h : s.shaped) : (s.setHealth u st fl code).shaped :=
  .emit (.emit (.alertFor (h.withHealth ((length_setAt _ _ _).trans h.health))))

theorem State.shaped.takeReport {c : CoreId} {r : Nat × Half} (h : s.shaped) : (State.takeReport c s r).shaped :=
  .ite h (.ite (.setHealth h) (.setHealth h))

theorem State.shaped.drainReports {c : CoreId} (h : s.shaped) : (s.drainReports c).shaped :=
  .foldl (h.setCore (.drained (h.core c))) .takeReport

/-! ## Messages on a port -/

theorem State.shaped.setPort {p : Nat} {x : Port} (h : s.shaped) : (s.setPort p x).shaped :=
  h.withPorts ((length_setAt _ _ _).trans h.ports)

theorem State.shaped.firstSend {p : Nat} {f : List Byte} (h : s.shaped) : (State.firstSend p s f).shaped :=
  .emit (.bumpG h.setPort)

theorem State.shaped.pushFlit {p : Nat} {f : List Byte} (h : s.shaped) : (State.pushFlit p s f).shaped :=
  .ite (.firstSend h.setPort) h.setPort.setPort

theorem State.shaped.sendGroup {p : Nat} {l : List (List Byte × Bool × Bool)} (h : s.shaped) :
    (State.sendGroup p s l).shaped := by
  simp only [State.sendGroup]
  split
  · exact h
  · exact .setGreg (.foldl h.setPort .pushFlit)

theorem State.shaped.sendMessage {p : Nat} {m : List Byte} (h : s.shaped) : (s.sendMessage p m).shaped :=
  .ite h (.foldl h .sendGroup)

/-! ## Collectives -/

theorem State.shaped.setRun {i : Nat} {r : CollRun} (h : s.shaped) : (s.setRun i r).shaped := h

theorem State.shaped.serviceRead {a n : Nat} (h : s.shaped) : (s.serviceRead a n).2.shaped := .ite h.bumpG h

theorem State.shaped.showColl (h : s.shaped) : s.showColl.shaped := h.setGf.setGf

theorem State.shaped.collEvents {ev : NumEv} {nan : Bool} (h : s.shaped) : (s.collEvents ev nan).shaped := by
  have h1 : (if ev.inv || nan then s.setGf 0x60C00 10 10 1 else s).shaped := .ite h.setGf h
  exact .ite h1.setGf h1

theorem State.shaped.sendColl {i j : Nat} {r : CollRun} {hd : Word → MsgHead} {body : List Byte} (h : s.shaped) :
    (s.sendColl i r j hd body).shaped := by
  simp only [State.sendColl]
  split
  · exact h
  · refine .ite h ?_
    split
    · exact h.sendMessage.setRun
    · exact h.sendMessage

theorem State.shaped.sendCdata {i j : Nat} {r : CollRun} {body : List Byte} (h : s.shaped) :
    (s.sendCdata i r j body).shaped := h.sendColl

theorem State.shaped.signalReady (h : s.shaped) : s.signalReady.shaped := .foldl h .event

theorem State.shaped.tileEpoch {r : CollRun} {n : Nat} (h : s.shaped) : (s.tileEpoch r n).2.shaped := h.serviceRead

theorem State.shaped.iteSnd {β : Type} {p : Prop} [Decidable p] {a b : β × State} (ha : a.2.shaped) (hb : b.2.shaped) :
    (if p then a else b).2.shaped := by
  split <;> assumption

/-- A fold that carries a value beside the state. -/
theorem State.shaped.foldlSnd {α β : Type} {f : β × State → α → β × State} {l : List α} {b : β} (h : s.shaped)
    (hf : ∀ {r a}, r.2.shaped → (f r a).2.shaped) : (l.foldl f (b, s)).2.shaped :=
  List.foldlRecOn (motive := fun r : β × State => r.2.shaped) l f h fun _ hr _ _ => hf hr

theorem State.shaped.sumShard {i : Nat} {d : Coll} {r : CollRun} (h : s.shaped) : (s.sumShard i d r).shaped := by
  simp only [State.sumShard]
  refine .ite h ?_
  have read : ∀ (l : List Nat), (l.foldl (fun (st : List (Nat × Word) × State) n =>
      (st.1 ++ [(n, (st.2.tileEpoch r n).1)], (st.2.tileEpoch r n).2)) ([], s)).2.shaped := fun l => h.foldlSnd .tileEpoch
  have written : ∀ {u : State} {b : Bool} {a bs ev}, u.shaped →
      (if b then u else (u.hbmWrite a bs).collEvents ev false).shaped := fun hu => .ite hu hu.hbmWrite.collEvents
  refine .ite (.setRun (.bumpG (written (read _)))) (.ite (.foldl (.setRun (written (read _))) .sendCdata) ?_)
  exact .setRun (written (read _))

theorem State.shaped.giveBlock {i j : Nat} {d : Coll} {r : CollRun} {body : List Byte} (h : s.shaped) :
    (s.giveBlock i d r j body).shaped :=
  .ite (.sumShard h.setRun) (.setRun (.hbmWrite h))

theorem State.shaped.takeCdata {m : List Byte} (h : s.shaped) : (s.takeCdata m).shaped := by
  unfold State.takeCdata
  split
  · exact h.giveBlock
  · exact h

theorem State.shaped.giveEarly (h : s.shaped) : s.giveEarly.shaped := .foldl h .takeCdata

theorem State.shaped.contribute {i : Nat} {d : Coll} {r : CollRun} (h : s.shaped) : (s.contribute i d r).shaped := by
  unfold State.contribute
  lift_lets
  extract_lets m one sent
  have residual : ∀ {u : State} {a n}, u.shaped → (if d.comp = 0 then ([], u) else u.serviceRead a n).2.shaped :=
    fun hu => .iteSnd hu hu.serviceRead
  have tagged : ∀ {u : State} {n}, u.shaped → (if d.sparse then u.tileEpoch r n else (0#32, u)).2.shaped :=
    fun hu => .iteSnd hu.tileEpoch hu
  have formed : ∀ {v : State × List Byte} {b}, v.1.shaped → (one v b).1.shaped := by
    intro v b hv
    simp only [one]
    exact .ite (tagged (residual hv.serviceRead)) (.collEvents (.hbmWrite (tagged (residual hv.serviceRead))))
  have hsent : sent.shaped := by
    refine h.foldl fun {u j} hu => ?_
    have body : ((d.owned m j).foldl one (u, [])).1.shaped :=
      List.foldlRecOn (motive := fun v : State × List Byte => v.1.shaped) _ one hu fun _ hv _ _ => formed hv
    refine .ite hu (.ite ?_ body.sendCdata)
    split
    · exact body.setRun
    · exact body
  split
  · exact hsent.sumShard
  · exact hsent

theorem State.shaped.spread {i : Nat} {d : Coll} {r : CollRun} (h : s.shaped) : (s.spread i d r).shaped :=
  .ite h (.hbmWrite (.foldl (.setRun (.serviceRead h)) .sendCdata))

theorem State.shaped.askShards {i : Nat} {d : Coll} {r : CollRun} (h : s.shaped) : (s.askShards i d r).shaped := by
  simp only [State.askShards]
  split
  · exact h.setRun
  · exact .ite h.setRun (.signalReady (.foldl (.setRun (.hbmWrite h.serviceRead)) .sendColl))

theorem State.shaped.startRun {i : Nat} {d : Coll} {r : CollRun} {bad : Bool} (h : s.shaped) :
    (s.startRun i d r bad).shaped := by
  simp only [State.startRun]
  have begun : ∀ {c : Collectives}, ({ s with coll := c } : State).shaped := h
  refine .showColl (.giveEarly (.signalReady ?_))
  refine .ite (.setRun begun) (.ite (.setRun begun) (.ite (.setRun begun) (.ite (.contribute begun) (.ite ?_ ?_))))
  · exact .askShards begun
  · exact .spread begun

theorem State.shaped.takeStartRecord {r : StartRecord} {bad : Bool} (h : s.shaped) :
    (s.takeStartRecord r bad).shaped := by
  simp only [State.takeStartRecord]
  split
  · exact h
  · refine .ite h (.ite h (.ite ?_ ?_))
    · split
      · exact .startRun h.setRun
      · exact .startRun h
    · split
      · exact h.setRun
      · exact h

/-! ## DMA (R246, R249) -/

theorem State.shaped.dmaViolation {own c : CoreId} {b : BitVec 13} {a m : Nat} {wr : Bool} (h : s.shaped) :
    (s.dmaViolation own c b a m wr).shaped := by
  have noted : (s.setCore c ((s.core c).noteViolation (lineOf a) m wr)).shaped := h.setCore (h.core c).noteViolation
  exact noted.setCore (noted.core own).abort

theorem DmaRun.take_shaped {own : CoreId} {o : DmaOp} {r : DmaRun} {row : DmaRow} (h : r.s.shaped) :
    (r.take own o row).1.s.shaped := by
  simp only [DmaRun.take]
  split
  · split
    · exact h.dmaViolation
    · exact h
  · exact h

theorem DmaRun.land_shaped {own c : CoreId} {ch : Nat} {o : DmaOp} {f : Fate} {r : DmaRun} {a : Nat} {bs : List Byte}
    (h : r.s.shaped) : (r.land own c ch o f a bs).s.shaped := by
  have stored : ∀ {l : List LostWrite} {ws : List (Nat × List Byte)}, (r.s.setCore c (ws.foldl (fun x w => x.store w.1 w.2)
      (l.foldl (fun x l => x.collide l.line 0 l.winner) (r.s.core c)))).shaped :=
    h.setCore (.foldl (.foldl (h.core c) .collide) .store)
  simp only [DmaRun.land]
  split
  · exact h.dmaViolation
  · split <;> exact stored

/-- One piece of a transfer. -/
theorem DmaRun.piece_shaped {own : CoreId} {ch : Nat} {o : DmaOp} {f : Fate} {r : DmaRun} {row : DmaRow}
    (h : r.s.shaped) : (r.piece own ch o f row).s.shaped := by
  have ht : (r.take own o row).1.s.shaped := DmaRun.take_shaped h
  simp only [DmaRun.piece]
  split
  · exact DmaRun.land_shaped ht
  · exact DmaRun.land_shaped ht
  · exact ht.hbmWrite
  · split
    · exact ht
    · exact ht

theorem State.shaped.edgeSend {own : CoreId} {o : DmaOp} {bad : Bool} {ep a : Nat} {bs : List Byte} (h : s.shaped) :
    (s.edgeSend own o bad ep a bs).shaped :=
  .ite h.sendMessage (.ite h.takeStartRecord (.ite (h.setCore (.setFrame (h.core own))) h))

theorem State.shaped.dmaStalls {own : CoreId} {o : DmaOp} (h : s.shaped) : (s.dmaStalls own o).shaped := by
  have own_stalled : (s.setCore own ((s.core own).stalled o.stalls)).shaped := h.setCore (.setFrame (h.core own))
  simp only [State.dmaStalls]
  split
  · exact own_stalled
  · exact own_stalled.setCore (.setFrame (own_stalled.core _))

theorem State.shaped.dmaStatus {own : CoreId} {ch n : Nat} {o : DmaOp} {code : Half} (h : s.shaped) :
    (s.dmaStatus own ch n o code).shaped := by
  have done : ((((s.core own).bump (0x2210 + 32 * ch) 1)).setRf (0x2204 + 32 * ch) 11 0 o.desc).shaped := (h.core own).bump.setRf
  exact h.setCore (.checkRetire (.setRf (.setRf (.ite done done.raise))))

theorem State.shaped.haltChannel {own : CoreId} {ch : Nat} (h : s.shaped) : (s.haltChannel own ch).shaped :=
  h.setCore (h.core own).setRf

/-- The bytes of a descriptor move. -/
theorem State.shaped.transfer {own : CoreId} {ch : Nat} {o : DmaOp} {f : Fate} (h : s.shaped) :
    (s.transfer own ch o f).1.shaped := by
  have moved : ∀ {l : List DmaRow}, (l.foldl (DmaRun.piece own ch o f) ⟨s, [], []⟩).s.shaped :=
    List.foldlRecOn (motive := fun r : DmaRun => r.s.shaped) _ _ h fun _ hr _ _ => DmaRun.piece_shaped hr
  simp only [State.transfer]
  split
  · exact (h.setCore (h.core own).raiseInt.abort).haltChannel
  · have halted : ∀ {b : Bool} {r : DmaRun} {k lines}, r.s.shaped → (if b then r else
        ({ r with s := (r.s.setCore own ((r.s.core own).missFrame k 0x0403#16 o.bundle lines)).haltChannel own ch } : DmaRun).code
          0x0403#16).s.shaped := by
      intro b r k lines hr
      split
      · exact hr
      · exact (hr.setCore (hr.core own).missFrame).haltChannel
    split
    · exact .ite (.edgeSend (halted moved)) (halted moved)
    · exact halted moved

/-- The contract completion of a descriptor. -/
theorem State.shaped.dmaComplete {own : CoreId} {ch n : Nat} (h : s.shaped) : (s.dmaComplete own ch n).shaped := by
  simp only [State.dmaComplete]
  split
  · exact h
  · have started : ∀ {ch q}, ((s.atCycle n).tick1.setCore own { (s.atCycle n).tick1.core own with
        dma := setAt ((s.atCycle n).tick1.core own).dma ch q }).shaped :=
      .setCore h.atCycle ((h.atCycle.core own).withDma ((length_setAt _ _ _).trans (h.atCycle.core own).dma))
    refine .drainReports (.dmaStatus ?_)
    split
    · exact started.dmaStalls
    · exact started.dmaStalls.transfer

/-! ## What falls due -/

theorem State.shaped.fall {c : CoreId} {n : Nat} {d : Due} (h : s.shaped) : (s.fall c n d).shaped := by
  have ht : (s.atCycle n).tick1.shaped := h.atCycle.tick1
  exact (ht.setCore (.doDue (ht.core c))).drainReports

theorem State.shaped.happen {c : CoreId} {n : Nat} {d : DueOf} (h : s.shaped) : (s.happen c n d).shaped := by
  cases d with
  | engine d => exact h.fall
  | dma ch => exact h.dmaComplete

theorem State.shaped.settleUpTo {cs : List CoreId} {t n : Nat} (h : s.shaped) : (State.settleUpTo cs t n s).shaped := by
  induction n generalizing s with
  | zero => exact h
  | succ n ih =>
    simp only [State.settleUpTo]
    split
    · exact .ite (ih h.happen) h
    · exact h

theorem State.shaped.settle {cs : List CoreId} {n : Nat} (h : s.shaped) : (s.settle cs n).shaped := h.settleUpTo

theorem State.shaped.settleAt {a : Nat} (h : s.shaped) : (s.settleAt a).shaped := by
  unfold State.settleAt
  split
  · exact h.settle
  · exact h

end Sys2Proof.Machine
end
section
/-! SUPPORT. What keeps the sizes of the tables, of the frames: a core's start and guard-band work, commits,
posts, and the tick of the whole module (R12–R28, R60–R63, R80, R81, R154, R200, R240, R348, R379). -/

namespace Sys2Proof.Machine

variable {x y : Core} {k : Ctx} {s t : State}

/-! ## A core at its frame's start and end -/

theorem Core.shaped.showArray {a : ArrayState} (h : x.shaped) : (x.showArray a).shaped := h.setRf.setRf.setRf

theorem Seq.fits.reset : Seq.reset.fits := by
  simp [Seq.fits, Seq.shaped, Seq.reset]

theorem Core.entrySeq_fits (x : Core) (e start : Nat) : (x.entrySeq e start).fits := by
  simp [Seq.fits, Seq.shaped, Core.entrySeq, Seq.reset]

theorem Core.shaped.enter {l : FrameStart} {start : Nat} {sh : Bool} (h : x.shaped) : (x.enter l start sh).shaped := by
  have begun : ∀ {f q l v0 v1}, q.fits → ((({ x with frame := f, seq := q, te := { x.te with last := l }, ve0ctl := v0, ve1ctl := v1 } : Core).setRf
      0x2000 0 0 1).setRf 0x2000 1 1 0).shaped := fun hq => h.withSeq hq
  simp only [Core.enter]
  split
  · exact h
  · refine .ite (h.withSeq Seq.fits.reset) (.foldl ?_ .setRf)
    split
    · exact (begun (x.entrySeq_fits _ _)).showArray
    · exact begun (x.entrySeq_fits _ _)

theorem Core.shaped.mergeAmax (h : x.shaped) : x.mergeAmax.shaped := h.foldl .setReg

theorem Core.shaped.scaleClamped (h : x.shaped) : x.scaleClamped.shaped := h.setRf.setRf.setFrame

theorem Core.shaped.setLatch {e : Nat} {v : Int} (h : x.shaped) : (x.setLatch e v).shaped := h.setRf

theorem Core.shaped.push {e : Nat} (h : x.shaped) : (x.push e).shaped := by
  have stored : ∀ {a b c d : Nat} {u v w z r}, (((((x.store a u).store b v).store c w).store d z).setReg r 0#32).shaped :=
    h.store.store.store.store.setReg
  simp only [Core.push]
  refine .ite h (.ite stored ?_)
  split
  · exact .ite stored (.setLatch (.store (.ite stored.scaleClamped stored)))
  · exact stored

theorem Core.shaped.runPushes (h : x.shaped) : x.runPushes.shaped := h.foldl .push

theorem Core.shaped.missLimit {j : Nat} (h : x.shaped) : (x.missLimit j).shaped :=
  .ite (.setFrame h.setReg.bump.setRf.setRf.setRf) h.setReg.bump

theorem Core.shaped.guardMerge (h : x.shaped) : x.guardMerge.shaped := .ite (h.mergeAmax.runPushes.foldl .missLimit) h

theorem Core.shaped.publish {rec_ : List Byte} (h : x.shaped) : (x.publish rec_).shaped :=
  (h.foldl .setReg).setReg.setReg.setReg.setReg

theorem Core.shaped.fillDone (h : x.shaped) : x.fillDone.shaped := .showFills h

theorem Core.shaped.setSpare {e : Nat} {st : SpareState} (h : x.shaped) : (x.setSpare e st).shaped := .showRemaps h

theorem Core.shaped.carryEnd {ok : Bool} (h : x.shaped) : (x.carryEnd ok).shaped := .ite h (.ite (.foldl h.setRf .setReg) h.setRf.setRf)

theorem Core.shaped.withFill {o : Option Fill} (h : x.shaped) : ({ x with integ := { x.integ with fillOpen := o } } : Core).shaped := h

theorem Core.shaped.fillStep {p : Bool} (h : x.shaped) : (x.fillStep p).shaped := by
  simp only [Core.fillStep]
  split
  · exact h
  · next f _ =>
    have asked : ((x.setSpare f.entry .refetch).refetch f.line).shaped := h.setSpare.refetch
    refine .ite h (.ite h.fillDone (.ite (.fillDone (.setSpare ?_)) (.ite ?_ h.fillDone)))
    · exact h
    · exact asked.withFill

theorem Core.shaped.fillWork {p q : Bool} (h : x.shaped) : (x.fillWork p q).shaped := .ite h.fillStep.fillStep h.fillStep

theorem Core.shaped.guardEnd {p q : Bool} (h : x.shaped) : (x.guardEnd p q).shaped :=
  .fillWork (.ite h.carryEnd h.carryEnd.setRf)

theorem Core.shaped.advance (h : x.shaped) : x.advance.shaped := by
  have stepped : ∀ {v w}, ((({ (x.setReg 0x6004 v).setReg 0x6008 w with factors := List.replicate 16 none, filter := [] } : Core).setRf
      0x6050 15 0 0).setRf 0x6054 15 0 0).shaped := h.withFactors List.length_replicate
  exact .ite h (.ite (.setReg (.setReg stepped.setReg)) stepped.setReg)

theorem Core.shaped.predictorSet {j : BitVec 4} (h : x.shaped) : (x.predictorSet j).shaped := by
  simp only [Core.predictorSet]
  split
  · exact h
  · exact .ite (.setRf (.setRf h)) (.setRf h)

theorem Core.shaped.applyShadows (h : x.shaped) : x.applyShadows.shaped := (h.foldl .setReg).foldl .setRf

/-! ## Fields that hold no table -/

theorem State.shaped.withPending {l : List Instr} (h : s.shaped) : ({ s with pending := l } : State).shaped := h

theorem State.shaped.withShutter {g : Shutter} (h : s.shaped) : ({ s with shutter := g } : State).shaped := h

theorem State.shaped.withImage {i : Option Image} (h : s.shaped) : ({ s with image := i } : State).shaped := h

theorem State.shaped.withLoading {l : Option LoadJob} (h : s.shaped) : ({ s with loading := l } : State).shaped := h

theorem State.shaped.withRoster {r : Roster} (h : s.shaped) : ({ s with roster := r } : State).shaped := h

theorem State.shaped.withColl {c : Collectives} (h : s.shaped) : ({ s with coll := c } : State).shaped := h

theorem State.shaped.withMgmt {m : Mgmt} (h : s.shaped) : ({ s with mgmt := m } : State).shaped := h

theorem State.shaped.withSheets {l : List SheetOut} (h : s.shaped) : ({ s with sheets := l } : State).shaped := h

theorem State.shaped.withHbm {m : List (Nat × Byte)} (h : s.shaped) : ({ s with hbm := m } : State).shaped := h

/-! ## Operations on cores -/

theorem State.shaped.onCore {c : CoreId} {f : Ctx → Core → Core} (h : s.shaped)
    (hf : ∀ {k x}, x.shaped → (f k x).shaped) : (s.onCore c f).shaped :=
  have done := h.tick1.setCore (c := c) (hf (h.core c))
  .ite done done.drainReports

theorem State.shaped.onCoreAt {c : CoreId} {n : Nat} {f : Ctx → Core → Core} (h : s.shaped)
    (hf : ∀ {k x}, x.shaped → (f k x).shaped) : (s.onCoreAt c n f).shaped :=
  have done := h.atCycle.tick1.setCore (c := c) (hf (h.atCycle.core c))
  .ite done done.drainReports

theorem State.shaped.eachCore {p : State → CoreId → Bool} {f : State → CoreId → State} (h : s.shaped)
    (hf : ∀ {u c}, u.shaped → (f u c).shaped) : (s.eachCore p f).shaped :=
  h.foldl fun hu => .ite (hf hu) hu

theorem State.shaped.settleAll {n : Nat} (h : s.shaped) : (s.settleAll n).shaped := h.settle

/-! ## Reports, sessions and the audit log -/

theorem State.shaped.vector {n : Nat} (h : s.shaped) : (s.vector n).shaped := h

theorem State.shaped.logEvent {code : Half} (h : s.shaped) : (s.logEvent code).shaped := h

theorem State.shaped.stopBath (h : s.shaped) : s.stopBath.shaped := h

theorem State.shaped.shutdownOn (h : s.shaped) : s.shutdownOn.shaped := by
  simp only [State.shutdownOn]
  split
  · exact .ite h h
  · exact h

theorem State.shaped.raiseSht {code : Half} (h : s.shaped) : (s.raiseSht code).shaped := h.setGf

theorem State.shaped.raiseHtu {code : Half} (h : s.shaped) : (s.raiseHtu code).shaped := h.setGf.logEvent

theorem State.shaped.meter {n : Nat} (h : s.shaped) : (s.meter n).shaped :=
  .ite (.ite h.stopBath h.stopBath.setGreg.setGreg) h

theorem State.shaped.failUnit {u : Nat} {code : Half} (h : s.shaped) : (s.failUnit u code).shaped := h.setHealth

theorem State.shaped.showSec (h : s.shaped) : s.showSec.shaped := h.setGf.setGf.setGf.setGreg

theorem State.shaped.useSession {w : Word} (h : s.shaped) : (s.useSession w).shaped := h

theorem State.shaped.endSessions {p : Session → Bool} (h : s.shaped) : (s.endSessions p).shaped :=
  .showSec (.foldl h .setGreg)

theorem State.shaped.writeKey {off role : Nat} {w : Word} (h : s.shaped) : (s.writeKey off role w).shaped := by
  refine .setGreg (State.shaped.ite (t := s) h.useSession h)

theorem State.shaped.logFault (h : s.shaped) : s.logFault.shaped := .setGf h

theorem State.shaped.append {n : AuditNote} (h : s.shaped) : (s.append n).shaped := .setGreg (.setGreg h)

theorem State.shaped.audit {n : AuditNote} (h : s.shaped) : (s.audit n).shaped := .ite h.logFault h.append

/-! ## Mailboxes -/

theorem State.shaped.complete {hd : MboxHdr} {code : Half} {resp : List Byte} (h : s.shaped) :
    (s.complete hd code resp).shaped := by
  unfold State.complete
  split
  · exact h
  · next n _ =>
    lift_lets
    extract_lets gone _ u b₀ b₁ b₂ b₃ _ v w v₁ v₂
    have hgone : (if gone then s.svc.running else setAt s.svc.running n none).length = 17 := by split <;> simp [h.svc.1]
    have hu : u.shaped := h.withSvc ⟨hgone, h.svc.2⟩
    have hv : v₂.shaped := hu
    exact .ite hu (.ite (.ite hv hv) hv)

theorem State.shaped.busy {hd : MboxHdr} (h : s.shaped) : (s.busy hd).shaped := by
  simp only [State.busy]
  split
  · exact h
  · exact .setGf (h.withSvc ⟨(length_setAt _ _ _).trans h.svc.1, h.svc.2⟩)

theorem State.shaped.refuse {hd : MboxHdr} {op : Nat} {code : Half} (h : s.shaped) : (s.refuse hd op code).shaped :=
  .complete (.ite h (.ite h.logFault h.audit))

theorem State.shaped.mboxBusy {n : Nat} (h : s.shaped) : (s.mboxBusy n).shaped := h.setGf.logEvent

/-- The state that a mailbox command ends with, complete or in progress, is shaped. -/
def MboxEnd.shaped : MboxEnd → Prop
  | .done s _ _ => s.shaped
  | .waits s => s.shaped

theorem MboxEnd.shaped.done {code : Half} {resp : List Byte} (h : s.shaped) : (MboxEnd.done s code resp).shaped := h

theorem MboxEnd.shaped.waits (h : s.shaped) : (MboxEnd.waits s).shaped := h

theorem MboxEnd.shaped.ite {p : Prop} [Decidable p] {a b : MboxEnd} (ha : a.shaped) (hb : b.shaped) :
    (if p then a else b).shaped := by
  split <;> assumption

theorem State.shaped.mboxGo {hd : MboxHdr} {op role : Nat} {names free : Bool} {f : State → MboxEnd} (h : s.shaped)
    (hf : ∀ {u}, u.shaped → (f u).shaped) : (State.mbox.go hd op role names free f s).shaped := by
  simp only [State.mbox.go]
  split
  · exact h.refuse
  · refine .ite (.complete (.logFault h.tick1)) ?_
    have ends : (f (s.useSession hd.session)).shaped := hf h.useSession
    split
    · next heq =>
      rw [heq] at ends
      exact .ite ends ends.audit
    · next heq =>
      rw [heq] at ends
      exact .ite h.useSession.complete (.complete (.ite ends ends.audit))

theorem State.shaped.mbox {hd : MboxHdr} {op role : Nat} {names free : Bool} {f : State → MboxEnd} (h : s.shaped)
    (hf : ∀ {u}, u.shaped → (f u).shaped) : (s.mbox hd op role names free f).shaped := by
  unfold State.mbox
  refine .ite h ?_
  split
  · exact .ite h.mboxBusy (.mboxGo h.setGf.busy hf)
  · exact h.mboxGo hf

theorem State.shaped.finish {hd : MboxHdr} {op : Nat} {code : Half} {resp : List Byte} (h : s.shaped) :
    (s.finish hd op code resp).shaped := .complete (.ite h h.audit)

theorem State.shaped.finishOpt {hd : Option MboxHdr} {op : Nat} {code : Half} {resp : List Byte} (h : s.shaped) :
    (s.finishOpt hd op code resp).shaped := by
  cases hd with
  | none => exact h
  | some hd => exact h.finish

/-! ## Commits (R60–R63) -/

theorem State.shaped.setGshadow {a : Nat} {w : Word} (h : s.shaped) : (s.setGshadow a w).shaped := h

theorem State.shaped.showCycles (h : s.shaped) : s.showCycles.shaped := h.setGreg

theorem State.shaped.setBlkStatus {b : Block} {w : Word} (h : s.shaped) : (s.setBlkStatus b w).shaped := by
  cases b with
  | core c => exact h.setCore (h.core c).setReg
  | shutter | link | cpm => exact h.setGreg

theorem State.shaped.setPending {b : Block} {v : Bool} (h : s.shaped) : (s.setPending b v).shaped := h.setBlkStatus

theorem State.shaped.applyGlob {b : Block} (h : s.shaped) : (s.applyGlob b).shaped := h.foldl .setGreg

theorem State.shaped.rejectCommit {b : Block} {n : Nat} {code : Half} (h : s.shaped) : (s.rejectCommit b n code).shaped :=
  .ite h.setBlkStatus.setGf.raiseSht h.setBlkStatus

theorem State.shaped.sourceApplied {n : Nat} (h : s.shaped) : (s.sourceApplied n).shaped :=
  .ite h.setGf.setGf (.ite h (.setGf h))

theorem State.shaped.shutterApplied {ran : Bool} {was : Nat} (h : s.shaped) : (s.shutterApplied ran was).shaped := by
  have shown := (h.sourceApplied (n := was)).showCycles
  simp only [State.shutterApplied]
  split
  · exact State.shaped.ite shown shown.setGf
  · exact shown

theorem State.shaped.portApplied {p : Nat} (h : s.shaped) : (s.portApplied p).shaped :=
  .ite h.setGf.setPort (.ite h.setGf.setPort (.ite h.setGf h))

theorem State.shaped.applyCommit {b : Block} (h : s.shaped) : (s.applyCommit b).shaped := by
  have cleared : (s.setPending b false).shaped := h.setPending
  cases b with
  | core c => exact cleared.setCore (cleared.core c).applyShadows
  | shutter => exact cleared.applyGlob.shutterApplied
  | link => exact cleared.applyGlob.foldl .portApplied
  | cpm => exact cleared.applyGlob

theorem State.shaped.tryCommit {b : Block} (h : s.shaped) : (s.tryCommit b).shaped := by
  unfold State.tryCommit
  split
  · exact h.rejectCommit
  · split
    · exact h.rejectCommit
    · exact h.applyCommit

theorem State.shaped.commitGo {b : Block} {im : Bool} (h : s.shaped) : (s.commitGo b im).shaped := by
  unfold State.commitGo
  refine .ite h (.ite h.setPending ?_)
  split
  · exact h.rejectCommit
  · exact .ite h.tryCommit h.rejectCommit

theorem State.shaped.commitCancel {b : Block} (h : s.shaped) : (s.commitCancel b).shaped := .ite h.setPending h

theorem State.shaped.commitTick {b : Block} (h : s.shaped) : (s.commitTick b).shaped := .ite h.atCycle.tryCommit h

/-! ## Posts (R348) -/

theorem State.shaped.respond {v : Serving} {n : Nat} (h : s.shaped) : (s.respond v n).shaped := by
  exact .ite (.vector (.emit h)) (.emit h)

theorem State.shaped.hold {q : Nat} {e : List Byte} (h : s.shaped) : (s.hold q e).shaped := by
  have held {l} : ({ s with svc := { s.svc with queues := setAt s.svc.queues q l } } : State).shaped :=
    h.withSvc ⟨h.svc.1, (length_setAt _ _ _).trans h.svc.2.1, h.svc.2.2⟩
  simp only [State.hold]
  split
  · exact .vector (.emit (h.withSvc ⟨h.svc.1, h.svc.2.1, (length_setAt _ _ _).trans h.svc.2.2⟩))
  · exact .ite h.bumpG.logEvent (.ite held.vector held)

theorem State.shaped.post {q : Nat} {e : List Byte} (h : s.shaped) : (s.post q e).shaped := by
  simp only [State.post]
  refine .ite h ?_
  split
  · exact .ite h.vector.respond h.hold
  · exact h.hold

theorem State.shaped.postAll {n : Nat} {fn : BitVec 48} {l : List (BitVec 4 × Word)} (h : s.shaped) :
    (s.postAll n fn l).shaped := h.foldl .post

theorem State.shaped.kvCommit {r : KvCommit} (h : s.shaped) : (s.kvCommit r).shaped := .ite h.bumpG h.setGreg

/-! ## The guard band and the tick -/

theorem State.shaped.sendTick {p : Nat} {b : TickBlock} (h : s.shaped) : (s.sendTick p b).shaped := .ite h h

theorem State.shaped.sendDown {b : TickBlock} (h : s.shaped) : (s.sendDown b).shaped := h.foldl .sendTick

theorem State.shaped.sheetOut {n : Nat} {fn : BitVec 48} {bs : List Byte} (h : s.shaped) : (s.sheetOut n fn bs).shaped :=
  .ite h h

theorem State.shaped.guardCore {halt : Bool} {c : CoreId} (h : s.shaped) : (State.guardCore halt s c).shaped := by
  unfold State.guardCore
  extract_lets s₁ s₂ _ s₃ pass x f rec_ s₄ s₅ s₆
  have h₂ : s₂.shaped := .ite (t := s₁) h h
  have h₃ : s₃.shaped := h₂.setCore (h₂.core c)
  have h₄ : s₄.shaped := h₃.setCore (.guardEnd (.publish (.guardMerge (h₃.core c))))
  have h₅ : s₅.shaped := h₄.sheetOut
  exact .drainReports (.ite (h₅.postAll.foldl .kvCommit) h₅)

theorem State.shaped.markOverrun {c : CoreId} (h : s.shaped) : (s.markOverrun c).shaped :=
  (h.setCore (c := c) (Core.shaped.setFrame (h.core c))).bumpG.setGf.raiseSht

theorem State.shaped.emptySlots {fn : BitVec 48} (h : s.shaped) : (s.emptySlots fn).shaped := h.eachCore .sheetOut

theorem State.shaped.showBehind (h : s.shaped) : s.showBehind.shaped := h.setGf

theorem State.shaped.startCore {l : FrameStart} {n : Nat} {c : CoreId} (h : s.shaped) : (State.startCore l n s c).shaped :=
  h.onCore .enter

theorem State.shaped.startedPast {c : CoreId} (h : s.shaped) : (s.startedPast c).shaped :=
  .ite (.ite h.markOverrun h.guardCore) h

theorem State.shaped.startNext {c : CoreId} {l : List FrameStart} (h : s.shaped) : (State.startNext c l s).shaped := by
  induction l generalizing s with
  | nil => exact h.setCore (h.core c)
  | cons l rest ih =>
    have started : ∀ {n}, ((State.startCore l n s c).startedPast c).shaped := h.startCore.startedPast
    exact .ite (h.setCore (h.core c)) (.ite (started.setCore (started.core c)) (ih started))

theorem State.shaped.abandon {c : CoreId} (h : s.shaped) : (s.abandon c).shaped := by
  have stopped : ∀ {f l}, (s.setCore c { (s.core c).waitAbandoned s.clock with
      frame := f, seq := { ((s.core c).waitAbandoned s.clock).seq with stopped := true }, lateStarts := l }).shaped :=
    h.setCore (h.core c).waitAbandoned
  exact .guardCore (.raiseSht (.setGf stopped))

theorem State.shaped.halt (h : s.shaped) : s.halt.shaped := by
  unfold State.halt
  lift_lets
  extract_lets s₁ _ _ s₂ s₃ waits _
  have h₁ : s₁.shaped := h.mapCores id
  have h₂ : s₂.shaped := h₁.withShutter
  have h₃ : s₃.shaped := .showBehind (.vector (.alertFor (.setGf h₂)))
  exact State.shaped.foldl (h₃.withSvc h₃.svc) .finish

theorem State.shaped.runDue {n : Nat} {c : CoreId} (h : s.shaped) : (State.runDue n s c).shaped := by
  have moved : ∀ {b}, (s.setCore c { s.core c with behind := b }).shaped := h.setCore (h.core c)
  refine .ite (moved.setCore (.ite ?_ ?_)) (.ite moved moved.startNext)
  all_goals exact h.core c

theorem State.shaped.reexpose (h : s.shaped) : s.reexpose.shaped :=
  .eachCore (h.mapCores fun hx => .ite hx hx) fun {_ c} hu => .ite (hu.setCore (hu.core c)) hu.startNext

theorem State.shaped.showSlot (h : s.shaped) : s.showSlot.shaped := h.setGf.setGf

theorem State.shaped.runFrames (h : s.shaped) : s.runFrames.shaped :=
  .showBehind (.showSlot (.ite (.reexpose h) (.eachCore h .runDue)))

theorem State.shaped.sendTicks (h : s.shaped) : s.sendTicks.shaped := by
  unfold State.sendTicks
  lift_lets
  extract_lets s₁ stamp halt s₂ _ s₃ s₄ s₅ _ _
  have h₃ : s₃.shaped := State.shaped.sendDown (s := s₁) h
  have h₄ : s₄.shaped := .ite (.ite h₃.stopBath h₃) h
  exact .ite h₄.sendTick h₄

theorem State.shaped.recordCursor {n : Nat} (h : s.shaped) : (s.recordCursor n).shaped := by
  unfold State.recordCursor
  split
  · exact h
  · exact .ite h h

theorem State.shaped.freezeCore {c : CoreId} (h : s.shaped) : (s.freezeCore c).shaped := by
  unfold State.freezeCore
  split
  · exact h
  · exact .ite h h

theorem State.shaped.stepCore {c : CoreId} (h : s.shaped) : (s.stepCore c).shaped :=
  .ite h (h.recordCursor.setCore (h.core c).advance).freezeCore

theorem State.shaped.stepAdvance {c : CoreId} (h : s.shaped) : (s.stepAdvance c).shaped := .ite h h.atCycle.stepCore

theorem State.shaped.guardBand (h : s.shaped) : s.guardBand.shaped := by
  unfold State.guardBand
  lift_lets
  extract_lets n s₁ _ s₂ any_ s₃ halt s₄
  have h₂ : s₂.shaped := State.shaped.atCycle (s := s.settleAll n) h.settleAll
  have h₄ : s₄.shaped := (h₂.eachCore .markOverrun).eachCore .guardCore
  exact .ite h (.showBehind (.ite h₄.emptySlots h₄))

theorem State.shaped.guardLate {c : CoreId} (h : s.shaped) : (s.guardLate c).shaped := by
  unfold State.guardLate
  lift_lets
  extract_lets s₁ f late s₂ s₃ s₄ x waits
  have h₁ : s₁.shaped := .ite h.settle h
  have h₂ : s₂.shaped := .ite h₁.setGreg h₁
  have h₄ : s₄.shaped := .ite h₂.guardCore.stepCore h₂.guardCore
  exact .ite (.showBehind (.ite h₄ h₄.startNext)) h₁

theorem State.shaped.raiseTick (h : s.shaped) : s.raiseTick.shaped := by
  unfold State.raiseTick
  lift_lets
  extract_lets s₁ s₂ s₃ prev out _ s₄ s₅ s₆ _ _ s₇ s₈
  have h₃ : s₃.shaped := State.shaped.atCycle (s := s₂) (.eachCore h.settleAll.guardBand .guardLate)
  have h₄ : s₄.shaped := h₃.withShutter
  have h₆ : s₆.shaped := .eachCore (h₄.mapCores fun hz => hz.withRowSets List.length_replicate) .abandon
  have h₇ : s₇.shaped := .ite h₆.withShutter (.ite h₆.halt h₆)
  exact .ite h₇.sendTicks h₇.sendTicks.runFrames

theorem State.shaped.tick (h : s.shaped) : s.tick.shaped := .ite h.raiseTick h

theorem State.shaped.jobStart (h : s.shaped) : s.jobStart.shaped := by
  unfold State.jobStart
  exact .ite (.showSlot (.eachCore h .startCore)) h

theorem State.shaped.setClass (h : s.shaped) : s.setClass.shaped := .setGf (.setGf h)

theorem State.shaped.setFreq {f : Nat} (h : s.shaped) : (s.setFreq f).shaped := h

theorem State.shaped.derateTick (h : s.shaped) : s.derateTick.shaped := by
  unfold State.derateTick
  lift_lets
  extract_lets s₁ n s₂ _ s₃ left
  have h₂ : s₂.shaped := h.atCycle.setGf
  have h₃ : s₃.shaped := h₂
  exact .ite h (.ite h₃ (.ite h₃.raiseHtu.stopBath h₃.setGf))

/-! ## Tick synchronisation and the roster epoch -/

theorem State.shaped.setSync {z : Sync} (h : s.shaped) : (s.setSync z).shaped := h

theorem State.shaped.syncLost (h : s.shaped) : s.syncLost.shaped := by
  unfold State.syncLost
  extract_lets s₁
  have h₁ : s₁.shaped := .raiseSht (.setGf (.setGf h))
  exact h₁.setSync.stopBath

theorem State.shaped.jump {e : Int} {fn : Option (BitVec 48)} (h : s.shaped) : (s.jump e fn).shaped := by
  cases fn <;> exact h

theorem State.shaped.symbol {e : Int} {n : Nat} {fn : Option (BitVec 48)} (h : s.shaped) : (s.symbol e n fn).shaped := by
  unfold State.symbol
  lift_lets
  extract_lets y period y₁ y₂ s₁
  have h₁ : s₁.shaped := h
  refine .ite h (.ite (.ite h.jump h) (.ite (.ite h₁.syncLost h₁) (.ite h₁.setGf h₁)))

theorem State.shaped.rosterSkew {b : Bool} (h : s.shaped) : (s.rosterSkew b).shaped :=
  .stopBath (.setSync (.logEvent (.ite h.bumpG h)))

theorem State.shaped.tickSymbol {b : TickBlock} {a : Int} {n : Nat} (h : s.shaped) : (s.tickSymbol b a n).shaped := by
  unfold State.tickSymbol
  lift_lets
  extract_lets s₁ stay s₂ err s₃ _ s₄
  have h₂ : s₂.shaped := State.shaped.sendDown (s := s₁) h
  have h₄ : s₄.shaped := .ite h₂.symbol.setSync h₂.symbol
  refine .ite h₂ ?_
  split
  · exact .ite h₄ h₄.rosterSkew
  · exact h₄

theorem State.shaped.showRoster (h : s.shaped) : s.showRoster.shaped := by
  unfold State.showRoster
  extract_lets s₁ s₂
  have h₂ : s₂.shaped := h.setGreg.setGf
  split <;> exact h₂.setGreg.setGreg.setGreg

theorem State.shaped.rosterSwitch (h : s.shaped) : s.rosterSwitch.shaped := by
  unfold State.rosterSwitch
  split
  · exact h.rosterSkew
  · exact .ite h (.showRoster h)

end Sys2Proof.Machine
end

section
/-! SUPPORT. What keeps the sizes of the tables, of the link's ports, the roster agent and the commands of
the tick (R29–R34, R299–R323, R359). -/

namespace Sys2Proof.Machine

variable {s t : State}

/-! ## Commands -/

/-- Whatever next state a command answers is shaped. -/
def endsShaped (o : Host.Outcome State Fault Refusal) : Prop := ∀ t, o = .next t → t.shaped

theorem endsShaped.next (h : s.shaped) : endsShaped (.next s) := fun _ ht => Host.Outcome.next.inj ht ▸ h

theorem endsShaped.fault {f : Fault} : endsShaped (.fault f) := fun _ ht => nomatch ht

theorem endsShaped.ite {p : Prop} [Decidable p] {a b : Host.Outcome State Fault Refusal} (ha : endsShaped a)
    (hb : endsShaped b) : endsShaped (if p then a else b) := by
  split <;> assumption

/-! ## The tick's commands -/

theorem execTickFlit_shaped {port : BitVec 4} {b : TickBlock} {a : Int} {n : Nat} (h : s.shaped) :
    endsShaped (execTickFlit port b a n s) := .next (.ite h.tickSymbol h)

theorem execUpstreamTickFlit_shaped {port : BitVec 4} {b : TickBlock} (h : s.shaped) :
    endsShaped (execUpstreamTickFlit port b s) :=
  .next (.ite h (.ite h.withShutter (.ite (.sendTick h.tick1) h)))

theorem execEchoMeasurement_shaped {port : BitVec 4} (h : s.shaped) : endsShaped (execEchoMeasurement port s) :=
  .next (.ite h (.emit (.setPort (.setSync h))))

theorem execEcho_shaped {port : BitVec 4} {reply : Bool} {id res : Half} {rtt : Word} (h : s.shaped) :
    endsShaped (execEcho port reply id res rtt s) := by
  have measured : ∀ {x a hi lo v}, ((s.setPort port.toNat x).setGf a hi lo v).shaped := h.setPort.setGf
  exact .next (.ite h.emit (.ite h (.ite measured.setGf measured)))

/-! ## Ports -/

theorem State.shaped.raisePort {p : Nat} {code : Half} (h : s.shaped) : (s.raisePort p code).shaped := h.setGf.logEvent

theorem State.shaped.portLost {p : Nat} (h : s.shaped) : (s.portLost p).shaped := .ite h.stopBath h

theorem State.shaped.portFail {p : Nat} {code : Half} (h : s.shaped) : (s.portFail p code).shaped :=
  .portLost (.setGf h.raisePort)

theorem State.shaped.drainWaiting {p : Nat} (h : s.shaped) : (s.drainWaiting p).shaped := .foldl h.setPort .firstSend

theorem State.shaped.answer {p typ seq : Nat} (h : s.shaped) : (s.answer p typ seq).shaped := h.emit

theorem State.shaped.sendAck {p : Nat} (h : s.shaped) : (s.sendAck p).shaped := .answer h.setPort

theorem State.shaped.discardFlit {p : Nat} (h : s.shaped) : (s.discardFlit p).shaped := .answer h.setPort

theorem State.shaped.acceptFlit {p : Nat} (h : s.shaped) : (s.acceptFlit p).shaped := .ite (.sendAck h.setPort) h.setPort

theorem State.shaped.tagFailed {p first : Nat} (h : s.shaped) : (s.tagFailed p first).shaped := by
  have counted : ∀ {x a n}, ((s.setPort p x).bumpG a n).shaped := h.setPort.bumpG
  exact .ite counted.portFail counted.answer

theorem State.shaped.closeGroup {p : Nat} {f : List Byte} (h : s.shaped) : (s.closeGroup p f).shaped := by
  simp only [State.closeGroup]
  split
  · exact .acceptFlit h.setPort
  · exact h.tagFailed

theorem State.shaped.receiveFlit {p : Nat} {f : RxFlit} (h : s.shaped) : (s.receiveFlit p f).shaped :=
  .ite h (.ite h.discardFlit (.ite h.bumpG.discardFlit (.ite h (.ite (.ite h h.discardFlit)
    (.ite h.acceptFlit.setPort h.closeGroup)))))

theorem State.shaped.replay {p seq : Nat} (h : s.shaped) : (s.replay p seq).shaped := .bumpG (.foldl h.setPort .emit)

theorem State.shaped.authFail {p : Nat} (h : s.shaped) : (s.authFail p).shaped := h.raisePort.portLost

theorem execAck_shaped {port : BitVec 4} {a : Half} (h : s.shaped) : endsShaped (execAck port a s) :=
  .next (.drainWaiting h.setPort)

theorem execNak_shaped {port : BitVec 4} {e : Half} (h : s.shaped) : endsShaped (execNak port e s) :=
  .next (.ite h (.ite h.portFail h.replay))

theorem execAckTimer_shaped {port : BitVec 4} (h : s.shaped) : endsShaped (execAckTimer port s) := .next (.ite h h.sendAck)

theorem execLinkTraining_shaped {port : BitVec 4} {x : Training} (h : s.shaped) : endsShaped (execLinkTraining port x s) :=
  .next (.ite h (.emit (.tick1 (.setGf h.setPort))))

theorem execKeyFlit_shaped {port : BitVec 4} {k : KeyNotice} (h : s.shaped) : endsShaped (execKeyFlit port k s) := by
  refine .next ?_
  cases k with
  | rekey g => exact h.setPort
  | handshake eph member cert sig dik =>
    exact .ite h (.ite (.setGreg (.setGreg (.setGf (.setPort h.tick1)))) (.authFail h.setGreg))

theorem execHandshakeTimeout_shaped {port : BitVec 4} (h : s.shaped) : endsShaped (execHandshakeTimeout port s) :=
  .next (.ite h.authFail h)

theorem execKeyGeneration_shaped {port : BitVec 4} (h : s.shaped) : endsShaped (execKeyGeneration port s) := by
  refine .next ?_
  simp only
  split
  · exact h
  · exact .ite h (.emit (.setPort h.tick1))

theorem State.shaped.takeMsg {p : Nat} {m : List Byte} {f : State → State} (h : s.shaped)
    (hf : ∀ {u}, u.shaped → (f u).shaped) : (s.takeMsg p m f).shaped := .ite (hf h.setPort) h

theorem State.shaped.windowDrop {p : Nat} (h : s.shaped) : (s.windowDrop p).shaped := h.bumpG.raisePort

theorem State.shaped.takeSend {p : Nat} {m : List Byte} (h : s.shaped) : (s.takeSend p m).shaped := by
  simp only [State.takeSend]
  split
  · exact h.windowDrop
  · exact .ite h.windowDrop h.hbmWrite.event

theorem execSend_shaped {port : BitVec 4} {m : List Byte} (h : s.shaped) : endsShaped (execSend port m s) :=
  .next (h.takeMsg fun hu => .ite hu.rosterSkew hu.takeSend)

/-! ## The roster agent -/

theorem State.shaped.stage {r : RosterRec} (h : s.shaped) : (s.stage r).shaped := by
  unfold State.stage
  extract_lets u _
  have hu : u.shaped := by
    simp only [u]
    split
    · exact h.setGreg
    · exact h
  exact .showRoster hu.withRoster

theorem State.shaped.sendRoster {dst : Word} {b : List Byte} (h : s.shaped) : (s.sendRoster dst b).shaped := by
  unfold State.sendRoster
  split
  · exact h.sendMessage
  · exact h

theorem State.shaped.sendAll {b : List Byte} (h : s.shaped) : (s.sendAll b).shaped := h.foldl .sendRoster

theorem State.shaped.answerStaged {src : Word} (h : s.shaped) : (s.answerStaged src).shaped := h.sendRoster

theorem State.shaped.takeStart {src : Word} {fn : BitVec 48} (h : s.shaped) : (s.takeStart src fn).shaped := by
  unfold State.takeStart
  extract_lets lo hi u
  have hu : u.shaped := h.setGreg.setGreg.setGshadow.setGshadow
  exact hu.withShutter.withRoster (r := { u.roster with starter := some src })

theorem State.shaped.armCores {off n : Nat} (h : s.shaped) : (s.armCores off n).shaped := h.mapCores fun hx => hx.setReg.setReg

theorem State.shaped.takeProposal {src : Word} {p : Proposal} (h : s.shaped) : (s.takeProposal src p).shaped := by
  have taken : ∀ {r}, ({ s with roster := r } : State).shaped := h
  cases p with
  | epoch r => exact taken.stage
  | start fn => exact taken.takeStart
  | freeze t => exact taken.armCores
  | fix t => exact .ite taken taken.armCores

theorem State.shaped.propose {p : Proposal} {hd : Option MboxHdr} (h : s.shaped) : (s.propose p hd).shaped := by
  have told : ((s.takeProposal (s.greg 0x60800) p).sendAll p.body).shaped := h.takeProposal.sendAll
  exact .ite told told.withRoster

theorem State.shaped.noStart (h : s.shaped) : s.noStart.shaped := h

theorem State.shaped.withdraw (h : s.shaped) : s.withdraw.shaped := by
  unfold State.withdraw
  extract_lets _ u
  have hu : u.shaped := by
    simp only [u]
    split
    · exact h.withRoster.showRoster
    · exact h.withRoster.noStart
    · exact h
  exact .ite hu.noStart hu

theorem State.shaped.cancelAll {w : Option Awaiting} {code : Half} (h : s.shaped) : (s.cancelAll w code).shaped := by
  have gone : ((s.sendAll (leBytes 4 4)).withdraw).shaped := h.sendAll.withdraw
  cases w with
  | none => exact gone
  | some a => exact .finishOpt gone.withRoster

theorem State.shaped.refuseRecord {src : Word} {r : RosterRec} (h : s.shaped) : (s.refuseRecord src r).shaped := by
  simp only [State.refuseRecord]
  split
  · exact h.sendMessage
  · exact h.sendRoster

theorem execAnnounce_shaped {src : Word} {b : List Byte} (h : s.shaped) : endsShaped (execAnnounce src b s) :=
  .next (.ite h.logEvent.refuseRecord (.ite h h.takeProposal.answerStaged))

theorem execStaged_shaped {src : Word} (h : s.shaped) : endsShaped (execStaged src s) := by
  refine .next ?_
  split
  · exact h
  · exact .ite h.withRoster.finishOpt h.withRoster

theorem execRefused_shaped {src : Word} {code : Half} (h : s.shaped) : endsShaped (execRefused src code s) :=
  .next (.ite h.cancelAll h)

theorem execCancel_shaped {src : Word} (h : s.shaped) : endsShaped (execCancel src s) := by
  refine .next ?_
  split <;> exact .ite h.withdraw h

theorem execFreeze_shaped {src : Word} {n : BitVec 40} {tg : Target} (h : s.shaped) : endsShaped (execFreeze src n tg s) :=
  .next (.answerStaged (.takeProposal (.ite h (h.withSvc h.svc))))

theorem execStagedDeadline_shaped (h : s.shaped) : endsShaped (execStagedDeadline s) := by
  refine .next ?_
  split
  · exact h.cancelAll
  · exact h

theorem State.shaped.linkPlanCheck (h : s.shaped) : s.linkPlanCheck.shaped := by
  unfold State.linkPlanCheck
  split
  · exact h
  · exact .ite h (.ite h (.noStart (.foldl h .raisePort)))

theorem execLinkPlanCheck_shaped (h : s.shaped) : endsShaped (execLinkPlanCheck s) := by
  refine .next ?_
  simp only
  split
  · exact h.linkPlanCheck
  · split
    · exact .ite h.linkPlanCheck.cancelAll h.linkPlanCheck.sendRoster
    · exact h.linkPlanCheck

end Sys2Proof.Machine
end

section
/-! SUPPORT. What keeps the sizes of the tables, of the records, the ingest and NVMe services, checkpoints and
RESTORE (R126, R302, R347–R358, R368, R369, R376–R387, R407). -/

namespace Sys2Proof.Machine

variable {x y : Core} {k : Ctx} {s t : State}

/-! ## Buckets and records -/

theorem State.shaped.noteUnit {u : Nat} {code : Half} (h : s.shaped) : (s.noteUnit u code).shaped := h.setHealth

theorem State.shaped.chipCorrected {m : Nat} (h : s.shaped) : (s.chipCorrected m).shaped :=
  have filled {u v w a hi lo} : ((s.setGf a hi lo u).setGf a v v w).shaped := h.setGf.setGf
  .ite filled.raiseHtu.noteUnit filled

theorem State.shaped.chipCorrectedN {m n : Nat} (h : s.shaped) : (s.chipCorrectedN m n).shaped := h.foldl .chipCorrected

theorem State.shaped.leakBucket {b : Bucket} (h : s.shaped) : (s.leakBucket b).shaped := by
  cases b with
  | core c m =>
    exact .ite (h.setCore ((h.core c).withInteg ⟨(h.core c).integ.1, (length_setAt _ _ _).trans (h.core c).integ.2⟩)) h
  | chip m => exact .ite (.setGf (h.withHtu ((length_setAt _ _ _).trans h.leaks))) h

theorem execFecCodeword_shaped {port : BitVec 4} {w : Codeword} (h : s.shaped) : endsShaped (execFecCodeword port w s) := by
  refine .next ?_
  simp only
  split
  · exact h.bumpG.chipCorrectedN
  · exact h.bumpG.setPort

theorem State.shaped.holdRequest {c : CoreId} {r : Held} (h : s.shaped) : (s.holdRequest c r).shaped := h

/-- A patrol comes to another line. -/
theorem Core.shaped.patrolTo {m n : Nat} (h : x.shaped) :
    ({ x with integ := { x.integ with patrol := setAt x.integ.patrol m n } } : Core).shaped :=
  h.withInteg ⟨(length_setAt _ _ _).trans h.integ.1, h.integ.2⟩

theorem Core.shaped.patrolRead {m : Nat} {u : Bool} (h : x.shaped) : (x.patrolRead k m u).shaped :=
  .ite h (.ite h.patrolTo h.patrolTo.miss)

theorem Core.shaped.patrolSkip {m : Nat} (h : x.shaped) : (x.patrolSkip m).shaped := h.patrolTo

theorem execPatrolRead_shaped {c : CoreId} {m : Nat} {u : Bool} (h : s.shaped) : endsShaped (execPatrolRead c m u s) :=
  .next (.ite (h.setCore (h.core c).patrolSkip) (h.onCore .patrolRead))

theorem Core.shaped.fillRefetched {l : Nat} (h : x.shaped) : (x.fillRefetched l).shaped := by
  unfold Core.fillRefetched
  split
  · exact .ite h.fillDone h
  · exact h

theorem Core.shaped.askStop (h : x.shaped) : x.askStop.shaped := h

theorem Core.shaped.refetchFailed {l : Nat} (h : x.shaped) : (x.refetchFailed l).shaped := by
  unfold Core.refetchFailed
  lift_lets
  extract_lets x₁ _ _ x₂ x₃
  have h₁ : x₁.shaped := h.raiseInt
  have h₂ : x₂.shaped := h₁
  have h₃ : x₃.shaped := by
    simp only [x₃]
    split
    · exact .ite h₂.setSpare h₂
    · exact h₂
  exact .ite h₃.askStop h₃

theorem State.shaped.refetchDone {c : CoreId} {l : Nat} {b : Bool} (h : s.shaped) : (s.refetchDone c l b).shaped := by
  have waiting : ∀ {l m}, ({ s.core c with integ := { (s.core c).integ with refetches := l, writtenSince := m } } : Core).shaped := h.core c
  simp only [State.refetchDone]
  refine .ite h (h.setCore (.fillRefetched (.ite waiting ?_)))
  split
  · exact waiting.store
  · exact waiting.refetchFailed

theorem execRefetchComplete_shaped {c : CoreId} {l : BitVec 23} {b : Bool} (h : s.shaped) :
    endsShaped (execRefetchComplete c l b s) := .next (.ite h.holdRequest h.refetchDone)

theorem execMissEntryExpiry_shaped {c : CoreId} {l : BitVec 23} (h : s.shaped) : endsShaped (execMissEntryExpiry c l s) :=
  .next (h.setCore (.setInteg (h.core c)))

theorem execRemapRecordWrite_shaped {c : CoreId} (h : s.shaped) : endsShaped (execRemapRecordWrite c s) :=
  .next (.ite h (h.withHtu h.leaks))

theorem State.shaped.writeAgeing (h : s.shaped) : s.writeAgeing.shaped := h

theorem State.shaped.showSheet {fn : BitVec 48} (h : s.shaped) : (s.showSheet fn).shaped := .ite h (.setGreg h.withShutter)

theorem execContactSheetRingWrite_shaped {c : CoreId} (h : s.shaped) : endsShaped (execContactSheetRingWrite c s) := by
  refine .next ?_
  split
  · exact h
  · exact .showSheet (.hbmWrite h.withSheets)

/-! ## NVMe and ingest -/

theorem State.shaped.setStream {v : Stream} (h : s.shaped) : (s.setStream v).shaped := h

theorem State.shaped.submit {qp cid : Half} {r : NvmeReq} (h : s.shaped) : (s.submit qp cid r).shaped := by
  unfold State.submit
  split
  · exact h
  · next q _ =>
    lift_lets
    extract_lets s₁ free tail next prp e _ s₂ s₃ s₄ s₅ s₆
    have h₂ : s₂.shaped := h
    have h₅ : s₅.shaped := .ite (.ite h₂.hbmWrite.hbmWrite h₂.hbmWrite) (.ite h₂ h₂)
    have h₆ : s₆.shaped := .emit h₅
    exact .ite h₆.emit h₆.post

theorem State.shaped.nvme {qp : Half} {u : NvmeUse} {r : NvmeReq} (h : s.shaped) : (s.nvme qp u r).shaped :=
  .submit (.withSvc h.tick1 h.svc)

theorem State.shaped.store {tg : Target} {off : Nat} {u : NvmeUse} {fua : Bool} {bs : List Byte} (h : s.shaped) :
    (s.store tg off u fua bs).shaped := by
  cases tg with
  | host a => exact h.emit
  | nvme qp lba =>
    simp only [State.store]
    split
    · exact h
    · exact h.foldl fun hu => .ite hu hu.nvme

theorem State.shaped.wantRead {v : Stream} (h : s.shaped) : (s.wantRead v).shaped := by
  unfold State.wantRead
  split
  · exact h
  · exact .ite h h.nvme

theorem State.shaped.pump {v : Stream} (h : s.shaped) : (s.pump v).shaped := .wantRead h.setStream

theorem execIngestOpen_shaped {hd : MboxHdr} {a : IngestArgs} (h : s.shaped) : endsShaped (execIngestOpen hd a s) :=
  .next (h.mbox fun hu => .ite hu (.pump (hu.withSvc hu.svc)))

theorem execIngestClose_shaped {hd : MboxHdr} {w : Word} (h : s.shaped) : endsShaped (execIngestClose hd w s) :=
  .next (h.mbox fun hu => .ite hu hu)

theorem execIngestRecord_shaped {w src : Word} {n : BitVec 64} {bs tag : List Byte} (h : s.shaped) :
    endsShaped (execIngestRecord w src n bs tag s) := by
  refine .next ?_
  split
  · exact h
  · split
    · exact h.setStream
    · exact h.pump

theorem State.shaped.batchReady {v : Stream} (h : s.shaped) : (s.batchReady v).shaped := .ite h h.hbmWrite.event.pump

theorem execBatchReady_shaped {w : Word} (h : s.shaped) : endsShaped (execBatchReady w s) := by
  refine .next ?_
  split
  · exact h.batchReady
  · exact h

theorem execIngestStall_shaped {w : Word} (h : s.shaped) : endsShaped (execIngestStall w s) := by
  refine .next ?_
  split
  · exact .ite h.vector h
  · exact h

theorem Core.shaped.hostViolation {a m : Nat} {w : Bool} (h : x.shaped) : (x.hostViolation k a m w).shaped :=
  .ite h.noteViolation.abort.checkRetire h.noteViolation

theorem Core.shaped.disturb {n : Nat} {l : List (Nat × List Byte)} (h : x.shaped) : (x.disturb n l).shaped := h

theorem State.shaped.hostMove {m : HostMove} (h : s.shaped) : (s.hostMove m).shaped := by
  simp only [State.hostMove]
  split
  · exact h.setCore ((h.core _).foldl fun hz => .ite hz.hostViolation hz.disturb.store)
  · exact .emit (h.setCore ((h.core _).foldl fun hz => .ite hz.hostViolation hz))

theorem State.shaped.hostTransfer {m : HostMove} (h : s.shaped) : (s.hostTransfer m).shaped := .ite h.holdRequest h.hostMove

theorem execHostDmaComplete_shaped {d : HostDone} (h : s.shaped) : endsShaped (execHostDmaComplete d s) :=
  have moved : (d.moves.foldl State.hostTransfer s).shaped := h.foldl .hostTransfer
  .next (.ite moved.event moved)

theorem execNvmeAttach_shaped {hd : MboxHdr} {a : NvmeArgs} (h : s.shaped) : endsShaped (execNvmeAttach hd a s) :=
  .next (h.mbox fun hu => .ite hu hu)

theorem execNvmeDetach_shaped {hd : MboxHdr} {qp : Half} (h : s.shaped) : endsShaped (execNvmeDetach hd qp s) :=
  .next (h.mbox fun hu => .ite hu hu)

theorem execNotifyRing_shaped {hd : MboxHdr} {q : BitVec 4} {b : BitVec 64} {n : Nat} (h : s.shaped) :
    endsShaped (execNotifyRing hd q b n s) :=
  .next (h.mbox fun hu => .ite hu (State.shaped.foldl (hu.withSvc ⟨hu.svc.1, (length_setAt _ _ _).trans hu.svc.2.1,
    (length_setAt _ _ _).trans hu.svc.2.2⟩) .hold))

/-! ## Checkpoints -/

theorem State.shaped.beginCkpt {tg : Target} {hd : Option MboxHdr} (h : s.shaped) : (s.beginCkpt tg hd).shaped :=
  .ite (h.withSvc h.svc) (.propose (h.withSvc h.svc))

theorem State.shaped.nextCkpt (h : s.shaped) : s.nextCkpt.shaped := by
  unfold State.nextCkpt
  split
  · exact h
  · exact h
  · exact .beginCkpt (h.withSvc h.svc)

theorem execCheckpoint_shaped {hd : MboxHdr} {tg : Target} (h : s.shaped) : endsShaped (execCheckpoint hd tg s) :=
  .next (h.mbox fun hu => .ite hu.beginCkpt hu)

theorem execCheckpointInterval_shaped {tg : Target} (h : s.shaped) : endsShaped (execCheckpointInterval tg s) :=
  .next (.ite (.beginCkpt (h.withSvc h.svc)) h)

theorem execSetInterval_shaped {hd : MboxHdr} {w : Word} (h : s.shaped) : endsShaped (execSetInterval hd w s) :=
  .next (h.mbox fun hu => .ite hu hu)

theorem State.shaped.abandonCkpt {code : Half} (h : s.shaped) : (s.abandonCkpt code).shaped := by
  unfold State.abandonCkpt
  split
  · exact h
  · exact .shutdownOn (.nextCkpt (.finishOpt (h.withSvc h.svc)))

theorem State.shaped.chunkBytes {c : Ckpt} {i : Nat} (h : s.shaped) : (s.chunkBytes c i).2.shaped := h.serviceRead

theorem State.shaped.checkpointChunk {b : Bool} (h : s.shaped) : (s.checkpointChunk b).shaped := by
  unfold State.checkpointChunk
  split
  · exact h
  · refine .ite (.ite (.beginCkpt (h.withSvc h.svc)) h) (.ite h (.ite h.abandonCkpt (.ite h.abandonCkpt ?_)))
    exact .store (h.chunkBytes.withSvc h.chunkBytes.svc)

theorem State.shaped.publishBytes {c : Ckpt} (h : s.shaped) : (s.publishBytes c).2.shaped :=
  List.foldlRecOn (motive := fun r : List Byte × State => r.2.shaped) _ _ h fun _ hr _ _ => hr.serviceRead

theorem State.shaped.publishNow {c : Ckpt} (h : s.shaped) : (s.publishNow c).shaped := by
  unfold State.publishNow
  split
  · exact h
  · have copied : ∀ {tg off u f bs}, ((s.publishBytes c).2.store tg off u f bs).shaped := h.publishBytes.store
    exact .ite (.finish (h.withSvc h.svc))
      (.ite copied (.finish (copied.withSvc copied.svc)))

theorem State.shaped.sealNow (h : s.shaped) : s.sealNow.shaped := by
  unfold State.sealNow
  split
  · split
    · lift_lets
      extract_lets s₁ step _ s₂ s₃ s₄ s₅
      have h₁ : s₁.shaped := h.vector.publishNow
      have h₂ : s₂.shaped := h₁.withSvc h₁.svc
      have h₄ : s₄.shaped := .armCores (.setGreg (.setGreg h₂))
      have h₅ : s₅.shaped := .ite h₄.propose h₄
      exact h₅.finishOpt.nextCkpt.shutdownOn
    · exact h
  · exact h

theorem State.shaped.countClips {l : List (Nat × Nat)} (h : s.shaped) : (s.countClips l).shaped := h.bumpG

theorem State.shaped.signNow (h : s.shaped) : s.signNow.shaped := by
  unfold State.signNow
  split
  · split
    · lift_lets
      extract_lets n _ s₁ s₂
      have h₁ : s₁.shaped := h.withSvc h.svc
      have h₂ : s₂.shaped := .store h₁
      exact .ite h (.ite h.sealNow (.ite h₂ h₂.sealNow))
    · exact h
  · exact h

theorem State.shaped.checkpointSeal (h : s.shaped) : s.checkpointSeal.shaped := by
  unfold State.checkpointSeal
  split
  · exact h
  · lift_lets
    extract_lets s₁ body m _ s₂
    have h₁ : s₁.shaped := State.shaped.countClips (s := s.tick1) h
    have h₂ : s₂.shaped := h₁.withSvc h₁.svc
    exact .ite h (.ite (.abandonCkpt h.tick1) (.ite h.abandonCkpt h₂.store.signNow))

theorem execPublish_shaped {hd : MboxHdr} {tg : Target} (h : s.shaped) : endsShaped (execPublish hd tg s) :=
  .next (h.mbox fun hu => .ite hu hu)

/-! ## NVMe outcomes -/

theorem State.shaped.useFailed {u : NvmeUse} (h : s.shaped) : (s.useFailed u).shaped := by
  delta State.useFailed
  cases u with
  | ingest id =>
    dsimp only
    split
    · exact h.setStream
    · exact h
  | publish =>
    dsimp only
    split
    · exact .finish (h.withSvc h.svc)
    · exact h
  | checkpoint | manifest => exact h.abandonCkpt

theorem State.shaped.useDone {u : NvmeUse} (h : s.shaped) : (s.useDone u).shaped := by
  cases u with
  | ingest id =>
    simp only [State.useDone]
    split
    · exact h.wantRead
    · exact h
  | manifest => exact h.signNow
  | publish =>
    simp only [State.useDone]
    split
    · exact .ite h (.finish (h.withSvc h.svc))
    · exact h
  | checkpoint => exact h

theorem State.shaped.nvmeFail {c : NvmeCmd} {n : Nat} (h : s.shaped) : (s.nvmeFail c n).shaped :=
  .ite (.submit (h.withSvc h.svc)) (.useFailed (.logEvent (.setGreg (h.withSvc h.svc))))

theorem State.shaped.nvmeDone {c : NvmeCmd} (h : s.shaped) : (s.nvmeDone c).shaped := by
  unfold State.nvmeDone
  extract_lets _ s₁ s₂
  have h₁ : s₁.shaped := h.withSvc h.svc
  have h₂ : s₂.shaped := .ite h₁.event h₁
  exact h₂.useDone

theorem execNvmeCompletion_shaped {qp cid : Half} {st : BitVec 15} (h : s.shaped) :
    endsShaped (execNvmeCompletion qp cid st s) := by
  refine .next ?_
  split
  · exact h
  · exact .ite h.nvmeDone h.nvmeFail

theorem execNvmeTimeout_shaped {qp cid : Half} (h : s.shaped) : endsShaped (execNvmeTimeout qp cid s) := by
  refine .next ?_
  split
  · exact h
  · exact .ite (.nvmeFail h.tick1) h

/-! ## RESTORE -/

theorem Core.shaped.setShadow {a : Nat} {w : Word} (h : x.shaped) : (x.setShadow a w).shaped := h

theorem State.shaped.spoilPlate (h : s.shaped) : s.spoilPlate.shaped := by
  unfold State.spoilPlate
  extract_lets s₁ n s₂ _
  have h₂ : s₂.shaped := State.shaped.hbmWrite (s := s₁) h
  exact h₂.withSvc h₂.svc

theorem Core.shaped.restoreFrom {m rec_ table : List Byte} (h : x.shaped) : (x.restoreFrom m rec_ table).shaped := by
  unfold Core.restoreFrom
  extract_lets n x₁ x₂ x₃ x₄ x₅ x₆ x₇ x₈ x₉
  have h₁ : x₁.shaped := h.withSeq Seq.fits.reset
  have h₃ : x₃.shaped := .foldl (.setReg (.setReg h₁)) .setReg
  have h₅ : x₅.shaped := .setReg (.setReg (.setRf (.setRf (.setReg h₃))))
  have h₇ : x₇.shaped := .foldl (.foldl h₅ fun hz => hz.setReg.setShadow) fun hz => hz.setRf.setRf
  have h₉ : x₉.shaped := .foldl (.foldl h₇ .setReg) .setReg
  exact .ite h₉.store h₉

theorem State.shaped.restoreInto {m body : List Byte} (h : s.shaped) : (s.restoreInto m body).shaped := by
  unfold State.restoreInto
  extract_lets len s₁ cur id _ s₂ s₃ _ s₄
  have h₁ : s₁.shaped := h.mapCores .restoreFrom
  have h₂ : s₂.shaped := h₁.withSvc h₁.svc
  have h₃ : s₃.shaped := by
    simp only [s₃]
    split
    · exact h₂.wantRead
    · exact h₂
  have h₄ : s₄.shaped := .setGf h₃.withShutter
  exact h₄.setGreg.setGreg

theorem State.shaped.slackAgain (h : s.shaped) : s.slackAgain.shaped := by
  unfold State.slackAgain
  split
  · exact h
  · exact .ite h (.setGf h.withImage)

theorem State.shaped.restoreLate {r : RestoreArgs} (h : s.shaped) : (s.restoreLate r).shaped := by
  unfold State.restoreLate
  split
  · exact h.spoilPlate
  · lift_lets
    extract_lets s₁ s₂
    have h₂ : s₂.shaped := h.hbmWrite.countClips
    refine .ite h.spoilPlate (.ite h.spoilPlate ?_)
    split
    · exact h₂.spoilPlate
    · exact h₂.restoreInto.slackAgain

theorem execRestore_shaped {hd : MboxHdr} {r : RestoreArgs} (h : s.shaped) : endsShaped (execRestore hd r s) := by
  refine .next (h.mbox fun {u} hu => .ite hu ?_)
  split
  · exact hu
  · exact hu.tick1
  · exact State.shaped.restoreLate (s := u.tick1) hu

end Sys2Proof.Machine
end

section
/-! SUPPORT. What keeps the sizes of the tables, of the sequencer and the engines (R12, R42, R64, R224–R247):
the issue of an instruction, each engine's instructions, a core's DMA, and the completions. -/

namespace Sys2Proof.Machine

variable {x y : Core} {k : Ctx} {s t : State} {a : At}

/-! ## The sequencer -/

theorem Seq.fits.after {q : Seq} {n : Nat} {l : List LoopFrame} (h : q.fits) : (q.after n l).fits := by
  induction l with
  | nil => exact h
  | cons f l ih =>
    unfold Seq.after
    exact .ite (.ite ⟨h.1, (length_setAt _ _ _).trans h.2.1, h.2.2⟩ ih) h

theorem Core.goTo_fits {b n m : Nat} {q : Seq} {r : Seq × Nat} (h : q.fits) (hr : x.goTo b n q m = some r) : r.1.fits := by
  induction n generalizing q m with
  | zero => cases hr
  | succ n ih =>
    unfold Core.goTo at hr
    split at hr
    · cases hr
      exact h
    · split at hr
      · exact ih h.after hr
      · cases hr

theorem Core.shaped.arrive {b : BitVec 13} {slot : Nat} (h : x.shaped) : (x.arrive k b slot).shaped := by
  refine .ite h (h.withSeq ?_)
  cases hl : x.inLine b.toNat with
  | none => exact h.fits
  | some r => exact Core.goTo_fits h.fits.after hl

theorem Core.shaped.reopen {b : BitVec 13} {slot : Nat} (h : x.shaped) : (x.reopen b slot).shaped := .ite (.setRf h) h

theorem Core.shaped.crowd {ps : List PortUse} (h : x.shaped) : (x.crowd ps).shaped := h.withDma ((List.length_map _).trans h.dma)

theorem Core.shaped.joinPorts {i : Instr} {n : Nat} (h : x.shaped) : (x.joinPorts i n).shaped := by
  unfold Core.joinPorts
  split
  · extract_lets q
    split
    · exact h
    · refine Core.shaped.withDma ?_ ?_
      · exact .crowd (h.withDma ((length_setAt _ _ _).trans h.dma))
      · exact (length_setAt _ _ _).trans ((List.length_map _).trans ((length_setAt _ _ _).trans h.dma))
  · exact Core.shaped.crowd (x := { x with inflight := _ }) h

theorem Core.shaped.endFrame (h : x.shaped) : (x.endFrame k).shaped := .checkRetire h

theorem Core.shaped.sqBusy {n : Nat} (h : x.shaped) : (x.sqBusy n).shaped := h

theorem Core.shaped.loop {lc : BitVec 2} {lenm1 : BitVec 9} {all active : Nat} (h : x.shaped) :
    (x.loop a lc lenm1 all active).shaped := .ite h (h.withSeq ⟨h.fits.1, (length_setAt _ _ _).trans h.fits.2.1, h.fits.2.2⟩)

theorem Core.shaped.loopR {lc : BitVec 2} {lenm1 : BitVec 9} {rs rm : BitVec 5} (h : x.shaped) :
    (x.loopR k a lc lenm1 rs rm).shaped := .loop (.ite h.raise.bump h)

theorem Core.shaped.waitX {ec : BitVec 4} {n : Word} (h : x.shaped) : (x.waitX k a ec n).shaped :=
  .ite h (.ite h (.ite h.setReg h))

theorem Core.shaped.waitRelease (h : x.shaped) : (x.waitRelease k).shaped := by
  unfold Core.waitRelease
  split
  · exact h
  · exact .ite h.setReg.setRf h

theorem Core.shaped.commitCarry (h : x.shaped) : (x.commitCarry a).shaped := .ite h h.setRf

theorem Core.shaped.stop {code : Half} (h : x.shaped) : (x.stop a code).shaped :=
  .ite h (.askStop (.ite h.raise h.raise.setReg))

theorem Core.shaped.post {q : BitVec 4} {rs : BitVec 5} (h : x.shaped) : (x.post k a q rs).shaped := .ite h h.setFrame

theorem Core.shaped.carry {n : BitVec 3} {rs : BitVec 5} (h : x.shaped) : (x.carry k a n rs).shaped :=
  .ite h (.ite h.setRf h.setShadow)

theorem Core.shaped.result {d : SeqDst} {v : Word} {lat : Nat} (h : x.shaped) : (x.result k d v lat).shaped :=
  h.withSeq h.fits.settle.place

theorem Core.shaped.setOverride {ch : BitVec 2} {sel : Bool} {rs : BitVec 5} (h : x.shaped) :
    (x.setOverride k a ch sel rs).shaped := .ite h h.result

theorem Core.shaped.useCache {o : SqOc} {dst : Option (BitVec 5)} {v : Word} {miss : Bool} (h : x.shaped) :
    (x.useCache k a o dst v miss).shaped := .ite h (.ite (.takeWord h) h)

theorem Core.shaped.cacheBusy {ve : Bool} (h : x.shaped) : (x.cacheBusy k a ve).shaped := h

theorem Core.shaped.scalar {rd : BitVec 5} {v : Word} {lat : Nat} (h : x.shaped) : (x.scalar k a rd v lat).shaped := .ite h h.result

theorem Core.shaped.predicate {pd : BitVec 3} {v : Bool} (h : x.shaped) : (x.predicate k a pd v).shaped := .ite h h.result

/-! ## The issue of an engine's operation

Its reads stand under names (`readE_named`), so that no proof below evaluates one. -/


theorem Core.shaped.issue {u : EngUnit} {lat interval tokens : Nat} {op : PendingOp} (h : x.shaped) :
    (x.issue k a u lat interval tokens op).shaped :=
  .showBusy (Core.shaped.withUnitFree (x := { x with inflight := _, nextId := _ }) h ((length_setAt _ _ _).trans h.unitFree))

theorem Core.shaped.engRange {u : EngUnit} {b : BitVec 13} (h : x.shaped) : (x.engRange u b).shaped := h.raise.abort

theorem Core.shaped.setArray {p : Product} {id due : Nat} (h : x.shaped) : (x.setArray p id due).shaped := .showArray h

theorem Core.shaped.doubleClaim {u n : Nat} {b owner : BitVec 13} (h : x.shaped) : (x.doubleClaim u n b owner).shaped :=
  .abort (.ite h.raise h.raise.setReg)

theorem Core.shaped.claim {l : List Nat} {id : Nat} {b : BitVec 13} (h : x.shaped) : (x.claim l id b).shaped :=
  .showOwners (h.withTe (List.foldlRecOn (motive := fun o : List _ => o.length = 16) l _ h.owners fun _ ho _ _ =>
    (length_setAt _ _ _).trans ho))

theorem Core.shaped.setType {l : List Nat} {int : Bool} (h : x.shaped) : (x.setType l int).shaped := h.setRf

theorem Core.shaped.clearTileFlags {l : List Nat} (h : x.shaped) : (x.clearTileFlags l).shaped := h.setReg.setRf

theorem Core.shaped.clampCount {u : EngUnit} {n max : Nat} (h : x.shaped) : (x.clampCount u n max).1.shaped := by
  unfold Core.clampCount
  split
  · exact h.raise
  · exact h

/-! ## The tile engine -/

theorem Core.shaped.tload {o : TLoadOp} (h : x.shaped) : (x.tload k a o).shaped := by
  unfold Core.tload
  exact .ite h.issue (.ite h.engRange.issue h.issue)

theorem Core.shaped.product {p : Product} (h : x.shaped) : (x.product k a p).shaped := by
  unfold Core.product
  refine .ite h.issue.setArray ?_
  dsimp only
  split
  · exact h.doubleClaim
  · have claimed : ∀ {id}, (if (x.claim p.tiles id a.bundle).te.loaded then { x.claim p.tiles id a.bundle with te :=
        { (x.claim p.tiles id a.bundle).te with active := (x.claim p.tiles id a.bundle).te.standby, loaded := false } }
        else x.claim p.tiles id a.bundle).shaped := .ite h.claim h.claim
    exact .ite claimed.release.raise.abort (.ite claimed.release.engRange.issue.setArray
      (.setFrame (.bump (.setArray (.issue (.ite claimed.setType claimed.setType.clearTileFlags))))))

theorem Core.shaped.tprint {o : TPrintOp} (h : x.shaped) : (x.tprint k a o).shaped := by
  unfold Core.tprint
  obtain ⟨rd, hrd⟩ := Core.readE_named
  rw [hrd]
  refine .ite h.issue ?_
  split
  · exact h.doubleClaim
  · exact .ite h.claim.release.engRange.issue h.claim.issue

/-! ## The vector engines -/

theorem Core.shaped.veIssue {ve : Bool} {lat interval : Nat} {op : PendingOp} (h : x.shaped) :
    (x.veIssue k a ve lat interval op).shaped := h.issue

theorem Core.shaped.vArith {o : VaOp} {f : LaneFn} {lat arity : Nat} (h : x.shaped) : (x.vArith k a o f lat arity).shaped :=
  .ite h.veIssue h.veIssue

theorem Core.shaped.vMov {o : VaOp} (h : x.shaped) : (x.vMov k a o).shaped := .ite h.veIssue h.veIssue

theorem Core.shaped.holdDivide {ve : Bool} (h : x.shaped) : (x.holdDivide k ve).shaped :=
  Core.shaped.withUnitFree (x := { x with inflight := _ }) h ((length_setAt _ _ _).trans h.unitFree)

theorem Core.shaped.vCmp {o : VcmpOp} (h : x.shaped) : (x.vCmp k a o).shaped := .ite h.veIssue h.veIssue

theorem Core.shaped.vMask {ve : Bool} {md : BitVec 3} {v : BitVec 64} (h : x.shaped) : (x.vMask k a ve md v).shaped := h.veIssue

theorem Core.shaped.vSpl {ve mz : Bool} {msk : BitVec 3} {rs : BitVec 5} {vd : BitVec 9} (h : x.shaped) :
    (x.vSpl k a ve msk mz rs vd).shaped := .ite h.veIssue h.veIssue

theorem Core.shaped.vScl {ve : Bool} {v : ConvCtl} (h : x.shaped) : (x.vScl k a ve v).shaped := h.veIssue

theorem Core.shaped.vCvtW {o : VcvOp} (h : x.shaped) : (x.vCvtW k a o).shaped := .ite h.veIssue h.veIssue

theorem Core.shaped.vCvtN {o : VcvOp} (h : x.shaped) : (x.vCvtN k a o).shaped :=
  .ite h.veIssue (.ite h.veIssue h.veIssue)

theorem Core.shaped.holdBanks {ve : Bool} {l : List Nat} (h : x.shaped) : (x.holdBanks k ve l).shaped := h

theorem Core.shaped.vAcc {o : VaccOp} (h : x.shaped) : (x.vAcc k a o).shaped :=
  .ite h.veIssue.holdBanks (.ite h.engRange.veIssue.holdBanks h.veIssue.holdBanks)

theorem Core.shaped.vRed {o : VrOp} (h : x.shaped) : (x.vRed k a o).shaped := .ite h.veIssue h.veIssue

theorem Core.shaped.vRax {o : VrOp} (h : x.shaped) : (x.vRax k a o).shaped := .ite h.veIssue h.veIssue

theorem Core.shaped.vBlock {o : VbOp} {load : Bool} (h : x.shaped) : (x.vBlock k a o load).shaped := by
  unfold Core.vBlock
  obtain ⟨rd, hrd⟩ := Core.readE_named
  rw [hrd]
  exact .ite h.veIssue (.ite h.engRange.veIssue (.ite h.veIssue h.veIssue))

theorem Core.shaped.vVector {o : VvOp} {load : Bool} (h : x.shaped) : (x.vVector k a o load).shaped :=
  .ite h.veIssue (.ite h.engRange.veIssue (.ite h.veIssue h.veIssue))

/-! ## The transfer engine -/

theorem Core.shaped.xeIssue {n : Nat} {op : PendingOp} (h : x.shaped) : (x.xeIssue k a n op).shaped := h.issue

theorem Core.shaped.xeAdd {d : XDesc} {l : List Nat} {src idx : Nat} (h : x.shaped) : (x.xeAdd k a d l src idx).shaped :=
  h.xeIssue

theorem Core.shaped.xeMove {n : Nat} {d : XDesc} {src dst idx : Nat} (h : x.shaped) : (x.xeMove k a n d src dst idx).shaped :=
  h.xeIssue

theorem Core.shaped.xrun {o : XrunOp} {op : Nat} (h : x.shaped) : (x.xrun k a o op).shaped := by
  unfold Core.xrun
  extract_lets n d
  refine .ite h (.ite h.xeIssue ?_)
  split
  · exact h.doubleClaim
  · have hc : ∀ {l}, (if op = 4 then x.claim l x.nextId a.bundle else x).shaped := .ite h.claim h
    exact .ite (.xeIssue (.engRange (.ite hc.release hc))) (.ite hc.setType.setRf.xeAdd hc.setRf.xeMove)

/-! ## The update engine -/

theorem Core.shaped.ueIssue {lat : Nat} {op : PendingOp} (h : x.shaped) : (x.ueIssue k a lat op).shaped := h.issue

theorem Core.shaped.ueRefused {lat d fs : Nat} {code : Half} (h : x.shaped) : (x.ueRefused k a lat d fs code).shaped :=
  h.apply.raise.abort.ueIssue

theorem Core.shaped.ueOp {code : Nat} (h : x.shaped) : (x.ueOp a code).shaped := .ite h h.setRf

theorem Core.shaped.ueRange {lat d fs : Nat} (h : x.shaped) : (x.ueRange k a lat d fs).shaped := h.apply.engRange.ueIssue

theorem Core.shaped.uupd {d : BitVec 4} {pass : BitVec 3} (h : x.shaped) : (x.uupd k a d pass).shaped := by
  unfold Core.uupd
  extract_lets
  split
  · exact .ite h.ueIssue h.ueOp.ueRefused
  · exact .ite h.ueIssue (.ite h.ueOp.ueRefused (.ite h.ueRange h.ueOp.ueIssue))

theorem Core.shaped.urow {d : BitVec 4} {rj : BitVec 5} {n : BitVec 12} (h : x.shaped) : (x.urow k a d rj n).shaped := by
  unfold Core.urow
  extract_lets
  split
  · exact .ite h.ueIssue h.ueOp.ueRefused
  · exact .ite h.ueIssue (.ite h.ueOp.ueRefused (.ite h.ueRange h.ueOp.ueIssue))

theorem Core.shaped.ugfac {f : BitVec 4} {bank : BitVec 3} {ra : BitVec 5} {ofs : BitVec 12} (h : x.shaped) :
    (x.ugfac k a f bank ra ofs).shaped := by
  unfold Core.ugfac
  obtain ⟨rd, hrd⟩ := Core.readE_named
  rw [hrd]
  exact .ite h.ueIssue (.ite h.ueRange (.ite h.ueOp.ueIssue h.ueOp.ueIssue))

theorem Core.shaped.ufilt {d : BitVec 4} {bank : BitVec 3} {ra rb rn nmx : BitVec 5} (h : x.shaped) :
    (x.ufilt k a d bank ra rb rn nmx).shaped := by
  unfold Core.ufilt
  obtain ⟨⟨rd, hrd⟩, fa, hfa⟩ := And.intro Core.readE_named filterAll_named
  rw [hrd, hfa]
  exact .ite h.ueIssue (.ite h.ueRange h.clampCount.ueOp.ueIssue)

theorem Core.shaped.uflist {d : BitVec 4} {bank : BitVec 3} {ra : BitVec 5} (h : x.shaped) : (x.uflist k a d bank ra).shaped :=
  .ite h.ueIssue (.ite h.ueRange h.ueOp.ueIssue)

theorem Core.shaped.uadv (h : x.shaped) : (x.uadv k a).shaped := .ueIssue (.ite h.ueOp h.ueOp.setRf)

/-! ## The mask engine -/

theorem Core.shaped.meIssue {lat : Nat} {op : PendingOp} (h : x.shaped) : (x.meIssue k a lat op).shaped := h.issue

theorem Core.shaped.meOp {code : Nat} (h : x.shaped) : (x.meOp a code).shaped := .ite h (.setFrame h.setRf)

theorem Core.shaped.meRange {lat d slot : Nat} (h : x.shaped) : (x.meRange k a lat d slot).shaped := h.apply.engRange.meIssue

theorem Core.shaped.meEdit {o : MEditOp} {code : Nat} {dodge burn : Bool} (h : x.shaped) :
    (x.meEdit k a o code dodge burn).shaped := by
  unfold Core.meEdit
  refine .ite h.meIssue ?_
  dsimp only
  split
  · exact h.meOp.meIssue
  · exact h.meOp.meIssue

theorem Core.shaped.mscore {o : MScoreOp} (h : x.shaped) : (x.mscore k a o).shaped :=
  .ite h.meIssue (.ite h.meRange h.meOp.meIssue)

theorem Core.shaped.msload {o : MSheetOp} (h : x.shaped) : (x.msload k a o).shaped := by
  unfold Core.msload
  obtain ⟨rd, hrd⟩ := Core.readE_named
  rw [hrd]
  exact .ite h.meIssue (.ite h.meRange h.meOp.meIssue)

theorem Core.shaped.msstore {o : MSheetOp} (h : x.shaped) : (x.msstore k a o).shaped :=
  .ite h.meIssue (.ite h.meRange h.meOp.meIssue)

theorem Core.shaped.mremap {d : BitVec 5} {old : BitVec 6} (h : x.shaped) : (x.mremap k a d old).shaped :=
  .ite h.meIssue h.meOp.meIssue

theorem Core.shaped.ppred {o : PPredOp} (h : x.shaped) : (x.ppred k a o).shaped := by
  unfold Core.ppred
  obtain ⟨rd, hrd⟩ := Core.readE_named
  rw [hrd]
  have named : ∀ {i r}, ({ x with rowSets := setAt x.rowSets i r } : Core).shaped := h.withRowSets ((length_setAt _ _ _).trans h.rowSets)
  exact .ite named.meIssue (.ite h.meRange named.clampCount.meOp.meIssue)

theorem Core.shaped.pctl {j : BitVec 4} {en : Bool} (h : x.shaped) : (x.pctl k a j en).shaped :=
  .meIssue (.ite h.meOp h.meOp.setFrame)

end Sys2Proof.Machine
end

section
/-! SUPPORT. What keeps the sizes of the tables, of an instruction's issue and completion and of a transfer's
start and completion (R12, R27, R226, R237, R251, R259, R370). -/

namespace Sys2Proof.Machine

variable {x y : Core} {k : Ctx} {s t : State} {a : At}

theorem State.shaped.perform {at_ : Site} {i : Instr} {n : Nat} {g : Ctx → At → State → State} (h : s.shaped)
    (hg : ∀ {k a u}, u.shaped → (g k a u).shaped) : (s.perform at_ i n g).shaped := by
  unfold State.perform
  extract_lets s₁ _ k slot x y s₂ z w
  have h₁ : s₁.shaped := h.atCycle.tick1
  have h₂ : s₂.shaped := hg (h₁.setCore (h₁.core _).reopen.arrive)
  have hz : z.shaped := .joinPorts (h₂.core _)
  have hw : w.shaped := .ite hz.checkRetire hz
  exact .meter (.drainReports (h₂.setCore hw))

theorem State.shaped.issueWith {at_ : Site} {i : Instr} {g : Ctx → At → State → State} (h : s.shaped)
    (hg : ∀ {k a u}, u.shaped → (g k a u).shaped) : (s.issueWith at_ i g).shaped := by
  unfold State.issueWith
  split
  · exact h
  · exact .ite h.settle (.ite (h.settle.perform hg) (h.settle.onCoreAt .fetchTrap))

theorem State.shaped.issue {at_ : Site} {i : Instr} {f : Ctx → Core → At → Core} (h : s.shaped)
    (hf : ∀ {k x a}, x.shaped → (f k x a).shaped) : (s.issue at_ i f).shaped :=
  h.issueWith fun hu => hu.setCore (hf (hu.core _))

theorem State.shaped.issueSq {at_ : Site} {i : Instr} {lat : Ctx → Nat} {f : Ctx → Core → At → Core} (h : s.shaped)
    (hf : ∀ {k x a}, x.shaped → (f k x a).shaped) : (s.issueSq at_ i lat f).shaped :=
  h.issue fun hx => hf hx.sqBusy

/-! ## A transfer -/

theorem State.shaped.disturbBy {own : CoreId} {rows : List DmaRow} (h : s.shaped) : (s.disturbBy own rows).shaped :=
  h.foldl fun {u r} hu => by
    split
    · exact hu.setCore (hu.core _)
    · exact hu.setCore (hu.core _)
    · exact hu

theorem Core.shaped.showDma {ch : Nat} (h : x.shaped) : (x.showDma ch).shaped := h.setRf.setRf

theorem State.shaped.startDma {at_ : At} {ch : BitVec 2} {d : BitVec 12} {use miss : Bool} (h : s.shaped) :
    (s.startDma k at_ ch d use miss).shaped := by
  unfold State.startDma
  extract_lets c x i line bad raw d halted ovl ovr range quiet places reads clipped code op old x₁ x₂ x₃ s₁
  have h₁ : x₁.shaped := .showDma ((h.core c).withDma ((length_setAt _ _ _).trans (h.core c).dma))
  have h₂ : x₂.shaped := .ite h₁.setRf.missFrame h₁
  have h₃ : x₃.shaped := .ite h₂.abort h₂
  have hs : s₁.shaped := .drainReports (.disturbBy (h.setCore h₃))
  exact .ite hs.bumpG hs

theorem Core.shaped.setFate {ch : Nat} {f : Fate} (h : x.shaped) : (x.setFate ch f).shaped := by
  unfold Core.setFate
  extract_lets q
  split
  · exact h
  · exact h.withDma ((length_setAt _ _ _).trans h.dma)

theorem execDmaComplete_shaped {c : CoreId} {ch : BitVec 2} {f : Fate} (h : s.shaped) :
    endsShaped (execDmaComplete c ch f s) := by
  refine .next ?_
  split
  · exact h
  · exact .settle (h.setCore (h.core c).setFate)

/-! ## Completions -/

theorem execWaitxRelease_shaped {c : CoreId} (h : s.shaped) : endsShaped (execWaitxRelease c s) :=
  .next (h.settle.onCore .waitRelease)

theorem execCrcIfetchTrap_shaped {c : CoreId} {b : BitVec 13} (h : s.shaped) : endsShaped (execCrcIfetchTrap c b s) := by
  refine .next ?_
  split
  · exact h
  · exact .ite (h.settle.onCoreAt .fetchTrap) h.settle

theorem execInstructionComplete_shaped {c : CoreId} {u : EngUnit} {f : Fate} (h : s.shaped) :
    endsShaped (execInstructionComplete c u f s) := by
  refine .next ?_
  split
  · exact h
  · exact .settle (h.setCore (h.core c))

end Sys2Proof.Machine
end

section
/-! SUPPORT. What keeps the sizes of the tables, of the collective engine's messages and completions
(R324, R327, R333–R335). -/

namespace Sys2Proof.Machine

variable {s t : State}

theorem State.shaped.sendIn {e d : Word} {m : List Byte} (h : s.shaped) : (s.sendIn e d m).shaped := by
  unfold State.sendIn
  split
  · exact h.sendMessage
  · exact h

theorem State.shaped.relay {m : List Byte} (h : s.shaped) : (s.relay m).shaped := h.sendIn

theorem State.shaped.engineMsg {p : BitVec 4} {m : List Byte} {f : State → State} (h : s.shaped)
    (hf : ∀ {u}, u.shaped → (f u).shaped) : (s.engineMsg p m f).shaped :=
  h.takeMsg fun hu => .ite hu.relay (.ite hu.rosterSkew (hf hu))

theorem execStartRecord_shaped {r : StartRecord} {bad : Bool} (h : s.shaped) : endsShaped (execStartRecord r bad s) :=
  .next h.takeStartRecord

theorem execCdata_shaped {p : BitVec 4} {m : List Byte} (h : s.shaped) : endsShaped (execCdata p m s) :=
  .next (h.engineMsg .takeCdata)

theorem State.shaped.serveShard {m : List Byte} {bad : Bool} (h : s.shaped) : (s.serveShard m bad).shaped := by
  unfold State.serveShard
  extract_lets -underBinder hd b own step _ head
  split
  · exact h.sendIn
  · exact .ite h.sendIn (.sendIn h.serviceRead)

theorem execGreq_shaped {p : BitVec 4} {m : List Byte} {bad : Bool} (h : s.shaped) : endsShaped (execGreq p m bad s) :=
  .next (h.engineMsg .serveShard)

theorem State.shaped.takeShard {p : Nat} {m : List Byte} (h : s.shaped) : (s.takeShard p m).shaped := by
  have given : ∀ {u : State} {i r}, u.shaped → (u.setRun i r).signalReady.shaped := fun hu => .signalReady hu.setRun
  unfold State.takeShard
  extract_lets -underBinder hd
  split
  · exact h.windowDrop
  · refine .ite ?_ (.ite h.windowDrop ?_)
    · split
      · exact given h
      · exact h
    · extract_lets s₁
      have h₁ : s₁.shaped := h.hbmWrite
      split
      · exact given h₁
      · exact h₁

theorem execGdata_shaped {p : BitVec 4} {m : List Byte} (h : s.shaped) : endsShaped (execGdata p m s) :=
  .next (h.engineMsg .takeShard)

theorem State.shaped.abortAll {code : Half} (h : s.shaped) : (s.abortAll code).shaped :=
  h.mapCores fun hx => .ite hx.abort.checkRetire hx

theorem State.shaped.deliver (h : s.shaped) : s.deliver.shaped := by
  unfold State.deliver
  split
  · exact h
  · split
    · exact h
    · refine .ite h ?_
      extract_lets _ s₁ s₂
      have h₂ : s₂.shaped := .signalReady (.showColl (.bumpG (.event (h.withColl (c := _)))))
      split
      · exact h₂
      · exact .abortAll (.ite (.logEvent h₂.setGf) (.setGreg (.logEvent h₂.setGf)))

theorem execCollectiveComplete_shaped (h : s.shaped) : endsShaped (execCollectiveComplete s) := .next h.deliver

end Sys2Proof.Machine
end

section
/-! SUPPORT. What keeps the sizes of the tables, of the job's and the serving commands (R346, R359–R362, R387)
and of the security commands (R411–R432). -/

namespace Sys2Proof.Machine

variable {s t : State}

/-! ## Start, stop, roster and serving -/

theorem execStart_shaped {hd : MboxHdr} {fn : BitVec 48} (h : s.shaped) : endsShaped (execStart hd fn s) :=
  .next (h.mbox fun hu => .ite hu.tick1 (.ite hu.tick1 (.ite hu.tick1 (.ite hu.tick1.propose hu.tick1.propose))))

theorem execStop_shaped {hd : MboxHdr} (h : s.shaped) : endsShaped (execStop hd s) :=
  .next (h.mbox fun hu => .ite hu (.stopBath (hu.withSvc hu.svc)))

theorem execRosterChange_shaped {hd : MboxHdr} {l : List Byte} (h : s.shaped) : endsShaped (execRosterChange hd l s) := by
  refine .next (h.mbox fun {u} hu => ?_)
  extract_lets r t
  have ht : t.shaped := hu.propose
  clear_value t
  split
  · exact hu
  · split
    · exact hu.logEvent
    · split
      · exact ht
      · exact ht

theorem State.shaped.openRegion {k : KvArgs} (h : s.shaped) : (s.openRegion k).shaped :=
  h.setGreg.setGreg.setGreg.setGreg.setGreg.setGreg.setGreg

theorem State.shaped.closeRegion {k : KvArgs} (h : s.shaped) : (s.closeRegion k).shaped := .foldl h .setGreg

theorem execServeOpen_shaped {hd : MboxHdr} {a : ServeArgs} (h : s.shaped) : endsShaped (execServeOpen hd a s) := by
  refine .next (h.mbox fun {u} hu => .ite hu ?_)
  have opened : (a.regions.foldl State.openRegion u).shaped := .foldl hu .openRegion
  exact opened.withSvc hu.svc

theorem execServeClose_shaped {hd : MboxHdr} (h : s.shaped) : endsShaped (execServeClose hd s) := by
  refine .next (h.mbox fun {u} hu => ?_)
  split
  · exact hu
  · next v _ =>
    have closed : (v.args.regions.foldl State.closeRegion u).shaped := .foldl hu .closeRegion
    exact closed.withSvc hu.svc

theorem execServeRequest_shaped {n : Nat} {l : List Word} (h : s.shaped) : endsShaped (execServeRequest n l s) := by
  refine .next ?_
  split
  · exact h
  · exact .ite h (.event (h.tick1.withSvc h.svc))

theorem execKvRead_shaped {hd : MboxHdr} {r : Byte} {a b : Word} (h : s.shaped) : endsShaped (execKvRead hd r a b s) :=
  .next (h.mbox fun hu => .ite hu (.ite hu hu.serviceRead))

theorem execHealthRead_shaped {hd : MboxHdr} (h : s.shaped) : endsShaped (execHealthRead hd s) :=
  .next (h.mbox fun hu => .ite hu hu)

/-! ## Sessions -/

theorem State.shaped.setMr {n : Nat} {l : List Byte} (h : s.shaped) : (s.setMr n l).shaped := .foldl h .setGreg

theorem State.shaped.extendMr {n : Nat} {l : List Byte} (h : s.shaped) : (s.extendMr n l).shaped := h.setMr

theorem State.shaped.keysChanged (h : s.shaped) : s.keysChanged.shaped := h.extendMr.showSec

theorem State.shaped.challenge {n : Nat} (h : s.shaped) : (s.challenge n).1.shaped := h

theorem execSessionChallenge_shaped {hd : MboxHdr} (h : s.shaped) : endsShaped (execSessionChallenge hd s) :=
  .next (h.mbox .challenge)

theorem State.shaped.authFailed {r : Nat} (h : s.shaped) : (s.authFailed r).shaped := .ite h h

theorem State.shaped.openSession {a b : Nat} {k : Word} {l : List Byte} (h : s.shaped) : (s.openSession a b k l).1.shaped := by
  unfold State.openSession
  split
  · exact h
  · split
    · exact h.authFailed
    · split
      · exact h
      · exact .showSec (h.tick1.withSec h.sec)

theorem execSessionOpen_shaped {hd : MboxHdr} {r : Byte} {k : Word} {l : List Byte} (h : s.shaped) :
    endsShaped (execSessionOpen hd r k l s) := by
  refine .next (h.mbox fun {u} hu => .ite hu ?_)
  have opened : (u.openSession hd.src.toNat r.toNat k l).1.shaped := hu.openSession
  generalize u.openSession hd.src.toNat r.toNat k l = o at opened
  exact .ite opened opened.audit

theorem execSessionClose_shaped {hd : MboxHdr} (h : s.shaped) : endsShaped (execSessionClose hd s) :=
  .next (h.mbox fun hu => .ite hu hu.audit.endSessions)

theorem execSessionIdleTimeout_shaped {w : Word} (h : s.shaped) : endsShaped (execSessionIdleTimeout w s) :=
  .next h.endSessions

theorem execRoleLockExpiry_shaped {r : Byte} (h : s.shaped) : endsShaped (execRoleLockExpiry r s) := .next h

/-! ## Keys and credentials -/

theorem execJobKey_shaped {hd : MboxHdr} {l : List Byte} (h : s.shaped) : endsShaped (execJobKey hd l s) := by
  refine .next (h.mbox fun {u} hu => ?_)
  split
  · exact hu
  · refine .ite (.keysChanged (hu.withSec ⟨?_, ?_, hu.sec.2.2⟩)) (.ite hu (.keysChanged (hu.withSec hu.sec)))
    · exact (length_setAt _ _ _).trans hu.sec.1
    · exact (length_setAt _ _ _).trans hu.sec.2.1

theorem State.shaped.eraseJobKeys (h : s.shaped) : s.eraseJobKeys.shaped :=
  .keysChanged (h.withSec ⟨List.length_replicate, List.length_replicate, h.sec.2.2⟩)

theorem execJobKeyClear_shaped {hd : MboxHdr} (h : s.shaped) : endsShaped (execJobKeyClear hd s) :=
  .next (h.mbox fun hu => .ite hu hu.eraseJobKeys)

theorem execCredSet_shaped {hd : MboxHdr} {r : Byte} {l : List Byte} (h : s.shaped) : endsShaped (execCredSet hd r l s) :=
  .next (h.mbox fun hu => .ite hu (.endSessions (.ite (hu.withSec hu.sec) (hu.withSec hu.sec))))

theorem execMemberKeys_shaped {hd : MboxHdr} {l : List MemberKey} (h : s.shaped) : endsShaped (execMemberKeys hd l s) :=
  .next (h.mbox fun hu => .ite hu (.keysChanged (hu.withSec hu.sec)))

theorem execSignerSet_shaped {hd : MboxHdr} {i : BitVec 4} {l : List Byte} (h : s.shaped) :
    endsShaped (execSignerSet hd i l s) :=
  have put {u : State} {v} (hu : u.shaped) : ({ u with sec := { u.sec with signers := setAt u.sec.signers i.toNat v } } : State).shaped :=
    hu.withSec ⟨hu.sec.1, hu.sec.2.1, (length_setAt _ _ _).trans hu.sec.2.2⟩
  .next (h.mbox fun hu => .ite hu (.ite (put hu) (.ite hu (put hu))))

theorem execLifecycle_shaped {hd : MboxHdr} {n : BitVec 3} (h : s.shaped) : endsShaped (execLifecycle hd n s) :=
  .next (h.mbox fun hu => .ite hu hu.setGf)

theorem execAuditRead_shaped {hd : MboxHdr} {f : BitVec 64} {n : Nat} {l : List Byte} (h : s.shaped) :
    endsShaped (execAuditRead hd f n l s) :=
  .next (h.mbox fun hu => .ite hu hu.tick1)

theorem execUnitFence_shaped {hd : MboxHdr} (h : s.shaped) : endsShaped (execUnitFence hd s) :=
  .next (h.mbox fun hu => .ite hu (.ite hu (.done (.ite hu.setHealth.stopBath hu.setHealth))))

theorem execUnitUnfence_shaped {hd : MboxHdr} (h : s.shaped) : endsShaped (execUnitUnfence hd s) :=
  .next (h.mbox fun hu => .ite hu (.ite hu.setHealth hu))

end Sys2Proof.Machine
end

section
/-! SUPPORT. What keeps the sizes of the tables, of the tests in service (R398–R408) and of power and start-up
(R341, R388, R395–R397, R414, R437–R453). -/

namespace Sys2Proof.Machine

variable {x y : Core} {k : Ctx} {s t : State}

/-! ## Slices -/

theorem State.shaped.showSlicing (h : s.shaped) : s.showSlicing.shaped := h.setGf

theorem execInServiceSlice_shaped {c : CoreId} {g : Segment} {r : SliceResult} (h : s.shaped) :
    endsShaped (execInServiceSlice c g r s) := by
  refine .next ?_
  split
  · exact h
  · exact .showSlicing (h.atCycle.withHtu h.atCycle.leaks)

theorem Core.shaped.marchFail {n line : Nat} {missed : Bool} (h : x.shaped) : (x.marchFail n missed line).shaped := by
  unfold Core.marchFail
  extract_lets held z
  have hz : z.shaped := h.raiseInt.remapLine
  split
  · exact hz
  · exact .ite (.showFills hz.setInteg) (.showFills (.setSpare (.write hz.setInteg)))

theorem Core.shaped.memorySlice {g : Segment} {r : SliceResult} (h : x.shaped) : (x.memorySlice k g r).shaped :=
  .foldl (.foldl h .miss) .marchFail

theorem State.shaped.requestNote {c : CoreId} {g : Segment} (h : s.shaped) : (s.requestNote c g).shaped := h

theorem State.shaped.segmentDone {c : CoreId} {g : Segment} (h : s.shaped) : (s.segmentDone c g).shaped := by
  unfold State.segmentDone
  extract_lets s₁
  have h₁ : s₁.shaped := h.requestNote
  exact .ite (.setGreg (h₁.withHtu h₁.leaks)) (.setGf (h₁.withHtu h₁.leaks))

theorem State.shaped.sliceResult {v : Slice} (h : s.shaped) : (s.sliceResult v).shaped := by
  unfold State.sliceResult
  refine .ite (h.onCore .memorySlice) (.ite ?_ h)
  extract_lets s₁
  split
  · exact .ite h.raiseHtu.failUnit.stopBath h.raiseHtu.failUnit
  · exact h.raiseHtu.failUnit

theorem execCoverageExpired_shaped (h : s.shaped) : endsShaped (execCoverageExpired s) := .next (.ite h.raiseHtu.setGf h)

/-! ## Tests on request -/

theorem State.shaped.testResult {code : Half} {a b : Nat} (h : s.shaped) : (s.testResult code a b).shaped := h.setGreg.setGreg

theorem State.shaped.refuseTest {code : Half} (h : s.shaped) : (s.refuseTest code).shaped := h.raiseHtu.testResult

theorem State.shaped.iteFst {β : Type} {p : Prop} [Decidable p] {a b : State × β} (ha : a.1.shaped) (hb : b.1.shaped) :
    (if p then a else b).1.shaped := by
  split <;> assumption

theorem State.shaped.testAsk {g : Word} {u : Half} {n : BitVec 2} {full : Bool} (h : s.shaped) :
    (s.testAsk g u n full).1.shaped := by
  unfold State.testAsk
  extract_lets u no
  have refused : ∀ {c}, (no c).1.shaped := h.refuseTest
  exact .iteFst refused (.iteFst refused (.iteFst refused (.ite (.stopBath (.setGf (h.withHtu h.leaks))) (.setGf (h.withHtu h.leaks)))))

theorem State.shaped.testRequest {u : Half} {n : BitVec 2} {full : Bool} (h : s.shaped) : (s.testRequest u n full).shaped :=
  .ite h.testAsk h.raiseHtu

theorem execFullTestStart_shaped (h : s.shaped) : endsShaped (execFullTestStart s) := by
  refine .next ?_
  split
  · exact h
  · exact .ite h (.setHealth (h.withHtu h.leaks))



theorem Core.shaped.withMem {m : List (Nat × Byte)} (h : x.shaped) : ({ x with mem := m } : Core).shaped := h

theorem State.shaped.spoilMemories {u : Nat} (h : s.shaped) : (s.spoilMemories u).shaped :=
  h.mapCores fun hx => .ite hx.withMem hx

theorem State.shaped.testDone {r : TestReq} {e : TestResult} (h : s.shaped) : (s.testDone r e).shaped := by
  unfold State.testDone
  extract_lets _ s₁ s₂ s₃ s₄
  have h₁ : s₁.shaped := .setGf (h.withHtu h.leaks)
  have h₂ : s₂.shaped := h₁.testResult
  have h₃ : s₃.shaped := .ite h₂.tick1.spoilMemories h₂
  have h₄ : s₄.shaped := h₃.raiseHtu.failUnit
  exact .ite (.ite h₃.setHealth h₃) (.ite h₄.stopBath h₄)

/-! ## The margin planner -/

theorem State.shaped.measured {l : List Int} (h : s.shaped) : (s.measured l).shaped := .setGf (h.withHtu h.leaks)

theorem State.shaped.exhausted (h : s.shaped) : s.exhausted.shaped := .failUnit (.stopBath h.raiseHtu.setGf)

theorem State.shaped.planner {start : Bool} {l : List (List Int)} (h : s.shaped) : (s.planner start l).shaped := by
  induction l generalizing s with
  | nil => exact h
  | cons a l ih =>
    unfold State.planner
    extract_lets s₁ v k _ s₂
    have h₁ : s₁.shaped := h.measured
    have h₂ : s₂.shaped := .raiseHtu (h₁.withHtu h₁.leaks)
    exact .ite h₁ (.ite (ih (.setGf (h₁.withHtu h₁.leaks))) (.ite (.ite (ih (State.shaped.setFreq h₂.setGf)) h₂.withShutter) (.ite h₁.exhausted h₁)))

end Sys2Proof.Machine
end

section
/-! SUPPORT. What keeps the sizes of the tables, of resets, start-up, power-off, forced classes and function
level resets (R341, R388, R395–R397, R414, R437–R453). -/

namespace Sys2Proof.Machine

variable {x y : Core} {k : Ctx} {s t : State}

/-! ## Resets -/

theorem Core.shaped_reset : Core.reset.shaped := by
  simp [Core.shaped, Core.reset, Seq.shaped, Seq.reset, Te.reset, Integ.reset]

theorem State.shaped_reset : State.reset.shaped := by
  refine .of (fun c => ?_) List.length_replicate (by simp [State.reset]) ?_ ?_ List.length_replicate List.length_replicate
  · have hc : State.reset.core c = Core.atReset c.val := by simp [State.core, State.reset]
    rw [hc]
    exact Core.shaped_reset
  · exact ⟨List.length_replicate, List.length_replicate, List.length_replicate⟩
  · exact ⟨List.length_replicate, List.length_replicate, List.length_replicate⟩

/-- What a reset leaves of the tables is the reset state's, but for the signers. -/
theorem State.shaped.kept (h : s.shaped) : s.kept.shaped := by
  unfold State.kept
  extract_lets _ sec _ htu _ mgmt _ _ _ t₁ t₂
  have hr := State.shaped_reset
  have h₁ : t₁.shaped := .of hr.core hr.ports hr.health hr.svc ⟨hr.sec.1, hr.sec.2.1, h.sec.2.2⟩ hr.leaks hr.dieTemp
  have h₂ : t₂.shaped := .foldl h₁ .setGreg
  exact h₂.setGreg.setGreg.setGreg

theorem State.shaped.withSafelight (h : t.shaped) : (s.withSafelight t).shaped := h

theorem State.shaped.release {p : Straps} (h : s.shaped) : (s.release p).shaped :=
  .extendMr h.setGreg.setGf.setGf.setGshadow.setGshadow

theorem State.shaped.fuseIdentity (h : s.shaped) : s.fuseIdentity.shaped := .foldl h.tick1 .setGreg

theorem State.shaped.lifecycleNow (h : s.shaped) : s.lifecycleNow.shaped := by
  unfold State.lifecycleNow
  extract_lets a b s₁ _ s₂ _ s₃ s₄
  have h₁ : s₁.shaped := h.setGf
  have h₂ : s₂.shaped := .ite (h₁.withSec ⟨List.length_replicate, List.length_replicate, List.length_replicate⟩) h₁
  have h₃ : s₃.shaped := .ite (.setGf (h₂.withSec h₂.sec)) h₂
  have h₄ : s₄.shaped := .ite h₃.fuseIdentity h₃
  exact .ite h h₄.audit

theorem State.shaped.coldStart {p : Straps} (h : s.shaped) : (s.coldStart p).shaped :=
  .release (.lifecycleNow (h.kept.withPower h.kept.dieTemp))

theorem State.shaped.resetModule {p : Straps} (h : s.shaped) : (s.resetModule p).shaped := by
  unfold State.resetModule
  extract_lets t₁ _ _ _ t₂
  have h₁ : t₁.shaped := .withSafelight h.kept
  have h₂ : t₂.shaped := by
    refine .of (fun d => ?_) h₁.ports h₁.health h₁.svc ⟨h.sec.1, h.sec.2.1, h₁.sec.2.2⟩ h₁.leaks h₁.dieTemp
    have reset : (Core.reset.setReg 0 ((s.cores.get d).reg 0)).shaped := Core.shaped_reset.setReg
    simpa [t₂, State.core] using reset
  exact h₂.release.showSec

/-! ## Start-up -/

theorem State.shaped.bootWith {f : StartFindings} {n : Nat} (h : s.shaped) : (s.bootWith f n).shaped := by
  unfold State.bootWith
  extract_lets fresh _ s₁ s₂ s₃ s₄ s₅
  have h₂ : s₂.shaped := .foldl h.withMgmt .extendMr
  have h₄ : s₄.shaped := h₂.extendMr.setGreg
  exact .ite h₄.tick1.audit h₄

theorem State.shaped.buildHealth {l : List Nat} (h : s.shaped) : (s.buildHealth l).shaped := by
  unfold State.buildHealth
  extract_lets boots gen one _ s₁
  have h₁ : s₁.shaped := State.shaped.withHealth (s := { s with htu := _ }) (h.withHtu h.leaks) (by simp)
  exact h₁.foldl fun hu => .ite hu.failUnit hu

/-- One unit's health entry changed. -/
theorem State.shaped.setUnit {u : Nat} {r : Health} (h : s.shaped) : ({ s with health := setAt s.health u r } : State).shaped :=
  h.withHealth ((length_setAt _ _ _).trans h.health)

theorem State.shaped.substitute (h : s.shaped) : s.substitute.shaped :=
  .foldl (h.mapCores .setReg) fun hu => .ite hu.setUnit hu

theorem State.shaped.markSubstituted (h : s.shaped) : s.markSubstituted.shaped := h.foldl fun hu => .ite hu.setUnit hu

theorem Core.shaped.takeRemap {line : Nat} (h : x.shaped) : (x.takeRemap line).shaped := by
  unfold Core.takeRemap
  split
  extract_lets used
  split
  · exact h
  · exact h

theorem State.shaped.loadRemaps (h : s.shaped) : s.loadRemaps.shaped :=
  h.mapCores fun hx => .showRemaps (.foldl hx .takeRemap)

theorem State.shaped.loadAgeing (h : s.shaped) : s.loadAgeing.shaped := by
  unfold State.loadAgeing
  split
  exact h

theorem State.shaped.startMarker (h : s.shaped) : s.startMarker.shaped := h

theorem State.shaped.becomeReady (h : s.shaped) : s.becomeReady.shaped := by
  unfold State.becomeReady
  extract_lets v _ _ s₁
  have h₁ : s₁.shaped := h
  exact h₁.setGf.setClass.setGf

theorem State.shaped.startupTested {f : StartFindings} (h : s.shaped) : (s.startupTested f).shaped := by
  unfold State.startupTested
  extract_lets s₁ failed quick s₂ s₃ s₄ _ s₅ s₆ s₇
  have h₂ : s₂.shaped := h.loadAgeing.buildHealth
  have h₃ : s₃.shaped := .ite h₂.substitute h₂.markSubstituted
  have h₄ : s₄.shaped := h₃.loadRemaps.planner
  have h₅ : s₅.shaped := .ite (h₄.withHtu h₄.leaks) h₄
  have h₇ : s₇.shaped := .ite h₅.startMarker.writeAgeing h₅.startMarker
  exact .ite h₇ h₇.becomeReady

theorem execStartupReady_shaped {f : StartFindings} (h : s.shaped) : endsShaped (execStartupReady f s) := by
  refine .next (.ite h ?_)
  split
  · exact h.setGf
  · exact h.bootWith.startupTested

/-! ## Power-off -/

theorem State.shaped.railsOff {p : PowerPhase} {n : Nat} (h : s.shaped) : (s.railsOff p n).shaped :=
  .setGreg (h.kept.withPower h.kept.dieTemp)

theorem State.shaped.emergencyOff {n : Nat} {code : Half} (h : s.shaped) : (s.emergencyOff n code).shaped :=
  .railsOff (h.withHtu h.leaks)

theorem execModuleReset_shaped {p : Straps} (h : s.shaped) : endsShaped (execModuleReset p s) :=
  have reset : (s.resetModule p).shaped := h.resetModule
  .next (.ite (reset.withPower reset.dieTemp) h)

theorem execRstNRelease_shaped {p : Straps} (h : s.shaped) : endsShaped (execRstNRelease p s) :=
  have reset : (s.resetModule p).shaped := h.resetModule
  .next (.ite (reset.withPower reset.dieTemp) h)

theorem execInputPowerFail_shaped (h : s.shaped) : endsShaped (execInputPowerFail s) := .next (.ite h h.emergencyOff)

theorem execInputOvervoltage_shaped (h : s.shaped) : endsShaped (execInputOvervoltage s) :=
  have off := State.shaped.ite h h.emergencyOff
  .next (off.withPower off.dieTemp)

theorem execThermalTrip_shaped (h : s.shaped) : endsShaped (execThermalTrip s) := .next (.ite h.emergencyOff h)

theorem State.shaped.pldm {r : Nat} {w : Word} {f : State → State × Half} (h : s.shaped)
    (hf : ∀ {u}, u.shaped → (f u).1.shaped) : (s.pldm r w f).shaped := by
  unfold State.pldm
  extract_lets s₁ note s₂
  have h₁ : s₁.shaped := h.tick1
  have h₂ : s₂.shaped := h₁.audit.useSession
  refine .ite h₁.audit.emit (.ite h₁.setGf.emit ?_)
  have answered : (f s₂).1.shaped := hf h₂
  exact .emit (.ite answered answered.audit)

theorem State.shaped.testVia {a : TestAsk} {n : BitVec 2} {full : Bool} (h : s.shaped) : (s.testVia a n full).shaped := by
  unfold State.testVia
  split
  · exact h.testRequest
  · exact .ite (h.pldm .testAsk) h

theorem execModulePowerOff_shaped {w : Word} (h : s.shaped) : endsShaped (execModulePowerOff w s) :=
  .next (.ite h (h.pldm fun hu => .shutdownOn (.ite hu (.stopBath hu))))

theorem State.shaped.shutdownEnd (h : s.shaped) : s.shutdownEnd.shaped := by
  unfold State.shutdownEnd
  extract_lets _ _ s₁ _ s₂
  have h₁ : s₁.shaped := .ite (h.tick1.withPower h.dieTemp) h
  have h₂ : s₂.shaped := h₁.withHtu h₁.leaks
  exact .withSafelight h₂.railsOff

theorem State.shaped.shutdownRecord {n : Nat} {f : ShutdownFound} (h : s.shaped) : (s.shutdownRecord n f).shaped := by
  have failed : ((failedIn f).foldl (fun s u => if (s.unitHealth u).state = 4 then s else s.failUnit u 0x0702#16) s).shaped :=
    h.foldl fun hu => .ite hu hu.failUnit
  exact failed

theorem execTestDone_shaped {e : TestEnd} (h : s.shaped) : endsShaped (execTestDone e s) := by
  refine .next ?_
  split
  · exact h.shutdownRecord
  · exact h
  · exact .ite h.testDone h

theorem execCanaryMeasurement_shaped {l : List (List Int)} (h : s.shaped) : endsShaped (execCanaryMeasurement l s) :=
  .next (.ite h (.ite h.planner.writeAgeing.shutdownEnd h.planner))

theorem execShutdownStageLimit_shaped (h : s.shaped) : endsShaped (execShutdownStageLimit s) := by
  refine .next ?_
  split
  · exact (h.withSvc h.svc).withPower h.dieTemp
  · exact h.tick1.shutdownRecord
  · exact h.shutdownEnd
  · exact h

theorem execModulePowerOn_shaped (h : s.shaped) : endsShaped (execModulePowerOn s) :=
  .next (.ite (.withSafelight h.coldStart) h)

theorem execModuleResetRequest_shaped {w : Word} {p : Straps} (h : s.shaped) : endsShaped (execModuleResetRequest w p s) :=
  .next (.ite (h.pldm .resetModule) h)

/-! ## Forced classes and the reference clock -/

theorem State.shaped.askClass (h : s.shaped) : s.askClass.shaped := h

theorem State.shaped.forceClass (h : s.shaped) : s.forceClass.shaped := .askClass (.ite (.logEvent h.setGf.setGf) h.setGf.setGf)

theorem execInputLow_shaped (h : s.shaped) : endsShaped (execInputLow s) := .next (.ite (.forceClass (h.withPower h.dieTemp)) h)

theorem execInputRecovered_shaped (h : s.shaped) : endsShaped (execInputRecovered s) := .next (.ite (.forceClass (h.withPower h.dieTemp)) h)

theorem State.shaped.heatStep (h : s.shaped) : s.heatStep.shaped := .forceClass (h.withPower h.dieTemp)

theorem execDieOverTemperature_shaped {n : BitVec 6} {d : Nat} (h : s.shaped) : endsShaped (execDieOverTemperature n d s) :=
  have read : ({ s with power := { s.power with dieTemp := setAt s.power.dieTemp n.toNat d } } : State).shaped :=
    h.withPower ((length_setAt _ _ _).trans h.dieTemp)
  .next (.ite (.ite read.emergencyOff (.ite read.alertFor.heatStep read)) h)

theorem execDieTempStep_shaped (h : s.shaped) : endsShaped (execDieTempStep s) := .next (.ite h.heatStep h)

theorem execCoolantInletHigh_shaped {d : Nat} (h : s.shaped) : endsShaped (execCoolantInletHigh d s) :=
  .next (.ite (.ite (.forceClass (.alertFor ((h.withPower h.dieTemp).withPower h.dieTemp))) (h.withPower h.dieTemp)) h)

theorem execThermalForceLift_shaped (h : s.shaped) : endsShaped (execThermalForceLift s) :=
  .next (.ite (.forceClass (h.tick1.withPower ((List.length_map _).trans h.dieTemp))) h)

theorem execRefclkLost_shaped (h : s.shaped) : endsShaped (execRefclkLost s) :=
  .next (.ite (.stopBath (.setGf (.logEvent (h.withPower h.dieTemp)))) h)

theorem execRefclkTimeout_shaped (h : s.shaped) : endsShaped (execRefclkTimeout s) := .next (.ite h.emergencyOff h)

theorem execRefclkReturn_shaped (h : s.shaped) : endsShaped (execRefclkReturn s) := .next (h.withPower h.dieTemp)

/-! ## Function level resets -/

theorem State.shaped.resetMailbox {n : Nat} (h : s.shaped) : (s.resetMailbox n).shaped :=
  .withSvc h.setGreg.setGreg ⟨(length_setAt _ _ _).trans h.svc.1, h.svc.2⟩

theorem State.shaped.resetFunction {n : Nat} (h : s.shaped) : (s.resetFunction n).shaped := h.withSvc h.svc

theorem State.shaped.flr0 (h : s.shaped) : s.flr0.shaped := by
  unfold State.flr0
  extract_lets s₁ s₂ s₃ s₄
  have h₁ : s₁.shaped := h.foldl .setGreg
  have h₂ : s₂.shaped := h₁.foldl .resetMailbox
  have h₃ : s₃.shaped := h₂.endSessions
  have h₄ : s₄.shaped := h₃.foldl .setGreg
  exact .resetFunction (h₄.withSec h₄.sec)

theorem State.shaped.flr1 (h : s.shaped) : s.flr1.shaped := h.resetMailbox.resetFunction.endSessions

theorem execPerstN_shaped (h : s.shaped) : endsShaped (execPerstN s) := .next (.emit (.setGreg (h.flr0.flr1.withPower h.flr0.flr1.dieTemp)))

theorem execPerstNDeassertion_shaped (h : s.shaped) : endsShaped (execPerstNDeassertion s) :=
  have risen {p : Power} (hp : p.dieTemp = s.power.dieTemp) := h.tick1.withPower (p := p) (hp ▸ h.dieTemp)
  .next (.ite (.setGreg (risen rfl)) (risen rfl))

end Sys2Proof.Machine
end

section
/-! SUPPORT. What keeps the sizes of the tables, of BAR0 and BAR2 (R5–R7, R62–R64, R343, R345, R347, R401,
R419). -/

namespace Sys2Proof.Machine

variable {x y : Core} {k : Ctx} {s t : State}

/-! ## Reads -/

theorem State.shaped.bar0Read {a : Nat} (h : s.shaped) : (s.bar0Read a).1.shaped := .ite h.settleAt.tick1.setGreg h.settleAt.tick1

theorem execShtFnLoRead_shaped (h : s.shaped) : endsShaped (execShtFnLoRead s) := by
  refine .next (.ite ?_ h)
  split
  next u w hr =>
    have hu : (s.bar0Read 0x40010).1.shaped := h.bar0Read
    rw [hr] at hu
    exact hu.emit

/-! ## Writes of the global area -/

theorem State.shaped.commitWrite {b : Block} {w : Word} (h : s.shaped) : (s.commitWrite b w).shaped :=
  .ite h.commitCancel (.ite h.commitGo h)

theorem State.shaped.shadowLocked {b : Block} (h : s.shaped) : (s.shadowLocked b).shaped := h.setBlkStatus

theorem State.shaped.globPut {a : Nat} {b : RegBlk} {w : Word} (h : s.shaped) : (s.globPut a b w).shaped := by
  unfold State.globPut
  extract_lets s₁ m
  have h₁ : s₁.shaped := h.setGreg
  refine .ite h₁ ?_
  split
  · exact h₁
  · exact .ite h₁.shadowLocked h₁.setGshadow

theorem State.shaped.ringDoorbells {w : Word} (h : s.shaped) : (s.ringDoorbells w).shaped :=
  .ite h (h.foldl fun hu => .ite hu.event hu)

theorem State.shaped.writeSeg {a : Nat} {b : RegBlk} {w : Word} (h : s.shaped) : (s.writeSeg a b w).shaped := by
  unfold State.writeSeg
  extract_lets old t₁ t₂ t₃
  have h₁ : t₁.shaped := h.globPut
  have h₃ : t₃.shaped := .tick1 (.ite h₁.setGf h₁)
  exact h₃.withHbm

theorem State.shaped.mboxDoorbell {n : Nat} (h : s.shaped) : (s.mboxDoorbell n).shaped :=
  .ite h.mboxBusy (.ite h (h.mbox fun hu => hu))

theorem State.shaped.writeBuffer {n o : Nat} {w : Word} (h : s.shaped) : (s.writeBuffer n o w).shaped :=
  .ite h (h.withSvc h.svc)

theorem State.shaped.globWrite {a : Nat} {w : Word} (h : s.shaped) : (s.globWrite a w).shaped := by
  unfold State.globWrite
  split
  · refine .ite h.writeBuffer (.ite h.mboxDoorbell ?_)
    split
    · exact h
    · exact h.globPut
  · split
    · exact h.writeKey
    · exact h.commitWrite
    · refine .ite h.raiseHtu (.ite h.testRequest (.ite h.ringDoorbells ?_))
      split
      · exact h
      · exact .ite h.writeSeg h.globPut

/-! ## Writes of a core's window -/

theorem Core.shaped.clearSat (h : x.shaped) : x.clearSat.shaped := h.foldl .setReg

theorem State.shaped.coreWrite {c : CoreId} {off : Nat} {w : Word} (h : s.shaped) : (s.coreWrite c off w).shaped := by
  unfold State.coreWrite
  extract_lets x
  have hx : x.shaped := h.core c
  refine .ite h.commitWrite (.ite (.ite (h.setCore hx.clearSat) h) ?_)
  split
  · exact h
  · exact .ite h (.ite (.ite (h.setCore hx.setRf) (h.setCore hx.setShadow))
      (.ite (h.setCore hx.setReg) (.ite (h.setCore hx.setReg).shadowLocked (h.setCore hx.setReg.setShadow))))

theorem State.shaped.bar0Write {a : Nat} {w : Word} (h : s.shaped) : (s.bar0Write a w).shaped := by
  unfold State.bar0Write
  refine .ite h.globWrite ?_
  split
  · exact h
  · exact .ite h (.ite h.holdRequest h.settleAt.coreWrite)

theorem State.shaped.regWrite {a : Nat} {w : Word} (h : s.shaped) : (s.regWrite a w).shaped := .ite h.bar0Write h

theorem State.shaped.pf1Write {a : Nat} {w : Word} (h : s.shaped) : (s.pf1Write a w).shaped :=
  .ite h.writeBuffer (.ite h.mboxDoorbell (.ite h.setGreg h))

theorem execRegisterWrite_shaped {a : RegAddr} {w : Word} (h : s.shaped) : endsShaped (execRegisterWrite a w s) :=
  .ite (.ite (.next h) (.ite .fault (.next h.pf1Write))) (.ite .fault (.next h.regWrite))

/-! ## The end of a slice -/

theorem State.shaped.serveHeld {c : CoreId} {r : Held} (h : s.shaped) : (s.serveHeld c r).shaped := by
  cases r with
  | access a w =>
    cases w with
    | some w => exact h.regWrite
    | none => exact h.bar0Read.emit
  | move m => exact h.hostMove
  | refetch line bad => exact h.refetchDone

theorem execSliceEnd_shaped {c : CoreId} (h : s.shaped) : endsShaped (execSliceEnd c s) := by
  refine .next ?_
  split
  · exact h
  · next v _ =>
    have ended : (s.sliceResult v).segmentDone c v.seg |>.shaped := h.sliceResult.segmentDone
    exact .foldl (.showSlicing (ended.withHtu ended.leaks)) .serveHeld

/-! ## BAR2 -/

theorem State.shaped.bar2Put {a : Nat} {b : Byte} (h : s.shaped) : (s.bar2Put a b).shaped := by
  unfold State.bar2Put
  split
  · exact h.hbmWrite
  · exact h.foldl .hbmWrite

theorem execBar2Access_shaped {o : BitVec 36} {l : Option (List Byte)} {n : Nat} {bad : Bool} (h : s.shaped) :
    endsShaped (execBar2Access o l n bad s) := by
  refine .next (.ite h ?_)
  split
  · refine h.tick1.foldl fun hu => ?_
    split
    · exact hu.bar2Put
    · exact hu
  · exact .ite h.tick1.emit h.tick1.emit

end Sys2Proof.Machine
end

section
/-! SUPPORT. What keeps the sizes of the tables, of the image load (R295, R296, R412) and of Safelight and
Loupe (R415–R417, R430, R431, R457, R458). -/

namespace Sys2Proof.Machine

variable {x y : Core} {k : Ctx} {s t : State}

/-! ## The load of an image -/

theorem execLoad_shaped {hd : MboxHdr} {i : ImageSource} (h : s.shaped) : endsShaped (execLoad hd i s) := by
  refine .next (h.mbox fun {u} hu => .ite hu ?_)
  split
  · exact hu
  · exact .ite hu (.waits (.setGf (hu.withLoading (l := _))))

/-- A core with new work. -/
theorem Core.shaped.withWork {l : List SchedEntry} {r : List Region} {f : Frame} {q : Seq} {ls : List FrameStart} {w b : Nat} {e : Te}
    {fs : List (Option FactorSet)} {fl : List (BitVec 4 × Word)} {fm : List Nat} {en : List (Nat × Nat × Bool)} {n : Nat}
    (h : x.shaped) (hq : q.fits) (he : e.owners.length = 16) (hfs : fs.length = 16) (hfm : fm.length = 16) :
    ({ x with
      sched := l, regions := r, frame := f, seq := q, lateStarts := ls, workEnd := w, behind := b, te := e, factors := fs, filter := fl
      filtMax := fm, entering := en, nextId := n } : Core).shaped :=
  ⟨hq.1, hq.2.1, hq.2.2, he, h.rowSets, hfs, hfm, h.dma, h.unitFree, h.numAt, h.integ⟩

/-- The module with another image: its tables are as they were. -/
theorem State.shaped.withNewImage {i : Option Image} {a : Bool} {n e : Nat} {b : Bool} {c : Collectives} {rf : Bool}
    {r : Option Nat} {cs : List (Nat × Nat)} {ia : Option (Word × Nat)} (h : s.shaped) :
    ({ s with
      image := i, shutter := { s.shutter with started := a, ringPos := n, stopNext := b }, coll := c
      svc := { s.svc with restoreFailed := rf, restored := r, cursors := cs, ingestAt := ia, ckptAt := e } } : State).shaped := h

theorem Core.shaped.installRegs {c : CoreImg} (h : x.shaped) : (c.installRegs x).shaped := by
  unfold CoreImg.installRegs
  extract_lets x₁ x₂
  have h₁ : x₁.shaped := h.foldl fun hz => hz.setReg.setShadow
  have h₂ : x₂.shaped := h₁.foldl .setRf
  exact .foldl h₂.setReg .setReg

theorem Core.shaped.installScale {c : CoreImg} (h : x.shaped) : (c.installScale x).shaped := by
  unfold CoreImg.installScale
  refine .foldl ?_ fun hz => hz.setLatch.setReg
  split
  · exact h.store
  · exact h

theorem Core.shaped.installMem {c : CoreImg} (h : x.shaped) : (c.installMem x).shaped := by
  unfold CoreImg.installMem
  extract_lets x₁ x₂ x₃
  have h₁ : x₁.shaped := h.store.installScale
  have h₂ : x₂.shaped := h₁.foldl fun hz => hz.store.setReg
  have h₃ : x₃.shaped := h₂.foldl .store
  exact h₃.store

theorem Core.shaped.installUe {f : ImgFile} {seed : Nat} (h : x.shaped) : (f.installUe seed x).shaped := by
  unfold ImgFile.installUe
  extract_lets g x₁ x₂ x₃ base
  have h₃ : x₃.shaped := .foldl h.setReg.setReg.setReg.setReg .setReg
  have based : ∀ {z o a}, z.shaped → (base z o a).shaped := fun hz => hz.setReg.setReg
  exact (based (based h₃)).setReg.setReg

theorem Core.shaped.install {f : ImgFile} {seed : Nat} {c : CoreImg} (h : x.shaped) : (f.install seed c x).shaped := by
  unfold ImgFile.install
  extract_lets x₁
  have h₁ : x₁.shaped := h.installRegs.installMem.installUe
  clear_value x₁
  exact h₁.withWork Seq.fits.reset h₁.owners List.length_replicate ((List.length_map _).trans List.length_range)

theorem State.shaped.loadEnds {hd : MboxHdr} {code : Half} (h : s.shaped) : (s.loadEnds hd code).shaped := h.vector.finish

theorem State.shaped.loadRefused {hd : MboxHdr} {r : Refused} (h : s.shaped) : (s.loadRefused hd r).shaped :=
  .loadEnds (State.shaped.withImage h.setGreg.setGreg.setGreg)

theorem State.shaped.rekeyHbm (h : s.shaped) : s.rekeyHbm.shaped := by
  exact h.tick1.withHbm

theorem State.shaped.keyHbm {conf : Bool} (h : s.shaped) : (s.keyHbm conf).shaped :=
  have keyed := State.shaped.ite h h.rekeyHbm
  keyed.withSec keyed.sec

theorem State.shaped.showImage {hd : ImgHead} (h : s.shaped) : (s.showImage hd).shaped := .setGreg (h.foldl .setGreg)

theorem State.shaped.loadAccepted {hd : MboxHdr} {b : List Byte} {f : ImgFile} (h : s.shaped) :
    (s.loadAccepted hd b f).shaped := by
  unfold State.loadAccepted
  extract_lets ctr seed s₁ s₂ s₃ s₄ s₅ s₆ _ _ s₇ s₈
  have h₁ : s₁.shaped := h.tick1.keyHbm
  have h₂ : s₂.shaped := by
    refine h₁.mapCores fun hx => ?_
    split
    · exact Core.shaped.install hx
    · exact hx
  have h₃ : s₃.shaped := h₂.foldl .hbmWrite
  have h₄ : s₄.shaped := h₃.foldl .setGreg
  have h₆ : s₆.shaped := h₄.showImage.extendMr
  have h₇ : s₇.shaped := h₆.withNewImage
  have h₈ : s₈.shaped := h₇.setGf.setGf.setGf.setGreg
  exact h₈.setGreg.loadEnds

theorem execLoadFinished_shaped (h : s.shaped) : endsShaped (execLoadFinished s) := by
  refine .next ?_
  split
  · exact h
  · extract_lets s₁
    have h₁ : s₁.shaped := h.withLoading
    split
    · exact h₁.loadRefused
    · exact h₁.loadAccepted

/-! ## Safelight -/

theorem State.shaped.slReply {l : List Byte} (h : s.shaped) : (s.slReply l).shaped := h.emit

theorem execFirmwareUpdate_shaped {w : Word} {b : FirmwareBundle} (h : s.shaped) : endsShaped (execFirmwareUpdate w b s) :=
  .next (.ite h (h.pldm fun hu => hu.withMgmt))

theorem execPldmSensorRead_shaped {n : Half} (h : s.shaped) : endsShaped (execPldmSensorRead n s) := by
  refine .next (.ite ?_ h)
  extract_lets -underBinder u
  split
  · exact h.tick1.emit
  · exact .slReply (h.tick1.withPower h.dieTemp)

theorem State.shaped.spdm {b : Bool} {l : List Byte} (h : s.shaped) : (s.spdm b l).shaped := .slReply h.withMgmt

theorem State.shaped.spdmError {b : Byte} (h : s.shaped) : (s.spdmError b).shaped := h.slReply

theorem execChallenge_shaped {n : Byte} {l : List Byte} (h : s.shaped) : endsShaped (execChallenge n l s) :=
  .next (.ite h (.ite h.spdmError h.tick1.spdm))

theorem execGetMeasurements_shaped {n : Byte} {b : Bool} {l : List Byte} (h : s.shaped) :
    endsShaped (execGetMeasurements n b l s) :=
  .next (.ite h (.ite h.spdmError h.tick1.spdm))

/-! ## Loupe -/

theorem State.shaped.loupeSays {code : Half} {l : List Byte} (h : s.shaped) : (s.loupeSays code l).shaped := h.emit

theorem State.shaped.loupe {f : State → State} (h : s.shaped) (hf : ∀ {u}, u.shaped → (f u).shaped) :
    (s.loupe f).shaped := by
  unfold State.loupe
  refine .ite (hf ?_) h
  split
  · exact .ite h.endSessions h.useSession
  · exact h

theorem execAuthChal_shaped (h : s.shaped) : endsShaped (execAuthChal s) :=
  .next (h.loupe fun hu => .ite hu.loupeSays hu.challenge.loupeSays)

theorem execAuthOpen_shaped {w : Word} {l : List Byte} (h : s.shaped) : endsShaped (execAuthOpen w l s) := by
  refine .next (h.loupe fun {u} hu => .ite hu.audit.loupeSays ?_)
  have opened : (u.openSession 0x12 2 w l).1.shaped := hu.openSession
  generalize u.openSession 0x12 2 w l = o at opened
  exact .loupeSays (.audit (.ite opened.withMgmt opened))

theorem State.shaped.loupeGuarded {n : Nat} {l : List Byte} {ok : Half} {f : State → State} (h : s.shaped)
    (hf : ∀ {u}, u.shaped → (f u).shaped) : (s.loupeGuarded n l ok f).shaped :=
  .ite h.audit.loupeSays (.ite h.tick1.setGf.loupeSays (.ite h.audit.loupeSays (hf h.audit)))

theorem State.shaped.peekWord {a : Nat} (h : s.shaped) : (s.peekWord a).1.shaped := by
  unfold State.peekWord
  split
  · exact .iteFst h.holdRequest h.bar0Read
  · exact h.bar0Read

theorem State.shaped.foldlFst {α β : Type} {f : State × β → α → State × β} {l : List α} {b : β} (h : s.shaped)
    (hf : ∀ {r a}, r.1.shaped → (f r a).1.shaped) : (l.foldl f (s, b)).1.shaped :=
  List.foldlRecOn (motive := fun r : State × β => r.1.shaped) l f h fun _ hr _ _ => hf hr

theorem execPeek_shaped {a : BitVec 28} {n : Nat} (h : s.shaped) : endsShaped (execPeek a n s) := by
  refine .next (h.loupe fun hu => hu.loupeGuarded fun hv => ?_)
  exact .loupeSays (hv.foldlFst .peekWord)

theorem execPoke_shaped {a : BitVec 28} {w : Word} (h : s.shaped) : endsShaped (execPoke a w s) :=
  .ite .fault (.next (h.loupe fun hu => hu.loupeGuarded fun hv => hv.regWrite.loupeSays))

theorem execBaud_shaped {n : Nat} (h : s.shaped) : endsShaped (execBaud n s) :=
  .next (h.loupe fun hu => .ite (.loupeSays hu.withMgmt) hu.loupeSays)

theorem execLogout_shaped (h : s.shaped) : endsShaped (execLogout s) := by
  refine .next (h.loupe fun hu => ?_)
  split
  · exact hu.loupeSays
  · exact .loupeSays (State.shaped.withMgmt hu.tick1.audit.endSessions)

theorem execLoupeIdleTimeout_shaped (h : s.shaped) : endsShaped (execLoupeIdleTimeout s) := by
  refine .next ?_
  split
  · exact h
  · exact .ite h.endSessions h

end Sys2Proof.Machine
end

section
/-! Every step keeps the sizes of the tables and the order of the results on their way (R42, R64, R8's list of
commands): the one proof per command, put together. -/

namespace Sys2Proof.Machine

variable {s : State}

/-- A command's effect, whichever it is, leaves a shaped state. -/
theorem exec_shaped (i : Instr) (h : s.shaped) : endsShaped (exec i s) := by
  cases i with
  | shutterTick => exact .next h.tick.shutdownOn
  | guardBand late =>
    refine .next ?_
    split
    · exact .ite h.guardBand h
    · exact h.guardLate
  | commitApply => exact .next h.commitTick
  | powerClassChange => exact .next (.ite (.meter h.atCycle.setClass) h)
  | globalStepAdvance => exact .next h.stepAdvance
  | predictorEnabledSet => exact .next (h.setCore (h.core _).predictorSet)
  | derateAtTick => exact .next h.derateTick
  | jobStart => exact .next h.jobStart
  | linkPlanCheck => exact execLinkPlanCheck_shaped h
  | rosterEpochSwitch => exact .next h.rosterSwitch
  | tickFlit => exact execTickFlit_shaped h
  | upstreamTickFlit => exact execUpstreamTickFlit_shaped h
  | tickInEdge => exact .next (.ite h.symbol h)
  | lockTimeout | tickSyncLost => exact .next (.ite h.syncLost h)
  | echoMeasurement => exact execEchoMeasurement_shaped h
  | echo => exact execEcho_shaped h
  | shtCommitGo | shtCommitCancel | shtKeyWrite | coreCommitGo | coreCommitCancel | lnkCommitGo | lnkCommitCancel
  | lnkKeyWrite | cpmCommitGo | cpmCommitCancel | cpmKeyWrite | hifDbkeyWrite | hifDoorbellWrite | htuTkeyWrite
  | satcntClr => exact .next h.regWrite
  | shtFnLoRead => exact execShtFnLoRead_shaped h
  | registerWrite => exact execRegisterWrite_shaped h
  | end_ => exact .next (h.issue .endFrame)
  | loopi => exact .next (h.issueSq .loop)
  | loopr => exact .next (h.issueSq .loopR)
  | waitx => exact .next (h.issue .waitX)
  | waitxRelease => exact execWaitxRelease_shaped h
  | commit => exact .next (h.issueSq .commitCarry)
  | sqStop => exact .next (h.issueSq .stop)
  | signal => exact .next (h.issueSq .post)
  | scarry => exact .next (h.issueSq .carry)
  | dovr => exact .next (h.issueSq .setOverride)
  | sld | sst => exact .next (h.issue fun hx => .useCache hx.cacheBusy)
  | movlc | movfn | lil | lih | add | sub | mul | and | or | xor | shl | shr | sra | min | max | minu | maxu | addi
  | andi | ori | xori | shli | shri | srai => exact .next (h.issueSq .scalar)
  | pcmp | pcmpi | plog => exact .next (h.issueSq .predicate)
  | dmaStart | dmaStartOvr => exact .next (h.issueWith .startDma)
  | dmaComplete => exact execDmaComplete_shaped h
  | crcIfetchTrap => exact execCrcIfetchTrap_shaped h
  | instructionComplete => exact execInstructionComplete_shaped h
  | tload => exact .next (h.issue .tload)
  | tmul => exact .next (h.issue .product)
  | tmulr => exact .next (h.issue .product)
  | tprint => exact .next (h.issue .tprint)
  | vadd | vsub | vmul | vfma | vmin | vmax | vabs | vneg | vrcp | vrsq | vexp2 | vlog2 | vshl | vshr | vsra | vand
  | vor | vxor | vnot | vpopc | vcvti | vcvtf => exact .next (h.issue .vArith)
  | vmov => exact .next (h.issue .vMov)
  | vdiv | vsqrt => exact .next (h.issue fun hx => hx.vArith.holdDivide)
  | vcmp => exact .next (h.issue .vCmp)
  | vmlog | vmlane | vmsr => exact .next (h.issue .vMask)
  | vspl => exact .next (h.issue .vSpl)
  | vscl => exact .next (h.issue .vScl)
  | vcvtw => exact .next (h.issue .vCvtW)
  | vcvtn => exact .next (h.issue .vCvtN)
  | vacc => exact .next (h.issue .vAcc)
  | vred => exact .next (h.issue .vRed)
  | vrax => exact .next (h.issue .vRax)
  | vld | vst => exact .next (h.issue .vBlock)
  | vldv | vstv => exact .next (h.issue .vVector)
  | xeCopy | xeTranspose | xeGather | xeScatter | xeScatterAdd => exact .next (h.issue .xrun)
  | uupd => exact .next (h.issue .uupd)
  | urow => exact .next (h.issue .urow)
  | ugfac => exact .next (h.issue .ugfac)
  | ufilt => exact .next (h.issue .ufilt)
  | uflist => exact .next (h.issue .uflist)
  | uadv => exact .next (h.issue .uadv)
  | mdodge | mburn | mrefresh => exact .next (h.issue .meEdit)
  | mscore => exact .next (h.issue .mscore)
  | msload => exact .next (h.issue .msload)
  | msstore => exact .next (h.issue .msstore)
  | mremap => exact .next (h.issue .mremap)
  | ppred => exact .next (h.issue .ppred)
  | pctl => exact .next (h.issue .pctl)
  | dataFlit | tagFlit => exact .next h.receiveFlit
  | ack => exact execAck_shaped h
  | nak => exact execNak_shaped h
  | ackTimer => exact execAckTimer_shaped h
  | keyFlit => exact execKeyFlit_shaped h
  | linkTraining => exact execLinkTraining_shaped h
  | handshakeTimeout => exact execHandshakeTimeout_shaped h
  | keyGeneration => exact execKeyGeneration_shaped h
  | send => exact execSend_shaped h
  | startRecord => exact execStartRecord_shaped h
  | cdata => exact execCdata_shaped h
  | collectiveComplete => exact execCollectiveComplete_shaped h
  | greq => exact execGreq_shaped h
  | gdata => exact execGdata_shaped h
  | announce => exact execAnnounce_shaped h
  | staged => exact execStaged_shaped h
  | refused => exact execRefused_shaped h
  | cancel => exact execCancel_shaped h
  | rosterStart | fix => exact .next h.takeProposal.answerStaged
  | freeze => exact execFreeze_shaped h
  | stagedDeadline => exact execStagedDeadline_shaped h
  | load => exact execLoad_shaped h
  | loadFinished => exact execLoadFinished_shaped h
  | start => exact execStart_shaped h
  | stop => exact execStop_shaped h
  | restore => exact execRestore_shaped h
  | checkpoint => exact execCheckpoint_shaped h
  | checkpointInterval => exact execCheckpointInterval_shaped h
  | checkpointChunk => exact .next h.checkpointChunk
  | checkpointSeal => exact .next h.checkpointSeal
  | setInterval => exact execSetInterval_shaped h
  | ingestOpen => exact execIngestOpen_shaped h
  | ingestClose => exact execIngestClose_shaped h
  | ingestRecord => exact execIngestRecord_shaped h
  | batchReady => exact execBatchReady_shaped h
  | ingestStall => exact execIngestStall_shaped h
  | nvmeAttach => exact execNvmeAttach_shaped h
  | nvmeDetach => exact execNvmeDetach_shaped h
  | nvmeCompletion => exact execNvmeCompletion_shaped h
  | nvmeTimeout => exact execNvmeTimeout_shaped h
  | hostDmaComplete => exact execHostDmaComplete_shaped h
  | notifyRing => exact execNotifyRing_shaped h
  | serveOpen => exact execServeOpen_shaped h
  | serveClose => exact execServeClose_shaped h
  | serveRequest => exact execServeRequest_shaped h
  | kvRead => exact execKvRead_shaped h
  | publish => exact execPublish_shaped h
  | rosterChange => exact execRosterChange_shaped h
  | healthRead => exact execHealthRead_shaped h
  | sessionChallenge => exact execSessionChallenge_shaped h
  | sessionOpen => exact execSessionOpen_shaped h
  | sessionClose => exact execSessionClose_shaped h
  | sessionIdleTimeout => exact execSessionIdleTimeout_shaped h
  | roleLockExpiry => exact execRoleLockExpiry_shaped h
  | jobKey => exact execJobKey_shaped h
  | jobKeyClear => exact execJobKeyClear_shaped h
  | credSet => exact execCredSet_shaped h
  | memberKeys => exact execMemberKeys_shaped h
  | signerSet => exact execSignerSet_shaped h
  | lifecycle => exact execLifecycle_shaped h
  | auditRead => exact execAuditRead_shaped h
  | unitFence => exact execUnitFence_shaped h
  | unitUnfence => exact execUnitUnfence_shaped h
  | bar2Access => exact execBar2Access_shaped h
  | contactSheetRingWrite => exact execContactSheetRingWrite_shaped h
  | patrolRead => exact execPatrolRead_shaped h
  | refetchComplete => exact execRefetchComplete_shaped h
  | missEntryExpiry => exact execMissEntryExpiry_shaped h
  | bucketLeak => exact .next h.leakBucket
  | inServiceSlice => exact execInServiceSlice_shaped h
  | sliceEnd => exact execSliceEnd_shaped h
  | coverageExpired => exact execCoverageExpired_shaped h
  | canaryMeasurement => exact execCanaryMeasurement_shaped h
  | testRequestInService | testRequestFull => exact .next h.testVia
  | fullTestStart => exact execFullTestStart_shaped h
  | testDone => exact execTestDone_shaped h
  | coldStart => exact .next h.coldStart
  | startupReady => exact execStartupReady_shaped h
  | moduleReset => exact execModuleReset_shaped h
  | rstNRelease => exact execRstNRelease_shaped h
  | perstN => exact execPerstN_shaped h
  | flrPf0 => exact .next h.flr0
  | flrPf1 => exact .next h.flr1
  | inputLow => exact execInputLow_shaped h
  | inputRecovered => exact execInputRecovered_shaped h
  | inputPowerFail => exact execInputPowerFail_shaped h
  | inputOvervoltage => exact execInputOvervoltage_shaped h
  | dieOverTemperature => exact execDieOverTemperature_shaped h
  | dieTempStep => exact execDieTempStep_shaped h
  | coolantInletHigh => exact execCoolantInletHigh_shaped h
  | thermalForceLift => exact execThermalForceLift_shaped h
  | thermalTrip => exact execThermalTrip_shaped h
  | refclkLost => exact execRefclkLost_shaped h
  | refclkTimeout => exact execRefclkTimeout_shaped h
  | refclkReturn => exact execRefclkReturn_shaped h
  | modulePowerOff => exact execModulePowerOff_shaped h
  | shutdownStageLimit => exact execShutdownStageLimit_shaped h
  | modulePowerOn => exact execModulePowerOn_shaped h
  | moduleResetRequest => exact execModuleResetRequest_shaped h
  | firmwareUpdate => exact execFirmwareUpdate_shaped h
  | setDateTime => exact .next (.ite (.slReply h.withMgmt) h)
  | pldmSensorRead => exact execPldmSensorRead_shaped h
  | pldmFruRead => exact .next (.ite h.slReply h)
  | entdaa => exact .next (.ite h h.withMgmt)
  | getVersion | negotiateAlgorithms | getDigests => exact .next (.ite h.spdm h)
  | getCapabilities => exact .next (.ite h.tick1.spdm h)
  | getCertificate => exact .next (.ite h (.ite h.spdmError h.spdm))
  | challenge => exact execChallenge_shaped h
  | getMeasurements => exact execGetMeasurements_shaped h
  | help | id | health | log => exact .next (h.loupe .loupeSays)
  | status | sensors => exact .next (h.loupe fun hu => hu.tick1.loupeSays)
  | authChal => exact execAuthChal_shaped h
  | authOpen => exact execAuthOpen_shaped h
  | peek => exact execPeek_shaped h
  | poke => exact execPoke_shaped h
  | baud => exact execBaud_shaped h
  | logout => exact execLogout_shaped h
  | loupeIdleTimeout => exact execLoupeIdleTimeout_shaped h
  | perstNDeassertion => exact execPerstNDeassertion_shaped h
  | onDieErrorCheckAndScrub | pcieReplay => exact .next h.chipCorrected
  | fecCodeword => exact execFecCodeword_shaped h
  | remapRecordWrite => exact execRemapRecordWrite_shaped h
  | ageingRecordWrite => exact .next (.ite h.writeAgeing h)

/-- Settles O5: the command at the front of the queue runs on the state with the queue's rest (`step`), whose tables are those of
the state, and each command keeps their sizes and the order of the results on their way (`exec_shaped`). -/
theorem stepKeepsShape : Obligations.StepKeepsShape := by
  intro s t h hstep
  cases hp : s.pending with
  | nil =>
    have hs : s = t := by simpa [step, hp] using hstep
    exact hs ▸ h
  | cons i rest =>
    have run : exec i { s with pending := rest } = .next t := by simpa [step, hp] using hstep
    exact exec_shaped i h.withPending t run

end Sys2Proof.Machine
end


section
/-! SUPPORT. The issue of an instruction, suppressed or not (R223–R225): what it leaves of the module, and the core that an instruction of
the sequencer's own leaves. -/

namespace Sys2Proof.Machine

variable {x y z : Core} {k : Ctx} {s t : State} {a : Site} {i : Instr} {cyc : Nat}

/-! ## What an issue leaves of the module -/

theorem State.takeReport_ports (c : CoreId) (s : State) (r : Nat × Half) : (State.takeReport c s r).ports = s.ports := by
  have noted : ∀ (u : State) n code, (u.noteUnit n code).ports = u.ports := by
    intro u n code
    simp only [State.noteUnit, State.setHealth, State.alertFor]
    split <;> rfl
  unfold State.takeReport
  dsimp only
  split
  · rfl
  · split
    · exact noted _ _ _
    · exact noted _ _ _

theorem State.meter_ports (s : State) (n : Nat) : (s.meter n).ports = s.ports := by
  simp only [State.meter]
  split
  · split <;> rfl
  · rfl

theorem State.drainReports_ports (s : State) (c : CoreId) : (s.drainReports c).ports = s.ports :=
  foldl_keeps (g := State.ports) (fun u r _ => State.takeReport_ports c u r) _

/-- An instruction that reaches its issue leaves of the module all but its core and the token meter. -/
theorem State.reaches.othersKept (h : s.reaches a i cyc) (f : Ctx → Core → At → Core) : s.othersKept (s.issue a i f) a.core := by
  obtain ⟨hc, hd, -, -, hl⟩ := h
  rw [State.issue, State.issueWith_eq _ hc hd hl]
  obtain ⟨-, hcores, hhbm, -, hglob⟩ := State.perform_spec s a i cyc f
  refine ⟨hcores, hhbm, ?_, hglob⟩
  unfold State.perform
  dsimp only
  rw [State.meter_ports, State.drainReports_ports]
  simp

/-- An instruction that cannot issue changes nothing. -/
theorem State.issue_of_none (h : (s.core a.core).issueCycle a i = none) (f : Ctx → Core → At → Core) : s.issue a i f = s := by
  rw [State.issue, State.issueWith, h]

/-! ## The core it leaves -/

/-- What a sequencer shows of itself that results in place change alike, and that results on their way do not tell. -/
structure Seq.Shows (r : Seq → Seq → Prop) : Prop where
  refl : ∀ q, r q q
  put : ∀ {p q} d v, r p q → r (p.put d v) (q.put d v)
  coming : ∀ {p q} l m, r p q → r { p with coming := l } { q with coming := m }

theorem Seq.Shows.foldl {r : Seq → Seq → Prop} (h : Seq.Shows r) (l : List SeqWrite) {p q : Seq} (hr : r p q) :
    r (l.foldl (fun q w => q.put w.dst w.val) p) (l.foldl (fun q w => q.put w.dst w.val) q) := by
  induction l generalizing p q with
  | nil => exact hr
  | cons w l ih => exact ih (h.put _ _ hr)

/-- It is told at a cycle by what shows now and by the results on their way. -/
theorem Seq.Shows.settle {r : Seq → Seq → Prop} (h : Seq.Shows r) {p q : Seq} (hr : r p q) (hc : p.coming = q.coming) (n : Nat) :
    r (p.settle n) (q.settle n) := by
  unfold Seq.settle
  rw [hc]
  exact h.foldl _ (h.coming _ _ hr)

theorem Seq.shows_preds : Seq.Shows fun p q => p.preds = q.preds where
  refl _ := rfl
  put d v h := by
    cases d with
    | sreg r => by_cases hr : r = 0#5 <;> simp [Seq.put, hr, h]
    | pred r => by_cases hr : r = 0#3 <;> simp [Seq.put, hr, h]
    | ovr ch r => exact h
  coming _ _ h := h

theorem Seq.shows_ovr : Seq.Shows fun p q => p.ovr = q.ovr where
  refl _ := rfl
  put d v h := by
    cases d with
    | sreg r => by_cases hr : r = 0#5 <;> simp [Seq.put, hr, h]
    | pred r => by_cases hr : r = 0#3 <;> simp [Seq.put, hr, h]
    | ovr ch r => simp [Seq.put, h]
  coming _ _ h := h

theorem Core.pred_congr (hp : y.seq.preds = x.seq.preds) (hc : y.seq.coming = x.seq.coming) (k : Ctx) (p : BitVec 3) :
    y.pred k p = x.pred k p := by
  rw [Core.pred, Core.pred, Seq.shows_preds.settle hp hc]

theorem Core.atBundle.override (h : x.atBundle y) (k : Ctx) (ch : BitVec 2) (r : Bool) : y.override k ch r = x.override k ch r := by
  rw [Core.override, Core.override, Seq.shows_ovr.settle h.ovr h.coming]

/-- The sequencer's arrival at a bundle changes of its values the loops and their counters alone. -/
theorem State.arrived_seq (s : State) (a : Site) (i : Instr) (n : Nat) :
    (s.arrived a i n).seq.preds = (s.core a.core).seq.preds ∧ (s.arrived a i n).seq.words = (s.core a.core).seq.words ∧
      (s.arrived a i n).seq.waiting = (s.core a.core).seq.waiting ∧ (s.arrived a i n).seq.spre = (s.core a.core).seq.spre := by
  cases h : (s.core a.core).sameIssue a.bundle (slotNo i) with
  | true =>
    rw [State.arrived, Core.arrive, if_pos h]
    exact ⟨rfl, rfl, rfl, rfl⟩
  | false =>
    obtain ⟨ls, lc, hy⟩ := Core.arrive_moves (s.ctxAt a.core n) h
    rw [State.arrived, hy]
    exact ⟨rfl, rfl, rfl, rfl⟩

/-- It changes nothing else of its core but BUNDLE. -/
theorem State.arrived_keptBut (s : State) (a : Site) (i : Instr) (n : Nat) :
    (s.core a.core).keptBut (s.arrived a i n) [0x2004] := by
  have hreg : ∀ r, r ∉ [0x2004] → (s.arrived a i n).reg r = (s.core a.core).reg r :=
    fun r hr => (s.atBundle_arrived a i n).reg r (by simpa using hr)
  cases h : (s.core a.core).sameIssue a.bundle (slotNo i) with
  | true =>
    rw [State.arrived, Core.arrive, if_pos h] at hreg ⊢
    exact ⟨rfl, rfl, rfl, rfl, rfl, rfl, rfl, rfl, rfl, rfl, rfl, rfl, hreg⟩
  | false =>
    obtain ⟨ls, lc, hy⟩ := Core.arrive_moves (s.ctxAt a.core n) h
    rw [State.arrived, hy] at hreg ⊢
    exact ⟨rfl, rfl, rfl, rfl, rfl, rfl, rfl, rfl, rfl, rfl, rfl, rfl, hreg⟩

/-- A frame that has not retired is not opened again. -/
theorem State.reaches.reopen (h : s.reaches a i cyc) : (s.core a.core).reopen a.bundle (slotNo i) = s.core a.core := by
  obtain ⟨-, -, -, hret, -⟩ := h
  rw [Core.reopen, hret]
  simp

/-- The core that an instruction leaves that reaches its issue: its effect on the core it finds, at the ports, and the retirement of a
frame that ends with it. -/
theorem State.reaches.core (h : s.reaches a i cyc) (f : Ctx → Core → At → Core) :
    let k := s.ctxAt a.core cyc
    let w := (f k (s.arrived a i cyc) ⟨a.core, a.bundle, s.suppresses a i cyc⟩).joinPorts i (s.core a.core).inflight.length
    (s.issue a i f).core a.core = (if decide (slotNo i ≠ 0) || w.seq.stopped then w.checkRetire k else w).drained := by
  intro k w
  have hopen := h.reopen
  obtain ⟨hc, hd, -, -, hl⟩ := h
  rw [State.issue, State.issueWith_eq _ hc hd hl, (State.perform_spec s a i cyc f).1]
  change Core.performed k a i f (s.core a.core) = _
  unfold Core.performed
  rw [hopen]
  rfl

theorem channelOf_of_slot0 (h : slotNo i = 0) : channelOf i = none := by
  cases hc : channelOf i with
  | none => rfl
  | some n =>
    exfalso
    unfold slotNo at h
    rw [hc] at h
    split at h <;> cases h

/-- What takes a port may make the descriptors of the channels wait there, and changes nothing else of them. -/
theorem Core.crowd_dma (x : Core) (ps : List PortUse) : (x.crowd ps).dma.map DmaCh.settled = x.dma.map DmaCh.settled := by
  simp only [Core.crowd, List.map_map]
  refine List.map_congr_left fun q _ => ?_
  simp only [Function.comp, DmaCh.settled, List.map_map]
  congr 1
  refine List.map_congr_left fun o _ => ?_
  simp only [Function.comp]
  split <;> rfl

/-- Taking its ports, an instruction that puts nothing in flight changes only that others wait there. -/
theorem Core.joinPorts_keptBut (hi : channelOf i = none) : x.keptBut (x.joinPorts i x.inflight.length) [] := by
  have hj : x.joinPorts i x.inflight.length = x.crowd (x.portsOf i) := by
    unfold Core.joinPorts
    rw [hi]
    simp [Core.crowd, Core.contends, Core.bankOwner]
  rw [hj]
  refine ⟨rfl, rfl, rfl, rfl, rfl, rfl, rfl, x.crowd_dma _, ?_, rfl, rfl, rfl, fun _ _ => rfl⟩
  rw [Core.crowd, List.map_map]
  exact List.map_congr_left fun o _ => x.settled_meeting _ o

/-- The core that an instruction of the sequencer's own leaves that does not stop it. -/
theorem State.reaches.core_slot0 (h : s.reaches a i cyc) (hi : slotNo i = 0) {f : Ctx → Core → At → Core}
    (hz : f (s.ctxAt a.core cyc) (s.arrived a i cyc) ⟨a.core, a.bundle, s.suppresses a i cyc⟩ = z) (hst : z.seq.stopped = false) :
    (s.issue a i f).core a.core = (z.joinPorts i (s.core a.core).inflight.length).drained := by
  have hgo : (z.joinPorts i (s.core a.core).inflight.length).seq.stopped = false := by
    obtain ⟨-, hseq, -⟩ := z.joinPorts_keeps i (s.core a.core).inflight.length
    rw [hseq, hst]
  rw [h.core f, hz, hi, hgo]
  rfl

/-- Core `y` has the memory, registers, shadows, sequencer and frame of `z`. -/
def Core.leftAs (z y : Core) : Prop :=
  y.mem = z.mem ∧ y.regs = z.regs ∧ y.shadow = z.shadow ∧ y.seq = z.seq ∧ y.frame = z.frame

/-- What an instruction of the sequencer's own gives that does not stop it: its effect on the core it finds. -/
theorem State.reaches.gives_slot0 (h : s.reaches a i cyc) (hi : slotNo i = 0) {f : Ctx → Core → At → Core} (z : Core)
    (hx : exec i s = .next (s.issue a i f))
    (hz : f (s.ctxAt a.core cyc) (s.arrived a i cyc) ⟨a.core, a.bundle, s.suppresses a i cyc⟩ = z) (hst : z.seq.stopped = false)
    {p : State → Prop} (hp : ∀ t, z.leftAs (t.core a.core) → p t) : s.gives i p := by
  obtain ⟨hframe, hseq, hregs⟩ := z.joinPorts_keeps i (s.core a.core).inflight.length
  obtain ⟨-, hmem⟩ := z.joinPorts_engines i (s.core a.core).inflight.length
  refine ⟨_, hx, hp _ ?_⟩
  rw [h.core_slot0 hi hz hst]
  exact ⟨hmem, hregs, z.joinPorts_shadow i _, hseq, hframe⟩

end Sys2Proof.Machine
end

section
/-! SUPPORT. The scalar and predicate instructions of the sequencer (R228–R231): each gives one register its result after its latency. -/

namespace Sys2Proof.Machine

variable {x y z : Core} {k : Ctx} {s t : State} {a : Site} {i : Instr} {cyc : Nat} {d : SeqDst} {v : Ctx → Core → Word}
  {lat : Ctx → Nat}

theorem Core.keptBut.trans {l : List Nat} (h : x.keptBut y l) (h' : y.keptBut z []) : x.keptBut z l := by
  obtain ⟨h1, h2, h3, h4, h5, h6, h7, h8, h9, h10, h11, h12, h13⟩ := h
  obtain ⟨h1', h2', h3', h4', h5', h6', h7', h8', h9', h10', h11', h12', h13'⟩ := h'
  exact ⟨h1'.trans h1, h2'.trans h2, h3'.trans h3, h4'.trans h4, h5'.trans h5, h6'.trans h6, h7'.trans h7, h8'.trans h8, h9'.trans h9,
    h10'.trans h10, h11'.trans h11, h12'.trans h12, fun r hr => (h13' r (by simp)).trans (h13 r hr)⟩

/-! ## Results in place -/

/-- Putting results in place changes the registers that results are for, and nothing else of the sequencer. -/
theorem Seq.foldl_put_values (l : List SeqWrite) (q : Seq) :
    ∃ s p o, l.foldl (fun q w => q.put w.dst w.val) q = { q with sregs := s, preds := p, ovr := o } := by
  induction l generalizing q with
  | nil => exact ⟨_, _, _, rfl⟩
  | cons w l ih =>
    have one : ∃ s p o, q.put w.dst w.val = { q with sregs := s, preds := p, ovr := o } := by
      unfold Seq.put
      split
      · split <;> exact ⟨_, _, _, rfl⟩
      · split <;> exact ⟨_, _, _, rfl⟩
      · exact ⟨_, _, _, rfl⟩
    obtain ⟨_, _, _, hw⟩ := one
    obtain ⟨_, _, _, hl⟩ := ih (q.put w.dst w.val)
    exact ⟨_, _, _, by rw [List.foldl_cons, hl, hw]⟩

theorem Seq.settle_values (q : Seq) (n : Nat) : ∃ s p o, q.settle n = { q with
    sregs := s, preds := p, ovr := o, coming := q.coming.filter fun w => decide (n < w.due) } :=
  Seq.foldl_put_values _ _

theorem Seq.put_pred_self (q : Seq) {p : BitVec 3} (b : Bool) (hp : p ≠ 0#3) :
    (q.put (.pred p) (BitVec.ofNat 32 (bit b))).preds.getLsbD p.toNat = b := by
  have hlt : p.toNat < 8 := p.isLt
  cases b <;> simp [Seq.put, hp, hlt, bit]

/-- A sequencer with one more predicate on its way, read at a cycle: the new value from its cycle on. -/
theorem Seq.settle_place_pred (q : Seq) {p : BitVec 3} (b : Bool) (due n : Nat) (hp : p ≠ 0#3) (hc : q.clearOf (.pred p)) :
    (Seq.settle { q with coming := SeqWrite.place ⟨.pred p, BitVec.ofNat 32 (bit b), due⟩ q.coming } n).preds.getLsbD p.toNat =
      if due ≤ n then b else q.preds.getLsbD p.toNat := by
  obtain ⟨l₁, l₂, hl, hplace⟩ := SeqWrite.place_split ⟨.pred p, BitVec.ofNat 32 (bit b), due⟩ q.coming
  have clear : ∀ l : List SeqWrite, (∀ w ∈ l, w ∈ q.coming) → ∀ w ∈ l.filter (fun w => decide (w.due ≤ n)), w.dst ≠ .pred p :=
    fun l h w hw => hc w (h w (List.mem_filter.mp hw).1)
  have h₁ := clear l₁ fun w hw => by rw [hl]; exact List.mem_append_left _ hw
  have h₂ := clear l₂ fun w hw => by rw [hl]; exact List.mem_append_right _ hw
  simp only [Seq.settle, hplace, List.filter_append, List.foldl_append, List.filter_cons]
  by_cases hd : due ≤ n
  · simp only [hd, decide_true, if_true, List.foldl_cons]
    rw [Seq.foldl_put_pred _ _ h₂]
    exact Seq.put_pred_self _ b hp
  · simp only [hd, decide_false, Bool.false_eq_true, if_false]
    rw [Seq.foldl_put_pred _ _ h₂, Seq.foldl_put_pred _ _ h₁]

/-- A predicate's result is read from its contract cycle on, and the previous value before it. -/
theorem Core.result_pred (k k' : Ctx) (c : Core) (p : BitVec 3) (b : Bool) (n : Nat) (hc : c.seq.clearOf (.pred p)) :
    (c.result k (.pred p) (BitVec.ofNat 32 (bit b)) n).pred k' p =
      if p = 0#3 then true else if k.clock + n ≤ k'.clock then b else c.pred k' p := by
  simp only [Core.pred]
  split
  · rfl
  · next hp =>
    have h := Seq.settle_place_pred (c.seq.settle k.clock) b (k.clock + n) k'.clock hp (Seq.settle_clearOf _ _ hc)
    rw [Seq.settle_pred _ _ hc] at h ⊢
    exact h

/-! ## The registers that a result is not for -/

/-- Results due by an earlier cycle come before the others. -/
theorem SeqWrite.filter_due {l : List SeqWrite} (h : l.Pairwise fun v w => v.due ≤ w.due) {n m : Nat} (hnm : n ≤ m) :
    l.filter (fun w => decide (w.due ≤ m)) =
      l.filter (fun w => decide (w.due ≤ n)) ++ (l.filter fun w => decide (n < w.due)).filter fun w => decide (w.due ≤ m) := by
  induction l with
  | nil => rfl
  | cons w l ih =>
    obtain ⟨hw, hl⟩ := List.pairwise_cons.1 h
    by_cases hn : w.due ≤ n
    · have hm := hn.trans hnm
      simp [hn, hm, ih hl]
    · have none : l.filter (fun w => decide (w.due ≤ n)) = [] :=
        List.filter_eq_nil_iff.2 fun v hv => by have := hw v hv; simp only [decide_eq_true_eq]; omega
      have hn' : n < w.due := by omega
      simp only [List.filter_cons, ih hl, none, hn, hn', decide_false, decide_true, if_true, Bool.false_eq_true, if_false]
      split <;> rfl

/-- A result on its way that what is shown does not tell leaves it, at its cycle and after it, as it would be. -/
theorem Seq.Shows.settle_result {r : Seq → Seq → Prop} (h : Seq.Shows r) {q : Seq} {w : SeqWrite} {n m : Nat} (hnm : n ≤ m)
    (hs : q.coming.Pairwise fun v w => v.due ≤ w.due) (hw : ∀ {p q}, r p q → r (p.put w.dst w.val) q) :
    r (Seq.settle { q.settle n with coming := SeqWrite.place w (q.settle n).coming } m) (q.settle m) := by
  obtain ⟨_, _, _, hv⟩ := q.settle_values n
  have hcoming : (q.settle n).coming = q.coming.filter fun w => decide (n < w.due) := by rw [hv]
  obtain ⟨l₁, l₂, hl, hplace⟩ := SeqWrite.place_split w (q.settle n).coming
  let puts (q : Seq) (l : List SeqWrite) : Seq := l.foldl (fun q w => q.put w.dst w.val) q
  let due (n : Nat) (l : List SeqWrite) : List SeqWrite := l.filter fun w => decide (w.due ≤ n)
  have hfirst : due m q.coming = due n q.coming ++ (due m l₁ ++ due m l₂) := by
    rw [← List.filter_append, ← hl, hcoming]
    exact SeqWrite.filter_due hs hnm
  have hsecond : due m (SeqWrite.place w (q.settle n).coming) = due m l₁ ++ ((if w.due ≤ m then [w] else []) ++ due m l₂) := by
    rw [hplace]
    simp only [due, List.filter_append, List.filter_cons, decide_eq_true_eq]
    split <;> rfl
  have hstart : ∀ c c', r { q.settle n with coming := c } (puts { q with coming := c' } (due n q.coming)) := fun c c' =>
    h.coming (q := puts { q with coming := c' } (due n q.coming)) c (puts { q with coming := c' } (due n q.coming)).coming
      (h.foldl _ (h.coming _ _ (h.refl q)))
  show r (puts { q.settle n with coming := _ } (due m (SeqWrite.place w (q.settle n).coming)))
    (puts { q with coming := _ } (due m q.coming))
  rw [hfirst, hsecond]
  simp only [puts, List.foldl_append]
  have h₁ := h.foldl (due m l₁) (hstart ((SeqWrite.place w (q.settle n).coming).filter fun w => decide (m < w.due))
    (q.coming.filter fun w => decide (m < w.due)))
  split
  · exact h.foldl _ (hw h₁)
  · exact h.foldl _ h₁

/-- The value of one scalar register. -/
def Seq.sameSreg (r : BitVec 5) (p q : Seq) : Prop :=
  p.sregs.length = q.sregs.length ∧ p.sregs.getD r.toNat 0#32 = q.sregs.getD r.toNat 0#32

/-- The value of one predicate. -/
def Seq.samePred (j : BitVec 3) (p q : Seq) : Prop := p.preds.getLsbD j.toNat = q.preds.getLsbD j.toNat

theorem getD_setAt_congr {α : Type} {l m : List α} {i j : Nat} {v e : α} (hl : l.length = m.length) (h : l.getD j e = m.getD j e) :
    (setAt l i v).getD j e = (setAt m i v).getD j e := by
  rcases eq_or_ne i j with rfl | hij
  · by_cases hi : i < l.length
    · rw [getD_setAt_self _ _ _ hi, getD_setAt_self _ _ _ (hl ▸ hi)]
    · rw [List.getD_eq_default _ _ (by simpa using hi), List.getD_eq_default _ _ (by simpa [← hl] using hi)]
  · rw [getD_setAt_ne _ _ _ hij, getD_setAt_ne _ _ _ hij, h]

theorem Seq.shows_sreg (r : BitVec 5) : Seq.Shows (Seq.sameSreg r) where
  refl _ := ⟨rfl, rfl⟩
  put {p q} d v h := by
    obtain ⟨hl, hr⟩ := h
    refine ⟨by rw [Seq.put_length, Seq.put_length, hl], ?_⟩
    cases d with
    | sreg r' =>
      simp only [Seq.put]
      split
      · exact hr
      · exact getD_setAt_congr hl hr
    | pred p' =>
      have hne : SeqDst.pred p' ≠ .sreg r := nofun
      rw [Seq.put_sreg_ne _ _ hne, Seq.put_sreg_ne _ _ hne, hr]
    | ovr ch b => exact hr
  coming _ _ h := h

theorem Seq.shows_pred (j : BitVec 3) : Seq.Shows (Seq.samePred j) where
  refl _ := rfl
  put {p q} d v h := by
    unfold Seq.samePred at h ⊢
    cases d with
    | pred p' =>
      simp only [Seq.put]
      split
      · exact h
      · split <;> simp [h]
    | sreg r =>
      have hne : SeqDst.sreg r ≠ .pred j := nofun
      rw [Seq.put_pred_ne _ _ hne, Seq.put_pred_ne _ _ hne, h]
    | ovr ch b => exact h
  coming _ _ h := h

/-- A result leaves every scalar register that it is not for. -/
theorem Core.result_sreg_ne {k' : Ctx} (hs : x.seq.shaped) {r : BitVec 5} {w : Word} {n : Nat} (hk : k.clock ≤ k'.clock)
    (hr : d ≠ .sreg r) : (x.result k d w n).sreg k' r = x.sreg k' r := by
  have keeps := (Seq.shows_sreg r).settle_result (w := ⟨d, w, k.clock + n⟩) hk hs.2.2
    fun {p q} h => ⟨(p.put_length d w).trans h.1, (p.put_sreg_ne w hr).trans h.2⟩
  exact congrArg (if r = 0#5 then 0#32 else ·) keeps.2

/-- A result leaves every predicate that it is not for. -/
theorem Core.result_pred_ne {k' : Ctx} (hs : x.seq.shaped) {p : BitVec 3} {w : Word} {n : Nat} (hk : k.clock ≤ k'.clock)
    (hp : d ≠ .pred p) : (x.result k d w n).pred k' p = x.pred k' p := by
  have keeps : Seq.samePred p _ _ := (Seq.shows_pred p).settle_result (w := ⟨d, w, k.clock + n⟩) hk hs.2.2
    fun {p' q} h => (p'.put_pred_ne w hp).trans h
  exact congrArg (if p = 0#3 then true else ·) keeps

/-! ## The instructions -/

/-- Instruction `i` is one of the sequencer's own that gives register `d`, unless it is suppressed, a value after its latency. -/
structure GivesResult (a : Site) (i : Instr) (d : SeqDst) (v : Ctx → Core → Word) (lat : Ctx → Nat) : Prop where
  run : ∀ s, exec i s = .next (s.issueSq a i lat fun k c x => if x.supp then c else c.result k d (v k c) (lat k))
  slot : slotNo i = 0

/-- The core as an instruction of the sequencer's own finds it, which counts its contract completion. -/
def State.found (s : State) (a : Site) (i : Instr) (cyc n : Nat) : Core := (s.arrived a i cyc).sqBusy n

/-- The core that a scalar or predicate instruction leaves, its ports aside. -/
def State.resultOf (s : State) (a : Site) (i : Instr) (cyc : Nat) (d : SeqDst) (v : Ctx → Core → Word) (lat : Ctx → Nat) : Core :=
  let k := s.ctxAt a.core cyc
  let y := s.found a i cyc (cyc + lat k)
  if s.suppresses a i cyc then y else y.result k d (v k y) (lat k)

theorem State.atBundle_found (s : State) (a : Site) (i : Instr) (cyc n : Nat) : (s.core a.core).atBundle (s.found a i cyc n) := by
  obtain ⟨hreg, hshadow, hframe, hsregs, hcoming, hovr, hstopped, hcanonical⟩ := s.atBundle_arrived a i cyc
  exact ⟨hreg, hshadow, hframe, hsregs, hcoming, hovr, hstopped, hcanonical⟩

theorem State.found_keptBut (s : State) (a : Site) (i : Instr) (cyc n : Nat) : (s.core a.core).keptBut (s.found a i cyc n) [0x2004] :=
  s.arrived_keptBut a i cyc

theorem State.resultOf_keptBut (s : State) (a : Site) (i : Instr) (cyc : Nat) (d : SeqDst) (v : Ctx → Core → Word) (lat : Ctx → Nat) :
    (s.core a.core).keptBut (s.resultOf a i cyc d v lat) [0x2004] := by
  unfold State.resultOf
  dsimp only
  split <;> exact s.found_keptBut a i cyc (cyc + lat (s.ctxAt a.core cyc))

/-- A result leaves the sequencer's place, its loops and their counters. -/
theorem State.resultOf_place (s : State) (a : Site) (i : Instr) (cyc : Nat) (d : SeqDst) (v : Ctx → Core → Word) (lat : Ctx → Nat) :
    (s.resultOf a i cyc d v lat).seq.lc = (s.arrived a i cyc).seq.lc ∧
      (s.resultOf a i cyc d v lat).seq.loops = (s.arrived a i cyc).seq.loops ∧
      (s.resultOf a i cyc d v lat).seq.prev = (s.arrived a i cyc).seq.prev := by
  unfold State.resultOf
  dsimp only
  split
  · exact ⟨rfl, rfl, rfl⟩
  · obtain ⟨_, _, _, hset⟩ := (s.found a i cyc (cyc + lat (s.ctxAt a.core cyc))).seq.settle_values (s.ctxAt a.core cyc).clock
    simp only [Core.result, hset]
    exact ⟨rfl, rfl, rfl⟩

/-- What a result's instruction leaves: the module but its core and the token meter, its core but the sequencer and BUNDLE, and the
sequencer with the result on its way. -/
theorem GivesResult.left (g : GivesResult a i d v lat) (h : s.reaches a i cyc) :
    ∃ t, exec i s = .next t ∧ s.othersKept t a.core ∧ (s.core a.core).keptBut (t.core a.core) [0x2004] ∧
      (t.core a.core).seq = (s.resultOf a i cyc d v lat).seq := by
  refine ⟨_, g.run s, h.othersKept _, ?_⟩
  let z := s.resultOf a i cyc d v lat
  have hst : z.seq.stopped = false := by
    have hy := (s.atBundle_arrived a i cyc).stopped.trans h.2.2.1
    show (State.resultOf ..).seq.stopped = false
    unfold State.resultOf
    dsimp only
    split
    · exact hy
    · exact (Seq.settle_stopped _ _).trans hy
  have hin : (s.core a.core).inflight.length = z.inflight.length := by
    obtain ⟨-, -, hy⟩ := s.arrived_engines a i cyc
    show _ = (State.resultOf ..).inflight.length
    unfold State.resultOf
    dsimp only
    split <;> rw [← hy] <;> rfl
  rw [State.issueSq, h.core_slot0 g.slot (z := z) rfl hst, hin]
  obtain ⟨-, hseq, -⟩ := z.joinPorts_keeps i z.inflight.length
  exact ⟨(s.resultOf_keptBut a i cyc d v lat).trans (Core.joinPorts_keptBut (channelOf_of_slot0 g.slot)), hseq⟩

/-! ### What it gives -/

theorem State.resultOf_issued (h : s.issues a i cyc) : s.resultOf a i cyc d v lat =
    (s.found a i cyc (cyc + lat (s.ctxAt a.core cyc))).result (s.ctxAt a.core cyc) d
      (v (s.ctxAt a.core cyc) (s.found a i cyc (cyc + lat (s.ctxAt a.core cyc)))) (lat (s.ctxAt a.core cyc)) := by
  unfold State.resultOf
  dsimp only
  rw [h.2, if_neg (by decide)]

/-- A scalar register is given a value if it reads so from its cycle on, and as before until then. -/
theorem State.givesScalar_of {c : CoreId} {rd : BitVec 5} {w : Word} {n : Nat} (h : ∀ k', (t.core c).sreg k' rd =
    if rd = 0#5 then 0#32 else if cyc + n ≤ k'.clock then w else (s.core c).sreg k' rd) : s.givesScalar t c cyc rd w n := by
  refine ⟨fun k' hk => ?_, fun k' _ hk => ?_⟩
  · rw [h, if_pos hk]
  · rw [h, if_neg (Nat.not_le.2 hk)]
    split
    · next h0 => rw [Core.sreg, if_pos h0]
    · rfl

/-- An unsuppressed instruction for a scalar register gives it its value at its latency, and raises no code. -/
theorem GivesResult.scalar {rd : BitVec 5} {w : Word} {n : Nat} (g : GivesResult a i (.sreg rd) v lat) (hs : (s.core a.core).seq.shaped)
    (hc : (s.core a.core).seq.clearOf (.sreg rd)) (hlat : lat (s.ctxAt a.core cyc) = n)
    (hv : v (s.ctxAt a.core cyc) (s.found a i cyc (cyc + n)) = w) (h : s.issues a i cyc) :
    ∃ t, exec i s = .next t ∧ s.givesScalar t a.core cyc rd w n ∧
      (t.core a.core).reg 0x2000 = (s.core a.core).reg 0x2000 ∧ (t.core a.core).frame.codes = (s.core a.core).frame.codes := by
  obtain ⟨t, ht, -, hkept, hseq⟩ := g.left h.1
  have hy := s.atBundle_found a i cyc (cyc + n)
  rw [State.resultOf_issued h, hlat, hv] at hseq
  refine ⟨t, ht, State.givesScalar_of fun k' => ?_, ?_, ?_⟩
  · rw [← hy.sreg]
    refine (Core.sreg_congr (congrArg Seq.sregs hseq) (congrArg Seq.coming hseq) k' rd).trans ?_
    exact Core.result_sreg _ _ _ rd w n (by rw [hy.sregs]; exact hs.1) (by rw [Seq.clearOf, hy.coming]; exact hc)
  · obtain ⟨-, -, -, -, -, -, -, -, -, -, -, -, hreg⟩ := hkept
    exact hreg _ (by decide)
  · obtain ⟨-, -, -, -, -, -, -, -, -, -, -, hframe, -⟩ := hkept
    rw [hframe]

/-- An unsuppressed instruction for a predicate gives it its value at its latency. -/
theorem GivesResult.predicate {pd : BitVec 3} {b : Bool} {n : Nat} (g : GivesResult a i (.pred pd) v lat)
    (hc : (s.core a.core).seq.clearOf (.pred pd)) (hlat : lat (s.ctxAt a.core cyc) = n)
    (hv : v (s.ctxAt a.core cyc) (s.found a i cyc (cyc + n)) = BitVec.ofNat 32 (bit b)) (h : s.issues a i cyc) :
    ∃ t, exec i s = .next t ∧ s.givesPred t a.core cyc pd b n := by
  obtain ⟨t, ht, -, -, hseq⟩ := g.left h.1
  have hy := s.atBundle_found a i cyc (cyc + n)
  obtain ⟨hpreds, -⟩ := s.arrived_seq a i cyc
  rw [State.resultOf_issued h, hlat, hv] at hseq
  have hread : ∀ k', (t.core a.core).pred k' pd =
      if pd = 0#3 then true else if cyc + n ≤ k'.clock then b else (s.core a.core).pred k' pd := fun k' => by
    rw [← Core.pred_congr (y := s.found a i cyc (cyc + n)) hpreds hy.coming]
    refine (Core.pred_congr (congrArg Seq.preds hseq) (congrArg Seq.coming hseq) k' pd).trans ?_
    exact Core.result_pred _ _ _ pd b n (by rw [Seq.clearOf, hy.coming]; exact hc)
  refine ⟨t, ht, fun k' hk => ?_, fun k' _ hk => ?_⟩
  · rw [hread, if_pos hk]
  · rw [hread, if_neg (Nat.not_le.2 hk)]
    split
    · next h0 => rw [Core.pred, if_pos h0]
    · rfl

/-! ### What it keeps -/

/-- What a result's instruction leaves, suppressed or not: the loops and counters of the arrival, and every register that the result
is not for. -/
theorem GivesResult.frame (g : GivesResult a i d v lat) (hs : (s.core a.core).seq.shaped) (h : s.reaches a i cyc)
    (ht : exec i s = .next t) :
    s.othersKept t a.core ∧ (s.core a.core).keptBut (t.core a.core) [0x2004] ∧
      (t.core a.core).seq.lc = (s.arrived a i cyc).seq.lc ∧ (t.core a.core).seq.loops = (s.arrived a i cyc).seq.loops ∧
      (∀ (k : Ctx) (r : BitVec 5), cyc ≤ k.clock → d ≠ .sreg r → (t.core a.core).sreg k r = (s.core a.core).sreg k r) ∧
      ∀ (k : Ctx) (p : BitVec 3), cyc ≤ k.clock → d ≠ .pred p → (t.core a.core).pred k p = (s.core a.core).pred k p := by
  obtain ⟨u, hu, hothers, hkept, hseq⟩ := g.left h
  obtain rfl : u = t := by simpa [hu] using ht
  refine ⟨hothers, hkept, ?_⟩
  let n := cyc + lat (s.ctxAt a.core cyc)
  have hy := s.atBundle_found a i cyc n
  obtain ⟨hpreds, -⟩ := s.arrived_seq a i cyc
  have hys : (s.found a i cyc n).seq.shaped := by
    obtain ⟨hsregs, hovr, hcoming⟩ := hs
    exact ⟨by rw [hy.sregs, hsregs], by rw [hy.ovr, hovr], by rw [hy.coming]; exact hcoming⟩
  have hsreg : ∀ k r, (u.core a.core).sreg k r = (s.resultOf a i cyc d v lat).sreg k r :=
    Core.sreg_congr (congrArg Seq.sregs hseq) (congrArg Seq.coming hseq)
  have hpred : ∀ k p, (u.core a.core).pred k p = (s.resultOf a i cyc d v lat).pred k p :=
    Core.pred_congr (congrArg Seq.preds hseq) (congrArg Seq.coming hseq)
  obtain ⟨hlc, hloops, -⟩ := s.resultOf_place a i cyc d v lat
  rw [hseq]
  refine ⟨hlc, hloops, fun k r hk hr => ?_, fun k p hk hp => ?_⟩
  · rw [hsreg, ← hy.sreg]
    unfold State.resultOf
    dsimp only
    split
    · rfl
    · exact Core.result_sreg_ne hys hk hr
  · rw [hpred, ← Core.pred_congr (y := s.found a i cyc n) hpreds hy.coming]
    unfold State.resultOf
    dsimp only
    split
    · rfl
    · exact Core.result_pred_ne hys hk hp

end Sys2Proof.Machine
end

section
/-! O6, O7 and O8: the scalar and predicate instructions (R225, R227–R231). -/

namespace Sys2Proof.Machine

variable {s t : State} {a : Site} {i : Instr} {cyc n : Nat} {lat : Ctx → Nat}

/-! ## O6: scalar results -/

theorem minS_eq (x y : Word) : minS x y = if x.toInt ≤ y.toInt then x else y := by
  simp only [minS, BitVec.slt, decide_eq_true_eq]
  split
  · rw [if_neg (by omega)]
  · rw [if_pos (by omega)]

theorem maxS_eq (x y : Word) : maxS x y = if x.toInt ≤ y.toInt then y else x := by
  simp only [maxS, BitVec.slt, decide_eq_true_eq]
  split
  · rw [if_pos (by omega)]
  · split
    · exact BitVec.eq_of_toInt_eq (by omega)
    · rfl

theorem minU_eq (x y : Word) : minU x y = if x.toNat ≤ y.toNat then x else y := by
  simp only [minU, BitVec.ult, decide_eq_true_eq]
  split
  · rw [if_neg (by omega)]
  · rw [if_pos (by omega)]

theorem maxU_eq (x y : Word) : maxU x y = if x.toNat ≤ y.toNat then y else x := by
  simp only [maxU, BitVec.ult, decide_eq_true_eq]
  split
  · rw [if_pos (by omega)]
  · split
    · exact BitVec.eq_of_toNat_eq (by omega)
    · rfl

/-- A register-register operation gives its function of the two registers at issue. -/
theorem GivesResult.alu3 {o : SqR3} {f : Word → Word → Word} {w : Word}
    (g : GivesResult a i (.sreg o.rd) (fun k c => f (c.sreg k o.rs) (c.sreg k o.rt)) lat) (hs : (s.core a.core).seq.shaped)
    (hc : (s.core a.core).seq.clearOf (.sreg o.rd)) (hlat : lat (s.ctxAt a.core cyc) = n)
    (hv : f ((s.core a.core).sreg (s.ctxAt a.core cyc) o.rs) ((s.core a.core).sreg (s.ctxAt a.core cyc) o.rt) = w)
    (h : s.issues a i cyc) :
    ∃ t, exec i s = .next t ∧ s.givesScalar t a.core cyc o.rd w n ∧
      (t.core a.core).reg 0x2000 = (s.core a.core).reg 0x2000 ∧ (t.core a.core).frame.codes = (s.core a.core).frame.codes := by
  have hy := s.atBundle_found a i cyc (cyc + n)
  exact g.scalar hs hc hlat (by rw [← hv, ← hy.sreg, ← hy.sreg]) h

/-- A register-immediate operation, and LIL and LIH, give their function of one register at issue. -/
theorem GivesResult.alu1 {rd r : BitVec 5} {f : Word → Word} {w : Word}
    (g : GivesResult a i (.sreg rd) (fun k c => f (c.sreg k r)) fun _ => scalarLat) (hs : (s.core a.core).seq.shaped)
    (hc : (s.core a.core).seq.clearOf (.sreg rd)) (hv : f ((s.core a.core).sreg (s.ctxAt a.core cyc) r) = w) (h : s.issues a i cyc) :
    ∃ t, exec i s = .next t ∧ s.givesScalar t a.core cyc rd w 2 ∧
      (t.core a.core).reg 0x2000 = (s.core a.core).reg 0x2000 ∧ (t.core a.core).frame.codes = (s.core a.core).frame.codes := by
  have hy := s.atBundle_found a i cyc (cyc + 2)
  exact g.scalar hs hc rfl (by rw [← hv, ← hy.sreg]) h

/-- The upper half replaced. -/
theorem append_half (half : Half) (w : Word) : half ++ w.setWidth 16 = BitVec.ofNat 32 (half.toNat * 65536 + w.toNat % 65536) := by
  refine BitVec.eq_of_toNat_eq ?_
  have := half.isLt
  rw [BitVec.toNat_append, BitVec.toNat_setWidth, BitVec.toNat_ofNat, Nat.shiftLeft_eq,
    ← Nat.shiftLeft_eq, ← Nat.shiftLeft_add_eq_or_of_lt (by omega), Nat.shiftLeft_eq]
  omega

theorem frameNumber_eq (c : Core) (hi : Bool) :
    c.frameNumber hi = BitVec.ofNat 32 (if hi then c.frame.fn.toNat / 2 ^ 32 else c.frame.fn.toNat % 2 ^ 32) := by
  refine BitVec.eq_of_toNat_eq ?_
  cases hi <;> simp [Core.frameNumber, Nat.shiftRight_eq_div_pow]

/-- Settles O6: each instruction gives its destination one value (`GivesResult`), which is the stated function of the registers. -/
theorem scalarResults : Obligations.ScalarResults := by
  refine ⟨?_, ?_⟩
  · intro s a cyc o hs hc x y r hr
    have mul : mulLat (s.ctxAt a.core cyc) = if s.tc1 then 4 else 5 := by rw [mulLat, s.tc1_ctxAt]
    simp only [List.mem_cons, List.not_mem_nil, or_false] at hr
    rcases hr with rfl | rfl | rfl | rfl | rfl | rfl | rfl | rfl | rfl | rfl | rfl | rfl | rfl
    · exact GivesResult.alu3 (f := (· + ·)) ⟨fun _ => rfl, rfl⟩ hs hc rfl rfl
    · exact GivesResult.alu3 (f := (· - ·)) ⟨fun _ => rfl, rfl⟩ hs hc rfl rfl
    · exact GivesResult.alu3 (f := (· * ·)) ⟨fun _ => rfl, rfl⟩ hs hc mul rfl
    · exact GivesResult.alu3 (f := (· &&& ·)) ⟨fun _ => rfl, rfl⟩ hs hc rfl rfl
    · exact GivesResult.alu3 (f := (· ||| ·)) ⟨fun _ => rfl, rfl⟩ hs hc rfl rfl
    · exact GivesResult.alu3 (f := (· ^^^ ·)) ⟨fun _ => rfl, rfl⟩ hs hc rfl rfl
    · exact GivesResult.alu3 (f := shlW) ⟨fun _ => rfl, rfl⟩ hs hc rfl rfl
    · exact GivesResult.alu3 (f := shrW) ⟨fun _ => rfl, rfl⟩ hs hc rfl rfl
    · exact GivesResult.alu3 (f := sraW) ⟨fun _ => rfl, rfl⟩ hs hc rfl rfl
    · exact GivesResult.alu3 (f := minS) ⟨fun _ => rfl, rfl⟩ hs hc rfl (minS_eq x y)
    · exact GivesResult.alu3 (f := maxS) ⟨fun _ => rfl, rfl⟩ hs hc rfl (maxS_eq x y)
    · exact GivesResult.alu3 (f := minU) ⟨fun _ => rfl, rfl⟩ hs hc rfl (minU_eq x y)
    · exact GivesResult.alu3 (f := maxU) ⟨fun _ => rfl, rfl⟩ hs hc rfl (maxU_eq x y)
  · intro s a cyc rd rs imm half lc hi hs hc o x old fn m r hr
    have count : (imm.signExtend 32).toNat % 32 = m := by
      show _ = imm.toNat % 32
      rw [BitVec.toNat_signExtend]
      split <;> simp only [BitVec.toNat_setWidth, Nat.add_zero] <;> omega
    simp only [List.mem_cons, List.not_mem_nil, or_false] at hr
    rcases hr with rfl | rfl | rfl | rfl | rfl | rfl | rfl | rfl | rfl | rfl | rfl
    · exact GivesResult.alu1 (f := (· + immS o)) ⟨fun _ => rfl, rfl⟩ hs hc rfl
    · exact GivesResult.alu1 (f := (· &&& immZ o)) ⟨fun _ => rfl, rfl⟩ hs hc rfl
    · exact GivesResult.alu1 (f := (· ||| immZ o)) ⟨fun _ => rfl, rfl⟩ hs hc rfl
    · exact GivesResult.alu1 (f := (· ^^^ immZ o)) ⟨fun _ => rfl, rfl⟩ hs hc rfl
    · exact GivesResult.alu1 (f := (shlW · (immS o))) ⟨fun _ => rfl, rfl⟩ hs hc (congrArg (x <<< ·) count)
    · exact GivesResult.alu1 (f := (shrW · (immS o))) ⟨fun _ => rfl, rfl⟩ hs hc (congrArg (x >>> ·) count)
    · exact GivesResult.alu1 (f := (sraW · (immS o))) ⟨fun _ => rfl, rfl⟩ hs hc (congrArg x.sshiftRight count)
    · exact GivesResult.alu1 (r := rd) (f := fun _ => half.signExtend 32) ⟨fun _ => rfl, rfl⟩ hs hc rfl
    · exact GivesResult.alu1 (r := rd) (f := fun w => half ++ w.setWidth 16) ⟨fun _ => rfl, rfl⟩ hs hc (append_half half old)
    · exact GivesResult.scalar (v := fun _ c => c.seq.lc.getD lc.toNat 0#32) (lat := fun _ => scalarLat) ⟨fun _ => rfl, rfl⟩ hs hc rfl rfl
    · refine GivesResult.scalar (v := fun _ c => c.frameNumber hi) (lat := fun _ => scalarLat) ⟨fun _ => rfl, rfl⟩ hs hc rfl ?_
      rw [frameNumber_eq, (s.atBundle_found a _ cyc _).frame]

/-! ## O7: predicates -/

theorem logicFn_eq : ∀ (fn : BitVec 2) (p q : Bool), logicFn fn p q = [p && q, p || q, xor p q, p && !q].getD fn.toNat false := by
  decide

theorem scalarCond_eq {cond : BitVec 3} (h : cond.toNat ≤ 5) (x y : Word) : scalarCond cond x y =
    [decide (x = y), decide (x ≠ y), decide (x.toInt < y.toInt), decide (y.toInt ≤ x.toInt), decide (x.toNat < y.toNat),
      decide (y.toNat ≤ x.toNat)].getD cond.toNat false := by
  unfold scalarCond
  generalize cond.toNat = n at h
  rw [Bool.eq_iff_iff]
  interval_cases n <;> simp [BitVec.slt, BitVec.ult]

/-- Settles O7: each instruction gives its predicate one value (`GivesResult`), a condition or a function of predicates. -/
theorem predicateResults : Obligations.PredicateResults := by
  intro s a cyc pd pa pb cond rs rt imm fn
  refine ⟨fun h => ?_, fun hcond hc => ?_⟩
  · simp only [Instr.wellFormed, Bool.and_eq_true] at h
    rcases h with ⟨h, -⟩ | ⟨h, -⟩ <;> simpa [Instr.operandsWf] using h
  · intro c k x p q holds r hr
    simp only [List.mem_cons, List.not_mem_nil, or_false] at hr
    rcases hr with rfl | rfl | rfl
    · intro h
      have hy := s.atBundle_found a (.pcmp a pd cond rs rt) cyc (cyc + 2)
      refine GivesResult.predicate (v := fun k c => BitVec.ofNat 32 (bit (scalarCond cond (c.sreg k rs) (c.sreg k rt))))
        (lat := fun _ => scalarLat) ⟨fun _ => rfl, rfl⟩ hc rfl ?_ h
      dsimp only
      rw [scalarCond_eq hcond, hy.sreg, hy.sreg]
    · intro h
      have hy := s.atBundle_found a (.pcmpi a pd cond rs imm) cyc (cyc + 2)
      refine GivesResult.predicate (v := fun k c => BitVec.ofNat 32 (bit (scalarCond cond (c.sreg k rs) (imm.signExtend 32))))
        (lat := fun _ => scalarLat) ⟨fun _ => rfl, rfl⟩ hc rfl ?_ h
      dsimp only
      rw [scalarCond_eq hcond, hy.sreg]
    · intro h
      have hy := s.atBundle_found a (.plog a pd pa pb fn) cyc (cyc + 2)
      have hpreds : (s.found a (.plog a pd pa pb fn) cyc (cyc + 2)).seq.preds = c.seq.preds := (s.arrived_seq a (.plog a pd pa pb fn) cyc).1
      have hpred := Core.pred_congr hpreds hy.coming k
      refine GivesResult.predicate (v := fun k c => BitVec.ofNat 32 (bit (logicFn fn (c.pred k pa) (c.pred k pb))))
        (lat := fun _ => scalarLat) ⟨fun _ => rfl, rfl⟩ hc rfl ?_ h
      dsimp only
      rw [logicFn_eq, hpred, hpred]

/-! ## O8: what they leave unchanged -/

/-- Every scalar and predicate instruction gives a result to its register. -/
theorem givesResult_of_mem {o : SqR3} {p : SqI13} {half : Half} {lc : BitVec 2} {hi : Bool} {pd pa pb cond : BitVec 3} {imm : BitVec 12}
    {fn : BitVec 2} (hrd : p.rd = o.rd)
    (hi : i ∈ [.add a o, .sub a o, .mul a o, .and a o, .or a o, .xor a o, .shl a o, .shr a o, .sra a o, .min a o, .max a o,
      .minu a o, .maxu a o, .addi a p, .andi a p, .ori a p, .xori a p, .shli a p, .shri a p, .srai a p, .lil a o.rd half,
      .lih a o.rd half, .movlc a o.rd lc, .movfn a o.rd hi, .pcmp a pd cond o.rs o.rt, .pcmpi a pd cond o.rs imm,
      .plog a pd pa pb fn]) :
    ∃ d v lat, GivesResult a i d v lat ∧ (d = .sreg o.rd ∨ d = .pred pd) := by
  obtain ⟨rd, rs, imm'⟩ := p
  obtain rfl : rd = o.rd := hrd
  simp only [List.mem_cons, List.not_mem_nil, or_false] at hi
  rcases hi with rfl | rfl | rfl | rfl | rfl | rfl | rfl | rfl | rfl | rfl | rfl | rfl | rfl | rfl | rfl | rfl | rfl | rfl | rfl | rfl |
    rfl | rfl | rfl | rfl | rfl | rfl | rfl
  iterate 24 exact ⟨_, _, _, ⟨fun _ => rfl, rfl⟩, .inl rfl⟩
  iterate 3 exact ⟨_, _, _, ⟨fun _ => rfl, rfl⟩, .inr rfl⟩

/-- Settles O8: each instruction gives its register a result, or nothing where it is suppressed, and keeps all else
(`GivesResult.frame`). -/
theorem scalarFrame : Obligations.ScalarFrame := by
  intro s t a cyc o p half lc hi pd pa pb cond imm fn i hrd hi' hs ht
  obtain ⟨d, v, lat, g, hd⟩ := givesResult_of_mem (a := a) hrd hi'
  refine ⟨fun hnone => ?_, fun h => ?_⟩
  · have hrun := g.run s
    rw [ht, State.issueSq, State.issue_of_none hnone] at hrun
    exact Host.Outcome.next.inj hrun
  · obtain ⟨hothers, hkept, hlc, hloops, hsreg, hpred⟩ := g.frame hs h ht
    refine ⟨hothers, hkept, hlc, hloops, fun k r hk hr => hsreg k r hk ?_, fun k q hk hq => hpred k q hk ?_⟩
    · rcases hd with rfl | rfl <;> simp [Ne.symm hr]
    · rcases hd with rfl | rfl <;> simp [Ne.symm hq]

end Sys2Proof.Machine
end

section
/-! O13: guards, shadow iterations and suppressed instructions (R224, R225, R235). -/

namespace Sys2Proof.Machine

variable {x y : Core} {s : State} {a : Site} {i : Instr} {cyc : Nat}

/-- The core with other times of the sequencer, and another count of the frame's waits. -/
def Core.idled (c : Core) (next busy stalls : Nat) : Core :=
  { c with seq := { c.seq with nextAt := next, busyUntil := busy }, frame := { c.frame with stalls := stalls } }

/-- A suppressed instruction of the sequencer's own changes of its core the times of the sequencer and the frame's count of waits. -/
def SuppressedIdles (a : Site) (i : Instr) : Prop :=
  slotNo i = 0 ∧ ∃ f, (∀ s, exec i s = .next (s.issue a i f)) ∧
    ∀ k c core b, ∃ next busy stalls, f k c ⟨core, b, true⟩ = c.idled next busy stalls

theorem suppressedIdles_of_mem {o : SqR3} {p : SqI13} {oc : SqOc} {code : Half} {q : BitVec 4} {n : BitVec 3} {ch : BitVec 2}
    {sel hi miss : Bool} {pa pb cond : BitVec 3} {imm : BitVec 12} {fn : BitVec 2} {x : WaitCount}
    (hi : i ∈ [.add a o, .sub a o, .mul a o, .and a o, .or a o, .xor a o, .shl a o, .shr a o, .sra a o, .min a o, .max a o,
      .minu a o, .maxu a o, .addi a p, .andi a p, .ori a p, .xori a p, .shli a p, .shri a p, .srai a p,
      .lil a o.rd code, .lih a o.rd code, .movlc a o.rd ch, .movfn a o.rd hi, .pcmp a n cond o.rs o.rt,
      .pcmpi a n cond o.rs imm, .plog a n pa pb fn, .waitx a q x, .commit a, .sqStop a code, .signal a q o.rs,
      .scarry a n o.rs, .dovr a ch sel o.rs, .sld a o.rd oc miss, .sst a o.rs oc]) : SuppressedIdles a i := by
  simp only [List.mem_cons, List.not_mem_nil, or_false] at hi
  rcases hi with rfl | rfl | rfl | rfl | rfl | rfl | rfl | rfl | rfl | rfl | rfl | rfl | rfl | rfl | rfl | rfl | rfl | rfl | rfl | rfl |
    rfl | rfl | rfl | rfl | rfl | rfl | rfl | rfl | rfl | rfl | rfl | rfl | rfl | rfl | rfl
  all_goals exact ⟨rfl, _, fun _ => rfl, fun _ _ _ _ => ⟨_, _, _, rfl⟩⟩

theorem LoopFrame.inShadow_iff (f : LoopFrame) : f.inShadow = true ↔ f.shadow = true ∨ f.active ≤ f.iter := by
  simp [LoopFrame.inShadow]

/-- Settles O13: suppression is the guard's or the body's, and a suppressed instruction idles (`SuppressedIdles`). -/
theorem suppressedSequencerDoesNothing : Obligations.SuppressedSequencerDoesNothing := by
  refine ⟨?_, ?_⟩
  · intro s a i cyc body off shadow
    have hpred : ∀ j, (s.arrived a i cyc).pred (s.ctxAt a.core cyc) j = (s.core a.core).pred (s.ctxAt a.core cyc) j :=
      Core.pred_congr (s.arrived_seq a i cyc).1 (s.atBundle_arrived a i cyc).coming _
    have hguard : (s.arrived a i cyc).guardedOff (s.ctxAt a.core cyc) a.guard = true ↔ off := by
      unfold Core.guardedOff
      cases hg : a.guard with
      | none => simp [off, hg]
      | some g => simp [off, hg, hpred]
    have hshadow : (s.arrived a i cyc).seq.shadowAt a.bundle.toNat = true ↔ shadow := by
      unfold Seq.shadowAt
      change (match body with | none => false | some f => f.inShadow) = true ↔ ∃ f, body = some f ∧ _
      cases body with
      | none => simp
      | some f => simp [LoopFrame.inShadow_iff]
    rw [State.suppresses, Core.siteOf, Bool.or_eq_true, hguard, hshadow, or_comm]
  · intro s a cyc o p oc code q n ch sel hi miss pa pb cond imm fn x i h hsupp hmem
    obtain ⟨hslot, f, hrun, hidle⟩ := suppressedIdles_of_mem hmem
    obtain ⟨next, busy, stalls, hidled⟩ := hidle (s.ctxAt a.core cyc) (s.arrived a i cyc) a.core a.bundle
    have hy := s.atBundle_arrived a i cyc
    obtain ⟨hpreds, hwords, hwaiting, -⟩ := s.arrived_seq a i cyc
    obtain ⟨-, hmem', -⟩ := s.arrived_engines a i cyc
    refine h.gives_slot0 hslot ((s.arrived a i cyc).idled next busy stalls) (hrun s) (by rw [hsupp, hidled])
      (hy.stopped.trans h.2.2.1) fun t ⟨htmem, htregs, htshadow, htseq, htframe⟩ => ?_
    rw [htmem, htshadow, htseq, htframe]
    refine ⟨hmem', hy.shadow, hwords, hy.sregs, hpreds, hy.coming, hy.ovr, hwaiting, ?_, ?_, ?_, fun r hr => ?_⟩
    · exact congrArg Frame.signals (a₁ := (s.arrived a i cyc).frame) hy.frame
    · exact congrArg Frame.haltNext (a₁ := (s.arrived a i cyc).frame) hy.frame
    · exact congrArg Frame.codes (a₁ := (s.arrived a i cyc).frame) hy.frame
    · exact (Core.reg_congr htregs r).trans (hy.reg r hr)

end Sys2Proof.Machine
end

section
/-! O11: SST and SLD (R162, R232). -/

namespace Sys2Proof.Machine

variable {x y z : Core} {k : Ctx} {s : State} {a : Site} {i : Instr} {cyc : Nat}

/-! ## The word of a line -/

theorem Core.missing_congr (h : y.integ = x.integ) (lines upset : List Nat) : y.missing lines upset = x.missing lines upset := by
  unfold Core.missing Core.knownEmpty Core.remapOf
  rw [h]

/-- A word of a line is one run of bytes, and not a line's. -/
theorem Core.store_word (x : Core) {b : Nat} (hb : b % 4 = 0) (w : Word) : x.store b (leBytes 4 w.toNat) = x.write b (leBytes 4 w.toNat) := by
  have hruns : (lineRuns b 4).filter (fun r => decide (r.2 = 64)) = [] := by
    refine List.filter_eq_nil_iff.2 fun r hr => ?_
    obtain ⟨j, -, rfl⟩ := List.mem_map.1 hr
    simp only [decide_eq_true_eq]
    split <;> split <;> omega
  rw [Core.store, length_leBytes, hruns]
  rfl

theorem ocAddr_mod (o : SqOc) : ocAddr o % 4 = 0 := by
  unfold ocAddr cacheBase
  split <;> omega

/-! ## The issue -/

theorem State.arrived_integ (s : State) (a : Site) (i : Instr) (n : Nat) : (s.arrived a i n).integ = (s.core a.core).integ := by
  unfold State.arrived Core.arrive
  split <;> rfl

theorem Core.cacheWait_congr (hm : y.mem = x.mem) (hi : y.inflight = x.inflight) (hf : y.frame = x.frame) (k : Ctx) (b : At) (ve : Bool) :
    y.cacheWait k b ve = x.cacheWait k b ve := by
  unfold Core.cacheWait Core.namesVe Core.waitsOf
  rw [hm, hi, hf]

/-- An SST whose cache is free writes its word. -/
theorem Core.useCache_store {b : At} {o : SqOc} {v : Word} {miss : Bool} (hb : b.supp = false) (hw : x.cacheWait k b o.ve = 0)
    (hm : x.missing [lineOf (ocAddr o)] [] = []) :
    x.useCache k b o none v miss = (x.stalled 0).write (ocAddr o) (leBytes 4 v.toNat) := by
  have hm' : ((x.stalled 0).write (ocAddr o) (leBytes 4 v.toNat)).missing [lineOf (ocAddr o)] [] = [] := hm
  simp only [Core.useCache, hb, hw, Bool.false_eq_true, if_false, if_true, Core.takeWord, Core.store_word _ (ocAddr_mod o), hm',
    Core.frameMiss, List.isEmpty_nil]

/-- An SLD whose cache is free has its word on its way. -/
theorem Core.useCache_load {b : At} {o : SqOc} {r : BitVec 5} {v : Word} (hb : b.supp = false) (hw : x.cacheWait k b o.ve = 0)
    (hm : x.missing [lineOf (ocAddr o)] [] = []) : x.useCache k b o (some r) v false = { x.stalled 0 with seq := { x.seq with
      coming := SeqWrite.place ⟨.sreg r, BitVec.ofNat 32 (leNat (x.read k (ocAddr o) 4)), k.clock + ocLat k⟩ x.seq.coming } } := by
  have hnone : ∀ q : Seq, ({ x.stalled 0 with seq := q } : Core).missing [lineOf (ocAddr o)] [] = [] := fun _ => hm
  simp only [Core.useCache, hb, hw, Bool.false_eq_true, if_false, if_true, Core.takeWord, hnone, Core.frameMiss, List.isEmpty_nil,
    Nat.add_zero]
  rfl

/-- An SLD or SST that waits for its cache has its word still to take. -/
theorem Core.useCache_wait {b : At} {o : SqOc} {dst : Option (BitVec 5)} {v : Word} {miss : Bool} (hb : b.supp = false)
    (hw : x.cacheWait k b o.ve ≠ 0) : x.useCache k b o dst v miss = { x.stalled (x.cacheWait k b o.ve) with seq := { x.seq with
      words := x.seq.words ++ [⟨k.clock + x.cacheWait k b o.ve, dst, ocAddr o, v, k.clock + ocLat k + x.cacheWait k b o.ve, b.bundle,
        miss⟩] } } := by
  rw [Core.useCache, hb, if_neg (by decide)]
  exact if_neg hw

section Word

variable {o : SqOc} {r : BitVec 5}

/-- The core an SLD or SST finds. -/
def State.foundCache (s : State) (a : Site) (i : Instr) (cyc : Nat) (ve : Bool) : Core :=
  (s.arrived a i cyc).cacheBusy (s.ctxAt a.core cyc) ⟨a.core, a.bundle, false⟩ ve

theorem State.atBundle_foundCache (s : State) (a : Site) (i : Instr) (cyc : Nat) (ve : Bool) :
    (s.core a.core).atBundle (s.foundCache a i cyc ve) := s.atBundle_found a i cyc _

/-- It waits for its cache as the core does that it issues on, and misses the same lines. -/
theorem State.foundCache_waits (s : State) (a : Site) (i : Instr) (cyc : Nat) (o : SqOc) :
    (s.foundCache a i cyc o.ve).cacheWait (s.ctxAt a.core cyc) ⟨a.core, a.bundle, false⟩ o.ve =
        (s.core a.core).cacheWait (s.ctxAt a.core cyc) ⟨a.core, a.bundle, false⟩ o.ve ∧
      (s.foundCache a i cyc o.ve).missing [lineOf (ocAddr o)] [] = (s.core a.core).missing [lineOf (ocAddr o)] [] := by
  obtain ⟨-, hmem, hin⟩ := s.arrived_engines a i cyc
  exact ⟨Core.cacheWait_congr hmem hin (s.atBundle_foundCache a i cyc o.ve).frame _ _ _, Core.missing_congr (s.arrived_integ a i cyc) _ _⟩

/-- An SLD or SST leaves its core as it says. -/
theorem State.gives_cache {f : Ctx → Core → At → Core} {ve : Bool} {p : State → Prop} (h : s.issues a i cyc) (hi : slotNo i = 0)
    (hx : exec i s = .next (s.issue a i fun k c b => f k (c.cacheBusy k b ve) b))
    (hz : f (s.ctxAt a.core cyc) (s.foundCache a i cyc ve) ⟨a.core, a.bundle, false⟩ = z) (hst : z.seq.stopped = (s.core a.core).seq.stopped)
    (hp : ∀ t, z.leftAs (t.core a.core) → p t) : s.gives i p :=
  h.1.gives_slot0 hi z hx (by rw [h.2]; exact hz) (hst.trans h.1.2.2.1) hp

theorem State.gives_sst (hc : (s.core a.core).canonical) (hm : (s.core a.core).missing [lineOf (ocAddr o)] [] = [])
    (h : s.issues a (.sst a r o) cyc) :
    let c := s.core a.core
    let k := s.ctxAt a.core cyc
    let w := c.cacheWait k ⟨a.core, a.bundle, false⟩ o.ve
    s.gives (.sst a r o) fun t => (t.core a.core).frame.stalls = c.frame.stalls + w ∧
      if w = 0 then Memory.holds c.mem (t.core a.core).mem (ocAddr o) (leBytes 4 (c.sreg k r).toNat)
      else (t.core a.core).mem = c.mem ∧ (t.core a.core).seq.words =
        c.seq.words ++ [⟨cyc + w, none, ocAddr o, c.sreg k r, cyc + ocLat k + w, a.bundle, false⟩] := by
  intro c k w
  let y := s.foundCache a (.sst a r o) cyc o.ve
  have hy : c.atBundle y := s.atBundle_foundCache a _ cyc _
  obtain ⟨-, hmem, -⟩ := s.arrived_engines a (.sst a r o) cyc
  obtain ⟨-, hwords, -⟩ := s.arrived_seq a (.sst a r o) cyc
  obtain ⟨hwait, hmiss⟩ : y.cacheWait k ⟨a.core, a.bundle, false⟩ o.ve = w ∧ _ := s.foundCache_waits a (.sst a r o) cyc o
  have hstall : ∀ n, y.frame.stalls + n = c.frame.stalls + n := fun n => by rw [hy.frame]
  by_cases hw : w = 0
  · refine State.gives_cache (f := fun k c b => c.storeOc k b r o) (ve := o.ve) h rfl rfl
      (Core.useCache_store rfl (hwait.trans hw) (hmiss.trans hm)) hy.stopped
      fun t ⟨htmem, _, _, _, htframe⟩ => ?_
    rw [htframe, htmem, if_pos hw, hy.sreg, hw]
    have hheld := Memory.holds_write hc.1 (ocAddr o) (leBytes 4 (c.sreg k r).toNat)
    rw [← hmem] at hheld ⊢
    exact ⟨hstall 0, hheld⟩
  · refine State.gives_cache (f := fun k c b => c.storeOc k b r o) (ve := o.ve) h rfl rfl (Core.useCache_wait rfl (hwait.symm ▸ hw)) hy.stopped
      fun t ⟨htmem, _, _, htseq, htframe⟩ => ?_
    rw [htframe, htmem, htseq, if_neg hw, hwait, hy.sreg]
    exact ⟨hstall w, hmem, congrArg (· ++ _) hwords⟩

theorem State.gives_sld (hs : (s.core a.core).seq.shaped) (hm : (s.core a.core).missing [lineOf (ocAddr o)] [] = [])
    (h : s.issues a (.sld a r o false) cyc) (hc : (s.core a.core).seq.clearOf (.sreg r)) :
    let c := s.core a.core
    let k := s.ctxAt a.core cyc
    let w := c.cacheWait k ⟨a.core, a.bundle, false⟩ o.ve
    s.gives (.sld a r o false) fun t => (t.core a.core).frame.stalls = c.frame.stalls + w ∧
      if w = 0 then (t.core a.core).mem = c.mem ∧
        s.givesScalar t a.core cyc r (BitVec.ofNat 32 (leNat (c.read k (ocAddr o) 4))) (ocLat k)
      else (t.core a.core).mem = c.mem ∧ (t.core a.core).seq.words =
        c.seq.words ++ [⟨cyc + w, some r, ocAddr o, 0#32, cyc + ocLat k + w, a.bundle, false⟩] := by
  intro c k w
  let y := s.foundCache a (.sld a r o false) cyc o.ve
  have hy : c.atBundle y := s.atBundle_foundCache a _ cyc _
  obtain ⟨-, hmem, -⟩ := s.arrived_engines a (.sld a r o false) cyc
  obtain ⟨-, hwords, -⟩ := s.arrived_seq a (.sld a r o false) cyc
  have hread : y.read k (ocAddr o) 4 = c.read k (ocAddr o) 4 := (s.readsAs_arrived a (.sld a r o false) cyc).read k _ _
  obtain ⟨hwait, hmiss⟩ : y.cacheWait k ⟨a.core, a.bundle, false⟩ o.ve = w ∧ _ := s.foundCache_waits a (.sld a r o false) cyc o
  have hstall : ∀ n, y.frame.stalls + n = c.frame.stalls + n := fun n => by rw [hy.frame]
  by_cases hw : w = 0
  · refine State.gives_cache (f := fun k c b => c.loadOc k b r o false) (ve := o.ve) h rfl rfl
      (Core.useCache_load rfl (hwait.trans hw) (hmiss.trans hm)) hy.stopped
      fun t ⟨htmem, _, _, htseq, htframe⟩ => ?_
    rw [hread] at htseq
    rw [htframe, htmem, if_pos hw, hw]
    refine ⟨hstall 0, hmem, State.givesScalar_of fun k' => ?_⟩
    have hclear : y.seq.clearOf (.sreg r) := by rw [Seq.clearOf, hy.coming]; exact hc
    rw [← hy.sreg, Core.sreg, htseq, Core.sreg, Seq.settle_sreg _ _ hclear]
    split
    · rfl
    · next hr => exact Seq.settle_place_sreg _ r _ _ _ hr (by rw [hy.sregs]; exact hs.1) hclear
  · refine State.gives_cache (f := fun k c b => c.loadOc k b r o false) (ve := o.ve) h rfl rfl
      (Core.useCache_wait rfl (hwait.symm ▸ hw)) hy.stopped
      fun t ⟨htmem, _, _, htseq, htframe⟩ => ?_
    rw [htframe, htmem, htseq, if_neg hw, hwait]
    exact ⟨hstall w, hmem, congrArg (· ++ _) hwords⟩

end Word

/-- Settles O11: an SST or SLD whose cache is free takes its word at its issue, and one whose cache is not leaves it to be taken. -/
theorem operandCacheWords : Obligations.OperandCacheWords := by
  intro s a cyc r o hc hs c k addr w lat later hm
  have hlat : ocLat k = lat := by rw [ocLat, s.tc1_ctxAt]
  refine ⟨fun h => ?_, fun h hclear => ?_⟩
  · have hgives := State.gives_sst (o := o) hc hm h
    dsimp only at hgives
    rw [hlat] at hgives
    exact hgives
  · have hgives := State.gives_sld (o := o) hs hm h hclear
    dsimp only at hgives
    rw [hlat] at hgives
    exact hgives

end Sys2Proof.Machine
end

section
/-! O9: LOOPI, LOOPR, WAITX and its release (R21, R233–R235, R239). -/

namespace Sys2Proof.Machine

variable {x y z : Core} {k : Ctx} {s : State} {a : Site} {i : Instr} {cyc : Nat}

/-! ## The loops' counters -/

theorem Seq.after_lc_length (q : Seq) (n : Nat) (l : List LoopFrame) : (q.after n l).lc.length = q.lc.length := by
  induction l with
  | nil => rfl
  | cons f l ih =>
    unfold Seq.after
    split
    · split
      · exact length_setAt _ _ _
      · exact ih
    · rfl

theorem Core.goTo_lc_length {b n m : Nat} {q : Seq} {r : Seq × Nat} (h : x.goTo b n q m = some r) : r.1.lc.length = q.lc.length := by
  induction n generalizing q m with
  | zero => cases h
  | succ n ih =>
    unfold Core.goTo at h
    split at h
    · cases h
      rfl
    · split at h
      · exact (ih h).trans (q.after_lc_length _ _)
      · cases h

/-- The arrival at a bundle keeps the number of the loops' counters. -/
theorem State.arrived_lc_length (s : State) (a : Site) (i : Instr) (n : Nat) :
    (s.arrived a i n).seq.lc.length = (s.core a.core).seq.lc.length := by
  unfold State.arrived Core.arrive
  split
  · rfl
  · cases hl : (s.core a.core).inLine a.bundle.toNat with
    | none => rfl
    | some r => exact (Core.goTo_lc_length hl).trans (Seq.after_lc_length _ _ _)

/-! ## LOOPI and LOOPR -/

/-- A loop of `all` iterations is open at the end of the instruction's bundle, or, of none, has been passed. -/
def Seq.opened (q p : Seq) (b : Nat) (lc : BitVec 2) (lenm1 : BitVec 9) (all active : Nat) (shadow : Bool) : Prop :=
  if all = 0 then q.loops = p.loops ∧ q.prev = b + lenm1.toNat + 1
  else q.loops = ⟨lc, b + 1, b + lenm1.toNat + 1, 0, all, active, shadow⟩ :: p.loops ∧ q.prev = b ∧ q.lc.getD lc.toNat 0#32 = 0#32

theorem Core.loop_opened {b : At} {lc : BitVec 2} {lenm1 : BitVec 9} {all active : Nat} (h : x.seq.lc.length = 4) :
    (x.loop b lc lenm1 all active).seq.opened x.seq b.bundle.toNat lc lenm1 all active b.supp := by
  have := lc.isLt
  unfold Seq.opened Core.loop
  split
  · exact ⟨rfl, rfl⟩
  · exact ⟨rfl, rfl, getD_setAt_self _ _ _ (by omega)⟩

theorem Core.loop_keeps (x : Core) (b : At) (lc : BitVec 2) (lenm1 : BitVec 9) (all active : Nat) :
    (x.loop b lc lenm1 all active).regs = x.regs ∧ (x.loop b lc lenm1 all active).seq.stopped = x.seq.stopped := by
  unfold Core.loop
  dsimp only
  split <;> exact ⟨rfl, rfl⟩

theorem State.gives_loopi {lc : BitVec 2} {lenm1 : BitVec 9} {count : BitVec 12} (hl : (s.core a.core).seq.lc.length = 4)
    (h : s.reaches a (.loopi a lc lenm1 count) cyc) :
    s.gives (.loopi a lc lenm1 count) fun t => (t.core a.core).seq.opened (s.arrived a (.loopi a lc lenm1 count) cyc).seq a.bundle.toNat lc
      lenm1 count.toNat count.toNat (s.suppresses a (.loopi a lc lenm1 count) cyc) := by
  let y := s.found a (.loopi a lc lenm1 count) cyc (cyc + 1)
  have hy := s.atBundle_found a (.loopi a lc lenm1 count) cyc (cyc + 1)
  have hst : y.seq.stopped = false := hy.stopped.trans h.2.2.1
  refine h.gives_slot0 rfl (y.loop ⟨a.core, a.bundle, s.suppresses a _ cyc⟩ lc lenm1 count.toNat count.toNat) rfl rfl
    ((y.loop_keeps _ _ _ _ _).2.trans hst) fun t ⟨_, _, _, hseq, _⟩ => ?_
  rw [hseq]
  exact Core.loop_opened (x := y) ((s.arrived_lc_length a _ cyc).trans hl)

theorem State.gives_loopr {lc : BitVec 2} {lenm1 : BitVec 9} {rs rm : BitVec 5} (hc : (s.core a.core).canonical)
    (hl : (s.core a.core).seq.lc.length = 4) (h : s.reaches a (.loopr a lc lenm1 rs rm) cyc) :
    let c := s.core a.core
    let m := if rm = 0#5 then 0 else (c.seq.spre.getD rm.toNat 0#32).toNat
    let n := (c.sreg (s.ctxAt a.core cyc) rs).toNat
    s.gives (.loopr a lc lenm1 rs rm) fun t =>
      (t.core a.core).seq.opened (s.arrived a (.loopr a lc lenm1 rs rm) cyc).seq a.bundle.toNat lc lenm1 m (min n m)
        (s.suppresses a (.loopr a lc lenm1 rs rm) cyc) ∧
      if m < n ∧ s.suppresses a (.loopr a lc lenm1 rs rm) cyc = false then
        (t.core a.core).rf 0x2000 31 16 = 0x020F ∧
          ((t.core a.core).reg 0x200C).toNat = min ((c.reg 0x200C).toNat + 1) 0xFFFFFFFF
      else (t.core a.core).reg 0x2000 = c.reg 0x2000 ∧ (t.core a.core).reg 0x200C = c.reg 0x200C := by
  intro c m n
  let i := Instr.loopr a lc lenm1 rs rm
  let supp := s.suppresses a i cyc
  let y := s.found a i cyc (cyc + 1)
  have hy : c.atBundle y := s.atBundle_found a i cyc (cyc + 1)
  have hst : y.seq.stopped = false := hy.stopped.trans h.2.2.1
  obtain ⟨-, -, -, hspre⟩ := s.arrived_seq a i cyc
  let w := if m < n && !supp then (y.raise 0 0x020F#16).bump 0x200C 1 else y
  have hw : w.seq = y.seq := by
    show (if _ then _ else _ : Core).seq = _
    split <;> rfl
  have hz : y.loopR (s.ctxAt a.core cyc) ⟨a.core, a.bundle, supp⟩ lc lenm1 rs rm =
      w.loop ⟨a.core, a.bundle, supp⟩ lc lenm1 m (min n m) := by
    have hm : (if rm = 0#5 then 0 else (y.seq.spre.getD rm.toNat 0#32).toNat) = m := by
      show (if rm = 0#5 then 0 else ((s.arrived a i cyc).seq.spre.getD rm.toNat 0#32).toNat) = m
      rw [hspre]
    have hmin : (if n < m then n else m) = min n m := by split <;> omega
    unfold Core.loopR
    dsimp only
    rw [hm, hy.sreg, hmin]
  refine h.gives_slot0 rfl _ rfl hz ((w.loop_keeps _ _ _ _ _).2.trans (by rw [hw]; exact hst)) fun t ⟨_, hregs, _, hseq, _⟩ => ⟨?_, ?_⟩
  · rw [hseq]
    have hopened := Core.loop_opened (x := w) (b := ⟨a.core, a.bundle, supp⟩) (lc := lc) (lenm1 := lenm1) (all := m) (active := min n m)
      (by rw [hw]; exact (s.arrived_lc_length a i cyc).trans hl)
    rw [hw] at hopened
    exact hopened
  · have hregs' : (t.core a.core).regs = w.regs := hregs.trans (w.loop_keeps _ _ _ _ _).1
    have hreg := Core.reg_congr hregs'
    by_cases hclamp : m < n ∧ supp = false
    · have hwe : w = (y.raise 0 0x020F#16).bump 0x200C 1 := if_pos (by simpa using hclamp)
      have hcy := (hy.canonical hc).raise (u := 0) (code := 0x020F#16)
      rw [if_pos hclamp, Core.rf, hreg, hreg, hwe]
      refine ⟨?_, ?_⟩
      · rw [Core.reg_bump_ne _ _ (by decide)]
        exact Core.rf_setRf_self (a := 0x2000) (hy.canonical hc) (by decide) (by decide)
      · rw [Core.bump, Core.reg_setReg_self hcy.regs_wf, toNat_satAdd32_one]
        congr 3
        exact (Core.reg_setRf_ne (a := 0x2000) _ 31 16 _ (by decide)).trans (hy.reg _ (by decide))
    · have hwe : w = y := if_neg (by simpa using hclamp)
      rw [if_neg hclamp, hreg, hreg, hwe]
      exact ⟨hy.reg _ (by decide), hy.reg _ (by decide)⟩

/-! ## The bundle behind a body's last (R233) -/

/-- The bundle behind which the sequencer is, is next in line. -/
theorem Core.inLine_next {b : Nat} (h : (x.seq.after x.seq.prev x.seq.loops).prev + 1 = b) :
    x.inLine b = some (x.seq.after x.seq.prev x.seq.loops, x.seq.nextAt) := by
  have hstep : ∀ n, x.goTo b (n + 1) (x.seq.after x.seq.prev x.seq.loops) x.seq.nextAt =
      some (x.seq.after x.seq.prev x.seq.loops, x.seq.nextAt) := fun n => by rw [Core.goTo, if_pos h]
  exact hstep 0xFFFFF

/-- What arrives at the next bundle in line finds the loops as the sequencer closes or repeats them. -/
theorem State.arrived_next (hi : slotNo i = 0)
    (hb : ((s.core a.core).seq.after (s.core a.core).seq.prev (s.core a.core).seq.loops).prev + 1 = a.bundle.toNat) :
    (s.arrived a i cyc).seq.lc = ((s.core a.core).seq.after (s.core a.core).seq.prev (s.core a.core).seq.loops).lc ∧
      (s.arrived a i cyc).seq.loops = ((s.core a.core).seq.after (s.core a.core).seq.prev (s.core a.core).seq.loops).loops ∧
      (s.arrived a i cyc).seq.prev = a.bundle.toNat := by
  unfold State.arrived Core.arrive
  rw [hi, if_neg (by rw [Core.sameIssue_slot0]; decide), Core.inLine_next hb]
  exact ⟨rfl, rfl, rfl⟩

/-- A MOVLC that is next in line leaves the loops so. -/
theorem State.gives_movlc {rd : BitVec 5} {lc : BitVec 2} (h : s.reaches a (.movlc a rd lc) cyc) {q : Seq}
    (hq : (s.core a.core).seq.after (s.core a.core).seq.prev (s.core a.core).seq.loops = q) (hb : q.prev + 1 = a.bundle.toNat) :
    s.gives (.movlc a rd lc) fun t =>
      (t.core a.core).seq.lc = q.lc ∧ (t.core a.core).seq.loops = q.loops ∧ (t.core a.core).seq.prev = a.bundle.toNat := by
  let v : Ctx → Core → Word := fun _ c => c.seq.lc.getD lc.toNat 0#32
  have g : GivesResult a (.movlc a rd lc) (.sreg rd) v fun _ => scalarLat := ⟨fun _ => rfl, rfl⟩
  obtain ⟨t, ht, -, -, hseq⟩ := g.left h
  obtain ⟨hlc, hloops, hprev⟩ := s.resultOf_place a (.movlc a rd lc) cyc (.sreg rd) v fun _ => scalarLat
  subst hq
  obtain ⟨hlc', hloops', hprev'⟩ := State.arrived_next (i := .movlc a rd lc) (cyc := cyc) rfl hb
  exact ⟨t, ht, by rw [hseq, hlc, hlc'], by rw [hseq, hloops, hloops'], by rw [hseq, hprev, hprev']⟩

/-- Behind the last bundle of a body with iterations left is its first, in the next iteration. -/
theorem Seq.after_repeats {q : Seq} {f : LoopFrame} {rest : List LoopFrame} (hq : q.loops = f :: rest) (hp : q.prev = f.last)
    (hf : f.iter + 1 < f.all) : q.after q.prev q.loops = { q with
      prev := f.first - 1, loops := { f with iter := f.iter + 1 } :: rest, lc := setAt q.lc f.lc.toNat (BitVec.ofNat 32 (f.iter + 1)) } := by
  rw [hq, hp, Seq.after, if_pos rfl, if_pos hf]

/-- Behind the last bundle of the only body, with no iteration left, is the next bundle. -/
theorem Seq.after_closes {q : Seq} {f : LoopFrame} (hq : q.loops = [f]) (hp : q.prev = f.last) (hf : f.all ≤ f.iter + 1) :
    q.after q.prev q.loops = { q with prev := f.last, loops := [] } := by
  rw [hq, hp, Seq.after, if_pos rfl, if_neg (Nat.not_lt.2 hf), Seq.after]

/-! ## WAITX and its release (R239) -/

theorem State.gives_waitx {ec : BitVec 4} {w : WaitCount} {v : Ctx → Core → Word} {n : Word} (hc : (s.core a.core).canonical)
    (h : s.issues a (.waitx a ec w) cyc)
    (hx : exec (.waitx a ec w) s = .next (s.issue a (.waitx a ec w) fun k c b => c.waitX k b ec (v k c)))
    (hv : v (s.ctxAt a.core cyc) (s.arrived a (.waitx a ec w) cyc) = n) :
    let c := s.core a.core
    let off := 0x20C0 + 4 * ec.toNat
    s.gives (.waitx a ec w) fun t =>
      if n.toNat ≤ (c.reg off).toNat then (t.core a.core).reg off = c.reg off - n ∧ (t.core a.core).seq.waiting = c.seq.waiting
      else (t.core a.core).reg off = c.reg off ∧ (t.core a.core).rf 0x2000 1 1 = 1 ∧ (t.core a.core).rf 0x2000 5 2 = ec.toNat ∧
        ∃ x, (t.core a.core).seq.waiting = some x ∧ x.ec = ec ∧ x.n = n ∧ x.since = cyc := by
  intro c off
  let k := s.ctxAt a.core cyc
  let y := s.arrived a (.waitx a ec w) cyc
  have hy : c.atBundle y := s.atBundle_arrived a _ cyc
  obtain ⟨-, -, hwaiting, -⟩ := s.arrived_seq a (.waitx a ec w) cyc
  have hcy := hy.canonical hc
  have hst : y.seq.stopped = false := hy.stopped.trans h.1.2.2.1
  have hoff : 0x2000 ≠ off := by omega
  have hcnt : y.reg off = c.reg off := hy.reg off (by omega)
  by_cases h0 : n = 0#32
  · -- A count of 0 neither subtracts nor holds.
    have hz : y.waitX k ⟨a.core, a.bundle, false⟩ ec n = y := by rw [Core.waitX, if_neg Bool.false_ne_true, if_pos h0]
    refine h.1.gives_slot0 rfl y hx (by rw [h.2, hv]; exact hz) hst fun t ⟨_, hregs, _, hseq, _⟩ => ?_
    rw [if_pos (by simp [h0]), Core.reg_congr hregs, hseq, hcnt, h0, BitVec.sub_zero]
    exact ⟨rfl, hwaiting⟩
  · by_cases hle : n.toNat ≤ (c.reg off).toNat
    · have hz : y.waitX k ⟨a.core, a.bundle, false⟩ ec n = y.setReg off (y.reg off - n) := by
        rw [Core.waitX, if_neg Bool.false_ne_true, if_neg h0]
        exact if_pos (by rw [BitVec.le_def]; exact hcnt ▸ hle)
      refine h.1.gives_slot0 rfl (y.setReg off (y.reg off - n)) hx (by rw [h.2, hv]; exact hz) hst fun t ⟨_, hregs, _, hseq, _⟩ => ?_
      rw [if_pos hle, Core.reg_congr hregs, hseq, Core.reg_setReg_self hcy.regs_wf, hcnt]
      exact ⟨rfl, hwaiting⟩
    · let x := (y.setRf 0x2000 1 1 1).setRf 0x2000 5 2 ec.toNat
      let waiting : Waiting := ⟨ec, n, k.clock, k.clock + x.waitCount k ec.toNat⟩
      let z : Core := { x with seq := { x.seq with waiting := some waiting } }
      have hz : y.waitX k ⟨a.core, a.bundle, false⟩ ec n = z := by
        rw [Core.waitX, if_neg Bool.false_ne_true, if_neg h0]
        exact if_neg (by rw [BitVec.le_def]; exact hcnt ▸ hle)
      have hcx := hcy.setRf (a := 0x2000) (hi := 1) (lo := 1) (v := 1)
      refine h.1.gives_slot0 rfl z hx (by rw [h.2, hv]; exact hz) hst fun t ⟨_, hregs, _, hseq, _⟩ => ?_
      have hrf := Core.rf_congr (x := x) hregs
      rw [if_neg hle, hseq, hrf, hrf, Core.reg_congr (x := x) hregs]
      refine ⟨?_, ?_, ?_, _, rfl, rfl, rfl, rfl⟩
      · exact (Core.reg_setRf_ne _ _ _ _ hoff).trans ((Core.reg_setRf_ne _ _ _ _ hoff).trans hcnt)
      · exact (Core.rf_setRf_ne hcx (by decide) (by decide) (.inr (.inl (by decide)))).trans (Core.rf_setRf_self hcy (by decide) (by decide))
      · exact (Core.rf_setRf_self hcx (by decide) (by decide)).trans (Nat.mod_eq_of_lt ec.isLt)

theorem State.gives_waitxRelease {c : CoreId} {x : Waiting} (hc : (s.core c).canonical) (hw : (s.core c).seq.waiting = some x)
    (hd : ∀ d ∈ (s.core c).allDues, s.clock < d.1) (hn : x.n.toNat ≤ ((s.core c).reg (0x20C0 + 4 * x.ec.toNat)).toNat) :
    s.gives (.waitxRelease c) fun t =>
      (t.core c).reg (0x20C0 + 4 * x.ec.toNat) = (s.core c).reg (0x20C0 + 4 * x.ec.toNat) - x.n ∧
      (t.core c).seq.waiting = none ∧ (t.core c).seq.nextAt = s.clock + 1 ∧ (t.core c).rf 0x2000 1 1 = 0 ∧
      (t.core c).frame.waitLate = (s.core c).frame.waitLate + (s.clock + 1 - x.budgetEnd) := by
  let y := s.core c
  let off := 0x20C0 + 4 * x.ec.toNat
  let z := (y.setReg off (y.reg off - x.n)).setRf 0x2000 1 1 0
  have hsettle : s.settle [c] s.clock = s := State.settle_eq_self fun c' hc' => by
    rw [List.mem_singleton.1 hc']
    exact hd
  have hz : y.waitRelease (s.tick1.ctx c) = { z with
      seq := { z.seq with waiting := none, nextAt := s.clock + 1 }
      frame := { z.frame with waitLate := z.frame.waitLate + (s.clock + 1 - x.budgetEnd) } } := by
    rw [Core.waitRelease, hw]
    exact if_pos (by rw [BitVec.le_def]; exact hn)
  obtain ⟨hcore, -⟩ := State.onCore_spec s c fun k x => x.waitRelease k
  obtain ⟨hregs, -, -, hseq, hframe, -⟩ := State.coreAfter_fields s c fun k x => x.waitRelease k
  refine ⟨_, rfl, ?_⟩
  dsimp only
  rw [hsettle, hcore, hseq, hframe, Core.rf_congr hregs, Core.reg_congr hregs]
  rw [show (s.core c).waitRelease (s.tick1.ctx c) = _ from hz]
  refine ⟨?_, rfl, rfl, Core.rf_setRf_self hc.setReg (by decide) (by decide), rfl⟩
  exact (Core.reg_setRf_ne _ _ _ _ (by omega)).trans (Core.reg_setReg_self hc.regs_wf _ _)

/-- Settles O9: LOOPI and LOOPR open their loop, the sequencer repeats or closes it behind its last bundle, WAITX subtracts or holds,
and its release subtracts and lets issue go on. -/
theorem loopsAndWaits : Obligations.LoopsAndWaits := by
  refine ⟨?_, ?_, ?_, ?_⟩
  · intro s a cyc lc lenm1 count rs rm hc hl c b opens i j m n
    exact ⟨State.gives_loopi hl, State.gives_loopr hc hl⟩
  · intro s a cyc rd f rest c i hl hloops hprev hfirst h
    refine ⟨fun hf => ?_, fun hf hrest => ?_⟩
    · have hq := Seq.after_repeats hloops hprev hf
      refine ⟨?_, fun hb => ?_⟩
      · rw [Core.inLine_next (by rw [hq]; exact Nat.sub_add_cancel hfirst)]
        exact Option.some_ne_none _
      · obtain ⟨t, ht, hlc, hls, hp⟩ := State.gives_movlc h hq (by rw [hb]; exact Nat.sub_add_cancel hfirst)
        have := f.lc.isLt
        exact ⟨t, ht, hls, hp.trans hb, by rw [hlc]; exact getD_setAt_self _ _ _ (by omega)⟩
    · subst hrest
      have hq := Seq.after_closes hloops hprev hf
      refine ⟨?_, fun hb => ?_⟩
      · rw [Core.inLine_next (by rw [hq])]
        exact Option.some_ne_none _
      · obtain ⟨t, ht, hlc, hls, -⟩ := State.gives_movlc h hq hb.symm
        exact ⟨t, ht, hls, hlc⟩
  · intro s a cyc ec w h hc
    cases w with
    | reg rs => exact State.gives_waitx (v := fun k c => c.sreg k rs) hc h rfl ((s.atBundle_arrived a _ cyc).sreg _ rs)
    | imm n => exact State.gives_waitx (v := fun _ _ => n.setWidth 32) hc h rfl rfl
  · intro s c x hc hw hd off hn
    exact State.gives_waitxRelease hc hw hd hn

end Sys2Proof.Machine
end

section
/-! O14: START (R223, R244, R246, R247). -/

namespace Sys2Proof.Machine

variable {x y z : Core} {k : Ctx} {s : State} {a : Site} {i : Instr} {cyc : Nat}

/-! ## The channel is free (R223, R246) -/

theorem le_maxOf {l : List Nat} {n : Nat} (h : n ∈ l) : n ≤ maxOf l := by
  have grows : ∀ (l : List Nat) (m : Nat), m ≤ l.foldl (fun a b => if a < b then b else a) m ∧
      ∀ n ∈ l, n ≤ l.foldl (fun a b => if a < b then b else a) m := by
    intro l
    induction l with
    | nil => exact fun m => ⟨Nat.le_refl m, by simp⟩
    | cons b l ih =>
      intro m
      obtain ⟨hm, hl⟩ := ih (if m < b then b else m)
      have hb : m ≤ (if m < b then b else m) ∧ b ≤ if m < b then b else m := by split <;> omega
      refine ⟨hb.1.trans hm, fun n hn => ?_⟩
      rcases List.mem_cons.1 hn with rfl | hn
      · exact hb.2.trans hm
      · exact hl n hn
  exact (grows l 0).2 n h

/-- What opens its bundle issues no sooner than what it waits for is free. -/
theorem Core.freeFor_le (h : x.issueCycle a i = some cyc) (hs : x.sameIssue a.bundle (slotNo i) = false) {n : Need} (hn : n ∈ x.needsOf i) :
    x.freeFor n ≤ cyc := by
  unfold Core.issueCycle at h
  rw [hs, if_neg (by decide)] at h
  split at h
  · cases h
  · obtain ⟨r, -, rfl⟩ := Option.map_eq_some_iff.1 h
    refine le_maxOf (List.mem_cons_of_mem _ (List.mem_map_of_mem ?_))
    rw [List.flatMap_cons]
    exact List.mem_append_left _ hn

/-- With all but seven of a channel's descriptors complete, no more than seven are in flight. -/
theorem DmaCh.countP_dueNow_le {q : DmaCh} (h : q.doneBy (q.inflight.length - 7) ≤ cyc) :
    (q.inflight.countP fun o => decide (cyc < o.dueNow)) ≤ 7 := by
  have hdone : ((q.inflight.take (q.inflight.length - 7)).countP fun o => decide (cyc < o.dueNow)) = 0 := by
    refine List.countP_eq_zero.2 fun o ho => ?_
    have := le_maxOf (List.mem_map_of_mem (f := DmaOp.dueNow) ho)
    unfold DmaCh.doneBy at h
    simp only [decide_eq_true_eq]
    omega
  rw [← List.take_append_drop (q.inflight.length - 7) q.inflight, List.countP_append, hdone, Nat.zero_add]
  refine (List.countP_le_length).trans ?_
  rw [List.length_drop]
  omega

/-! ## The issue of a START -/

/-- The core that an instruction leaves that reaches its issue, whatever it does there. -/
theorem State.reaches.core_with (h : s.reaches a i cyc) (g : Ctx → At → State → State) :
    let k := s.ctxAt a.core cyc
    let u := g k ⟨a.core, a.bundle, s.suppresses a i cyc⟩ (((s.atCycle cyc).tick1).setCore a.core (s.arrived a i cyc))
    let w := (u.core a.core).joinPorts i (s.core a.core).inflight.length
    (s.issueWith a i g).core a.core = (if decide (slotNo i ≠ 0) || w.seq.stopped then w.checkRetire k else w).drained := by
  intro k u w
  have hopen := h.reopen
  obtain ⟨hc, hd, -, -, hl⟩ := h
  have hcore : ((s.atCycle cyc).tick1).core a.core = s.core a.core := State.core_congr (by simp) _
  have hrun : s.issueWith a i g = (((u.setCore a.core
      (if decide (slotNo i ≠ 0) || w.seq.stopped then w.checkRetire k else w)).drainReports a.core).meter cyc) := by
    rw [State.issueWith_eq _ hc hd hl]
    unfold State.perform
    dsimp only
    rw [hcore, hopen]
    rfl
  rw [hrun, State.core_congr (State.meter_spec _ _).1, State.core_congr (State.drainReports_spec _ _).1, State.core_setCore_self,
    State.core_setCore_self]

/-- What is about to arrive in the cores' memories changes what is in flight there, and nothing else of a core. -/
theorem State.disturbBy_core (own c : CoreId) (rows : List DmaRow) (s : State) :
    ∃ l, (s.disturbBy own rows).core c = { s.core c with inflight := l } := by
  have one : ∀ (s : State) (d : CoreId) n runs, ∃ l, (s.setCore d ((s.core d).disturb n runs)).core c = { s.core c with inflight := l } := by
    intro s d n runs
    by_cases hd : c = d
    · rw [hd, State.core_setCore_self]
      exact ⟨_, rfl⟩
    · rw [State.core_setCore_ne _ _ hd]
      exact ⟨_, rfl⟩
  induction rows generalizing s with
  | nil => exact ⟨_, rfl⟩
  | cons r rows ih =>
    have hr : ∃ l, (s.disturbBy own [r]).core c = { s.core c with inflight := l } := by
      simp only [State.disturbBy, List.foldl_cons, List.foldl_nil]
      split
      · exact one s own _ _
      · exact one s _ _ _
      · exact ⟨_, rfl⟩
    obtain ⟨l, hl⟩ := hr
    obtain ⟨m, hm⟩ := ih (s.disturbBy own [r])
    exact ⟨m, by rw [show s.disturbBy own (r :: rows) = (s.disturbBy own [r]).disturbBy own rows from rfl, hm, hl]⟩

/-- The descriptor of a START, as the frame store holds it. -/
def Core.dmaDesc (c : Core) (di : BitVec 12) : Desc := descOf (Memory.read c.mem (bundleAddr (c.rf 0x2010 12 0 + di.toNat)) 32)

/-- A START's figures: what it says of itself in flight, unsuppressed and met by no fault. -/
def DmaOp.startedBy (o : DmaOp) (k : Ctx) (d : Desc) (di : BitVec 12) : Prop :=
  o.desc = di.toNat ∧ o.code = 0#16 ∧ o.supp = false ∧ o.issue = k.clock ∧ o.due = k.clock + d.fixed k.tc1 + d.moves

/-- A START that issues, unsuppressed, with a good descriptor and with its override values in their spans, is behind the channel's
others. -/
theorem State.startDma_core {b : At} {ch : BitVec 2} {di : BitVec 12} {use : Bool} (hx : s.core b.core = x) (hb : b.supp = false)
    (hm : x.missing [lineOf (bundleAddr (x.rf 0x2010 12 0 + di.toNat))] [] = [])
    (hl : use = true → (x.dmaDesc di).ovrL = true → (x.override k ch false).toNat < (x.dmaDesc di).lspan)
    (hr : use = true → (x.dmaDesc di).ovrR = true → (x.override k ch true).toNat < (x.dmaDesc di).rspan) :
    ∃ op free l, op.startedBy k (x.dmaDesc di) di ∧ (s.startDma k b ch di use false).core b.core = Core.drained
      { (Core.showDma { x with dma := setAt x.dma ch.toNat ⟨(x.dma.getD ch.toNat DmaCh.reset).inflight ++ [op], free⟩ } ch.toNat) with
        inflight := l } := by
  subst hx
  unfold State.startDma
  extract_lets c x i line bad raw d halted ovl ovr range quiet places reads clipped code op old x₁ x₂ x₃ s₁
  have hbad : bad = false := by
    show (!(x.missing [line] (if false = true then [line] else [])).isEmpty) = false
    rw [if_neg Bool.false_ne_true]
    show (!(x.missing [lineOf (bundleAddr (x.rf 0x2010 12 0 + di.toNat))] []).isEmpty) = false
    rw [hm]
    rfl
  have hd : d = x.dmaDesc di := by
    show descOf (if bad = true then _ else _) = _
    rw [hbad]
    rfl
  have hrange : range = false := by
    rw [Bool.eq_false_iff]
    intro h
    simp only [range, Bool.and_eq_true, Bool.or_eq_true, decide_eq_true_eq] at h
    obtain ⟨⟨⟨⟨huse, -⟩, -⟩, -⟩, ⟨hL, hle⟩ | ⟨hR, hle⟩⟩ := h
    · have hovl : ovl = (x.override k ch false).toNat := if_pos (by rw [huse, hL]; rfl)
      rw [hd] at hL hle
      exact absurd (hl huse hL) (Nat.not_lt.2 (hovl ▸ hle))
    · have hovr : ovr = (x.override k ch true).toNat := if_pos (by rw [huse, hR]; rfl)
      rw [hd] at hR hle
      exact absurd (hr huse hR) (Nat.not_lt.2 (hovr ▸ hle))
  have hcode : code = 0#16 := by
    show (if (b.supp || halted) = true then 0#16 else if bad = true then 0x0403#16 else if range = true then 0x0211#16 else 0#16) = 0#16
    rw [hbad, hrange]
    exact ite_self _
  have hx₃ : x₃ = x₁ := by
    show (if range = true then _ else if (bad && !b.supp && !halted) = true then _ else x₁) = x₁
    rw [hrange, hbad]
    rfl
  obtain ⟨l, hdisturb⟩ := State.disturbBy_core c c op.rows (s.setCore c x₃)
  rw [State.core_setCore_self, hx₃] at hdisturb
  have hs₁ : s₁.core c = Core.drained { x₁ with inflight := l } := by
    show (State.drainReports _ c).core c = _
    rw [State.core_congr (State.drainReports_spec _ _).1, State.core_setCore_self, hx₃, hdisturb]
  have hclipped : (if clipped = true then s₁.bumpG 0x7020C 1 else s₁).core c = s₁.core c := by
    split
    · exact State.core_congr rfl c
    · rfl
  exact ⟨op, k.clock + d.moves, l, ⟨rfl, hcode, hb, rfl, by rw [← hd]⟩, hclipped.trans hs₁⟩

/-- The descriptor that a START puts behind a channel's others joins the ports there. -/
theorem Core.joinPorts_channel {ch : Nat} (hi : channelOf i = some ch) (hch : ch < z.dma.length) {l : List DmaOp} {op : DmaOp}
    (hz : (z.dma.getD ch DmaCh.reset).inflight = l ++ [op]) (n : Nat) :
    ∃ l' hit, ((z.joinPorts i n).dma.getD ch DmaCh.reset).inflight = l' ++ [{ op with contended := hit }] ∧
      l'.map (fun o => { o with contended := false }) = l.map fun o => { o with contended := false } := by
  let others : Core := { z with dma := setAt z.dma ch { z.dma.getD ch DmaCh.reset with inflight := l } }
  let meets (o : DmaOp) : DmaOp := if others.contends o.ports op.ports then { o with contended := true } else o
  let d := others.crowd op.ports
  have hd : d.dma.getD ch DmaCh.reset = { z.dma.getD ch DmaCh.reset with inflight := l.map meets } := by
    show (others.dma.map _).getD ch _ = _
    rw [List.getD_eq_getElem _ _ (by simpa [others] using hch), List.getElem_map,
      ← List.getD_eq_getElem _ DmaCh.reset (by simpa [others] using hch), getD_setAt_self _ _ _ hch]
  refine ⟨l.map meets, z.contends op.ports (others.portsInUse ++ z.visitors), ?_, ?_⟩
  · unfold Core.joinPorts
    rw [hi]
    simp only [hz, List.getLast?_append, List.getLast?_singleton, Option.some_or, List.dropLast_concat]
    show ((setAt d.dma ch { z.dma.getD ch DmaCh.reset with inflight := (d.dma.getD ch DmaCh.reset).inflight ++ [_] }).getD ch _).inflight = _
    rw [getD_setAt_self _ _ _ (by simpa [d, others, Core.crowd] using hch), hd]
  · rw [List.map_map]
    refine List.map_congr_left fun o _ => ?_
    simp only [Function.comp, meets]
    split <;> rfl

theorem Core.checkRetire_dma {ch : Nat} (hch : ch < x.dma.length) (h : (x.dma.getD ch DmaCh.reset).inflight ≠ []) (k : Ctx) :
    x.checkRetire k = x := by
  refine Core.checkRetire_eq_self ?_
  have hall : x.dma.all (fun q => q.inflight.isEmpty) = false := by
    rw [Bool.eq_false_iff]
    intro hall
    rw [List.getD_eq_getElem _ _ hch] at h
    exact h (List.isEmpty_iff.1 (List.all_eq_true.1 hall _ (List.getElem_mem hch)))
  simp [Core.quietEnd, hall]

theorem Core.joinPorts_dma_length (x : Core) (i : Instr) (n : Nat) : (x.joinPorts i n).dma.length = x.dma.length := by
  unfold Core.joinPorts
  split
  · dsimp only
    split <;> simp [Core.crowd]
  · simp [Core.crowd]

theorem State.arrived_dma (s : State) (a : Site) (i : Instr) (n : Nat) : (s.arrived a i n).dma = (s.core a.core).dma := by
  unfold State.arrived Core.arrive
  split <;> rfl

/-- A channel with something in flight shows itself busy. -/
theorem Core.showDma_busy (hx : x.canonical) {ch : Nat} (h : (x.dma.getD ch DmaCh.reset).inflight ≠ []) :
    (x.showDma ch).rf (0x2200 + 32 * ch) 0 0 = 1 := by
  have hlen : decide (0 < (x.dma.getD ch DmaCh.reset).inflight.length) = true := by simpa [List.length_pos_iff] using h
  unfold Core.showDma
  dsimp only
  rw [hlen]
  exact (Core.rf_setRf_ne hx.setRf (by decide) (by decide) (.inr (.inl (by decide)))).trans (Core.rf_setRf_self hx (by decide) (by decide))

/-- A START that issues, unsuppressed, with a good descriptor and with its override values in their spans, gives its figures. -/
theorem State.gives_start {ch : BitVec 2} {di : BitVec 12} {use : Bool} (hc : (s.core a.core).canonical)
    (hlen : (s.core a.core).dma.length = 4) (h : s.issues a i cyc) (hch : channelOf i = some ch.toNat)
    (hx : exec i s = .next (s.issueWith a i fun k b s => s.startDma k b ch di use false))
    (hm : (s.core a.core).missing [lineOf (bundleAddr ((s.core a.core).rf 0x2010 12 0 + di.toNat))] [] = [])
    (hl : use = true → ((s.core a.core).dmaDesc di).ovrL = true →
      ((s.core a.core).override (s.ctxAt a.core cyc) ch false).toNat < ((s.core a.core).dmaDesc di).lspan)
    (hr : use = true → ((s.core a.core).dmaDesc di).ovrR = true →
      ((s.core a.core).override (s.ctxAt a.core cyc) ch true).toNat < ((s.core a.core).dmaDesc di).rspan) :
    let c := s.core a.core
    let d := c.dmaDesc di
    s.gives i fun t => ∃ l op, ((t.core a.core).dma.getD ch.toNat DmaCh.reset).inflight = l ++ [op] ∧
      l.map (fun o => { o with contended := false }) =
        (c.dma.getD ch.toNat DmaCh.reset).inflight.map (fun o => { o with contended := false }) ∧
      op.startedBy (s.ctxAt a.core cyc) d di ∧ (t.core a.core).rf (0x2200 + 32 * ch.toNat) 0 0 = 1 ∧ (t.core a.core).mem = c.mem := by
  intro c d
  let k := s.ctxAt a.core cyc
  let y := s.arrived a i cyc
  have hy : c.atBundle y := s.atBundle_arrived a i cyc
  obtain ⟨-, hmem, -⟩ := s.arrived_engines a i cyc
  have hdma : y.dma = c.dma := s.arrived_dma a i cyc
  have hbase : y.rf 0x2010 12 0 = c.rf 0x2010 12 0 := congrArg (fld · 12 0) (hy.reg _ (by decide))
  have hdesc : y.dmaDesc di = d := by
    show descOf (Memory.read y.mem (bundleAddr (y.rf 0x2010 12 0 + di.toNat)) 32) = _
    rw [hbase, hmem]
    rfl
  have hch4 : ch.toNat < c.dma.length := by rw [hlen]; exact ch.isLt
  obtain ⟨op, free, m, hop, hcore⟩ := State.startDma_core (s := ((s.atCycle cyc).tick1).setCore a.core y) (x := y) (k := k) (ch := ch)
    (di := di) (use := use) (b := ⟨a.core, a.bundle, false⟩) (State.core_setCore_self _ _ _) rfl
    (by rw [Core.missing_congr (s.arrived_integ a i cyc), hbase]; exact hm)
    (by rw [hdesc, hy.override]; exact hl) (by rw [hdesc, hy.override]; exact hr)
  rw [hdesc] at hop
  rw [hdma] at hcore
  let x : Core := { y with dma := setAt c.dma ch.toNat ⟨(c.dma.getD ch.toNat DmaCh.reset).inflight ++ [op], free⟩ }
  let z : Core := Core.drained { x.showDma ch.toNat with inflight := m }
  have hxch : x.dma.getD ch.toNat DmaCh.reset = ⟨(c.dma.getD ch.toNat DmaCh.reset).inflight ++ [op], free⟩ := getD_setAt_self _ _ _ hch4
  have hzch : (z.dma.getD ch.toNat DmaCh.reset).inflight = (c.dma.getD ch.toNat DmaCh.reset).inflight ++ [op] := congrArg DmaCh.inflight hxch
  have hzlen : ch.toNat < z.dma.length := by
    show ch.toNat < (setAt c.dma _ _).length
    rw [length_setAt]
    exact hch4
  obtain ⟨l, hit, hjoin, hl'⟩ := Core.joinPorts_channel hch hzlen hzch (s.core a.core).inflight.length
  obtain ⟨-, -, hjregs⟩ := z.joinPorts_keeps i (s.core a.core).inflight.length
  obtain ⟨-, hjmem⟩ := z.joinPorts_engines i (s.core a.core).inflight.length
  have hleft : (s.issueWith a i fun k b s => s.startDma k b ch di use false).core a.core =
      (z.joinPorts i (s.core a.core).inflight.length).drained := by
    rw [h.1.core_with, h.2, hcore]
    show Core.drained (if _ then Core.checkRetire k (z.joinPorts i _) else z.joinPorts i _) = _
    rw [Core.checkRetire_dma (ch := ch.toNat) (by rw [Core.joinPorts_dma_length]; exact hzlen) (by rw [hjoin]; simp), ite_self]
  refine ⟨_, hx, l, { op with contended := hit }, ?_, hl', hop, ?_, ?_⟩
  · rw [hleft]
    exact hjoin
  · rw [hleft]
    refine (Core.rf_congr (x := z) hjregs _ _ _).trans ?_
    exact Core.showDma_busy (x := x) (hy.canonical hc) (by rw [hxch]; simp)
  · rw [hleft]
    exact hjmem.trans hmem

/-- Settles O14: the channel's interval and its eight places are waited for, and the START joins the channel. -/
theorem startJoinsChannel : Obligations.StartJoinsChannel := by
  intro s a cyc ch di hc hlen c k b d old i j joins
  refine ⟨fun x hx hissue hsame => ?_, fun hm hhalted => ?_⟩
  · have hneed : Need.channel ch.toNat ∈ c.needsOf x ∧ slotNo x = 6 := by
      rcases List.mem_cons.1 hx with rfl | hx
      · exact ⟨by simp [Core.needsOf, i, channelOf], rfl⟩
      · rw [List.mem_singleton.1 hx]
        exact ⟨by simp [Core.needsOf, j, channelOf], rfl⟩
    obtain ⟨hfree, hdone⟩ := Nat.max_le.1 (Core.freeFor_le hissue (by rw [hneed.2]; exact hsame) hneed.1)
    exact ⟨hfree, DmaCh.countP_dueNow_le hdone⟩
  · have start : ∀ {x : Instr} {use : Bool}, channelOf x = some ch.toNat →
        exec x s = .next (s.issueWith a x fun k b s => s.startDma k b ch di use false) →
        (use = true → d.ovrL = true → (c.override k ch false).toNat < d.lspan) →
        (use = true → d.ovrR = true → (c.override k ch true).toNat < d.rspan) → s.issues a x cyc → s.gives x joins := by
      intro x use hch hexec hL hR h
      obtain ⟨t, ht, l, op, hin, hl, ⟨hi, hcode, hsupp, hissue, hdue⟩, hbusy, hmem⟩ := State.gives_start hc hlen h hch hexec hm hL hR
      rw [s.tc1_ctxAt] at hdue
      exact ⟨t, ht, l, op, hin, hl, hi, hcode, hsupp, hissue, hdue, hbusy, hmem⟩
    exact ⟨start rfl rfl (fun h => absurd h Bool.false_ne_true) fun h => absurd h Bool.false_ne_true,
      fun hL hR => start rfl rfl (fun _ => hL) fun _ => hR⟩

end Sys2Proof.Machine
end

section
/-! SUPPORT. What falls due next on a core, and what a descriptor's completion leaves due (R246, R257). -/

namespace Sys2Proof.Machine

variable {x y z : Core} {k : Ctx} {s t u : State} {c : CoreId} {ch n : Nat}

/-! ## What falls due first -/

theorem earliest_le {α : Type} {l : List (Nat × α)} {y : Nat × α} (h : y ∈ l) : ∃ z, earliest l = some z ∧ z.1 ≤ y.1 := by
  induction l generalizing y with
  | nil => cases h
  | cons x l ih =>
    cases he : earliest l with
    | none =>
      rcases List.mem_cons.1 h with rfl | h
      · exact ⟨y, by simp [earliest, he], Nat.le_refl _⟩
      · obtain ⟨z, hz, -⟩ := ih h
        rw [he] at hz
        cases hz
    | some w =>
      have hfirst : earliest (x :: l) = if w.1 < x.1 then some w else some x := by simp only [earliest, he]
      have hw : ∀ y ∈ l, w.1 ≤ y.1 := fun y hy => by
        obtain ⟨z, hz, hle⟩ := ih hy
        rw [he] at hz
        cases hz
        exact hle
      rw [hfirst]
      rcases List.mem_cons.1 h with rfl | h
      · split
        · exact ⟨w, rfl, by omega⟩
        · exact ⟨y, rfl, Nat.le_refl _⟩
      · have := hw y h
        split
        · exact ⟨w, rfl, this⟩
        · exact ⟨x, rfl, by omega⟩

/-- Where nothing is due by a cycle, nothing more happens by then. -/
theorem State.settleUpTo_eq_self {cs : List CoreId} (h : ∀ c ∈ cs, ∀ d ∈ (s.core c).allDues, n < d.1) (m : Nat) :
    State.settleUpTo cs n m s = s := by
  cases m with
  | zero => rfl
  | succ m =>
    rw [State.settleUpTo]
    split
    · next u c d he =>
      obtain ⟨c', hc, hm⟩ := List.mem_flatMap.1 (earliest_mem he)
      obtain ⟨y, hy, hyd⟩ := List.mem_map.1 hm
      cases hyd
      rw [if_neg (Nat.not_le.2 (h _ hc y hy))]
    · rfl

/-- The one thing that is due on a core by a cycle happens, and then nothing more. -/
theorem State.settle_one {d : DueOf} (hcount : 0 < (s.core c).dueCount) (hd : (n, d) ∈ (s.core c).allDues)
    (honly : ∀ y ∈ (s.core c).allDues, y.1 ≤ n → y = (n, d)) (hafter : ∀ y ∈ ((s.happen c n d).core c).allDues, n < y.1) :
    s.settle [c] n = s.happen c n d := by
  obtain ⟨m, hm⟩ : ∃ m, [c].foldl (fun m c => m + (s.core c).dueCount) 0 = m + 1 :=
    ⟨(s.core c).dueCount - 1, by simp only [List.foldl_cons, List.foldl_nil]; omega⟩
  have hmem : (n, c, d) ∈ s.duesOf [c] := by
    simp only [State.duesOf, List.flatMap_cons, List.flatMap_nil, List.append_nil]
    exact List.mem_map_of_mem (f := fun d => (d.1, c, d.2)) hd
  obtain ⟨y, hy, hle⟩ := earliest_le hmem
  have hys := earliest_mem hy
  simp only [State.duesOf, List.flatMap_cons, List.flatMap_nil, List.append_nil] at hys
  obtain ⟨w, hw, rfl⟩ := List.mem_map.1 hys
  have hfirst : w = (n, d) := honly w hw hle
  rw [hfirst] at hy
  rw [State.settle, hm, State.settleUpTo, hy]
  dsimp only
  rw [if_pos (Nat.le_refl n)]
  exact State.settleUpTo_eq_self (fun e he => by rw [List.mem_singleton.1 he]; exact hafter) m

/-! ## What stays due -/

/-- Nothing more falls due on core `y` in its engines and sequencer than on `x`. -/
def Core.duesFrom (x y : Core) : Prop :=
  y.seq.words = x.seq.words ∧ y.inflight = x.inflight ∧
    (y.atEntry = true → x.atEntry = true ∧ y.seq.prev = x.seq.prev ∧ y.seq.nextAt = x.seq.nextAt) ∧
    ∀ l, (y.integ.bad.contains l || y.knownEmpty l) = true → (x.integ.bad.contains l || x.knownEmpty l) = true

theorem Core.duesFrom.refl (x : Core) : x.duesFrom x := ⟨rfl, rfl, fun h => ⟨h, rfl, rfl⟩, fun _ h => h⟩

theorem Core.duesFrom.trans (h : x.duesFrom y) (h' : y.duesFrom z) : x.duesFrom z := by
  obtain ⟨hw, hi, he, hm⟩ := h
  obtain ⟨hw', hi', he', hm'⟩ := h'
  refine ⟨hw'.trans hw, hi'.trans hi, fun hz => ?_, fun l hl => hm l (hm' l hl)⟩
  obtain ⟨hy, hp, hn⟩ := he' hz
  obtain ⟨hx, hp', hn'⟩ := he hy
  exact ⟨hx, hp.trans hp', hn.trans hn'⟩

theorem Core.duesFrom.foldl {α : Type} {f : Core → α → Core} {l : List α} (h : x.duesFrom y)
    (hf : ∀ (z : Core) (a : α), z.duesFrom (f z a)) :
    x.duesFrom (l.foldl f y) :=
  List.foldlRecOn l f h fun _ hz _ _ => hz.trans (hf _ _)

theorem Core.missing_ne_nil {lines : List Nat} :
    x.missing lines [] ≠ [] ↔ ∃ l ∈ lines, (x.integ.bad.contains l || x.knownEmpty l) = true := by
  have hmem : ∀ l, l ∈ x.missing lines [] ↔ l ∈ lines ∧ (x.integ.bad.contains l || x.knownEmpty l) = true := by
    simp [Core.missing, List.mem_eraseDups]
  constructor
  · intro h
    obtain ⟨l, hl⟩ := List.exists_mem_of_ne_nil _ h
    exact ⟨l, (hmem l).1 hl⟩
  · rintro ⟨l, hl⟩
    exact List.ne_nil_of_mem ((hmem l).2 hl)

/-- What is due on `y` is due on `x` in the same cycle. -/
theorem Core.duesFrom.cycle (h : x.duesFrom y) {d : Nat × Due} (hd : d ∈ y.dues) : ∃ e ∈ x.dues, e.1 = d.1 := by
  obtain ⟨hw, hi, he, hm⟩ := h
  unfold Core.dues at hd ⊢
  rw [hw, hi] at hd
  simp only [List.mem_append] at hd ⊢
  rcases hd with (((hd | hd) | hd) | hd) | hd
  · exact ⟨d, .inl (.inl (.inl (.inl hd))), rfl⟩
  · exact ⟨d, .inl (.inl (.inl (.inr hd))), rfl⟩
  · exact ⟨d, .inl (.inl (.inr hd)), rfl⟩
  · -- The trap of a header line that misses: it misses on `x` too.
    split at hd
    · next hy =>
      obtain ⟨hx, hp, hn⟩ := he hy
      rw [hp, hn] at hd
      by_cases hmiss : y.missing (linesRead [(bundleAddr (x.seq.prev - 3), 128)]) [] = []
      · rw [if_pos (by rw [hmiss]; rfl)] at hd
        cases hd
      · have hmissx : ¬ (x.missing (linesRead [(bundleAddr (x.seq.prev - 3), 128)]) []).isEmpty = true := by
          obtain ⟨l, hl, hbad⟩ := Core.missing_ne_nil.1 hmiss
          simpa using Core.missing_ne_nil.2 ⟨l, hl, hm l hbad⟩
        rw [if_neg (by simpa using hmiss), List.mem_singleton] at hd
        refine ⟨(x.seq.nextAt, Due.trap (x.missing (linesRead [(bundleAddr (x.seq.prev - 3), 128)]) [])), .inl (.inr ?_),
          by rw [hd]⟩
        rw [if_pos hx, if_neg hmissx]
        exact List.mem_singleton_self _
    · cases hd
  · exact ⟨d, .inr hd, rfl⟩

/-- A line written in full no longer misses, and no other line comes to. -/
theorem Core.duesFrom.fullWrite (x : Core) (line : Nat) : x.duesFrom (x.fullWrite line) := by
  refine ⟨rfl, rfl, fun h => ⟨h, rfl, rfl⟩, fun l hl => ?_⟩
  rw [Bool.or_eq_true] at hl ⊢
  refine hl.imp (fun hbad => ?_) fun hempty => ?_
  · rw [List.contains_iff_mem] at hbad ⊢
    exact (List.mem_filter.1 hbad).1
  · unfold Core.knownEmpty at hempty ⊢
    rw [Bool.or_eq_true] at hempty ⊢
    refine hempty.imp id fun hspare => ?_
    have hfind : (x.fullWrite line).remapOf l = (x.remapOf l).map fun r =>
        if r.line = line && !r.retired then { r with state := .valid } else r := by
      unfold Core.remapOf Core.fullWrite
      dsimp only
      rw [List.find?_map]
      congr 1
      refine congrArg (List.find? · _) (funext fun r => ?_)
      simp only [Function.comp]
      split <;> rfl
    rw [hfind] at hspare
    cases hr : x.remapOf l with
    | none => rw [hr] at hspare; cases hspare
    | some r =>
      rw [hr] at hspare
      simp only [Option.map_some] at hspare
      split at hspare
      · cases hspare
      · exact hspare

theorem Core.duesFrom.store (x : Core) (a : Nat) (bs : List Byte) : x.duesFrom (x.store a bs) :=
  Core.duesFrom.foldl (y := x.write a bs) (.refl x) fun z r => .fullWrite z r.1

/-- What retirement leaves of the core: its memory, its channels, what is in flight, the integrity logic, and every register but those of
the sequencer. -/
theorem Core.checkRetire_rest (k : Ctx) (x : Core) : (x.checkRetire k).mem = x.mem ∧ (x.checkRetire k).dma = x.dma ∧
    (x.checkRetire k).inflight = x.inflight ∧ (x.checkRetire k).integ = x.integ ∧ ∀ r, 0x2184 ≤ r → (x.checkRetire k).reg r = x.reg r := by
  cases h : x.frame.live && x.frame.retiredAt.isNone && x.quietEnd
  · rw [Core.checkRetire_eq_self h]
    exact ⟨rfl, rfl, rfl, rfl, fun _ _ => rfl⟩
  · let rest (c : Core) := (c.mem, c.dma, c.inflight, c.integ)
    have hwait : rest (x.waitAbandoned k.clock) = rest x := by
      unfold Core.waitAbandoned
      split <;> rfl
    have hshow : rest (x.retiring k).showWords = rest (x.retiring k) := by
      unfold Core.showWords
      exact foldl_keeps (g := rest) (fun c i _ => show rest (c.setReg _ _) = rest c from rfl) _
    have hrest : rest (x.checkRetire k) = rest x := by
      rw [Core.checkRetire_eq h]
      exact hshow.trans hwait
    simp only [rest, Prod.mk.injEq] at hrest
    obtain ⟨hm, hd, hi, hg⟩ := hrest
    refine ⟨hm, hd, hi, hg, fun r hr => ?_⟩
    obtain ⟨-, -, hreg⟩ := (x.retiring k).showRetired_keeps
    rw [Core.checkRetire_eq h, hreg r (.inr hr),
      Core.reg_congr (y := x.retiring k) (x := x.waitAbandoned k.clock) rfl]
    obtain ⟨-, -, hw | hw⟩ := x.waitAbandoned_keeps k.clock
    · exact Core.reg_congr hw r
    · exact (Core.reg_congr hw r).trans (Core.reg_setRf_ne x _ _ _ (by omega))

/-- A frame that retires has nothing more to fetch. -/
theorem Core.duesFrom.checkRetire (k : Ctx) (x : Core) : x.duesFrom (x.checkRetire k) := by
  obtain ⟨-, -, hin, hinteg, -⟩ := x.checkRetire_rest k
  have hmiss : ∀ l, ((x.checkRetire k).integ.bad.contains l || (x.checkRetire k).knownEmpty l) = (x.integ.bad.contains l || x.knownEmpty l) :=
    fun l => by unfold Core.knownEmpty Core.remapOf; rw [hinteg]
  cases h : x.frame.live && x.frame.retiredAt.isNone && x.quietEnd
  · rw [Core.checkRetire_eq_self h]
    exact .refl x
  · refine ⟨?_, hin, fun he => ?_, fun l hl => (hmiss l).symm.trans hl⟩
    · obtain ⟨-, hseq, -⟩ := (x.retiring k).showRetired_keeps
      obtain ⟨-, ⟨w, hw⟩, -⟩ := x.waitAbandoned_keeps k.clock
      obtain ⟨_, _, _, hput⟩ := Seq.foldl_put_values (x.waitAbandoned k.clock).seq.coming { (x.waitAbandoned k.clock).seq with coming := [] }
      rw [Core.checkRetire_eq h, hseq]
      show (x.waitAbandoned k.clock).lastWords.words = _
      rw [Core.lastWords, hput, hw]
    · exfalso
      obtain ⟨hf, -, -⟩ := (x.retiring k).showRetired_keeps
      rw [Core.atEntry, Bool.and_eq_true, Core.running_iff] at he
      obtain ⟨⟨-, hret, -⟩, -⟩ := he
      rw [Core.checkRetire_eq h, hf] at hret
      cases hret

end Sys2Proof.Machine
end

section
/-! O15: the completion of a descriptor (R225, R246, R249, R252). -/

namespace Sys2Proof.Machine

variable {x y z : Core} {k : Ctx} {s t u : State} {c : CoreId} {ch n : Nat} {o : DmaOp} {rest : List DmaOp} {free : Nat}

/-! ## A channel's oldest descriptor -/

theorem Core.mem_allDues {d : Nat × DueOf} : d ∈ x.allDues ↔ (∃ e ∈ x.dues, d = (e.1, .engine e.2)) ∨
    ∃ ch, ch < 4 ∧ ∃ o, (x.dma.getD ch DmaCh.reset).inflight.head? = some o ∧ d = (o.dueNow, .dma ch) := by
  simp only [Core.allDues, List.mem_append, List.mem_map, List.mem_filterMap, List.mem_range, Option.map_eq_some_iff, @eq_comm _ d]

theorem Core.dueCount_pos (hch : ch < x.dma.length) (h : (x.dma.getD ch DmaCh.reset).inflight ≠ []) : 0 < x.dueCount := by
  have grows : ∀ (l : List DmaCh) (m : Nat), m ≤ l.foldl (fun n q => n + q.inflight.length) m ∧
      ∀ q ∈ l, q.inflight.length ≤ l.foldl (fun n q => n + q.inflight.length) m := by
    intro l
    induction l with
    | nil => exact fun m => ⟨Nat.le_refl m, by simp⟩
    | cons q l ih =>
      intro m
      obtain ⟨hm, hl⟩ := ih (m + q.inflight.length)
      refine ⟨(Nat.le_add_right _ _).trans hm, fun r hr => ?_⟩
      rcases List.mem_cons.1 hr with rfl | hr
      · exact (Nat.le_add_left _ _).trans hm
      · exact hl r hr
  rw [List.getD_eq_getElem _ _ hch] at h
  have hle := (grows x.dma 0).2 _ (List.getElem_mem hch)
  exact (List.length_pos_iff.2 h).trans_le (hle.trans (Nat.le_add_left _ _))

/-! ## The descriptor leaves its channel -/

/-- The state in which a channel's oldest descriptor has left it, its stalls counted (R51, R246). -/
def State.unchannel (s : State) (c : CoreId) (ch n : Nat) (o : DmaOp) (rest : List DmaOp) (free : Nat) : State :=
  (((s.atCycle n).tick1).setCore c { s.core c with dma := setAt (s.core c).dma ch ⟨rest, free⟩ }).dmaStalls c o

theorem State.dmaComplete_eq (hq : (s.core c).dma.getD ch DmaCh.reset = ⟨o :: rest, free⟩) :
    s.dmaComplete c ch n =
      let u := s.unchannel c ch n o rest free
      let r := if o.supp || bitAt ((s.core c).reg (0x2200 + 32 * ch)) 5 || decide (o.code ≠ 0#16) then (u, o.code)
        else u.transfer c ch o o.fate
      (r.1.dmaStatus c ch n o r.2).drainReports c := by
  have hcore : ((s.atCycle n).tick1).core c = s.core c := State.core_congr (by simp) c
  unfold State.dmaComplete
  rw [hq]
  dsimp only
  rw [hcore]
  rfl

/-- Two cores that differ in the count of their frames' stalls. -/
def Core.stallsAside (x y : Core) : Prop := ∃ m, y = { x with frame := { x.frame with stalls := m } }

theorem Core.stallsAside.refl (x : Core) : x.stallsAside x := ⟨_, rfl⟩

theorem State.dmaStalls_core (s : State) (c d : CoreId) (o : DmaOp) : (s.core d).stallsAside ((s.dmaStalls c o).core d) := by
  have one : ∀ (s : State) e m, (s.core d).stallsAside ((s.setCore e ((s.core e).stalled m)).core d) := by
    intro s e m
    by_cases he : d = e
    · rw [he, State.core_setCore_self]
      exact ⟨_, rfl⟩
    · rw [State.core_setCore_ne _ _ he]
      exact .refl _
  unfold State.dmaStalls
  dsimp only
  split
  · exact one s c _
  · obtain ⟨m, hm⟩ := one s c o.stalls
    obtain ⟨m', hm'⟩ := one (s.setCore c ((s.core c).stalled o.stalls)) _ o.peerWaits
    exact ⟨m', by rw [hm', hm]⟩

theorem State.unchannel_core (s : State) (c : CoreId) (ch n : Nat) (o : DmaOp) (rest : List DmaOp) (free : Nat) :
    Core.stallsAside { s.core c with dma := setAt (s.core c).dma ch ⟨rest, free⟩ } ((s.unchannel c ch n o rest free).core c) ∧
      ∀ d, d ≠ c → (s.core d).stallsAside ((s.unchannel c ch n o rest free).core d) := by
  have hcore : ∀ d, ((s.atCycle n).tick1).core d = s.core d := State.core_congr (by simp)
  refine ⟨?_, fun d hd => ?_⟩
  · have := State.dmaStalls_core (((s.atCycle n).tick1).setCore c { s.core c with dma := setAt (s.core c).dma ch ⟨rest, free⟩ }) c c o
    rwa [State.core_setCore_self] at this
  · have := State.dmaStalls_core (((s.atCycle n).tick1).setCore c { s.core c with dma := setAt (s.core c).dma ch ⟨rest, free⟩ }) c d o
    rwa [State.core_setCore_ne _ _ hd, hcore] at this

theorem State.unchannel_keeps (s : State) (c : CoreId) (ch n : Nat) (o : DmaOp) (rest : List DmaOp) (free : Nat) :
    (s.unchannel c ch n o rest free).hbm = s.hbm ∧ (s.unchannel c ch n o rest free).gregs = s.gregs ∧
      (s.unchannel c ch n o rest free).clock = max s.clock n := by
  have hstalls : ∀ u : State, (u.dmaStalls c o).hbm = u.hbm ∧ (u.dmaStalls c o).gregs = u.gregs ∧ (u.dmaStalls c o).clock = u.clock := by
    intro u
    unfold State.dmaStalls
    dsimp only
    split <;> exact ⟨rfl, rfl, rfl⟩
  obtain ⟨hh, hg, hc⟩ := hstalls (((s.atCycle n).tick1).setCore c { s.core c with dma := setAt (s.core c).dma ch ⟨rest, free⟩ })
  refine ⟨hh.trans (by simp), hg.trans (by simp), hc.trans ?_⟩
  show (s.atCycle n).clock = _
  unfold State.atCycle
  split
  · exact (Nat.max_eq_right (Nat.le_of_lt ‹_›)).symm
  · exact (Nat.max_eq_left (Nat.not_lt.1 ‹_›)).symm

/-! ## Its completion status (R249, R252) -/

theorem lastCodeOff_channel (hch : ch < 4) : lastCodeOff (7 + ch) = 0x2200 + 32 * ch := by
  interval_cases ch <;> rfl

/-- A core whose channel's counters and LAST_CODE tell a completion. -/
def Core.counted (x : Core) (ch : Nat) (o : DmaOp) (code : Half) : Core :=
  let y := (x.bump (0x2210 + 32 * ch) 1).setRf (0x2204 + 32 * ch) 11 0 o.desc
  Core.showDma (if code = 0#16 then y else y.raise (7 + ch) code) ch

theorem Core.counted_keeps (x : Core) (ch : Nat) (o : DmaOp) (code : Half) :
    (x.counted ch o code).mem = x.mem ∧ (x.counted ch o code).dma = x.dma ∧ x.duesFrom (x.counted ch o code) := by
  unfold Core.counted
  dsimp only
  split <;> exact ⟨rfl, rfl, rfl, rfl, fun h => ⟨h, rfl, rfl⟩, fun _ h => h⟩

theorem Core.counted_regs (hx : x.canonical) (hch : ch < 4) (o : DmaOp) (code : Half) :
    (x.counted ch o code).rf (0x2204 + 32 * ch) 11 0 = o.desc % 4096 ∧
      ((x.counted ch o code).reg (0x2210 + 32 * ch)).toNat = min ((x.reg (0x2210 + 32 * ch)).toNat + 1) 0xFFFFFFFF := by
  let y := (x.bump (0x2210 + 32 * ch) 1).setRf (0x2204 + 32 * ch) 11 0 o.desc
  have hreg : ∀ r, 0x2200 + 32 * ch ≠ r → (x.counted ch o code).reg r = y.reg r := fun r hr => by
    refine (Core.reg_setRf_ne _ _ _ _ hr).trans ((Core.reg_setRf_ne _ _ _ _ hr).trans ?_)
    split
    · rfl
    · exact Core.reg_setRf_ne _ _ _ _ (by rw [lastCodeOff_channel hch]; exact hr)
  refine ⟨?_, ?_⟩
  · rw [Core.rf, hreg _ (by omega)]
    exact Core.rf_setRf_self (a := 0x2204 + 32 * ch) hx.bump (by decide) (by decide)
  · rw [hreg _ (by omega), Core.reg_setRf_ne _ _ _ _ (by omega), Core.bump, Core.reg_setReg_self hx.regs_wf, toNat_satAdd32_one]

/-- What the completion status leaves. -/
theorem State.dmaStatus_spec (u : State) (c : CoreId) (ch n : Nat) (o : DmaOp) (code : Half) :
    let t := (u.dmaStatus c ch n o code).drainReports c
    (u.core c).duesFrom (t.core c) ∧ (t.core c).mem = (u.core c).mem ∧ (t.core c).dma = (u.core c).dma ∧
      (∀ r, 0x2184 ≤ r → (t.core c).reg r = ((u.core c).counted ch o code).reg r) ∧ (∀ d, d ≠ c → t.core d = u.core d) ∧
      t.hbm = u.hbm ∧ t.clock = u.clock := by
  intro t
  let y := (u.core c).counted ch o code
  let k : Ctx := { u.ctx c with clock := n }
  obtain ⟨hcores, -, hhbm, -⟩ := State.drainReports_spec (u.dmaStatus c ch n o code) c
  obtain ⟨-, -, hclock, -⟩ := State.outside_eq_iff.1 (State.outside_drainReports (u.dmaStatus c ch n o code) c)
  have hself : (u.dmaStatus c ch n o code).core c = y.checkRetire k := State.core_setCore_self _ _ _
  have hcore : t.core c = (y.checkRetire k).drained := by rw [State.core_congr hcores, State.core_setCore_self, hself]
  obtain ⟨hmem, hdma, hdues⟩ := (u.core c).counted_keeps ch o code
  obtain ⟨hrmem, hrdma, -, -, hrreg⟩ := y.checkRetire_rest k
  rw [hcore]
  refine ⟨hdues.trans (Core.duesFrom.checkRetire k y), hrmem.trans hmem, hrdma.trans hdma, hrreg, fun d hd => ?_, hhbm, hclock⟩
  rw [State.core_congr hcores, State.core_setCore_ne _ _ hd]
  exact State.core_setCore_ne _ _ hd

/-! ## The command -/

/-- What a descriptor's completion leaves, once its bytes have moved: `v` is the state then. -/
def State.movedTo (s : State) (c : CoreId) (ch : Nat) (rest : List DmaOp) (free : Nat) (v : State) : Prop :=
  (s.core c).duesFrom (v.core c) ∧ (v.core c).dma = setAt (s.core c).dma ch ⟨rest, free⟩ ∧ (v.core c).regs = (s.core c).regs ∧
    (v.core c).canonical

/-- The oldest descriptor of a channel, with nothing else due before, completes: it leaves the channel and is counted, and the rest is as
the movement of its bytes leaves it. -/
theorem State.dmaComplete_gives {ch : BitVec 2} {f : Fate} {v : State} {code : Half} {p : State → Prop}
    (hlen : (s.core c).dma.length = 4) (hq : (s.core c).dma.getD ch.toNat DmaCh.reset = ⟨o :: rest, free⟩)
    (honly : (s.core c).onlyDue o.dueNow (.dma ch.toNat)) (hrest : ∀ p ∈ rest.head?, o.dueNow < p.dueNow)
    (hmove : ∀ u, (s.setCore c ((s.core c).setFate ch.toNat f)).unchannel c ch.toNat o.dueNow { o with fate := f } rest free = u →
      (if o.supp || bitAt ((s.core c).reg (0x2200 + 32 * ch.toNat)) 5 || decide (o.code ≠ 0#16) then (u, o.code)
        else u.transfer c ch.toNat { o with fate := f } f) = (v, code))
    (hv : s.movedTo c ch.toNat rest free v) (hclock : v.clock = max s.clock o.dueNow)
    (hp : ∀ t, ((t.core c).dma.getD ch.toNat DmaCh.reset).inflight = rest → t.clock = max s.clock o.dueNow →
      (t.core c).rf (0x2204 + 32 * ch.toNat) 11 0 = o.desc % 4096 →
      ((t.core c).reg (0x2210 + 32 * ch.toNat)).toNat = min (((s.core c).reg (0x2210 + 32 * ch.toNat)).toNat + 1) 0xFFFFFFFF →
      t.hbm = v.hbm → (∀ d, (t.core d).mem = (v.core d).mem) → p t) : s.gives (.dmaComplete c ch f) p := by
  have hch : ch.toNat < 4 := ch.isLt
  let o' : DmaOp := { o with fate := f }
  let x := (s.core c).setFate ch.toNat f
  let s' := s.setCore c x
  have hx : x = { s.core c with dma := setAt (s.core c).dma ch.toNat ⟨o' :: rest, free⟩ } := by
    show Core.setFate _ _ _ = _
    unfold Core.setFate
    rw [hq]
  have hcore : s'.core c = x := State.core_setCore_self _ _ _
  have hxch : x.dma.getD ch.toNat DmaCh.reset = ⟨o' :: rest, free⟩ := by
    rw [hx]
    exact getD_setAt_self _ _ _ (by omega)
  have hxother : ∀ {m}, m ≠ ch.toNat → x.dma.getD m DmaCh.reset = (s.core c).dma.getD m DmaCh.reset := fun hm => by
    rw [hx]
    exact getD_setAt_ne _ _ _ (Ne.symm hm)
  have hxdues : x.dues = (s.core c).dues := by rw [hx]; rfl
  -- The completion of the descriptor.
  let t := s'.happen c o.dueNow (.dma ch.toNat)
  have ht : t = (v.dmaStatus c ch.toNat o.dueNow o' code).drainReports c := by
    have hdone := State.dmaComplete_eq (n := o.dueNow) (show (s'.core c).dma.getD ch.toNat DmaCh.reset = ⟨o' :: rest, free⟩ by rw [hcore, hxch])
    have hm := hmove _ rfl
    have hreg : (s'.core c).reg = (s.core c).reg := by rw [hcore, hx]; rfl
    rw [hreg] at hdone
    refine hdone.trans ?_
    dsimp only
    exact (congrArg (fun r : State × Half => (r.1.dmaStatus c ch.toNat o.dueNow o' r.2).drainReports c) hm)
  obtain ⟨hvdues, hvdma, hvregs, hvc⟩ := hv
  obtain ⟨hdues, hmem, hdma, hregs, hothers, hhbm, hclock'⟩ := State.dmaStatus_spec v c ch.toNat o.dueNow o' code
  rw [← ht] at hdues hmem hdma hregs hothers hhbm hclock'
  have htch : (t.core c).dma.getD ch.toNat DmaCh.reset = ⟨rest, free⟩ := by
    rw [hdma, hvdma]
    exact getD_setAt_self _ _ _ (by omega)
  have htother : ∀ {m}, m ≠ ch.toNat → (t.core c).dma.getD m DmaCh.reset = (s.core c).dma.getD m DmaCh.reset := fun hm => by
    rw [hdma, hvdma]
    exact getD_setAt_ne _ _ _ (Ne.symm hm)
  have hsettle : s'.settle [c] o.dueNow = t := by
    refine State.settle_one ?_ ?_ ?_ ?_
    · rw [hcore]
      refine Core.dueCount_pos (ch := ch.toNat) (by rw [hx]; simpa [hlen] using hch) (by rw [hxch]; simp)
    · rw [hcore, Core.mem_allDues]
      exact .inr ⟨ch.toNat, hch, o', by rw [hxch]; rfl, rfl⟩
    · rw [hcore]
      intro y hy hle
      rcases Core.mem_allDues.1 hy with ⟨e, he, rfl⟩ | ⟨m, hm, p, hp', rfl⟩
      · cases honly _ (Core.mem_allDues.2 (.inl ⟨e, hxdues ▸ he, rfl⟩)) hle
      · by_cases hmch : m = ch.toNat
        · subst hmch
          rw [hxch] at hp'
          cases hp'
          rfl
        · rw [hxother hmch] at hp'
          cases honly _ (Core.mem_allDues.2 (.inr ⟨m, hm, p, hp', rfl⟩)) hle
          exact absurd rfl hmch
    · intro y hy
      refine Nat.lt_of_not_le fun hle => ?_
      rcases Core.mem_allDues.1 hy with ⟨e, he, rfl⟩ | ⟨m, hm, p, hp', rfl⟩
      · obtain ⟨e', he', hcyc⟩ := (hvdues.trans hdues).cycle he
        cases honly _ (Core.mem_allDues.2 (.inl ⟨e', he', rfl⟩)) (hcyc.le.trans hle)
      · by_cases hmch : m = ch.toNat
        · subst hmch
          rw [htch] at hp'
          exact absurd (hrest p hp') (Nat.not_lt.2 hle)
        · rw [htother hmch] at hp'
          cases honly _ (Core.mem_allDues.2 (.inr ⟨m, hm, p, hp', rfl⟩)) hle
          exact hmch rfl
  have hexec : exec (.dmaComplete c ch f) s = .next t := by
    rw [← hsettle]
    show Host.Outcome.next (match ((s.core c).dma.getD ch.toNat DmaCh.reset).inflight.head? with
      | none => s
      | some o => (s.setCore c ((s.core c).setFate ch.toNat f)).settle [c] o.dueNow) = _
    rw [hq]
    rfl
  obtain ⟨hlast, hdone⟩ := Core.counted_regs hvc hch o' code
  refine ⟨t, hexec, hp t (by rw [htch]) (hclock'.trans hclock) ?_ ?_ hhbm fun d => ?_⟩
  · rw [Core.rf, hregs _ (by omega)]
    exact hlast
  · rw [hregs _ (by omega), hdone, Core.reg_congr hvregs]
  · by_cases hd : d = c
    · rw [hd, hmem]
    · rw [hothers d hd]

/-! ## A descriptor that moves one piece (R246, R464) -/

theorem setAt_setAt {α : Type} (l : List α) (i : Nat) (v w : α) : setAt (setAt l i v) i w = setAt l i w := by
  induction l generalizing i with
  | nil => rfl
  | cons a l ih =>
    cases i with
    | zero => rfl
    | succ i => exact congrArg (a :: ·) (ih i)

/-- The state in which the descriptor of the command has left its channel. -/
def State.completing (s : State) (c : CoreId) (ch : Nat) (f : Fate) (o : DmaOp) (rest : List DmaOp) (free : Nat) : State :=
  (s.setCore c ((s.core c).setFate ch f)).unchannel c ch o.dueNow { o with fate := f } rest free

/-- It differs from the state before in the clock, the channel and the counts of stalls. -/
theorem State.completing_spec {f : Fate} (hq : (s.core c).dma.getD ch DmaCh.reset = ⟨o :: rest, free⟩) :
    let u := s.completing c ch f o rest free
    Core.stallsAside { s.core c with dma := setAt (s.core c).dma ch ⟨rest, free⟩ } (u.core c) ∧
      (∀ d, d ≠ c → (s.core d).stallsAside (u.core d)) ∧ u.hbm = s.hbm ∧ u.gregs = s.gregs ∧ u.clock = max s.clock o.dueNow := by
  intro u
  have hx : { (s.core c).setFate ch f with dma := setAt ((s.core c).setFate ch f).dma ch ⟨rest, free⟩ } =
      { s.core c with dma := setAt (s.core c).dma ch ⟨rest, free⟩ } := by
    unfold Core.setFate
    rw [hq]
    dsimp only
    rw [setAt_setAt]
  obtain ⟨hself, hothers⟩ := State.unchannel_core (s.setCore c ((s.core c).setFate ch f)) c ch o.dueNow { o with fate := f } rest free
  obtain ⟨hhbm, hgregs, hclock⟩ := State.unchannel_keeps (s.setCore c ((s.core c).setFate ch f)) c ch o.dueNow { o with fate := f } rest free
  refine ⟨?_, fun d hd => ?_, hhbm, hgregs, hclock⟩
  · rw [State.core_setCore_self, hx] at hself
    exact hself
  · have := hothers d hd
    rwa [State.core_setCore_ne _ _ hd] at this

/-- What is read of HBM that no KV bound and nothing on its way meets is what the HBM holds. -/
theorem State.readPlace_hbm {a : Nat} (hkv : s.kvBounds (s.entryOf c) a 64 = []) (hland : s.landingHbm a 64 = []) :
    (s.readPlace c (.hbm a)).1 = Memory.read s.hbm a 64 := by
  simp only [State.readPlace, State.hbmBounded, hkv, State.hbmRead, hland]

/-- A piece from HBM that meets no fence, collision or bad line lands whole. -/
theorem State.transfer_landed {f : Fate} {a b : Nat} {bs : List Byte} (hrows : o.rows = [⟨.hbm a, .here b, bs⟩])
    (hdeny : (u.core c).denies 0 true b = false) (hcol : f.collisions = []) (hbad : f.hbmBad = false) :
    u.transfer c ch o f =
      (u.setCore c ((u.core c).store b (DmaRun.take.pick ⟨.hbm a, .here b, bs⟩ u (u.readPlace c (.hbm a)).1)), 0#16) := by
  have hnone : (u.core c).missing o.readsHere (f.misses.map fun l => lineOf l.toNat) = [] := by
    rw [DmaOp.readsHere, hrows]
    rfl
  have hend : o.endpoint = none := by
    rw [DmaOp.endpoint, hrows]
    rfl
  have hlost : ∀ ws, (u.core c).lost 0 (some ch) ws f = [] := fun ws => by rw [Core.lost, hcol]; rfl
  unfold State.transfer
  dsimp only
  rw [hnone, hend, hbad, Bool.and_false, if_neg Bool.false_ne_true, DmaOp.moved, List.isEmpty_nil, if_pos rfl, if_pos rfl, hrows]
  simp only [List.foldl_cons, List.foldl_nil, DmaRun.piece, DmaRun.take, DmaRun.land, hdeny, hlost]
  rfl

theorem State.kvBounds_congr (h : u.gregs = s.gregs) (e : Option Nat) (a n : Nat) : u.kvBounds e a n = s.kvBounds e a n := by
  unfold State.kvBounds State.kvRegion State.kvMask State.gf State.gbit State.greg
  rw [h]

theorem mem_setAt {α : Type} {l : List α} {i : Nat} {v w : α} (h : w ∈ setAt l i v) : w = v ∨ w ∈ l := by
  induction l generalizing i with
  | nil => cases h
  | cons a l ih =>
    cases i with
    | zero => exact (List.mem_cons.1 h).imp id (List.mem_cons_of_mem _)
    | succ i =>
      rcases List.mem_cons.1 h with rfl | h
      · exact .inr (List.mem_cons_self ..)
      · exact (ih h).imp id (List.mem_cons_of_mem _)

/-- What is on its way to the HBM comes from the descriptors in flight. -/
theorem State.landingHbm_nil_of {a m : Nat} (h : ∀ d, ∀ q ∈ (u.core d).dma, ∀ p ∈ q.inflight, ∃ r ∈ (s.core d).dma, p ∈ r.inflight)
    (hs : s.landingHbm a m = []) : u.landingHbm a m = [] := by
  simp only [State.landingHbm, List.flatMap_eq_nil_iff, List.mem_flatMap] at hs ⊢
  rintro d hd p ⟨q, hq, hp⟩
  exact hs d hd p (h d q hq p hp)

theorem Core.store_keeps (x : Core) (a : Nat) (bs : List Byte) :
    (x.store a bs).mem = Memory.write x.mem a bs ∧ (x.store a bs).dma = x.dma ∧ (x.store a bs).regs = x.regs := by
  have h : ((x.store a bs).mem, (x.store a bs).dma, (x.store a bs).regs) = (Memory.write x.mem a bs, x.dma, x.regs) := by
    unfold Core.store
    dsimp only
    exact foldl_keeps (f := fun (c : Core) (r : Nat × Nat) => c.fullWrite r.1) (g := fun c : Core => (c.mem, c.dma, c.regs))
      (fun _ _ _ => rfl) (x.write a bs)
  simpa only [Prod.mk.injEq] using h

/-- A byte of a piece is the one captured at issue or the one its source holds now. -/
theorem DmaRun.pick_mem (row : DmaRow) (s : State) (now : List Byte) {i : Nat} (h : i < row.bytes.length) :
    (DmaRun.take.pick row s now).getD i 0#8 ∈ [row.bytes.getD i 0#8, now.getD i (row.bytes.getD i 0#8)] := by
  have hl : i < (DmaRun.take.pick row s now).length := by simpa [DmaRun.take.pick] using h
  rw [List.getD_eq_getElem _ _ hl, List.getD_eq_getElem _ _ h]
  simp only [DmaRun.take.pick, List.getElem_mapIdx]
  split <;> simp

/-! ## The completion -/

theorem State.completing_movedTo {f : Fate} (hc : (s.core c).canonical) (hq : (s.core c).dma.getD ch DmaCh.reset = ⟨o :: rest, free⟩) :
    s.movedTo c ch rest free (s.completing c ch f o rest free) := by
  obtain ⟨⟨m, hm⟩, -⟩ := State.completing_spec (f := f) hq
  unfold State.movedTo
  rw [hm]
  exact ⟨⟨rfl, rfl, fun h => ⟨h, rfl, rfl⟩, fun _ h => h⟩, rfl, rfl, hc⟩

theorem State.movedTo.store {v : State} {b : Nat} {bs : List Byte} (h : s.movedTo c ch rest free v) :
    s.movedTo c ch rest free (v.setCore c ((v.core c).store b bs)) := by
  obtain ⟨hdues, hdma, hregs, hc⟩ := h
  obtain ⟨-, hsdma, hsregs⟩ := (v.core c).store_keeps b bs
  unfold State.movedTo
  rw [State.core_setCore_self]
  exact ⟨hdues.trans (.store _ b bs), hsdma.trans hdma, hsregs.trans hregs, hc.store⟩

/-- Settles O15: the descriptor leaves its channel and is counted; suppressed, it moves nothing, and of one piece from HBM each byte is
the one captured or the one the HBM holds. -/
theorem descriptorCompletes : Obligations.DescriptorCompletes := by
  intro s c ch o rest free f hc hlen hq honly hrest counted
  let u := s.completing c ch.toNat f o rest free
  obtain ⟨⟨m, hself⟩, hothers, hhbm, hgregs, hclock⟩ := State.completing_spec (f := f) hq
  change u.core c = _ at hself
  have hmoved : s.movedTo c ch.toNat rest free u := State.completing_movedTo hc hq
  refine ⟨fun hsupp => ?_, fun a b bs hsupp hcode hrows hbs hhalted hdeny hcol hbad hkv hland => ?_⟩
  · refine State.dmaComplete_gives (f := f) (v := u) (code := o.code) hlen hq honly hrest (fun v hv => ?_) hmoved hclock
      fun t h₁ h₂ h₃ h₄ hthbm htmem => ⟨⟨h₁, h₂, h₃, h₄⟩, hthbm.trans hhbm, fun d => (htmem d).trans ?_⟩
    · rw [hsupp, ← hv]
      rfl
    · by_cases hd : d = c
      · rw [hd, hself]
      · obtain ⟨_, hm⟩ := hothers d hd
        exact (congrArg Core.mem hm).trans rfl
  · let now := Memory.read s.hbm a 64
    let row : DmaRow := ⟨.hbm a, .here b, bs⟩
    have hnow : (u.readPlace c (.hbm a)).1 = now := by
      have hentry : u.entryOf c = s.entryOf c := by rw [State.entryOf, hself]; rfl
      refine (State.readPlace_hbm ?_ ?_).trans (congrArg (Memory.read · a 64) hhbm)
      · rw [hentry, State.kvBounds_congr hgregs]
        exact hkv
      · refine State.landingHbm_nil_of (fun d q hqd p hp => ?_) hland
        by_cases hd : d = c
        · rw [hd, hself] at hqd
          rw [hd]
          rcases mem_setAt hqd with rfl | hqd
          · refine ⟨_, List.getElem_mem (show ch.toNat < (s.core c).dma.length by rw [hlen]; exact ch.isLt), ?_⟩
            rw [← List.getD_eq_getElem _ DmaCh.reset, hq]
            exact List.mem_cons_of_mem _ hp
          · exact ⟨q, hqd, hp⟩
        · obtain ⟨_, hm⟩ := hothers d hd
          rw [show u.core d = _ from hm] at hqd
          exact ⟨q, hqd, hp⟩
    let v := u.setCore c ((u.core c).store b (DmaRun.take.pick row u now))
    have hhalt : bitAt ((s.core c).reg (0x2200 + 32 * ch.toNat)) 5 = false := (fld_eq_zero_iff _ _).1 hhalted
    have hudeny : (u.core c).denies 0 true b = false := by rw [hself]; exact hdeny
    have hmove : u.transfer c ch.toNat { o with fate := f } f = (v, 0#16) := by
      rw [State.transfer_landed (o := { o with fate := f }) hrows hudeny hcol hbad, hnow]
    have hvmem : (v.core c).mem = Memory.write (s.core c).mem b (DmaRun.take.pick row u now) := by
      show ((u.setCore c _).core c).mem = _
      rw [State.core_setCore_self, ((u.core c).store_keeps _ _).1, hself]
    refine State.dmaComplete_gives (f := f) (v := v) (code := 0#16) hlen hq honly hrest (fun w hw => ?_) hmoved.store hclock
      fun t h₁ h₂ h₃ h₄ hthbm htmem => ⟨⟨h₁, h₂, h₃, h₄⟩, hthbm.trans hhbm, ?_⟩
    · rw [hsupp, hhalt, hcode, ← hw]
      exact hmove
    · rw [htmem c, hvmem]
      have hlength : (DmaRun.take.pick row u now).length = 64 := by simpa [DmaRun.take.pick] using hbs
      obtain ⟨hin, hout⟩ := Memory.holds_write hc.1 b (DmaRun.take.pick row u now)
      rw [hlength] at hin hout
      refine ⟨fun i hi => ?_, hout⟩
      rw [hin i hi]
      have hpick := DmaRun.pick_mem row u now (i := i) (by rw [show row.bytes = bs from rfl, hbs]; exact hi)
      have hbyte : now.getD i (row.bytes.getD i 0#8) = Memory.byte s.hbm (a + i) := by
        rw [List.getD_eq_getElem _ _ (by simpa [now, Memory.read] using hi)]
        simp [now, Memory.read]
      rwa [hbyte] at hpick

end Sys2Proof.Machine
end

section
/-! SUPPORT. What the instruction of an engine leaves of its core at its issue (R223, R225, R257): its results come at its completion. -/

namespace Sys2Proof.Machine

variable {x y : Core} {k : Ctx} {a : At} {l : List Nat}

/-- What no engine's instruction changes at its issue: the memories, the sequencer's values, the channels and the engines' controls. -/
def Core.restAtIssue (x : Core) :=
  (x.mem, x.shadow, (x.seq.sregs, x.seq.preds, x.seq.coming, x.seq.loops, x.seq.lc), x.dma.map DmaCh.settled,
    (x.ve0ctl, x.ve1ctl), x.factors, x.filter, x.stage)

/-- The 4 KiB page of the registers of an engine unit's status. -/
def unitPage (u : EngUnit) : Nat := unitStatusOff u / 0x1000

theorem unitPage_veUnit (ve : Bool) : unitPage (veUnit ve) = 5 := by cases ve <;> rfl

/-- From core `x` to core `y` nothing changes but what an engine's instruction may change at its issue: of the registers, those in the
pages `l`. -/
structure Core.issueKeeps (l : List Nat) (x y : Core) : Prop where
  rest : y.restAtIssue = x.restAtIssue
  reg : ∀ q, q / 0x1000 ∉ l → y.reg q = x.reg q

namespace Core.issueKeeps

theorem refl (x : Core) : x.issueKeeps l x := ⟨rfl, fun _ _ => rfl⟩

theorem ite {c : Prop} [Decidable c] {y z : Core} (hy : x.issueKeeps l y) (hz : x.issueKeeps l z) :
    x.issueKeeps l (if c then y else z) := by
  split
  · exact hy
  · exact hz

/-! ## Registers, codes and aborts -/

theorem setReg {r : Nat} {w : Word} (h : x.issueKeeps l y) (hr : r / 0x1000 ∈ l) : x.issueKeeps l (y.setReg r w) :=
  ⟨h.rest, fun q hq => (Core.reg_setReg_ne y w (by rintro rfl; exact hq hr)).trans (h.reg q hq)⟩

theorem setRf {r hi lo v : Nat} (h : x.issueKeeps l y) (hr : r / 0x1000 ∈ l) : x.issueKeeps l (y.setRf r hi lo v) := h.setReg hr

theorem setFrame {f : Frame} (h : x.issueKeeps l y) : x.issueKeeps l { y with frame := f } := ⟨h.rest, h.reg⟩

theorem withTe {e : Te} (h : x.issueKeeps l y) : x.issueKeeps l { y with te := e } := ⟨h.rest, h.reg⟩

theorem withInflight {p : List PendingOp} (h : x.issueKeeps l y) : x.issueKeeps l { y with inflight := p } := ⟨h.rest, h.reg⟩

theorem withUnitFree {p : List Nat} (h : x.issueKeeps l y) : x.issueKeeps l { y with unitFree := p } := ⟨h.rest, h.reg⟩

theorem withRowSets {p : List RowSet} (h : x.issueKeeps l y) : x.issueKeeps l { y with rowSets := p } := ⟨h.rest, h.reg⟩

theorem raise {u : Nat} {code : Half} (h : x.issueKeeps l y) (hu : lastCodeOff u / 0x1000 ∈ l) : x.issueKeeps l (y.raise u code) :=
  h.setFrame.setRf hu

theorem abort {code : Half} {b : BitVec 13} (h : x.issueKeeps l y) : x.issueKeeps l (y.abort code b) := ⟨h.rest, h.reg⟩

theorem engRange {u : EngUnit} {b : BitVec 13} (h : x.issueKeeps l y) (hu : unitPage u ∈ l) : x.issueKeeps l (y.engRange u b) :=
  (h.raise hu).abort

theorem clampCount {u : EngUnit} {n m : Nat} (h : x.issueKeeps l y) (hu : unitPage u ∈ l) : x.issueKeeps l (y.clampCount u n m).1 := by
  unfold Core.clampCount
  split
  · exact h.raise hu
  · exact h

/-- A fault's record, held if one stands there. -/
theorem first {u off : Nat} {b : BitVec 13} {w : Word} (h : x.issueKeeps l y) (hr : off / 0x1000 ∈ l) :
    x.issueKeeps l (Core.apply u b y (.first off w [])).1 := .ite h (h.setReg hr)

/-- The operation in flight: its effects are its completion's, and of the registers it shows itself busy. -/
theorem issue {u : EngUnit} {lat interval tokens : Nat} {op : PendingOp} (h : x.issueKeeps l y) (hu : unitPage u ∈ l) :
    x.issueKeeps l (y.issue k a u lat interval tokens op) :=
  setRf (y := { y with inflight := _, nextId := _, unitFree := _ }) ⟨h.rest, h.reg⟩ hu

/-! ## Accumulator tiles -/

section
variable (h3 : 3 ∈ l)
include h3

theorem claim {ts : List Nat} {id : Nat} {b : BitVec 13} (h : x.issueKeeps l y) : x.issueKeeps l (y.claim ts id b) := h.withTe.setRf h3

theorem release {id : Nat} (h : x.issueKeeps l y) : x.issueKeeps l (y.release id) := h.withTe.setRf h3

theorem setType {ts : List Nat} {int : Bool} (h : x.issueKeeps l y) : x.issueKeeps l (y.setType ts int) := h.setRf h3

theorem clearTileFlags {ts : List Nat} (h : x.issueKeeps l y) : x.issueKeeps l (y.clearTileFlags ts) := (h.setReg h3).setRf h3

theorem setArray {p : Product} {id due : Nat} (h : x.issueKeeps l y) : x.issueKeeps l (y.setArray p id due) :=
  ((h.withTe.setRf h3).setRf h3).setRf h3

theorem doubleClaim {u n : Nat} {b owner : BitVec 13} (h : x.issueKeeps l y) (hu : lastCodeOff u / 0x1000 ∈ l) :
    x.issueKeeps l (y.doubleClaim u n b owner) := .abort (.ite (h.raise hu) ((h.raise hu).setReg h3))

end

/-! ## The tile engine -/

theorem teIssue {u : EngUnit} {lat interval tokens : Nat} {op : PendingOp} (h : x.issueKeeps [3] y) (hu : unitPage u = 3) :
    x.issueKeeps [3] (y.issue k a u lat interval tokens op) := h.issue (List.mem_singleton.2 hu)

theorem tload {o : TLoadOp} (h : x.issueKeeps [3] y) : x.issueKeeps [3] (y.tload k a o) := by
  unfold Core.tload
  exact .ite (h.teIssue rfl) (.ite ((h.engRange (by decide)).teIssue rfl) (h.teIssue rfl).withTe)

theorem product {p : Product} (h : x.issueKeeps [3] y) : x.issueKeeps [3] (y.product k a p) := by
  have h3 : 3 ∈ [3] := List.mem_singleton_self 3
  unfold Core.product
  refine .ite ((h.teIssue rfl).setArray h3) ?_
  dsimp only
  split
  · exact h.doubleClaim h3 h3
  · have claimed : ∀ {id}, x.issueKeeps [3] (if (y.claim p.tiles id a.bundle).te.loaded then
        { y.claim p.tiles id a.bundle with te :=
          { (y.claim p.tiles id a.bundle).te with active := (y.claim p.tiles id a.bundle).te.standby, loaded := false } }
        else y.claim p.tiles id a.bundle) := .ite (h.claim h3).withTe (h.claim h3)

    exact .ite ((claimed.release h3).raise (by decide)).abort (.ite ((((claimed.release h3).engRange (by decide)).teIssue rfl).setArray h3)
      (.setFrame (.setReg (.setArray h3 (.teIssue (.ite (claimed.setType h3) ((claimed.setType h3).clearTileFlags h3)) rfl)) h3)))

theorem tprint {o : TPrintOp} (h : x.issueKeeps [3] y) : x.issueKeeps [3] (y.tprint k a o) := by
  have h3 : 3 ∈ [3] := List.mem_singleton_self 3
  unfold Core.tprint
  obtain ⟨rd, hrd⟩ := Core.readE_named
  rw [hrd]
  refine .ite (h.teIssue rfl) ?_
  split
  · exact h.doubleClaim h3 h3
  · exact .ite ((((h.claim h3).release h3).engRange (by decide)).teIssue rfl) ((h.claim h3).teIssue rfl)

/-! ## The vector engines -/

theorem veIssue {ve : Bool} {lat interval : Nat} {op : PendingOp} (h : x.issueKeeps [5] y) :
    x.issueKeeps [5] (y.veIssue k a ve lat interval op) := h.issue (List.mem_singleton.2 (unitPage_veUnit ve))

theorem veRange {ve : Bool} {b : BitVec 13} (h : x.issueKeeps [5] y) : x.issueKeeps [5] (y.engRange (veUnit ve) b) :=
  h.engRange (List.mem_singleton.2 (unitPage_veUnit ve))

theorem vArith {o : VaOp} {f : LaneFn} {lat arity : Nat} (h : x.issueKeeps [5] y) :
    x.issueKeeps [5] (y.vArith k a o f lat arity) := .ite h.veIssue h.veIssue

theorem vMov {o : VaOp} (h : x.issueKeeps [5] y) : x.issueKeeps [5] (y.vMov k a o) := .ite h.veIssue h.veIssue

theorem holdDivide {ve : Bool} (h : x.issueKeeps l y) : x.issueKeeps l (y.holdDivide k ve) :=
  (h.withInflight (p := y.inflight.map _)).withUnitFree

theorem vCmp {o : VcmpOp} (h : x.issueKeeps [5] y) : x.issueKeeps [5] (y.vCmp k a o) := .ite h.veIssue h.veIssue

theorem vMask {ve : Bool} {md : BitVec 3} {v : BitVec 64} (h : x.issueKeeps [5] y) : x.issueKeeps [5] (y.vMask k a ve md v) := h.veIssue

theorem vSpl {ve mz : Bool} {msk : BitVec 3} {rs : BitVec 5} {vd : BitVec 9} (h : x.issueKeeps [5] y) :
    x.issueKeeps [5] (y.vSpl k a ve msk mz rs vd) := .ite h.veIssue h.veIssue

theorem vScl {ve : Bool} {v : ConvCtl} (h : x.issueKeeps [5] y) : x.issueKeeps [5] (y.vScl k a ve v) := h.veIssue

theorem vCvtW {o : VcvOp} (h : x.issueKeeps [5] y) : x.issueKeeps [5] (y.vCvtW k a o) := .ite h.veIssue h.veIssue

theorem vCvtN {o : VcvOp} (h : x.issueKeeps [5] y) : x.issueKeeps [5] (y.vCvtN k a o) :=
  .ite h.veIssue (.ite h.veIssue h.veIssue)

theorem holdBanks {ve : Bool} {bs : List Nat} (h : x.issueKeeps l y) : x.issueKeeps l (y.holdBanks k ve bs) := h.withInflight

theorem vAcc {o : VaccOp} (h : x.issueKeeps [5] y) : x.issueKeeps [5] (y.vAcc k a o) :=
  .ite h.veIssue.holdBanks (.ite h.veRange.veIssue.holdBanks h.veIssue.holdBanks)

theorem vRed {o : VrOp} (h : x.issueKeeps [5] y) : x.issueKeeps [5] (y.vRed k a o) := .ite h.veIssue h.veIssue

theorem vRax {o : VrOp} (h : x.issueKeeps [5] y) : x.issueKeeps [5] (y.vRax k a o) := .ite h.veIssue h.veIssue

theorem vBlock {o : VbOp} {load : Bool} (h : x.issueKeeps [5] y) : x.issueKeeps [5] (y.vBlock k a o load) := by
  unfold Core.vBlock
  obtain ⟨rd, hrd⟩ := Core.readE_named
  rw [hrd]
  exact .ite h.veIssue (.ite h.veRange.veIssue (.ite h.veIssue h.veIssue))

theorem vVector {o : VvOp} {load : Bool} (h : x.issueKeeps [5] y) : x.issueKeeps [5] (y.vVector k a o load) :=
  .ite h.veIssue (.ite h.veRange.veIssue (.ite h.veIssue h.veIssue))

/-! ## The transfer engine: its own registers and, for the tiles it claims, the TE's -/

theorem xeIssue {n : Nat} {op : PendingOp} (h : x.issueKeeps [3, 5] y) : x.issueKeeps [3, 5] (y.xeIssue k a n op) := h.issue (by decide)

theorem xeAdd {d : XDesc} {ts : List Nat} {src idx : Nat} (h : x.issueKeeps [3, 5] y) :
    x.issueKeeps [3, 5] (y.xeAdd k a d ts src idx) := h.xeIssue

theorem xeMove {n : Nat} {d : XDesc} {src dst idx : Nat} (h : x.issueKeeps [3, 5] y) :
    x.issueKeeps [3, 5] (y.xeMove k a n d src dst idx) := h.xeIssue

theorem xrun {o : XrunOp} {op : Nat} (h : x.issueKeeps [3, 5] y) : x.issueKeeps [3, 5] (y.xrun k a o op) := by
  have h3 : 3 ∈ [3, 5] := by decide
  have h5 : 5 ∈ [3, 5] := by decide
  unfold Core.xrun
  extract_lets n d
  refine .ite h (.ite h.xeIssue ?_)
  split
  · exact h.doubleClaim h3 h5
  · have hc : ∀ {ts}, x.issueKeeps [3, 5] (if op = 4 then y.claim ts y.nextId a.bundle else y) := .ite (h.claim h3) h
    exact .ite (.xeIssue (.engRange (.ite (hc.release h3) hc) h5)) (.ite ((hc.setType h3).setRf h5).xeAdd (hc.setRf h5).xeMove)

/-! ## The update engine -/

theorem ueIssue {lat : Nat} {op : PendingOp} (h : x.issueKeeps [6] y) : x.issueKeeps [6] (y.ueIssue k a lat op) := h.issue (by decide)

theorem ueFaulted {b : BitVec 13} {code : Half} {d fs : Nat} (h : x.issueKeeps [6] y) :
    x.issueKeeps [6] (Core.apply 5 b y (ueFault code d fs)).1 := h.first (off := 0x605C) (by decide)

theorem ueRefused {lat d fs : Nat} {code : Half} (h : x.issueKeeps [6] y) : x.issueKeeps [6] (y.ueRefused k a lat d fs code) :=
  (h.ueFaulted.raise (by decide)).abort.ueIssue

theorem ueOp {code : Nat} (h : x.issueKeeps [6] y) : x.issueKeeps [6] (y.ueOp a code) := .ite h (h.setRf (by decide))

theorem ueRange {lat d fs : Nat} (h : x.issueKeeps [6] y) : x.issueKeeps [6] (y.ueRange k a lat d fs) :=
  (h.ueFaulted.engRange (by decide)).ueIssue

theorem uupd {d : BitVec 4} {pass : BitVec 3} (h : x.issueKeeps [6] y) : x.issueKeeps [6] (y.uupd k a d pass) := by
  unfold Core.uupd
  extract_lets
  split
  · exact .ite h.ueIssue h.ueOp.ueRefused
  · exact .ite h.ueIssue (.ite h.ueOp.ueRefused (.ite h.ueRange h.ueOp.ueIssue))

theorem urow {d : BitVec 4} {rj : BitVec 5} {n : BitVec 12} (h : x.issueKeeps [6] y) : x.issueKeeps [6] (y.urow k a d rj n) := by
  unfold Core.urow
  extract_lets
  split
  · exact .ite h.ueIssue h.ueOp.ueRefused
  · exact .ite h.ueIssue (.ite h.ueOp.ueRefused (.ite h.ueRange h.ueOp.ueIssue))

theorem ugfac {f : BitVec 4} {bank : BitVec 3} {ra : BitVec 5} {ofs : BitVec 12} (h : x.issueKeeps [6] y) :
    x.issueKeeps [6] (y.ugfac k a f bank ra ofs) := by
  unfold Core.ugfac
  obtain ⟨rd, hrd⟩ := Core.readE_named
  rw [hrd]
  exact .ite h.ueIssue (.ite h.ueRange (.ite h.ueOp.ueIssue h.ueOp.ueIssue))

theorem ufilt {d : BitVec 4} {bank : BitVec 3} {ra rb rn nmx : BitVec 5} (h : x.issueKeeps [6] y) :
    x.issueKeeps [6] (y.ufilt k a d bank ra rb rn nmx) := by
  unfold Core.ufilt
  obtain ⟨⟨rd, hrd⟩, fa, hfa⟩ := And.intro Core.readE_named filterAll_named
  rw [hrd, hfa]
  exact .ite h.ueIssue (.ite h.ueRange (h.clampCount (by decide)).ueOp.ueIssue)

theorem uflist {d : BitVec 4} {bank : BitVec 3} {ra : BitVec 5} (h : x.issueKeeps [6] y) : x.issueKeeps [6] (y.uflist k a d bank ra) :=
  .ite h.ueIssue (.ite h.ueRange h.ueOp.ueIssue)

theorem uadv (h : x.issueKeeps [6] y) : x.issueKeeps [6] (y.uadv k a) := .ueIssue (.ite h.ueOp (h.ueOp.setRf (by decide)))

/-! ## The mask engine -/

theorem meIssue {lat : Nat} {op : PendingOp} (h : x.issueKeeps [7] y) : x.issueKeeps [7] (y.meIssue k a lat op) := h.issue (by decide)

theorem meOp {code : Nat} (h : x.issueKeeps [7] y) : x.issueKeeps [7] (y.meOp a code) := .ite h (h.setRf (by decide)).setFrame

theorem meRange {lat d slot : Nat} (h : x.issueKeeps [7] y) : x.issueKeeps [7] (y.meRange k a lat d slot) :=
  ((h.first (off := 0x7014) (by decide)).engRange (by decide)).meIssue

theorem meEdit {o : MEditOp} {code : Nat} {dodge burn : Bool} (h : x.issueKeeps [7] y) :
    x.issueKeeps [7] (y.meEdit k a o code dodge burn) := by
  unfold Core.meEdit
  refine .ite h.meIssue ?_
  dsimp only
  split
  · exact h.meOp.meIssue
  · exact h.meOp.meIssue

theorem mscore {o : MScoreOp} (h : x.issueKeeps [7] y) : x.issueKeeps [7] (y.mscore k a o) :=
  .ite h.meIssue (.ite h.meRange h.meOp.meIssue)

theorem msload {o : MSheetOp} (h : x.issueKeeps [7] y) : x.issueKeeps [7] (y.msload k a o) := by
  unfold Core.msload
  obtain ⟨rd, hrd⟩ := Core.readE_named
  rw [hrd]
  exact .ite h.meIssue (.ite h.meRange h.meOp.meIssue)

theorem msstore {o : MSheetOp} (h : x.issueKeeps [7] y) : x.issueKeeps [7] (y.msstore k a o) :=
  .ite h.meIssue (.ite h.meRange h.meOp.meIssue)

theorem mremap {d : BitVec 5} {old : BitVec 6} (h : x.issueKeeps [7] y) : x.issueKeeps [7] (y.mremap k a d old) :=
  .ite h.meIssue h.meOp.meIssue

theorem ppred {o : PPredOp} (h : x.issueKeeps [7] y) : x.issueKeeps [7] (y.ppred k a o) := by
  unfold Core.ppred
  obtain ⟨rd, hrd⟩ := Core.readE_named
  rw [hrd]
  exact .ite h.withRowSets.meIssue (.ite h.meRange (h.withRowSets.clampCount (by decide)).meOp.meIssue)

theorem pctl {j : BitVec 4} {en : Bool} (h : x.issueKeeps [7] y) : x.issueKeeps [7] (y.pctl k a j en) :=
  .meIssue (.ite h.meOp h.meOp.setFrame)

end Core.issueKeeps

end Sys2Proof.Machine
end

section
/-! O30: the frame of an engine's instruction at its issue (R223, R225, R257). -/

namespace Sys2Proof.Machine

variable {x y : Core} {k : Ctx} {s t : State} {a : Site} {i : Instr} {cyc : Nat} {l : List Nat}

/-! ## The issue interval (R223, R257) -/

/-- A unit is not free before the issue intervals, waits included, of what is in flight on it are over. -/
theorem Core.freeNow_le_freeFor {o : PendingOp} (h : o ∈ x.inflight) : o.freeNow ≤ x.freeFor (.unit o.unit) :=
  le_maxOf (List.mem_cons_of_mem _ (List.mem_map_of_mem (List.mem_filter.2 ⟨h, decide_eq_true rfl⟩)))

theorem Core.mem_needsOf_unit {u : EngUnit} (h : unitOf i = some u) : Need.unit u ∈ x.needsOf i := by
  unfold Core.needsOf
  rw [h]
  exact List.mem_append_left _ (List.mem_append_left _ (List.mem_singleton_self _))

/-! ## The core that the issue leaves -/

/-- A frame that stands unretired has not retired. -/
theorem Core.checkRetire_of_running (h : (x.checkRetire k).frame.retiredAt = none) : x.checkRetire k = x := by
  cases hq : x.frame.live && x.frame.retiredAt.isNone && x.quietEnd
  · exact Core.checkRetire_eq_self hq
  · rw [Core.checkRetire_eq hq, (Core.showRetired_keeps _).1] at h
    cases h

theorem Core.issueKeeps.joinPorts (h : x.issueKeeps l y) (hi : channelOf i = none) (n : Nat) : x.issueKeeps l (y.joinPorts i n) := by
  have hj : ∃ p, y.joinPorts i n = { y with inflight := p, dma := (y.crowd (y.portsOf i)).dma } := by
    unfold Core.joinPorts
    rw [hi]
    exact ⟨_, rfl⟩
  obtain ⟨p, hj⟩ := hj
  rw [hj]
  refine ⟨Eq.trans ?_ h.rest, h.reg⟩
  show (_, _, _, (y.crowd _).dma.map _, _) = _
  rw [y.crowd_dma]
  rfl

theorem Core.issueKeeps.drained (h : x.issueKeeps l y) : x.issueKeeps l y.drained := ⟨h.rest, h.reg⟩

/-- Where an instruction keeps all that an engine's may not change, so does its issue in a frame that does not retire with it. -/
theorem State.reaches.issueKeeps (h : s.reaches a i cyc) {f : Ctx → Core → At → Core} (hi : channelOf i = none)
    (hf : ∀ k (x : Core) b, x.issueKeeps l (f k x b)) (hret : ((s.issue a i f).core a.core).frame.retiredAt = none) :
    (s.arrived a i cyc).issueKeeps l ((s.issue a i f).core a.core) := by
  have hcore := h.core f
  dsimp only at hcore
  rw [hcore] at hret ⊢
  refine Core.issueKeeps.drained ?_
  split at hret
  · rw [if_pos ‹_›, Core.checkRetire_of_running hret]
    exact (hf _ _ _).joinPorts hi _
  · rw [if_neg ‹_›]
    exact (hf _ _ _).joinPorts hi _

/-! ## The engines' instructions -/

/-- An instruction's effect at its issue is on its core alone, and there on nothing that an engine's instruction may not change. -/
def Instr.issuesOn (a : Site) (l : List Nat) (i : Instr) : Prop :=
  channelOf i = none ∧ ∃ f : Ctx → Core → At → Core, (∀ s, exec i s = .next (s.issue a i f)) ∧
    ∀ k (x : Core) b, x.issueKeeps l (f k x b)

theorem tileEngine_issuesOn (tl : TLoadOp) (tm : TMulOp) (qm1 : BitVec 4) (km : Bool) (rs : BitVec 3) (tp : TPrintOp) :
    ∀ i ∈ [.tload a tl, .tmul a tm qm1, .tmulr a tm km rs, .tprint a tp], Instr.issuesOn a [3] i := by
  simp only [List.forall_mem_cons]
  exact ⟨⟨rfl, _, fun _ => rfl, fun _ x _ => .tload (.refl x)⟩, ⟨rfl, _, fun _ => rfl, fun _ x _ => .product (.refl x)⟩,
    ⟨rfl, _, fun _ => rfl, fun _ x _ => .product (.refl x)⟩, ⟨rfl, _, fun _ => rfl, fun _ x _ => .tprint (.refl x)⟩, by simp⟩



theorem laneArithmetic_issuesOn (va : VaOp) :
    ∀ i ∈ [.vadd a va, .vsub a va, .vmul a va, .vfma a va, .vmin a va, .vmax a va, .vabs a va, .vneg a va, .vand a va,
      .vor a va, .vxor a va, .vnot a va, .vshl a va, .vshr a va, .vsra a va, .vpopc a va, .vmov a va, .vcvtf a va,
      .vcvti a va, .vrcp a va, .vrsq a va, .vexp2 a va, .vlog2 a va, .vdiv a va, .vsqrt a va], Instr.issuesOn a [5] i := by
  have arith : ∀ {i f lat n}, channelOf i = none → (∀ s, exec i s = .next (s.issue a i fun k c b => c.vArith k b va f lat n)) →
    Instr.issuesOn a [5] i := fun hi hx => ⟨hi, _, hx, fun _ x _ => .vArith (.refl x)⟩
  have divide : ∀ {i f lat n ve}, channelOf i = none →
    (∀ s, exec i s = .next (s.issue a i fun k c b => (c.vArith k b va f lat n).holdDivide k ve)) → Instr.issuesOn a [5] i :=
    fun hi hx => ⟨hi, _, hx, fun _ x _ => .holdDivide (.vArith (.refl x))⟩
  simp only [List.forall_mem_cons]
  refine ⟨arith rfl fun _ => rfl, arith rfl fun _ => rfl, arith rfl fun _ => rfl, arith rfl fun _ => rfl, arith rfl fun _ => rfl,
    arith rfl fun _ => rfl, arith rfl fun _ => rfl, arith rfl fun _ => rfl, arith rfl fun _ => rfl, arith rfl fun _ => rfl,
    arith rfl fun _ => rfl, arith rfl fun _ => rfl, arith rfl fun _ => rfl, arith rfl fun _ => rfl, arith rfl fun _ => rfl,
    arith rfl fun _ => rfl, ⟨rfl, _, fun _ => rfl, fun _ x _ => .vMov (.refl x)⟩, arith rfl fun _ => rfl, arith rfl fun _ => rfl,
    arith rfl fun _ => rfl, arith rfl fun _ => rfl, arith rfl fun _ => rfl, arith rfl fun _ => rfl, divide rfl fun _ => rfl,
    divide rfl fun _ => rfl, by simp⟩

theorem vectorMoves_issuesOn (vc : VcmpOp) (vl : VmlogOp) (vr : VrOp) (vo : VaccOp) (cv : VcvOp) (vb : VbOp) (vv : VvOp)
    (ve h mz b1 b2 : Bool) (lo hi : BitVec 6) (msk : BitVec 3) (ra : BitVec 5) (vd : BitVec 9) (si qe : Byte) :
    ∀ i ∈ [.vcmp a vc, .vmlog a vl, .vmlane a ve lo hi msk, .vmsr a ve ra h msk, .vspl a ve msk mz ra vd, .vscl a ve b1 b2 si qe,
      .vred a vr, .vrax a vr, .vacc a vo, .vcvtw a cv, .vcvtn a cv, .vld a vb, .vst a vb, .vldv a vv, .vstv a vv],
      Instr.issuesOn a [5] i := by
  simp only [List.forall_mem_cons]
  exact ⟨⟨rfl, _, fun _ => rfl, fun _ x _ => .vCmp (.refl x)⟩, ⟨rfl, _, fun _ => rfl, fun _ x _ => .vMask (.refl x)⟩,
    ⟨rfl, _, fun _ => rfl, fun _ x _ => .vMask (.refl x)⟩, ⟨rfl, _, fun _ => rfl, fun _ x _ => .vMask (.refl x)⟩,
    ⟨rfl, _, fun _ => rfl, fun _ x _ => .vSpl (.refl x)⟩, ⟨rfl, _, fun _ => rfl, fun _ x _ => .vScl (.refl x)⟩,
    ⟨rfl, _, fun _ => rfl, fun _ x _ => .vRed (.refl x)⟩, ⟨rfl, _, fun _ => rfl, fun _ x _ => .vRax (.refl x)⟩,
    ⟨rfl, _, fun _ => rfl, fun _ x _ => .vAcc (.refl x)⟩, ⟨rfl, _, fun _ => rfl, fun _ x _ => .vCvtW (.refl x)⟩,
    ⟨rfl, _, fun _ => rfl, fun _ x _ => .vCvtN (.refl x)⟩, ⟨rfl, _, fun _ => rfl, fun _ x _ => .vBlock (.refl x)⟩,
    ⟨rfl, _, fun _ => rfl, fun _ x _ => .vBlock (.refl x)⟩, ⟨rfl, _, fun _ => rfl, fun _ x _ => .vVector (.refl x)⟩,
    ⟨rfl, _, fun _ => rfl, fun _ x _ => .vVector (.refl x)⟩, by simp⟩

theorem transferEngine_issuesOn (o : XrunOp) :
    ∀ i ∈ [.xeCopy a o, .xeTranspose a o, .xeGather a o, .xeScatter a o, .xeScatterAdd a o], Instr.issuesOn a [3, 5] i := by
  have run : ∀ {i op}, channelOf i = none → (∀ s, exec i s = .next (s.issue a i fun k c b => c.xrun k b o op)) →
    Instr.issuesOn a [3, 5] i := fun hi hx => ⟨hi, _, hx, fun _ x _ => .xrun (.refl x)⟩
  simp only [List.forall_mem_cons]
  exact ⟨run rfl fun _ => rfl, run rfl fun _ => rfl, run rfl fun _ => rfl, run rfl fun _ => rfl, run rfl fun _ => rfl, by simp⟩

theorem updateEngine_issuesOn (d f : BitVec 4) (rs pa : BitVec 3) (ra rb rn nmx : BitVec 5) (nr ofs : BitVec 12) :
    ∀ i ∈ [.uadv a, .ugfac a f rs ra ofs, .uflist a d rs ra, .ufilt a d rs ra rb rn nmx, .uupd a d pa, .urow a d ra nr],
      Instr.issuesOn a [6] i := by
  simp only [List.forall_mem_cons]
  exact ⟨⟨rfl, _, fun _ => rfl, fun _ x _ => .uadv (.refl x)⟩, ⟨rfl, _, fun _ => rfl, fun _ x _ => .ugfac (.refl x)⟩,
    ⟨rfl, _, fun _ => rfl, fun _ x _ => .uflist (.refl x)⟩, ⟨rfl, _, fun _ => rfl, fun _ x _ => .ufilt (.refl x)⟩,
    ⟨rfl, _, fun _ => rfl, fun _ x _ => .uupd (.refl x)⟩, ⟨rfl, _, fun _ => rfl, fun _ x _ => .urow (.refl x)⟩, by simp⟩

theorem maskEngine_issuesOn (me : MEditOp) (ms : MScoreOp) (sh : MSheetOp) (di : BitVec 5) (slot : BitVec 6) (pp : PPredOp)
    (j : BitVec 4) (en : Bool) :
    ∀ i ∈ [.mdodge a me, .mburn a me, .mrefresh a me, .mscore a ms, .msload a sh, .msstore a sh, .mremap a di slot, .ppred a pp,
      .pctl a j en], Instr.issuesOn a [7] i := by
  have edit : ∀ {i code dodge burn}, channelOf i = none →
    (∀ s, exec i s = .next (s.issue a i fun k c b => c.meEdit k b me code dodge burn)) → Instr.issuesOn a [7] i :=
    fun hi hx => ⟨hi, _, hx, fun _ x _ => .meEdit (.refl x)⟩
  simp only [List.forall_mem_cons]
  exact ⟨edit rfl fun _ => rfl, edit rfl fun _ => rfl, edit rfl fun _ => rfl, ⟨rfl, _, fun _ => rfl, fun _ x _ => .mscore (.refl x)⟩,
    ⟨rfl, _, fun _ => rfl, fun _ x _ => .msload (.refl x)⟩, ⟨rfl, _, fun _ => rfl, fun _ x _ => .msstore (.refl x)⟩,
    ⟨rfl, _, fun _ => rfl, fun _ x _ => .mremap (.refl x)⟩, ⟨rfl, _, fun _ => rfl, fun _ x _ => .ppred (.refl x)⟩,
    ⟨rfl, _, fun _ => rfl, fun _ x _ => .pctl (.refl x)⟩, by simp⟩

/-! ## The frame -/

/-- Settles O30: an engine's instruction waits for its engine's issue intervals, and at its issue changes its engine's registers, SQ_PC
and the sequencer's position alone. -/
theorem engineIssueFrame : Obligations.EngineIssueFrame := by
  intro s t a cyc tl tm qm1 j d f km en ve h mz b1 b2 rs pa msk tp va vc vl vr vo cv vb vv lo hi slot ra rb rn nmx di vd si qe x nr ofs
    me ms sh pp r hr hx c e
  have hon : Instr.issuesOn a r.1 r.2 := by
    obtain ⟨g, hg, hmap⟩ := List.mem_flatMap.1 hr
    obtain ⟨i, hin, rfl⟩ := List.mem_map.1 hmap
    simp only [List.mem_cons (a := g), List.not_mem_nil, or_false] at hg
    rcases hg with rfl | rfl | rfl | rfl | rfl
    · exact tileEngine_issuesOn tl tm qm1 km rs tp i hin
    · exact List.forall_mem_append.2 ⟨laneArithmetic_issuesOn va,
        vectorMoves_issuesOn vc vl vr vo cv vb vv ve h mz b1 b2 lo hi msk ra vd si qe⟩ i hin
    · exact transferEngine_issuesOn x i hin
    · exact updateEngine_issuesOn d f rs pa ra rb rn nmx nr ofs i hin
    · exact maskEngine_issuesOn me ms sh di slot pp j en i hin
  obtain ⟨hch, g, hexec, hkeeps⟩ := hon
  obtain rfl : s.issue a r.2 g = t := by
    rw [hexec s] at hx
    exact Host.Outcome.next.inj hx
  refine ⟨fun hnone => State.issue_of_none hnone g, fun hissue hsame u hu o ho hou => ?_, fun hreach hret => ?_⟩
  · exact (hou ▸ Core.freeNow_le_freeFor ho).trans (Core.freeFor_le hissue hsame (Core.mem_needsOf_unit hu))
  · obtain ⟨hrest, hreg⟩ := hreach.issueKeeps hch hkeeps hret
    simp only [Core.restAtIssue, Prod.mk.injEq] at hrest
    obtain ⟨hmem, hshadow, ⟨hsregs, hpreds, hcoming, hloops, hlc⟩, hdma, ⟨hve0, hve1⟩, hfactors, hfilter, hstage⟩ := hrest
    obtain ⟨kmem, kshadow, -, -, kstage, kfactors, kfilter, kdma, -, kve0, kve1, -, kreg⟩ := s.arrived_keptBut a r.2 cyc
    have hb := s.atBundle_arrived a r.2 cyc
    obtain ⟨kpreds, -⟩ := s.arrived_seq a r.2 cyc
    exact ⟨hreach.othersKept g, hmem.trans kmem, hshadow.trans kshadow, hsregs.trans hb.sregs, hpreds.trans kpreds,
      hcoming.trans hb.coming, hdma.trans kdma, hloops, hlc, hve0.trans kve0, hve1.trans kve1, hfactors.trans kfactors,
      hfilter.trans kfilter, hstage.trans kstage,
      fun q hq hpage => (hreg q hpage).trans (kreg q (by simpa using hq))⟩

end Sys2Proof.Machine
end
